-- ==== Sys2Proof/Word.lean ====
section
/-! DEFINITION. The words and unit numbers of the Jenelm parts (spec 00_scope R12, R13; 01_architecture R28). -/

namespace Sys2Proof

abbrev Byte := BitVec 8
abbrev W16 := BitVec 16
abbrev W32 := BitVec 32
abbrev W64 := BitVec 64

/-- A TDE_TIME stamp in nanoseconds (R54, R57). -/
abbrev Stamp := Nat
/-- A function number: 0 the physical function, 1 to 64 the virtual functions (R372). -/
abbrev FnId := Fin 65
/-- A queue identifier (R248). -/
abbrev Qid := Fin 1048576
/-- A global logical pan number (R28). -/
abbrev PanId := Fin 65536
/-- A global logical core number (R28). -/
abbrev CoreId := Fin 4096
/-- A physical core number of class PHYS_CORE, die × 1,088 + cluster × 68 + core (Table 12.7). -/
abbrev PhysId := Fin 4352
/-- A cluster, die × 16 + cluster (R26). -/
abbrev ClusterId := Fin 64
/-- A link number (R327). -/
abbrev LinkId := Fin 36
/-- An HBM stack number (R9). -/
abbrev StackId := Fin 8
/-- A hardware context of a core (R301). -/
abbrev CtxId := Fin 4

end Sys2Proof
end

