-- ==== Sys2Proof/Syntax.lean ====
section
/-! DEFINITION. The commands of spec/opcode_table.json, one constructor a row, with the operands the rows' rules name.
The table gives the rows no bits. A command carries the TDE_TIME stamp `t` of its occurrence (R54), but for those
whose instant the state fixes (COLD_START, TIDE_EDGE, WORK_PHASE_START, SEAL). A row that is a register write carries
the writing function and the word written. What a device reads from outside (host memory, a packet, a pin, an
analogue reading, the verdict of a cryptographic check) arrives as operands. -/

namespace Sys2Proof

/-- The part of self-test a physical core failed (Table 13.2, FWP_ST_RESULT of Table 13.10). -/
inductive CoreTest where
  | sram | pan | conv | sweep
deriving DecidableEq, Repr

/-- What one phase of self-test found (R400, R401). -/
structure SelfTest where
  cores : List (PhysId × CoreTest) := []
  links : List LinkId := []
  hbm : List StackId := []
  ccps : List ClusterId := []
  reductions : List ClusterId := []
  routers : List ClusterId := []
  house : Bool := false
  supply : Bool := false
  /-- columns repaired by a spare (R88): pan, bed B, physical column -/
  repaired : List (PanId × Bool × Nat) := []
deriving DecidableEq, Repr

/-- A firmware image as its source gives it, from its first byte on (R403, R405), and whether the source could be read. -/
structure Image where
  readOk : Bool := true
  bytes : List Byte
deriving DecidableEq, Repr

/-- What STATUS_WORD shows after PMB_ALERT_N (R455). -/
inductive RegAlert where
  | warning | vcoreOff | pmbusFailed
deriving DecidableEq, Repr

/-- A TIDE payload (Table 11.9). -/
structure Marker where
  systemId : W64
  rootAddr : BitVec 17
  tide : W32
  delayPs : Nat
  period : Byte
  periodNext : Byte := 0
  periodEffect : W32 := 0
  sysver : Byte
  sysverNext : Byte := 0xFF
  sysverEffect : W32 := 0
deriving DecidableEq, Repr

/-- One product as the accumulate instruction issues it (R126): where in core SRAM the 1,024 int8 elements of its part of
an A8S vector lie, and the vector's scale code (R77, R153); its marks, and the schedule step (queue pair) whose vector it
computes; none for a test. `drawn` is the draw of the cluster control processor's generator (R429). -/
structure ProductCmd where
  x : Nat
  sx : Nat
  add : Bool := false
  last : Bool := false
  tile : W32 := 0
  owner : Option Qid := none
  drawn : Bool := false
deriving DecidableEq, Repr

/-- A product with its input vector and scale code as core SRAM held them at its issue (R77, R153). -/
structure Product where
  x : List Int
  sx : W16 := 0x3F80
  add : Bool := false
  last : Bool := false
  tile : W32 := 0
  owner : Option Qid := none
  drawn : Bool := false
deriving DecidableEq, Repr

/-- What a save or restore acts on (R137, Tables 4.4 and 4.5). -/
inductive SaveTarget where
  | lane (pan : PanId) (set : Fin 2)
  | slot (cluster : ClusterId) (slot : Fin 64)
deriving DecidableEq, Repr

/-- One static outlier row of a block: row, int8 weights by column and shift Δs by column; unlisted ones are 0 (R118). -/
structure StaticRow where
  row : Nat
  v : List (Nat × Int)
  ds : List (Nat × Nat) := []
deriving DecidableEq, Repr

/-- The logical content of a bed: one block of a PAN layer (R71, R72, R284, R286). Levels are listed by
row × 512 + column; an unlisted cell of a used row and column holds `level`. `delta` lists the shift Δ of
(row group × 512 + column); unlisted 0. -/
structure Block where
  layer : Nat := 0
  groups : Nat := 1
  rowsUsed : Nat := 0
  colsUsed : Nat := 0
  level : Nat := 8
  levels : List (Nat × Nat) := []
  delta : List (Nat × Nat) := []
  statics : List StaticRow := []
  threshold : Nat := 128
  candidates : List Nat := []
  spillShift : Nat := 0
deriving DecidableEq, Repr

/-- Whose content a claim writes (Table 3.7). -/
inductive ClaimKind where
  | streamed | forced | staging | scheduled | rake
deriving DecidableEq, Repr

/-- What a rake takes from outside (R102): the ROM's 32 patterns, and for each pass in the order of conversion the
departure of every physical column's analogue sum from the ideal one, as PASS_COMPLETE has it. -/
structure RakeData where
  patterns : List (List Int)
  devs : List (List Int) := []
deriving DecidableEq, Repr

/-- A shard as it stands in a package (Table 6.7): header, ciphertext and tag, or a DMA error instead (R368). -/
structure SealedShard where
  bytes : List Byte := []
  dmaError : Bool := false
deriving DecidableEq, Repr

/-- The front of a package as it stands in host memory or arrives by broadcast (Table 6.3): the 4,096 bytes of the
header, then the manifest and the key table from the places that the header names. -/
structure PackageFront where
  header : List Byte
  manifest : List Byte
  keytab : List Byte
deriving DecidableEq, Repr

/-- What a package read brings (R190). -/
inductive PackagePart where
  | front (p : PackageFront)
  | shard (index : Nat) (x : SealedShard)
deriving DecidableEq, Repr

/-- A part of a package that a broadcast carries (R194). -/
inductive BcastPart where
  | header | manifest | keytab
  | shard (index : Nat)
deriving DecidableEq, Repr

/-- How the upper word of a doorbell reaches the register (R251). -/
inductive DoorbellWrite where
  | whole (w : W64)
  | upper (w : W32)
deriving DecidableEq, Repr

/-- A 64-byte command as the device reads it at admission (Table 8.2). -/
structure SrvCmd where
  opcode : Byte
  flags : Byte := 0
  cid : W16 := 0
  deadline : W32 := 0
  dataAddr : W64 := 0
  dataLen : W32 := 0
  param : W32 := 0
  args : BitVec 320 := 0
deriving DecidableEq, Repr

/-- A function of one binary32 argument (R160, Table 5.4). -/
inductive VecFun where
  | exp | recip | rsqrt | sigmoid | sin | cos | neg | bf16
deriving DecidableEq, Repr

/-- An operation on two binary32 arrays, element by element (R143, R158). -/
inductive VecBin where
  | add | sub | mul | div | max
deriving DecidableEq, Repr

/-- An operation of the vector engine on binary32 arrays in core SRAM, named by their byte offsets (R135, R158 to R161,
R206, R229). The encoding of operations lies outside the spec (R288); these are the ones that the rules name. -/
inductive VecOp where
  /-- the final sums of a tile of a PAN layer in destination buffer `buf`, dequantised under the scale code at `sx` (R135) -/
  | dequant (layer tile buf sx dst : Nat)
  /-- the contribution of the session's adapter, if any, to the outputs of a layer, from its A8S input vector (R206) -/
  | adapter (layer x sx dst : Nat)
  /-- the A8S vector of `n` elements of the token at a position (R153) -/
  | quant (n src x sx : Nat) (pos : W32)
  /-- `n` outputs, from output `first` on, of a WIDE layer's matrix product (R158, R161) -/
  | wide (layer first n src dst : Nat)
  /-- the row of a token in the embedding (R161) -/
  | embed (layer : Nat) (token : W32) (dst : Nat)
  /-- `n` BF16 weights of a layer from weight `first` on: gains, biases, coefficients -/
  | weights (layer first n dst : Nat)
  | map (f : VecFun) (n src dst : Nat)
  | zip (f : VecBin) (n a b dst : Nat)
  /-- a sum in the fixed tree (R159) -/
  | sum (n src dst : Nat)
  /-- `n` copies of one element -/
  | fill (n src dst : Nat)
  /-- a head vector of 128 elements stored as a scale group (R157, R226) -/
  | kvWrite (layer : Nat) (isValue : Bool) (head : Nat) (pos : W32) (src : Nat)
  /-- one query head of 128 elements over the stored groups of a KV layer (R229) -/
  | attend (layer head : Nat) (pos : W32) (query dst : Nat)
  /-- `n` logits of a position, from that of token `first` on -/
  | logits (pos : W32) (first n src : Nat)
deriving DecidableEq, Repr

/-- What a step brings when it finishes (R273, R275): the draft tokens, and the operations that its programs ran, each on
the vector engine of a core. -/
structure StepRun where
  drafts : List W32 := []
  ops : List (CoreId × VecOp) := []
deriving DecidableEq, Repr

/-- MODEL record of a bench plan (Table 9.6). -/
structure ModelRec where
  kvLayers : Nat
  kvHeads : Nat
  gqa : Nat
  kvFormat : Byte
  frameTokens : Nat := 0
  audioFrontEnd : Bool := false
  codec : Bool := false
  draft : Bool := false
  vocab : Nat
  endToken : W32
  chunkTokens : Nat
  draftKvFirst : W16 := 0xFFFF
  theta : List W32 := []
deriving DecidableEq, Repr

/-- LAYERS record (Table 9.7), with the exponents that it names in SCALES (R285). -/
structure LayerRec where
  layer : Nat
  wide : Bool
  kind : Nat
  dIn : Nat
  dOut : Nat
  wformat : Byte
  rowGroups : Nat := 0
  spillShift : Nat := 0
  rank : Nat := 0
  kvLayer : W16 := 0xFFFF
  group : W32 := 0xFFFFFFFF
  scalesOff : Nat := 0
  wideProg : W32 := 0xFFFFFFFF
  /-- accumulator exponents by output column; 0 beyond the list -/
  eaccs : List Int := []
deriving DecidableEq, Repr

/-- GROUPS record with its block map (R284). `off` is its first byte in the section. -/
structure GroupRec where
  off : Nat := 0
  group : Nat
  layer : Nat
  groupCores : Nat
  clusterLocal : Bool
  /-- entry b: group core, pan and bits [31:20] of block b -/
  blocks : List (Nat × Nat)
  spare : List Nat := []
  /-- cluster slots that it uses at once (R287) -/
  slots : Nat := 0
deriving DecidableEq, Repr

/-- OUTLIERS record (R286). -/
structure OutlierRec where
  off : Nat := 0
  group : Nat
  block : Nat
  threshold : Nat
  statics : List Nat
  candidates : List Nat
deriving DecidableEq, Repr

/-- REDUCE record (R287). -/
structure ReduceRec where
  off : Nat := 0
  layer : Nat
  tile : Nat
  level : Nat
  expected : Nat
  dest : Nat
deriving DecidableEq, Repr

/-- One step of a group core's SCHEDULE (R288, R301): context, class of Table 8.8, WAIT conditions by code, sync words, and
the programs, routes and buffers that it names. -/
structure SchedStep where
  context : Nat
  cls : Nat
  conds : List Nat := []
  words : List Nat := []
  programs : List Nat := []
  routes : List Nat := []
  buffers : List Nat := []
deriving DecidableEq, Repr

/-- A region of a group core's SRAM (R288). Of the kinds the spec names SAVE. -/
structure BufRegion where
  off : Nat
  len : Nat
  save : Bool := false
  kind : Nat := 0
deriving DecidableEq, Repr

/-- SCHEDULE and BUFFERS of one group core (R288), with the first bytes of its records in the two sections. -/
structure CoreSched where
  off : Nat := 0
  bufOff : Nat := 0
  group : Nat
  groupCore : Nat
  steps : List SchedStep
  window : Nat
  initWords : List (Nat × W64) := []
  buffers : List BufRegion := []
deriving DecidableEq, Repr

/-- A route between two group cores (R288): each a group and a group core; its buffers, its bytes per step. -/
structure RouteRec where
  off : Nat := 0
  src : Nat × Nat
  dst : Nat × Nat
  buffers : List Nat := []
  bytes : Nat := 0
deriving DecidableEq, Repr

/-- What the sections GROUPS, OUTLIERS, ROUTES, REDUCE, SCHEDULE, BUFFERS and WIDE of a bench plan say: Cernako publishes
their encoding with the compiler (R288). `stepOrder` and `treeOrder` list which schedule step, and which REDUCE record,
comes before which, by their numbers in the sections; `visits` lists the PAN layers in the order in which a step runs
them (R176). -/
structure PlanParts where
  groups : List GroupRec := []
  outliers : List OutlierRec := []
  routes : List RouteRec := []
  reduces : List ReduceRec := []
  scheds : List CoreSched := []
  wide : List (List VecOp) := []
  visits : List Nat := []
  stepOrder : List (Nat × Nat) := []
  treeOrder : List (Nat × Nat) := []
deriving DecidableEq, Repr

/-- A bench plan as it stands in host memory (Table 9.1): header, section table, trailer, the bytes of each section, the
first byte that is not zero outside all of them (R282), and what the compiler's sections say. -/
structure PlanFile where
  dmaError : Bool := false
  header : List Byte
  table : List Byte
  trailer : List Byte
  sections : List (List Byte)
  stray : Option Nat := none
  parts : PlanParts := {}
deriving DecidableEq, Repr

/-- A bench plan as the device keeps it (R281 to R289). -/
structure PlanImage where
  planLen : Nat := 4096
  /-- the trailer's DIGEST (Table 13.8, block 10) -/
  digest : BitVec 512 := 0
  planId : BitVec 128
  modelId : BitVec 128
  model : ModelRec
  layers : List LayerRec
  groups : List GroupRec := []
  outliers : List OutlierRec := []
  routes : List RouteRec := []
  reduces : List ReduceRec := []
  scheds : List CoreSched := []
  wide : List (List VecOp) := []
  visits : List Nat := []
deriving DecidableEq, Repr

/-- A sync word (R311): a core-local word of a logical core, or a pool word. -/
inductive SyncRef where
  | core (c : CoreId) (i : Fin 48)
  | pool (i : Fin 65536)
deriving DecidableEq, Repr

/-- What a context's LOAD, STORE, ADD or CAS names: a word of the device, or a pool word of another device (R312, R350). -/
inductive SyncTarget where
  | word (r : SyncRef)
  | remote (dst : BitVec 17) (i : Fin 65536)
deriving DecidableEq, Repr

/-- A WAIT condition (Table 10.5). -/
inductive WaitCond where
  | eq | ne | ge
deriving DecidableEq, Repr

/-- A transfer as the schedule gives it to a hoist (R307, R308): how many bytes, where in core SRAM, whether out to HBM,
the pan whose bed content it brings, and its sync condition. -/
structure Transfer where
  bytes : Nat
  dest : Nat := 0
  out : Bool := false
  bed : Option PanId := none
  cond : Option (SyncRef × WaitCond × W64) := none
deriving DecidableEq, Repr

/-- A HELLO payload (Table 11.7, R339). -/
structure Hello where
  verMin : Nat
  verMax : Nat
  part : Nat := 1
  port : Nat
  planes : Nat := 0x3F
  mapped : Bool := false
  root : Bool := false
  assigned : Bool := false
  aligned : Bool := false
  coord : BitVec 17 := 0
  rootAddr : BitVec 17 := 0
  tide : W32 := 0
  sysver : Nat := 1
  dims : BitVec 17 := 0
  systemId : W64 := 0
  mapEpoch : W32 := 0
  keyId : BitVec 128
  nonce : BitVec 256
  peerNonce : BitVec 256
  pubN : Nat
  pubE : Nat
  signature : List Byte
deriving DecidableEq, Repr

/-- A link-state update (R347). -/
structure Lsu where
  addr : BitVec 17
  counter : Nat
  up : List LinkId
  verMin : Nat
  verMax : Nat
deriving DecidableEq, Repr

/-- Header facts of an arriving packet (Table 11.3). -/
structure PktHdr where
  ver : Nat := 1
  seq : BitVec 12 := 0
  phase : Bool := false
  dateline : Bool := false
  len : Nat := 4
  dst : BitVec 17 := 0
  src : BitVec 17 := 0
  gen : W16 := 0
  last : Bool := true
deriving DecidableEq, Repr

/-- A remote sync operation (R312, R350). -/
inductive SyncOp where
  | load | store (v : W64) | add (v : W64) | cas (e v : W64)
deriving DecidableEq, Repr

/-- What a DMA read that ended in an error was for (R368). -/
inductive DmaFor where
  | command (qid : Qid) (c : SrvCmd)
  | shard (index : Nat)
  | plan
  | image
  | mapRead
deriving DecidableEq, Repr

/-- A firmware processor (Table 1.6). -/
inductive Proc where
  | security | power | scheduler | cluster (c : ClusterId)
deriving DecidableEq, Repr

/-- A firmware processor of the house die, which emulates register blocks (Table 12.6). -/
inductive HouseProc where
  | sec | pwr | sch
deriving DecidableEq, Repr

/-- The verdict of a sweep (R434). -/
inductive SweepOutcome where
  | pass
  | digital (loser : PhysId) (third : PhysId)
  | undecided
  | panFail (pan : Fin 16) (rho : W16)
deriving DecidableEq, Repr

/-- Where an uncorrectable memory error lies (Table 14.4). -/
inductive MemWhere where
  | coreSram | sluiceStore | localSync
  | kvGroup (seq : Fin 96) (layer : Nat) (isValue : Bool) (head : Nat) (pos : W32) (blk : Fin 4)
  | hbmData (stack : StackId)
  | hbmMaster (stack : StackId) | hbmReserve (stack : StackId) | hbmRing (stack : StackId) | poolStore | houseSram
deriving DecidableEq, Repr

/-- What the read of a core's protected configuration words meets as a step starts (R441): no error, words corrected, or a
double-bit error in a word, with the value read and the expected one. -/
inductive CfgRead where
  | clean | corrected (words : Nat) | double (read expected : W64)
deriving DecidableEq, Repr

/-- The uncontained faults of Table 14.5 that no other row detects. -/
inductive Uncontained where
  | stackDown (s : StackId) | ingress | poolStore | router (c : ClusterId) | reduction (c : ClusterId)
deriving DecidableEq, Repr

/-- A packet fault at a receiver (R330, R334). -/
inductive PktFault where
  | crc | fec | seq
deriving DecidableEq, Repr

/-- The commands: one constructor a row of spec/opcode_table.json, in the table's order. -/
inductive Instr where
  | coldStart
  | vioCheck (t : Stamp) (vio : BitVec 10)
  | vcoreCheck (t : Stamp) (vcore : BitVec 10)
  | powerSequenceRetry (t : Stamp)
  | brownOut (t : Stamp)
  | houseDieResetRelease (t : Stamp) (bootSel : Bool) (smbAddr : BitVec 3)
  | identityDerived (t : Stamp) (p q : Nat) (helperOk : Bool) (certLen : Nat)
  | romSelfTestDone (t : Stamp) (st : SelfTest)
  | firmwareVerified (t : Stamp) (img : Image)
  | firmwareStarted (t : Stamp) (st : SelfTest) (controllers : Fin 5) (monitors : BitVec 5)
  | startRakeDone (t : Stamp) (failed : List PhysId)
  | perstAssert (t : Stamp)
  | perstDeassert (t : Stamp) (trip : BitVec 10)
  | hotReset (t : Stamp)
  | pcieLinkDisable (t : Stamp)
  | pcieLinkDown (t : Stamp)
  | pfFlr (t : Stamp)
  | vfFlr (t : Stamp) (fn : FnId)
  | vfEnable (t : Stamp) (numVfs : W16)
  | hardwareTrip (t : Stamp)
  | timerWake (t : Stamp)
  | linkPresenceWake (t : Stamp)
  | wakeIn (t : Stamp) (which : Fin 2)
  | pmbAlert (t : Stamp) (a : RegAlert)
  | deepSleepPowerOff (t : Stamp)
  | aonClearLatches (t : Stamp) (fn : FnId) (w : W32)
  | tideEdge
  | workPhaseStart
  | seal
  | tdeApply (t : Stamp) (fn : FnId) (w : W32)
  | tideMarker (t : Stamp) (link : LinkId) (h : PktHdr) (m : Marker)
  | productIssue (t : Stamp) (pan : PanId) (p : ProductCmd)
  /-- `dev` lists, by physical column, by how much the sum that the converter sees departs from the ideal analogue sum
  of R75, offset and gain included, in units of level × pulse; columns not listed do not depart. -/
  | passComplete (t : Stamp) (pan : PanId) (dev : List Int)
  | sluiceQReady (t : Stamp) (pan : PanId)
  | stage5Complete (t : Stamp) (pan : PanId)
  | accumulatorDrainDone (t : Stamp) (pan : PanId)
  | accSave (t : Stamp) (x : SaveTarget)
  | accRestore (t : Stamp) (x : SaveTarget)
  | captureArm (t : Stamp) (fn : FnId) (core : CoreId) (w : W32)
  | bedWriteStart (t : Stamp) (pan : PanId)
  | bedWriteComplete (t : Stamp) (pan : PanId)
  | bedWriteAbort (t : Stamp) (pan : PanId)
  | rakeStart (t : Stamp) (pan : PanId)
  | rakeComplete (t : Stamp) (pan : PanId) (d : RakeData)
  | rakeAbort (t : Stamp) (pan : PanId)
  | streamedSwap (t : Stamp) (pan : PanId)
  | refreshReq (t : Stamp) (fn : FnId) (pan : PanId) (w : W32)
  | rakeReq (t : Stamp) (fn : FnId) (pan : PanId) (w : W32)
  | loadStart (t : Stamp) (fn : FnId) (w : W32)
  | loadAbort (t : Stamp) (fn : FnId) (w : W32)
  | restage (t : Stamp) (fn : FnId) (w : W32)
  | wgtRelease (t : Stamp) (fn : FnId) (w : W32)
  | adapterUnload (t : Stamp) (fn : FnId) (w : W32)
  | shardReadDone (t : Stamp) (part : PackagePart)
  | hostTierRegister (t : Stamp) (fn : FnId) (w : W64)
  | hostTierReadDone (t : Stamp) (layer : Nat) (shards : List (List Byte))
  | broadcastAnnounce (t : Stamp)
  | bcastAnnouncement (t : Stamp) (link : LinkId) (h : PktHdr) (modelId : BitVec 128) (gen : W16)
  | bcastDataReceived (t : Stamp) (link : LinkId) (h : PktHdr) (part : BcastPart) (off : Nat) (bytes : List Byte)
  | bcastEnd (t : Stamp) (link : LinkId) (h : PktHdr)
  | bcastAbort (t : Stamp) (link : LinkId) (h : PktHdr)
  | bcastSilence (t : Stamp)
  | recvWaitExpiry (t : Stamp)
  | shardRequestWaitExpiry (t : Stamp) (index : Nat)
  | shardTimeout (t : Stamp) (index : Nat)
  /-- `host` is what a broadcaster's re-read of the shard brings -/
  | shardReqReceived (t : Stamp) (link : LinkId) (h : PktHdr) (index : Nat) (host : List Byte)
  | shardRespReceived (t : Stamp) (link : LinkId) (h : PktHdr) (index : Nat) (x : Option (List Byte))
  | holdExpiry (t : Stamp)
  | trustWrite (t : Stamp) (fn : FnId) (w : W32)
  | trustErase (t : Stamp) (fn : FnId) (w : W32)
  | kvcReserveWrite (t : Stamp) (fn : FnId) (w : W64)
  | doorbellLowerWrite (t : Stamp) (fn : FnId) (w : W32)
  | sqDoorbell (t : Stamp) (fn : FnId) (d : DoorbellWrite)
  | cqDoorbell (t : Stamp) (fn : FnId) (d : DoorbellWrite)
  | openSession (t : Stamp) (qid : Qid) (c : SrvCmd)
  | audioIn (t : Stamp) (qid : Qid) (c : SrvCmd) (positions : List W32)
  | textIn (t : Stamp) (qid : Qid) (c : SrvCmd) (tokens : List W32)
  | prompt (t : Stamp) (qid : Qid) (c : SrvCmd)
  | generate (t : Stamp) (qid : Qid) (c : SrvCmd)
  | cancel (t : Stamp) (qid : Qid) (c : SrvCmd)
  | close (t : Stamp) (qid : Qid) (c : SrvCmd)
  | setAdapter (t : Stamp) (qid : Qid) (c : SrvCmd)
  | setSampling (t : Stamp) (qid : Qid) (c : SrvCmd)
  | createQp (t : Stamp) (qid : Qid) (c : SrvCmd)
  | deleteQp (t : Stamp) (qid : Qid) (c : SrvCmd)
  | setRefMode (t : Stamp) (qid : Qid) (c : SrvCmd)
  | querySession (t : Stamp) (qid : Qid) (c : SrvCmd)
  | admqCtrlWrite (t : Stamp) (fn : FnId) (w : W32)
  | stepStart (t : Stamp) (core : CoreId) (cfg : CfgRead)
  | stepComplete (t : Stamp) (qid : Qid) (r : StepRun)
  | planLoadStart (t : Stamp) (fn : FnId) (w : W32)
  | planLoadAbort (t : Stamp) (fn : FnId) (w : W32)
  | planRelease (t : Stamp) (fn : FnId) (w : W32)
  | placementDump (t : Stamp) (fn : FnId) (w : W32)
  | planLoadDone (t : Stamp) (p : PlanFile)
  | syncLoad (t : Stamp) (core : CoreId) (ctx : CtxId) (r : SyncTarget)
  | syncStore (t : Stamp) (core : CoreId) (ctx : CtxId) (r : SyncTarget) (v : W64)
  | syncAdd (t : Stamp) (core : CoreId) (ctx : CtxId) (r : SyncTarget) (v : W64)
  | syncCas (t : Stamp) (core : CoreId) (ctx : CtxId) (r : SyncTarget) (e v : W64)
  | syncWait (t : Stamp) (core : CoreId) (ctx : CtxId) (r : SyncRef) (cond : WaitCond) (target : W64)
  | fenceLocal (t : Stamp) (core : CoreId) (ctx : CtxId)
  | fenceDevice (t : Stamp) (core : CoreId) (ctx : CtxId)
  | fenceFabric (t : Stamp) (core : CoreId) (ctx : CtxId)
  | fenceComplete (t : Stamp) (core : CoreId) (ctx : CtxId)
  | hoistTransferStart (t : Stamp) (core : CoreId) (hoist : Fin 2) (ctx : CtxId) (step : Nat) (x : Transfer)
  /-- `data` is what a transfer into core SRAM brings from HBM -/
  | hoistTransferComplete (t : Stamp) (core : CoreId) (hoist : Fin 2) (data : List Byte) (uncorrectable : Bool)
  | poolHostStore (t : Stamp) (fn : FnId) (off : Nat) (v : W64)
  | poolHostAdd (t : Stamp) (fn : FnId) (off : Nat) (v : W64)
  | shareApply (t : Stamp) (fn : FnId) (w : W32)
  | fabricWrite (t : Stamp) (core : CoreId) (ctx : CtxId) (dst : BitVec 17) (buf : Nat) (off : Nat) (bytes : List Byte)
  | fabricReduceAdd (t : Stamp) (core : CoreId) (ctx : CtxId) (dst : BitVec 17) (buf : Nat) (off : Nat) (vals : List W64)
  | presenceProbe (t : Stamp) (link : LinkId) (present : Bool)
  | detectDebounceEnd (t : Stamp) (link : LinkId)
  | presenceLoss (t : Stamp) (link : LinkId)
  | trainComplete (t : Stamp) (link : LinkId) (nonce : BitVec 256)
  | trainTimeout (t : Stamp) (link : LinkId)
  | helloReceived (t : Stamp) (link : LinkId) (h : Hello)
  | helloTimeout (t : Stamp) (link : LinkId)
  | linkCtrlReceived (t : Stamp) (link : LinkId) (ack : BitVec 12) (nak : Option (BitVec 12)) (credits : List (Fin 16 × Nat))
  | linkSilence (t : Stamp) (link : LinkId)
  | retrain (t : Stamp) (fn : FnId) (w : W32)
  | linkReset (t : Stamp) (fn : FnId) (w : W32)
  | linkAckTimer (t : Stamp) (link : LinkId)
  | lsuReceived (t : Stamp) (link : LinkId) (h : PktHdr) (u : Lsu)
  | delayExchange (t : Stamp) (link : LinkId)
  | delayReceived (t : Stamp) (link : LinkId) (h : PktHdr) (t1 t2 t3 t4 : Nat)
  | syncReqReceived (t : Stamp) (link : LinkId) (h : PktHdr) (opNum : Nat) (word : Fin 65536) (op : SyncOp)
  | syncRespReceived (t : Stamp) (link : LinkId) (h : PktHdr) (opNum : Nat) (status : Byte) (value : W64)
  | writeReceived (t : Stamp) (link : LinkId) (h : PktHdr) (opNum : Nat) (buf off : Nat) (bytes : List Byte)
  | reduceAddReceived (t : Stamp) (link : LinkId) (h : PktHdr) (opNum : Nat) (buf off : Nat) (vals : List W64)
  | ackReceived (t : Stamp) (link : LinkId) (h : PktHdr) (opNum : Nat) (status : Byte)
  | opTimeout (t : Stamp) (opNum : Nat)
  | mapLoad (t : Stamp) (fn : FnId) (w : W32) (map : List Byte)
  | fnApply (t : Stamp) (fn : FnId) (w : W32)
  | dmaError (t : Stamp) (fn : FnId) (what : DmaFor)
  | poisonedWrite (t : Stamp) (fn : FnId)
  | ideCheckFail (t : Stamp)
  | ideKm (t : Stamp) (fn : FnId) (session : Nat)
  | getVersion (t : Stamp) (fn : FnId)
  | getCapabilities (t : Stamp) (fn : FnId)
  | negotiateAlgorithms (t : Stamp) (fn : FnId)
  | getDigests (t : Stamp) (fn : FnId)
  | getCertificate (t : Stamp) (fn : FnId) (slot off len : Nat)
  | challenge (t : Stamp) (fn : FnId) (nonce : BitVec 256)
  | getMeasurements (t : Stamp) (fn : FnId) (index : Nat)
  | keyExchange (t : Stamp) (fn : FnId)
  | finish (t : Stamp) (fn : FnId) (session : Nat) (ok : Bool)
  | heartbeat (t : Stamp) (fn : FnId) (session : Nat)
  | keyUpdate (t : Stamp) (fn : FnId) (session : Nat)
  | endSession (t : Stamp) (fn : FnId) (session : Nat)
  | horId (t : Stamp) (pecOk : Bool) (args : List Byte)
  | horState (t : Stamp) (pecOk : Bool) (args : List Byte)
  | horTemp (t : Stamp) (pecOk : Bool) (args : List Byte)
  | horPower (t : Stamp) (pecOk : Bool) (args : List Byte)
  | horFaults (t : Stamp) (pecOk : Bool) (args : List Byte)
  | horCperRead (t : Stamp) (pecOk : Bool) (args : List Byte)
  | horLimits (t : Stamp) (pecOk : Bool) (args : List Byte)
  | registerWrite (t : Stamp) (fn : FnId) (bar : Fin 6) (off : Nat) (size : Nat) (v : W64)
  | fwpLoad (t : Stamp) (fn : FnId) (w : W32)
  | commitSvn (t : Stamp) (fn : FnId) (w : W32)
  | procRestartRequest (t : Stamp) (fn : FnId) (w : W32)
  | watchdogExpiry (t : Stamp) (p : Proc)
  | procRestartDone (t : Stamp) (p : Proc)
  | fwFlash (t : Stamp) (qid : Qid) (c : SrvCmd) (img : Image)
  | flashWriteDone (t : Stamp) (ok : Bool)
  | selfTest (t : Stamp) (qid : Qid) (c : SrvCmd) (st : SelfTest)
  | retireFailed (t : Stamp) (qid : Qid) (c : SrvCmd)
  | restartDevice (t : Stamp) (qid : Qid) (c : SrvCmd)
  | gradeVerdict (t : Stamp) (pan : PanId)
  | sweepRun (t : Stamp) (phys : PhysId) (partner : PhysId)
  | sweepVerdict (t : Stamp) (phys : PhysId) (o : SweepOutcome)
  | configScrub (t : Stamp) (cluster : ClusterId) (differ : List (PhysId × W64 × W64))
  | memoryError (t : Stamp) (phys : PhysId) (wh : MemWhere) (corrected : Bool)
  | uncontainedFault (t : Stamp) (k : Uncontained)
  | hltReqSweep (t : Stamp) (fn : FnId) (w : W32)
  | hltReqRetire (t : Stamp) (fn : FnId) (w : W32)
  | hltReqUnlist (t : Stamp) (fn : FnId) (w : W32)
  | hltReqInvalid (t : Stamp) (fn : FnId) (w : W32)
  | powerReqActive (t : Stamp) (fn : FnId) (w : W32)
  | powerReqIdle (t : Stamp) (fn : FnId) (w : W32)
  | powerReqStandby (t : Stamp) (fn : FnId) (w : W32)
  | powerReqDeepSleep (t : Stamp) (fn : FnId) (w : W32)
  | hbmSelfRefreshExit (t : Stamp)
  | powerExitComplete (t : Stamp)
  | brakeEvaluation (t : Stamp) (ma : List Nat)
  | vcoreTargetWrite (t : Stamp) (fn : FnId) (w : W32)
  | pwrLimitWrite (t : Stamp) (fn : FnId) (w : W32)
  | hkaConversion (t : Stamp) (code : BitVec 12)
  | hkaScanComplete (t : Stamp)
  | thermalDwellEnd (t : Stamp) (throttle : Bool)
  | orderlyStopDeadline (t : Stamp)
  | hkaSelfCal (t : Stamp) (fn : FnId) (w : W32)
  | selfCalDone (t : Stamp) (conv : List (List (BitVec 12) × List (BitVec 12)))
  | hkaRefCal (t : Stamp) (fn : FnId) (w : W32)
  | refCalDone (t : Stamp) (codes : List (BitVec 12))
  | eventRecordArrival (t : Stamp) (src : Byte)
  | evtFreeze (t : Stamp) (fn : FnId) (w : W32)
  | evtClear (t : Stamp) (fn : FnId) (w : W32)
  | wfgReq (t : Stamp) (fn : FnId) (w : W32)
  | wfgWriteDone (t : Stamp)
  | bbxClear (t : Stamp) (fn : FnId) (w : W32)
  | bbxSnap (t : Stamp) (fn : FnId) (w : W32)
  | snapshotDone (t : Stamp)
  | startupPublish (t : Stamp)
  | registerRead (t : Stamp) (fn : FnId) (bar : Fin 6) (off : Nat) (size : Nat)
  | packetCrcFail (t : Stamp) (link : LinkId) (k : PktFault)
  | reservedTypePacket (t : Stamp) (link : LinkId) (h : PktHdr) (type : Nat)
  | transitPacket (t : Stamp) (link : LinkId) (h : PktHdr) (type opNum : Nat) (args : List Nat) (final : Option (BitVec 17))
  | doeDiscovery (t : Stamp) (fn : FnId) (index : Nat)
  | unknownOpcode (t : Stamp) (qid : Qid) (c : SrvCmd)
  | horUnknown (t : Stamp) (code : Byte) (pecOk : Bool) (args : List Byte)
deriving DecidableEq, Repr

end Sys2Proof
end

