-- ==== Sys2Proof/Decode.lean ====
section
/-! DEFINITION. The command a word spells: spec/opcode_table.json gives no row any bits. -/

namespace Sys2Proof

/-- No word spells a command: the table gives the rows no bits. -/
def decodeTableWord (_nbits _w : Nat) : Option Instr := none

end Sys2Proof
end

