-- ==== Sys2Proof/Config.lean ====
section
/-! DEFINITION. What a part fixes (Tables 0.1, 0.2, 1.5, 15.2, 17.8) and the free values: constants with no body, so
that no proof can lean on one. -/

namespace Sys2Proof

/-- The three parts of Table 0.1 (R1). -/
inductive Part where
  | jn8 | jn8s | jn4
deriving DecidableEq, Repr

/-- HIF_CAPS.PART (Table 12.9). -/
def Part.code : Part → Nat
  | .jn8 => 1 | .jn4 => 2 | .jn8s => 3
/-- The physical function's Device ID (Table 12.2). -/
def Part.deviceId : Part → Nat
  | .jn8 => 0x0801 | .jn8s => 0x0803 | .jn4 => 0x0401
/-- Compute stacks fitted (Table 0.1). -/
def Part.dies : Part → Nat
  | .jn4 => 2 | _ => 4
/-- Link dies fitted (Table 0.1). -/
def Part.linkDies : Part → Nat
  | .jn8 => 2 | .jn8s => 0 | .jn4 => 1
/-- HBM4 stacks fitted (Table 0.1). -/
def Part.stacks (p : Part) : Nat := 2 * p.dies
/-- Logical cores (Table 0.1). -/
def Part.cores (p : Part) : Nat := 1024 * p.dies
/-- Logical pans (Table 0.1). -/
def Part.pans (p : Part) : Nat := 16384 * p.dies
/-- Clusters (R26, R27). -/
def Part.clusters (p : Part) : Nat := 16 * p.dies
/-- Physical cores (Table 1.5). -/
def Part.physCores (p : Part) : Nat := 1088 * p.dies
/-- Links fitted: 18 a link die (Table 1.1). -/
def Part.links (p : Part) : Nat := 18 * p.linkDies
/-- Fabric planes fitted (Table 0.1). -/
def Part.planes (p : Part) : Nat := 3 * p.linkDies
/-- DIE_PRESENT, HBM_PRESENT, LINKDIE_PRESENT and PLANE_PRESENT in HIF_PRESENCE (Tables 0.2, 12.9). -/
def Part.presence (p : Part) : Nat :=
  (2 ^ p.dies - 1) + (2 ^ p.stacks - 1) * 16 + (2 ^ p.linkDies - 1) * 4096 + (2 ^ p.planes - 1) * 16384
/-- HIF_CAPS (Table 12.9). -/
def Part.caps (p : Part) : Nat :=
  p.code + 16 + 32 + (if p.linkDies = 0 then 0 else 64) + 128 + 64 * 256
/-- TDP in W (Table 15.2). -/
def Part.tdp : Part → Nat
  | .jn8 => 1500 | .jn8s => 1300 | .jn4 => 780
/-- Package limit for up to 10 ms in W (Table 15.2). -/
def Part.limit10 : Part → Nat
  | .jn8 => 1800 | .jn8s => 1560 | .jn4 => 940
/-- Continuous VCORE current limit in mA (Table 15.2). -/
def Part.iCont : Part → Nat
  | .jn4 => 800000 | _ => 1600000
/-- VCORE current limit for up to 10 ms in mA (Table 15.2). -/
def Part.iMax10 : Part → Nat
  | .jn4 => 1000000 | _ => 2000000
/-- Maximum current in mA of monitored rail `k`: VARR, VDDQ, VPP, VLINK, VIO (Table 17.3). -/
def Part.railMax (p : Part) (k : Nat) : Nat :=
  let m := [40000, 400000, 8000, 320000, 2000].getD k 0
  if p = .jn4 ∧ k < 4 then m / 2 else m
/-- HBM capacity in bytes: 96 GiB a stack (Table 1.1). -/
def Part.hbmBytes (p : Part) : Nat := p.stacks * (96 * 2 ^ 30)

/-- A free number: one of the values the spec leaves open, applied to the counter State.freeCtr (log 4). -/
opaque Config.freeNat : Nat → Nat
/-- The index of a free value of one kind that belongs to a thing of its own: no two kinds and things share one, nor
any of them one of the counter's below 2^64. -/
def Config.freeKey (kind n : Nat) : Nat := 2 ^ 64 + n * 256 + kind
/-- A free 64-bit word (log 4). -/
opaque Config.freeWord : Nat → W64
/-- A free 128-bit value (log 4). -/
opaque Config.free128 : Nat → BitVec 128
/-- A free 512-bit digest (log 4). -/
opaque Config.free512 : Nat → BitVec 512
/-- SHA-512 as the attestation blocks use it, of a value named by block index and content (log 40). -/
opaque Config.digest : Nat → List Nat → BitVec 512
/-- The sensor transfer that turns the corrected word of a thermal channel into 0.0625 °C (R476, log 41). -/
opaque Config.sensor : Nat → Int → Int

end Sys2Proof
end

