-- ==== Sys2Proof/Machine/Crypto.lean ====
section
/-! DEFINITION. The published algorithms that the spec names: SHA-512 (FIPS 180-4), RSA with PSS and OAEP (PKCS #1), and
AES-256-GCM (FIPS 197, SP 800-38D) (R186, R187, R281, R339, R403, R404, R416, R421). Each is as its standard gives it: the
spec only names it (PRESUMED, log 124). Byte strings are lists of bytes, first byte first. -/

namespace Sys2Proof.Machine

/-! ### Byte strings -/

/-- `n` bytes of a number, big-endian. -/
def beBytes (n v : Nat) : List Byte :=
  match n with
  | 0 => []
  | n + 1 => BitVec.ofNat 8 (v / 256 ^ n) :: beBytes n v
/-- The number that bytes spell, big-endian. -/
def beNat (l : List Byte) : Nat := l.foldl (fun a b => a * 256 + b.toNat) 0
/-- `n` bytes of a number, little-endian (R13). -/
def leBytes (n v : Nat) : List Byte :=
  match n with
  | 0 => []
  | n + 1 => BitVec.ofNat 8 v :: leBytes n (v / 256)

/-- The number that bytes spell, little-endian (R13). -/
def leNat (l : List Byte) : Nat :=
  match l with
  | [] => 0
  | b :: l => b.toNat + 256 * leNat l

/-- Fields of `k` bytes one after another. -/
def leFields (k : Nat) (l : List Nat) : List Byte := l.flatMap (leBytes k)

/-- `n` fields of `k` bytes each. -/
def leSplit (k n : Nat) (l : List Byte) : List Nat :=
  match n with
  | 0 => []
  | n + 1 => leNat (l.take k) :: leSplit k n (l.drop k)

/-- Two strings combined by exclusive or. -/
def xorBytes (a b : List Byte) : List Byte := (a.zip b).map (fun e => e.1 ^^^ e.2)
/-- A string cut into pieces of `k` bytes, at most `fuel` of them. -/
def pieces (k fuel : Nat) (l : List Byte) : List (List Byte) :=
  match fuel with
  | 0 => []
  | fuel + 1 => if l.isEmpty then [] else l.take k :: pieces k fuel (l.drop k)

/-! ### SHA-512 -/

/-- The round constants. -/
def shaK : List W64 :=
  [0x428A2F98D728AE22, 0x7137449123EF65CD, 0xB5C0FBCFEC4D3B2F, 0xE9B5DBA58189DBBC, 0x3956C25BF348B538] ++
  [0x59F111F1B605D019, 0x923F82A4AF194F9B, 0xAB1C5ED5DA6D8118, 0xD807AA98A3030242, 0x12835B0145706FBE] ++
  [0x243185BE4EE4B28C, 0x550C7DC3D5FFB4E2, 0x72BE5D74F27B896F, 0x80DEB1FE3B1696B1, 0x9BDC06A725C71235] ++
  [0xC19BF174CF692694, 0xE49B69C19EF14AD2, 0xEFBE4786384F25E3, 0x0FC19DC68B8CD5B5, 0x240CA1CC77AC9C65] ++
  [0x2DE92C6F592B0275, 0x4A7484AA6EA6E483, 0x5CB0A9DCBD41FBD4, 0x76F988DA831153B5, 0x983E5152EE66DFAB] ++
  [0xA831C66D2DB43210, 0xB00327C898FB213F, 0xBF597FC7BEEF0EE4, 0xC6E00BF33DA88FC2, 0xD5A79147930AA725] ++
  [0x06CA6351E003826F, 0x142929670A0E6E70, 0x27B70A8546D22FFC, 0x2E1B21385C26C926, 0x4D2C6DFC5AC42AED] ++
  [0x53380D139D95B3DF, 0x650A73548BAF63DE, 0x766A0ABB3C77B2A8, 0x81C2C92E47EDAEE6, 0x92722C851482353B] ++
  [0xA2BFE8A14CF10364, 0xA81A664BBC423001, 0xC24B8B70D0F89791, 0xC76C51A30654BE30, 0xD192E819D6EF5218] ++
  [0xD69906245565A910, 0xF40E35855771202A, 0x106AA07032BBD1B8, 0x19A4C116B8D2D0C8, 0x1E376C085141AB53] ++
  [0x2748774CDF8EEB99, 0x34B0BCB5E19B48A8, 0x391C0CB3C5C95A63, 0x4ED8AA4AE3418ACB, 0x5B9CCA4F7763E373] ++
  [0x682E6FF3D6B2B8A3, 0x748F82EE5DEFB2FC, 0x78A5636F43172F60, 0x84C87814A1F0AB72, 0x8CC702081A6439EC] ++
  [0x90BEFFFA23631E28, 0xA4506CEBDE82BDE9, 0xBEF9A3F7B2C67915, 0xC67178F2E372532B, 0xCA273ECEEA26619C] ++
  [0xD186B8C721C0C207, 0xEADA7DD6CDE0EB1E, 0xF57D4F7FEE6ED178, 0x06F067AA72176FBA, 0x0A637DC5A2C898A6] ++
  [0x113F9804BEF90DAE, 0x1B710B35131C471B, 0x28DB77F523047D84, 0x32CAAB7B40C72493, 0x3C9EBE0A15C9BEBC] ++
  [0x431D67C49C100D4C, 0x4CC5D4BECB3E42B6, 0x597F299CFC657E2A, 0x5FCB6FAB3AD6FAEC, 0x6C44198C4A475817]

/-- The eight working words. -/
structure Sha where
  a : W64
  b : W64
  c : W64
  d : W64
  e : W64
  f : W64
  g : W64
  h : W64
deriving DecidableEq, Repr

/-- The initial hash value. -/
def shaInit : Sha :=
  ⟨0x6A09E667F3BCC908, 0xBB67AE8584CAA73B, 0x3C6EF372FE94F82B, 0xA54FF53A5F1D36F1,
   0x510E527FADE682D1, 0x9B05688C2B3E6C1F, 0x1F83D9ABFB41BD6B, 0x5BE0CD19137E2179⟩

/-- One word more of the message schedule; `l` holds the words so far, newest first. -/
def shaNext (l : List W64) : W64 :=
  let x := l.getD 1 0
  let y := l.getD 14 0
  (x.rotateRight 19 ^^^ x.rotateRight 61 ^^^ (x >>> 6)) + l.getD 6 0 + (y.rotateRight 1 ^^^ y.rotateRight 8 ^^^ (y >>> 7)) + l.getD 15 0
/-- `n` words more. -/
def shaSchedule (n : Nat) (l : List W64) : List W64 :=
  match n with
  | 0 => l
  | n + 1 => shaSchedule n (shaNext l :: l)

/-- One round. -/
def Sha.round (x : Sha) (k w : W64) : Sha :=
  let t1 := x.h + (x.e.rotateRight 14 ^^^ x.e.rotateRight 18 ^^^ x.e.rotateRight 41) + ((x.e &&& x.f) ^^^ (~~~x.e &&& x.g)) + k + w
  let t2 := (x.a.rotateRight 28 ^^^ x.a.rotateRight 34 ^^^ x.a.rotateRight 39) + ((x.a &&& x.b) ^^^ (x.a &&& x.c) ^^^ (x.b &&& x.c))
  ⟨t1 + t2, x.a, x.b, x.c, x.d + t1, x.e, x.f, x.g⟩

/-- One block of 128 bytes. -/
def Sha.block (x : Sha) (b : List Byte) : Sha :=
  let w := (pieces 8 16 b).map (fun p => (BitVec.ofNat 64 (beNat p) : W64))
  let y := (shaK.zip (shaSchedule 64 w.reverse).reverse).foldl (fun y e => y.round e.1 e.2) x
  ⟨x.a + y.a, x.b + y.b, x.c + y.c, x.d + y.d, x.e + y.e, x.f + y.f, x.g + y.g, x.h + y.h⟩

/-- The SHA-512 digest, its first byte first. -/
def sha512 (m : List Byte) : List Byte :=
  let n := m.length
  let p := m ++ [0x80] ++ List.replicate ((239 - n % 128) % 128) 0 ++ beBytes 16 (8 * n)
  let x := (pieces 128 (n / 128 + 2) p).foldl Sha.block shaInit
  [x.a, x.b, x.c, x.d, x.e, x.f, x.g, x.h].flatMap (fun w => beBytes 8 w.toNat)

/-! ### RSA -/

/-- `b` to the power `e` modulo `n`, for an exponent below 2^`fuel`. -/
def powMod (n : Nat) (fuel e b : Nat) : Nat :=
  match fuel with
  | 0 => 1 % n
  | fuel + 1 =>
    let r := powMod n fuel (e / 2) (b * b % n)
    if e % 2 == 1 then r * b % n else r

/-- A public key: modulus and exponent. -/
structure PubKey where
  n : Nat
  e : Nat
deriving DecidableEq, Repr

/-- MGF1 with SHA-512. -/
def mgf1 (seed : List Byte) (len : Nat) : List Byte :=
  ((List.range (len / 64 + 1)).flatMap (fun i => sha512 (seed ++ beBytes 4 i))).take len

/-- RSASSA-PSS with a 4,096-bit key, SHA-512, MGF1 with SHA-512 and a 64-byte salt: the signature of `m` verifies. -/
def pssVerify (k : PubKey) (m sig : List Byte) : Bool :=
  let s := beNat sig
  let em := beBytes 512 (powMod k.n (k.e.log2 + 1) k.e s)
  let db := em.take 447
  let h := (em.drop 447).take 64
  let x := xorBytes db (mgf1 h 447)
  let x := (x.headD 0 &&& 0x7F) :: x.tail
  let salt := x.drop 383
  decide (2 ^ 4095 ≤ k.n) && decide (k.n < 2 ^ 4096) && sig.length == 512 && decide (s < k.n) && em.getLast? == some 0xBC &&
  (db.headD 0).toNat / 128 == 0 && x.take 383 == List.replicate 382 0 ++ [1] &&
  h == sha512 (List.replicate 8 0 ++ sha512 m ++ salt)

/-- An RSASSA-PSS signature of `m` under the private exponent `d`, with the salt given. -/
def pssSign (n d : Nat) (salt m : List Byte) : List Byte :=
  let h := sha512 (List.replicate 8 0 ++ sha512 m ++ salt)
  let x := xorBytes (List.replicate 382 0 ++ [1] ++ salt) (mgf1 h 447)
  beBytes 512 (powMod n 4096 d (beNat ((x.headD 0 &&& 0x7F) :: x.tail ++ h ++ [0xBC])))

/-- RSAES-OAEP with SHA-512 and MGF1 with SHA-512: the message under the private exponent `d`, where it opens. -/
def oaepOpen (n d : Nat) (label c : List Byte) : Option (List Byte) :=
  let em := beBytes 512 (powMod n 4096 d (beNat c))
  let seed := xorBytes ((em.drop 1).take 64) (mgf1 (em.drop 65) 64)
  let db := xorBytes (em.drop 65) (mgf1 seed 447)
  let rest := (db.drop 64).dropWhile (fun b => b == 0)
  if c.length == 512 && decide (beNat c < n) && em.headD 1 == 0 && db.take 64 == sha512 label && rest.headD 0 == 1 then some rest.tail
  else none

/-! ### AES-256-GCM -/

/-- The S-box, byte `i` at bits 8`i`. -/
def sboxBits : Nat :=
  0x16BB54B00F2D99416842E6BF0D89A18CDF2855CEE9871E9B948ED9691198F8E19E1DC186B95735610EF6034866B53E708A8BBD4B1F74DDE8C6B4A61C2E2578BA08AE7A65EAF4566CA94ED58D6D37C8E779E4959162ACD3C25C2406490A3A32E0DB0B5EDE14B8EE4688902A22DC4F816073195D643D7EA7C41744975FEC130CCDD2F3FF1021DAB6BCF5389D928F40A351A89F3C507F02F94585334D43FBAAEFD0CF584C4A39BECB6A5BB1FC20ED00D153842FE329B3D63B52A05A6E1B1A2C830975B227EBE28012079A059618C323C7041531D871F1E5A534CCF73F362693FDB7C072A49CAFA2D4ADF04759FA7DC982CA76ABD7FE2B670130C56F6BF27B777C63
/-- A byte through the S-box. -/
def sbox (b : Byte) : Byte := BitVec.ofNat 8 (sboxBits >>> (8 * b.toNat))
/-- Multiplication by x in GF(2^8). -/
def xtime (b : Byte) : Byte := (b <<< 1) ^^^ (if b.getLsbD 7 then 0x1B else 0)

/-- The next word of the key schedule, number `i`; `l` holds the words so far, newest first. -/
def aesNext (i : Nat) (l : List (List Byte)) : List Byte :=
  let t := l.headD []
  let t := if i % 8 == 0 then (t.drop 1 ++ t.take 1).map sbox else if i % 8 == 4 then t.map sbox else t
  let t := if i % 8 == 0 then (t.headD 0 ^^^ BitVec.ofNat 8 (2 ^ (i / 8 - 1))) :: t.tail else t
  xorBytes (l.getD 7 []) t
/-- `n` words more, from number `i` on. -/
def aesSchedule (n i : Nat) (l : List (List Byte)) : List (List Byte) :=
  match n with
  | 0 => l
  | n + 1 => aesSchedule n (i + 1) (aesNext i l :: l)
/-- The 15 round keys of a 256-bit key. -/
def aesKeys (key : List Byte) : List (List Byte) :=
  pieces 16 15 (aesSchedule 52 8 (pieces 4 8 key).reverse).reverse.flatten

/-- SubBytes and ShiftRows. -/
def aesSubShift (s : List Byte) : List Byte := (List.range 16).map (fun i => sbox (s.getD ((i + 4 * (i % 4)) % 16) 0))
/-- MixColumns of one column. -/
def aesMix (c : List Byte) : List Byte :=
  let a := fun i => c.getD (i % 4) 0
  (List.range 4).map (fun i => xtime (a i) ^^^ xtime (a (i + 1)) ^^^ a (i + 1) ^^^ a (i + 2) ^^^ a (i + 3))
/-- The rounds after the first key addition. -/
def aesRounds (ks : List (List Byte)) (s : List Byte) : List Byte :=
  match ks with
  | [] => s
  | [k] => xorBytes (aesSubShift s) k
  | k :: ks => aesRounds ks (xorBytes ((pieces 4 4 (aesSubShift s)).flatMap aesMix) k)
/-- One block under the round keys. -/
def aesBlock (ks : List (List Byte)) (b : List Byte) : List Byte := aesRounds ks.tail (xorBytes b (ks.headD []))

/-- Multiplication in GF(2^128), the first bit of a block its most significant one: `fuel` bits of `x` from bit `fuel` − 1
down. -/
def gfMul (fuel : Nat) (x v z : BitVec 128) : BitVec 128 :=
  match fuel with
  | 0 => z
  | fuel + 1 =>
    gfMul fuel x ((v >>> 1) ^^^ (if v.getLsbD 0 then 0xE1000000000000000000000000000000 else 0)) (if x.getLsbD fuel then z ^^^ v else z)
/-- GHASH of blocks under `h`. -/
def ghash (h : BitVec 128) (l : List (List Byte)) : BitVec 128 :=
  l.foldl (fun y b => gfMul 128 (y ^^^ BitVec.ofNat 128 (beNat b)) h 0) 0
/-- A string padded with zeros to whole blocks. -/
def blocks16 (l : List Byte) : List (List Byte) := pieces 16 (l.length / 16 + 1) (l ++ List.replicate ((16 - l.length % 16) % 16) 0)
/-- The counter stream from counter `c` on, over a string. -/
def ctrStream (ks : List (List Byte)) (nonce : List Byte) (c : Nat) (l : List (List Byte)) : List Byte :=
  match l with
  | [] => []
  | b :: l => xorBytes b (aesBlock ks (nonce ++ beBytes 4 c)) ++ ctrStream ks nonce (c + 1) l

/-- The authentication tag of additional data and a ciphertext. -/
def gcmTag (ks : List (List Byte)) (nonce aad cipher : List Byte) : List Byte :=
  let h := BitVec.ofNat 128 (beNat (aesBlock ks (List.replicate 16 0)))
  let y := ghash h (blocks16 aad ++ blocks16 cipher ++ [beBytes 8 (8 * aad.length) ++ beBytes 8 (8 * cipher.length)])
  xorBytes (beBytes 16 y.toNat) (aesBlock ks (nonce ++ [0, 0, 0, 1]))

/-- AES-256-GCM with a 96-bit nonce: the clear content, where the tag is right. -/
def gcmOpen (key nonce aad cipher tag : List Byte) : Option (List Byte) :=
  let ks := aesKeys key
  if gcmTag ks nonce aad cipher == tag then some (ctrStream ks nonce 2 (pieces 16 (cipher.length / 16 + 1) cipher)) else none

end Sys2Proof.Machine
end

