-- ==== Sys2Proof/Machine/Store.lean ====
section
/-! DEFINITION. Sparse stores: a total map from numbers to values, held as the list of the entries that differ from
the value an unlisted number has. Canonical form: numbers strictly ascending, no entry equal to its default. -/

namespace Sys2Proof.Machine

/-- `x` before the first element that it comes before or equals. -/
def insertBy {α : Type} (le : α → α → Bool) (x : α) (l : List α) : List α :=
  match l with
  | [] => [x]
  | y :: l => if le x y then x :: y :: l else y :: insertBy le x l

/-- A list in order, stable. -/
def sortBy {α : Type} (le : α → α → Bool) (l : List α) : List α :=
  match l with
  | [] => []
  | x :: l => insertBy le x (sortBy le l)

/-- Entries of a sparse store. -/
abbrev Cells (α : Type) := List (Nat × α)

/-- The value at `k`; `d` gives what an unlisted number holds. -/
def Cells.get {α : Type} (d : Nat → α) (c : Cells α) (k : Nat) : α :=
  match c with
  | [] => d k
  | (j, v) :: c => if j = k then v else Cells.get d c k

/-- `c` without an entry at `k`. -/
def Cells.erase {α : Type} (k : Nat) (c : Cells α) : Cells α :=
  match c with
  | [] => []
  | (j, v) :: c => if j = k then Cells.erase k c else (j, v) :: Cells.erase k c

/-- `c` with `(k, v)` before the first larger number. -/
def Cells.ins {α : Type} (k : Nat) (v : α) (c : Cells α) : Cells α :=
  match c with
  | [] => [(k, v)]
  | (j, w) :: c => if k < j then (k, v) :: (j, w) :: c else (j, w) :: Cells.ins k v c

/-- `c` with `v` at `k`. -/
def Cells.set {α : Type} [DecidableEq α] (d : Nat → α) (c : Cells α) (k : Nat) (v : α) : Cells α :=
  if v = d k then Cells.erase k c else Cells.ins k v (Cells.erase k c)

/-- `c` with `f` applied to the value at `k`. -/
def Cells.upd {α : Type} [DecidableEq α] (d : Nat → α) (c : Cells α) (k : Nat) (f : α → α) : Cells α :=
  Cells.set d c k (f (Cells.get d c k))

/-- `f` applied to every listed value; for an `f` that keeps the defaults this is `f` applied everywhere. -/
def Cells.mapAll {α : Type} [DecidableEq α] (d : Nat → α) (f : Nat → α → α) (c : Cells α) : Cells α :=
  match c with
  | [] => []
  | (j, v) :: c => if f j v = d j then Cells.mapAll d f c else (j, f j v) :: Cells.mapAll d f c

/-- The entries of a run of values from number `k` on. -/
def Cells.run {α : Type} [DecidableEq α] (d : Nat → α) (k : Nat) (l : List α) : Cells α :=
  match l with
  | [] => []
  | v :: l => if v = d k then Cells.run d (k + 1) l else (k, v) :: Cells.run d (k + 1) l

/-- `c` with a run of values from number `k` on. -/
def Cells.write {α : Type} [DecidableEq α] (d : Nat → α) (c : Cells α) (k : Nat) (l : List α) : Cells α :=
  c.filter (fun e => decide (e.1 < k)) ++ (Cells.run d k l ++ c.filter (fun e => decide (k + l.length ≤ e.1)))

/-- `c` with the `n` numbers from `k` on at their defaults. -/
def Cells.clear {α : Type} (c : Cells α) (k n : Nat) : Cells α := c.filter (fun e => decide (e.1 < k) || decide (k + n ≤ e.1))

/-- The `n` values from number `k` on. -/
def Cells.read {α : Type} (d : Nat → α) (c : Cells α) (k n : Nat) : List α :=
  let near := c.filter (fun e => decide (k ≤ e.1) && decide (e.1 < k + n))
  (List.range n).map (fun i => Cells.get d near (k + i))

/-- Every number in `c` is larger than `lo`, strictly ascending, and no entry holds its default. -/
def Cells.wfFrom {α : Type} [DecidableEq α] (d : Nat → α) (lo : Option Nat) (c : Cells α) : Bool :=
  match c with
  | [] => true
  | (j, v) :: c =>
    (match lo with | none => true | some l => decide (l < j)) && decide (v ≠ d j) && Cells.wfFrom d (some j) c

/-- The canonical form. -/
def Cells.wf {α : Type} [DecidableEq α] (d : Nat → α) (c : Cells α) : Bool := Cells.wfFrom d none c

/-- A store of units of one kind: every unit not listed is as `dflt`. -/
structure Pool (α : Type) where
  dflt : α
  cells : Cells α := []
deriving DecidableEq, Repr

/-- Unit `k`. -/
def Pool.get {α : Type} (p : Pool α) (k : Nat) : α := Cells.get (fun _ => p.dflt) p.cells k
/-- Unit `k` replaced. -/
def Pool.set {α : Type} [DecidableEq α] (p : Pool α) (k : Nat) (v : α) : Pool α :=
  { p with cells := Cells.set (fun _ => p.dflt) p.cells k v }
/-- Unit `k` changed by `f`. -/
def Pool.upd {α : Type} [DecidableEq α] (p : Pool α) (k : Nat) (f : α → α) : Pool α := p.set k (f (p.get k))
/-- Every unit changed by `f`. -/
def Pool.map {α : Type} [DecidableEq α] (p : Pool α) (f : α → α) : Pool α :=
  ⟨f p.dflt, Cells.mapAll (fun _ => f p.dflt) (fun _ => f) p.cells⟩
/-- The canonical form. -/
def Pool.wf {α : Type} [DecidableEq α] (p : Pool α) : Bool := Cells.wf (fun _ => p.dflt) p.cells
/-- Whether a unit that is not as the default, or the default itself, satisfies `q`. -/
def Pool.any {α : Type} (p : Pool α) (q : α → Bool) : Bool := q p.dflt || p.cells.any (fun e => q e.2)

end Sys2Proof.Machine
end

