-- ==== Sys2Proof/Machine/Package.lean ====
section
/-! DEFINITION. Weight packages as bytes, and the checks of Table 6.9 that need nothing but them (06_weights R184 to R187,
R190; Tables 6.3 to 6.8). -/

namespace Sys2Proof.Machine

/-- The number in the `n` bytes of a string from `off` on (R13). -/
def field (l : List Byte) (off n : Nat) : Nat := leNat ((l.drop off).take n)
/-- The `n` bytes from `off` on are zero. -/
def zeroAt (l : List Byte) (off n : Nat) : Bool := ((l.drop off).take n).all (fun b => b == 0)
/-- The SHA-512 digest of a string as the number that its bytes spell in registers and records. -/
def digestOf (l : List Byte) : BitVec 512 := BitVec.ofNat 512 (leNat (sha512 l))
/-- Regions of bytes (first, length) do not overlap. -/
def disjoint (l : List (Nat × Nat)) : Bool :=
  let s := sortBy (fun (a b : Nat × Nat) => decide (a.1 ≤ b.1)) l
  (s.zip s.tail).all (fun e => decide (e.1.1 + e.1.2 ≤ e.2.1))

/-- Manifest entry of a shard (Table 6.6). -/
structure ShardEntry where
  offset : Nat := 0
  clearLen : Nat
  layer : Nat
  format : Nat
  role : Nat
  first : Nat := 0
  zero : Bool := true
  digest : BitVec 512 := 0
deriving DecidableEq, Repr

/-- What the device keeps of a package that it loads: the manifest's fields (Table 6.5), its entries, its SHA-512
(Table 13.8, block 11). -/
structure Package where
  modelId : BitVec 128 := 0
  gen : W16 := 0
  base : BitVec 128 := 0
  salt : List Byte := []
  rank : Nat := 0
  shards : List ShardEntry := []
  manifestSha : BitVec 512 := 0
deriving DecidableEq, Repr

/-- Entry `i` of a manifest (Table 6.6). -/
def shardEntry (man : List Byte) (i : Nat) : ShardEntry :=
  let e := (man.drop (256 + 96 * i)).take 96
  { offset := field e 0 8, clearLen := field e 8 8, layer := field e 16 2, format := field e 18 1, role := field e 19 1
    first := field e 20 4, zero := zeroAt e 24 8, digest := BitVec.ofNat 512 (field e 32 64) }

/-- The entries of a manifest, as many as its length holds. -/
def manifestShards (man : List Byte) : List ShardEntry := (List.range ((man.length - 256) / 96)).map (shardEntry man)
/-- A manifest's fields (Table 6.5). -/
def manifestOf (man : List Byte) : Package :=
  { modelId := BitVec.ofNat 128 (field man 8 16), gen := BitVec.ofNat 16 (field man 4 2), base := BitVec.ofNat 128 (field man 24 16)
    salt := (man.drop 40).take 4, rank := field man 60 2, shards := manifestShards man, manifestSha := digestOf man }

/-- The regions of a package (Table 6.3): first byte and length. -/
def packageRegions (x : PackageFront) : List (Nat × Nat) :=
  (0, 4096) :: (field x.header 8 8, field x.header 16 4) :: (field x.header 24 8, 528 * field x.header 20 4) ::
    (manifestShards x.manifest).map (fun e => (e.offset, 48 + e.clearLen))

/-- Step 1 of Table 6.9 but for TARGET, MODE and WGT_LOAD_LEN: MAGIC, VERSION, zero bytes, offsets and lengths inside
PKG_LEN, regions that do not overlap (Tables 6.3, 6.4). -/
def headerOk (x : PackageFront) : Bool :=
  let h := x.header
  let len := field h 16 4
  h.length == 4096 && field h 0 4 == 0x50574E4A && field h 4 2 == 1 &&
  zeroAt h 7 1 && zeroAt h 48 16 && zeroAt h 580 12 && zeroAt h 1104 2992 &&
  field h 8 8 % 4096 == 0 && decide (4096 ≤ field h 8 8) && decide (352 ≤ len) && (len - 256) % 96 == 0 && decide ((len - 256) / 96 ≤ 65536) &&
  decide (1 ≤ field h 20 4) && decide (field h 20 4 ≤ 131072) && field h 24 8 % 4096 == 0 && field h 32 8 % 4096 == 0 &&
  x.manifest.length == len && x.keytab.length == 528 * field h 20 4 &&
  (manifestShards x.manifest).all (fun e => e.offset % 4096 == 0 && decide (field h 32 8 ≤ e.offset)) &&
  (packageRegions x).all (fun r => decide (r.1 + r.2 ≤ field h 40 8)) && disjoint (packageRegions x)

/-- KIND of the header (Table 6.4). -/
def packageKind (x : PackageFront) : Nat := field x.header 6 1
/-- PKG_LEN. -/
def packageLen (x : PackageFront) : Nat := field x.header 40 8
/-- The publisher's key, and its digest for the trust list: PUB_N followed by PUB_E (R186). -/
def publisher (x : PackageFront) : PubKey := ⟨beNat ((x.header.drop 64).take 512), field x.header 576 4⟩
def publisherDigest (x : PackageFront) : BitVec 512 := digestOf ((x.header.drop 64).take 516)
/-- Step 3 of Table 6.9: the signature over the manifest (R186). -/
def frontSigned (x : PackageFront) : Bool := pssVerify (publisher x) x.manifest ((x.header.drop 592).take 512)

/-- Step 4 of Table 6.9 but for the other slots: the manifest's fields within Tables 6.5 and 6.6. -/
def manifestOk (x : PackageFront) : Bool :=
  let m := x.manifest
  let l := manifestShards m
  let model := packageKind x == 1
  field m 0 4 == 1 && field m 6 1 == packageKind x && zeroAt m 7 1 && (!model || zeroAt m 24 16) &&
  field m 44 4 == l.length && decide (1 ≤ l.length) && decide (l.length ≤ 65536) &&
  field m 48 8 == (l.map (·.clearLen)).sum && field m 56 4 == ((l.map (·.layer)).eraseDups).length &&
  (if model then field m 60 2 == 0 else decide (1 ≤ field m 60 2) && decide (field m 60 2 ≤ 64)) && zeroAt m 62 194 &&
  l.all (fun e => decide (1 ≤ e.clearLen) && decide (e.clearLen ≤ 67108864) && decide (e.role ≤ 4) && e.zero)

/-- Step 5 of Table 6.9: ROLE and FORMAT of a shard agree (Tables 5.1, 6.6). -/
def shardFormatOk (e : ShardEntry) : Bool :=
  (e.role == 0 && e.format == 1) || (e.role == 1 && e.format == 2) || (decide (2 ≤ e.role) && decide (e.role ≤ 4) && e.format == 3)

/-- Step 7 of Table 6.9: the content key, from the key table's entry for a device's key identifier, unwrapped with its
key under the label MODEL_ID followed by GEN (R187, Table 6.8). -/
def contentKey (x : PackageFront) (keyId : BitVec 128) (n d : Nat) : Option (List Byte) :=
  let k := (List.range (x.keytab.length / 528)).find? (fun i => field x.keytab (528 * i) 16 == keyId.toNat)
  match k with
  | none => none
  | some i =>
    let label := (x.manifest.drop 8).take 16 ++ (x.manifest.drop 4).take 2
    (oaepOpen n d label ((x.keytab.drop (528 * i + 16)).take 512)).filter (fun k => k.length == 32)

/-- The header of shard `i` as the manifest has it (Table 6.7). -/
def shardHeader (p : Package) (i : Nat) (e : ShardEntry) : List Byte :=
  leBytes 4 i ++ leBytes 4 0 ++ leBytes 8 e.clearLen ++ leBytes 16 p.modelId.toNat

/-- A shard decrypted (R187): the clear content, where the GCM tag is right. -/
def decryptShard (p : Package) (key : List Byte) (i : Nat) (e : ShardEntry) (bytes : List Byte) : Option (List Byte) :=
  gcmOpen key (p.salt ++ leBytes 8 i) (bytes.take 32) ((bytes.drop 32).take e.clearLen) (bytes.drop (32 + e.clearLen))

/-- Step 8 of Table 6.9: header equal to the manifest, GCM tag, digest of the clear content. -/
def openShard (p : Package) (key : List Byte) (i : Nat) (e : ShardEntry) (bytes : List Byte) : Option (List Byte) :=
  if bytes.take 32 == shardHeader p i e && bytes.length == 48 + e.clearLen then
    (decryptShard p key i e bytes).filter (fun c => digestOf c == e.digest)
  else none

/-- Step 9 of Table 6.9: no exponent code 0x80, no S8E weight −128 (R145 to R147). -/
def contentOk (format : Nat) (c : List Byte) : Bool :=
  if format == 1 then (c.zip (List.range c.length)).all (fun e => decide (e.2 % 544 < 512) || e.1 != 0x80)
  else format != 2 || c.all (fun b => b != 0x80)

/-- Bytes of a package's content. -/
def contentBytes (p : Package) : Nat := (p.shards.map (·.clearLen)).sum
/-- Bytes of a layer of it. -/
def layerBytes (p : Package) (n : Nat) : Nat := ((p.shards.filter (fun e => e.layer == n)).map (·.clearLen)).sum

end Sys2Proof.Machine
end

