-- ==== Sys2Proof/Machine/Identity.lean ====
section
/-! DEFINITION. The identity key pair and its identifier, firmware images and HELLO payloads as bytes (13_startup R403,
R404, R415, R416; 11_fabric R339, R340, Table 11.7). -/

namespace Sys2Proof.Machine

/-! ### The identity key (R415, R416) -/

/-- DEVICE_KEY_ID of a public key: the first 16 bytes of SHA-512 over the modulus, as 512 bytes big-endian, and the
exponent, as 4 bytes little-endian. -/
def keyIdOf (n e : Nat) : BitVec 128 := BitVec.ofNat 128 (leNat ((sha512 (beBytes 512 n ++ leBytes 4 e)).take 16))

/-- The private exponent for the public exponent 65,537 modulo the least common multiple of p − 1 and q − 1 (65,537 is
prime, so a power inverts that multiple). -/
def privateExp (p q : Nat) : Nat :=
  let m := Nat.lcm (p - 1) (q - 1)
  let k := 65537 - powMod 65537 16 65535 (m % 65537)
  (k * m + 1) / 65537

end Sys2Proof.Machine

namespace Sys2Proof
open Machine

/-! ### Firmware images (R403, R404) -/

/-- The bytes of an image from `off` on; a source reads zero past the bytes it holds (log 136). -/
def Image.slice (x : Image) (off len : Nat) : List Byte :=
  let l := (x.bytes.drop off).take len
  l ++ List.replicate (len - l.length) 0
/-- A little-endian field of the header (R13). -/
def Image.field (x : Image) (off n : Nat) : Nat := leNat (x.slice off n)
/-- Bytes that Table 13.3 gives as zero. -/
def Image.zero (x : Image) (off n : Nat) : Bool := (x.slice off n).all (fun b => b == 0)

/-- Section entry `i` of Table 13.3: TYPE, alignment, bounds and zero fields. -/
def Image.sectionOk (x : Image) (i : Nat) : Bool :=
  let o := 64 + 96 * i
  let off := x.field (o + 4) 4
  x.field o 1 == i + 1 && x.zero (o + 1) 3 && x.zero (o + 12) 20 && off % 4096 == 0 && decide (4096 ≤ off) &&
  decide (off + x.field (o + 8) 4 ≤ x.field 16 8)

/-- Check 3 of Table 13.4, for a source of `src` bytes. -/
def Image.headerOk (x : Image) (src : Nat) : Bool :=
  x.field 4 2 == 1 && x.field 6 2 == 4 && decide (4096 ≤ x.field 16 8) && decide (x.field 16 8 ≤ 50331648) && decide (x.field 16 8 ≤ src) &&
  (List.range 4).all x.sectionOk && decide (x.field 12 4 < 2 ^ 16) && decide (x.field 24 4 < 8) && x.zero 28 36 && x.zero 964 60 &&
  x.zero 1536 2560

/-- The digest of section `i` as its entry states it. -/
def Image.digest (x : Image) (i : Nat) : List Byte := x.slice (64 + 96 * i + 32) 64
/-- Check 8: every section's DIGEST. -/
def Image.digestsOk (x : Image) : Bool :=
  (List.range 4).all (fun i => sha512 (x.slice (x.field (64 + 96 * i + 4) 4) (x.field (64 + 96 * i + 8) 4)) == x.digest i)
/-- Check 4: the digest of SIGNER_N followed by SIGNER_E is one that ROM holds. -/
def Image.signerOk (x : Image) (rom : List (BitVec 512)) : Bool := rom.any (fun d => d == digestOf (x.slice 448 516))
/-- Check 5: RSASSA-PSS over bytes 0–1,023. -/
def Image.signatureOk (x : Image) : Bool :=
  pssVerify ⟨beNat (x.slice 448 512), x.field 960 4⟩ (x.slice 0 1024) (x.slice 1024 512)

/-- The result of verifying an image from a source of `src` bytes, on the part of bit `part` of PARTS (Table 13.4, in its
order). -/
def Image.result (x : Image) (src : Nat) (rom : List (BitVec 512)) (part : Nat) (minSvn : Nat) : Nat :=
  if !x.readOk then 7 else if x.field 0 4 != 0x57464E4A then 9 else if !x.headerOk src then 1 else if !x.signerOk rom then 2
  else if !x.signatureOk then 3 else if !(x.field 24 4).testBit part then 6 else if decide (x.field 12 4 < minSvn) then 5
  else if !x.digestsOk then 4 else 0

/-- What measurement blocks 2 to 6 show of an image (Table 13.8): SHA-512 of bytes 0–1,023 and the section DIGESTs. -/
def Image.digests (x : Image) : List (BitVec 512) :=
  digestOf (x.slice 0 1024) :: (List.range 4).map (fun i => BitVec.ofNat 512 (leNat (x.digest i)))

/-! ### HELLO (R339, Table 11.7) -/

/-- FLAGS. -/
def Hello.flags (h : Hello) : Nat := h.mapped.toNat + 2 * h.root.toNat + 4 * h.assigned.toNat + 8 * h.aligned.toNat
/-- Bytes 0–703, over which SIGNATURE goes. -/
def Hello.bytes (h : Hello) : List Byte :=
  leBytes 4 0x4C484E4A ++ leFields 1 [h.verMin, h.verMax, h.part, h.port, h.planes, h.flags] ++ leBytes 2 0 ++
  leFields 4 [h.coord.toNat, h.rootAddr.toNat, h.tide.toNat] ++ leBytes 4 h.sysver ++ leBytes 4 h.dims.toNat ++ leBytes 8 h.systemId.toNat ++
  leBytes 4 h.mapEpoch.toNat ++ leBytes 4 0 ++ leBytes 16 h.keyId.toNat ++ leBytes 32 h.nonce.toNat ++ leBytes 32 h.peerNonce.toNat ++
  beBytes 512 h.pubN ++ leBytes 4 h.pubE ++ List.replicate 60 0
/-- The signature verifies with the key that the payload names, and DEVICE_KEY_ID is that key's identifier (R340 check 1). -/
def Hello.signed (h : Hello) : Bool := h.keyId == keyIdOf h.pubN h.pubE && pssVerify ⟨h.pubN, h.pubE⟩ h.bytes h.signature

end Sys2Proof
end

