-- ==== Sys2Proof/Machine/Float.lean ====
section
/-! DEFINITION. The vector engine's binary32 and bfloat16 arithmetic (R143, R148 to R151, R158 to R160), exact: a
finite number is held as sign, magnitude m and exponent e for m · 2^e, and rounded once. -/

namespace Sys2Proof.Machine

/-- A / 2^n rounded half to even (R113's rhe_div). -/
def rheDiv (a : Int) (n : Nat) : Int :=
  if n = 0 then a
  else
    let q := a / (2 ^ n : Int)
    let r := a - q * 2 ^ n
    if r * 2 > 2 ^ n ∨ (r * 2 = 2 ^ n ∧ q % 2 = 1) then q + 1 else q

/-- The root of `n` rounded down, found bit by bit from bit `k` down. -/
def isqrtFrom (n : Nat) (k : Nat) (acc : Nat) : Nat :=
  match k with
  | 0 => if (acc + 1) * (acc + 1) ≤ n then acc + 1 else acc
  | k + 1 =>
    let c := acc + 2 ^ (k + 1)
    isqrtFrom n k (if c * c ≤ n then c else acc)

/-- ⌊√n⌋. -/
def isqrt (n : Nat) : Nat := isqrtFrom n (n.log2 / 2 + 1) 0

/-- √(a / b) rounded half to even to a whole number, for b > 0. -/
def sqrtRatioRhe (a b : Nat) : Nat :=
  let n := isqrt (a / b)
  let l := 4 * a
  let m := (2 * n + 1) * (2 * n + 1) * b
  if l > m ∨ (l = m ∧ n % 2 = 1) then n + 1 else n

/-- A number as the vector engine sees it. -/
inductive Fp where
  | nan
  | inf (neg : Bool)
  | fin (neg : Bool) (m : Nat) (e : Int)
deriving DecidableEq, Repr

/-- A word read as binary32: subnormals are zeros of their sign (R158). -/
def Fp.ofF32 (w : W32) : Fp :=
  let neg := w.getLsbD 31
  let x : Nat := w.toNat / 2 ^ 23 % 256
  let f : Nat := w.toNat % 2 ^ 23
  if x = 255 then (if f = 0 then .inf neg else .nan)
  else if x = 0 then .fin neg 0 0
  else .fin neg (2 ^ 23 + f) ((x : Int) - 150)

/-- A bfloat16 pattern read as binary32 (R149 takes the sign bit of a scale as zero before this). -/
def Fp.ofBf16 (w : W16) : Fp := Fp.ofF32 (BitVec.ofNat 32 (w.toNat * 65536))

/-- m · 2^e rounded to `p` significant bits, half to even: the rounded magnitude, below 2^p, and its exponent. -/
def roundBits (p : Nat) (m : Nat) (e : Int) : Nat × Int :=
  let n := m.log2 + 1
  if n ≤ p then (m * 2 ^ (p - n), e - ((p - n : Nat) : Int))
  else
    let q := (rheDiv m (n - p)).toNat
    if q = 2 ^ p then (2 ^ (p - 1), e + ((n - p : Nat) : Int) + 1) else (q, e + ((n - p : Nat) : Int))

/-- Rounded to binary32: judged after rounding, zero below 2^-126 (R143, R158). -/
def Fp.toF32 (x : Fp) : W32 :=
  match x with
  | .nan => 0x7FC00000
  | .inf neg => if neg then 0xFF800000 else 0x7F800000
  | .fin neg m e =>
    let s : Nat := if neg then 2 ^ 31 else 0
    if m = 0 then BitVec.ofNat 32 s
    else
      let r := roundBits 24 m e
      let x := r.2 + 23
      if x < -126 then BitVec.ofNat 32 s
      else if x > 127 then BitVec.ofNat 32 (s + 0x7F800000)
      else BitVec.ofNat 32 (s + (x + 127).toNat * 2 ^ 23 + (r.1 - 2 ^ 23))

/-- Rounded to bfloat16, to nearest even, judged like binary32 (R158). -/
def Fp.toBf16 (x : Fp) : W16 :=
  match x with
  | .nan => 0x7FC0
  | .inf neg => if neg then 0xFF80 else 0x7F80
  | .fin neg m e =>
    let s : Nat := if neg then 2 ^ 15 else 0
    if m = 0 then BitVec.ofNat 16 s
    else
      let r := roundBits 8 m e
      let x := r.2 + 7
      if x < -126 then BitVec.ofNat 16 s
      else if x > 127 then BitVec.ofNat 16 (s + 0x7F80)
      else BitVec.ofNat 16 (s + (x + 127).toNat * 128 + (r.1 - 128))

/-- The signed whole number m of m · 2^e at the exponent `e0` ≤ e. -/
def Fp.atExp (neg : Bool) (m : Nat) (e e0 : Int) : Int :=
  let v : Int := (m * 2 ^ (e - e0).toNat : Nat)
  if neg then -v else v

/-- The exact sum. -/
def Fp.add (a b : Fp) : Fp :=
  match a, b with
  | .nan, _ => .nan
  | _, .nan => .nan
  | .inf s, .inf t => if s = t then .inf s else .nan
  | .inf s, _ => .inf s
  | _, .inf t => .inf t
  | .fin s m e, .fin t n f =>
    if m = 0 ∧ n = 0 then .fin (s && t) 0 0
    else
      let e0 := min e f
      let v := Fp.atExp s m e e0 + Fp.atExp t n f e0
      .fin (decide (v < 0)) v.natAbs e0

/-- The exact product. -/
def Fp.mul (a b : Fp) : Fp :=
  match a, b with
  | .nan, _ => .nan
  | _, .nan => .nan
  | .inf s, .inf t => .inf (s != t)
  | .inf s, .fin t n _ => if n = 0 then .nan else .inf (s != t)
  | .fin s m _, .inf t => if m = 0 then .nan else .inf (s != t)
  | .fin s m e, .fin t n f => .fin (s != t) (m * n) (e + f)

/-- n / d · 2^e to 128 bits, the last bit set when something is left over, so that one later rounding is right. -/
def quotSticky (n d : Nat) (e : Int) (neg : Bool) : Fp :=
  let k := 128 + d.log2
  let q := n * 2 ^ k / d
  .fin neg (2 * q + (if n * 2 ^ k % d = 0 then 0 else 1)) (e - (k : Int) - 1)

/-- The quotient, ready to round. -/
def Fp.div (a b : Fp) : Fp :=
  match a, b with
  | .nan, _ => .nan
  | _, .nan => .nan
  | .inf _, .inf _ => .nan
  | .inf s, .fin t _ _ => .inf (s != t)
  | .fin s _ _, .inf t => .fin (s != t) 0 0
  | .fin s m e, .fin t n f =>
    if n = 0 then (if m = 0 then .nan else .inf (s != t))
    else if m = 0 then .fin (s != t) 0 0
    else quotSticky m n (e - f) (s != t)

/-- Sign changed. -/
def Fp.negate : Fp → Fp
  | .nan => .nan
  | .inf s => .inf (!s)
  | .fin s m e => .fin (!s) m e

/-- a < b; false when either is a NaN. -/
def Fp.lt (a b : Fp) : Bool :=
  match Fp.add b (Fp.negate a) with
  | .nan => (match a, b with | .inf true, .inf false => true | _, _ => false)
  | .inf s => !s
  | .fin s m _ => !s && decide (m ≠ 0)

/-- A whole number. -/
def Fp.ofInt (z : Int) : Fp := .fin (decide (z < 0)) z.natAbs 0

/-- binary32 sum (R143, R158). -/
def f32Add (a b : W32) : W32 := (Fp.add (.ofF32 a) (.ofF32 b)).toF32
/-- binary32 difference. -/
def f32Sub (a b : W32) : W32 := (Fp.add (.ofF32 a) (Fp.negate (.ofF32 b))).toF32
/-- binary32 product. -/
def f32Mul (a b : W32) : W32 := (Fp.mul (.ofF32 a) (.ofF32 b)).toF32
/-- binary32 quotient. -/
def f32Div (a b : W32) : W32 := (Fp.div (.ofF32 a) (.ofF32 b)).toF32
/-- binary32 of a whole number, to nearest even (R135). -/
def f32OfInt (z : Int) : W32 := (Fp.ofInt z).toF32
/-- The number a bfloat16 pattern stands for, as binary32. -/
def f32OfBf16 (w : W16) : W32 := (Fp.ofBf16 w).toF32
/-- binary32 scaled by a power of two (R135). -/
def f32Scale (a : W32) (k : Int) : W32 :=
  match Fp.ofF32 a with
  | .fin s m e => (Fp.fin s m (e + k)).toF32
  | x => x.toF32
/-- a < b in binary32. -/
def f32Lt (a b : W32) : Bool := Fp.lt (.ofF32 a) (.ofF32 b)
/-- Whether a word is a NaN. -/
def f32IsNan (a : W32) : Bool := Fp.ofF32 a == .nan
/-- Whether a word is finite. -/
def f32IsFin (a : W32) : Bool := match Fp.ofF32 a with | .fin _ _ _ => true | _ => false

/-- The fixed pairwise tree of R159 (R33), with `fuel` at least the depth of the tree. -/
def treeSum {α : Type} (add : α → α → α) (zero : α) (fuel : Nat) (l : List α) : α :=
  match fuel with
  | 0 => zero
  | fuel + 1 =>
    match l with
    | [] => zero
    | [x] => x
    | l =>
      let h := (l.length + 1) / 2
      add (treeSum add zero fuel (l.take h)) (treeSum add zero fuel (l.drop h))

/-- binary32 sum in the fixed tree. -/
def f32Sum (l : List W32) : W32 := treeSum f32Add 0 (l.length + 1) l

/-! ### Exactly rounded functions (R160), by fixed-point numbers with 640 bits after the point -/

/-- Bits after the point. -/
def fxP : Nat := 640
/-- 2π at that scale. -/
def fxTau : Nat := 0x6487ed5110b4611a62633145c06e0e68948127044533e63a0105df531d89cd9128a5043cc71a026ef7ca8cd9e69d218d98158536f92f8a1ba7f09ab6b6a8e122f242dabb312f3f637a262174d31bf6b58
/-- A finite number at that scale, rounded down. -/
def fxOf (m : Nat) (e : Int) : Nat := if e ≥ -640 then m * 2 ^ (e + 640).toNat else m / 2 ^ (-640 - e).toNat

/-- Σ of the terms x^i/i! from the term `t` = x^(i-1)/(i-1)! on. -/
def expTerms (x : Nat) (fuel i t acc : Nat) : Nat :=
  match fuel with
  | 0 => acc
  | fuel + 1 =>
    let t' := t * x / 2 ^ fxP / i
    expTerms x fuel (i + 1) t' (acc + t')

/-- Squared `n` times. -/
def fxSquares (n v : Nat) : Nat :=
  match n with
  | 0 => v
  | n + 1 => fxSquares n (v * v / 2 ^ fxP)

/-- e^x at the fixed scale for 0 ≤ x < 256. -/
def fxExp (x : Nat) : Nat := fxSquares 16 (expTerms (x / 2 ^ 16) 60 1 (2 ^ fxP) (2 ^ fxP))

/-- Σ (-1)^i x^(2i+s)/(2i+s)! from the term `t` on; `k` is the exponent of `t`. -/
def trigTerms (x2 : Nat) (fuel k : Nat) (t : Nat) (neg : Bool) (acc : Int) : Int :=
  match fuel with
  | 0 => acc
  | fuel + 1 =>
    let t' := t * x2 / 2 ^ fxP / ((k + 1) * (k + 2))
    trigTerms x2 fuel (k + 2) t' (!neg) (if neg then acc + t' else acc - t')

/-- A fixed-point number as one to round, its last bit set. -/
def fxOut (neg : Bool) (v : Nat) : Fp := .fin neg (2 * v + 1) (-641)

/-- e^x (R160). -/
def f32Exp (a : W32) : W32 :=
  match Fp.ofF32 a with
  | .nan => 0x7FC00000
  | .inf s => if s then 0 else 0x7F800000
  | .fin s m e =>
    if m = 0 then 0x3F800000
    else
      let x := fxOf m e
      if x ≥ 200 * 2 ^ fxP then (if s then 0 else 0x7F800000)
      else if s then (fxOut false (2 ^ (2 * fxP) / fxExp x)).toF32 else (fxOut false (fxExp x)).toF32

/-- 1/x (R160). -/
def f32Recip (a : W32) : W32 := (Fp.div (.fin false 1 0) (.ofF32 a)).toF32

/-- 1/√x (R160). -/
def f32Rsqrt (a : W32) : W32 :=
  match Fp.ofF32 a with
  | .nan => 0x7FC00000
  | .inf s => if s then 0x7FC00000 else 0
  | .fin s m e =>
    if m = 0 then 0x7F800000
    else if s then 0x7FC00000
    else
      let o := e % 2
      let m' := if o = 0 then m else 2 * m
      let e' := if o = 0 then e else e - 1
      let v := isqrt (2 ^ 400 / m')
      (Fp.fin false (2 * v + 1) (-201 - e' / 2)).toF32

/-- 1/(1+e^-x), rounded once (R160). -/
def f32Sigmoid (a : W32) : W32 :=
  match Fp.ofF32 a with
  | .nan => 0x7FC00000
  | .inf s => if s then 0 else 0x3F800000
  | .fin s m e =>
    if m = 0 then 0x3F000000
    else
      let x := fxOf m e
      if x ≥ 200 * 2 ^ fxP then (if s then 0 else 0x3F800000)
      else
        let y := fxExp x
        if s then (fxOut false (2 ^ (2 * fxP) / (2 ^ fxP + y))).toF32
        else (fxOut false (y * 2 ^ fxP / (2 ^ fxP + y))).toF32

/-- sin x or cos x (R160). -/
def f32Trig (cosine : Bool) (a : W32) : W32 :=
  match Fp.ofF32 a with
  | .nan => 0x7FC00000
  | .inf _ => 0x7FC00000
  | .fin s m e =>
    if m = 0 then (if cosine then 0x3F800000 else if s then 0x80000000 else 0)
    else
      let r := fxOf m e % fxTau
      let x2 := r * r / 2 ^ fxP
      let v : Int := if cosine then trigTerms x2 120 0 (2 ^ fxP) false (2 ^ fxP) else trigTerms x2 120 1 r false r
      let v := if s && !cosine then -v else v
      (fxOut (decide (v < 0)) v.natAbs).toF32

/-- sin x. -/
def f32Sin (a : W32) : W32 := f32Trig false a
/-- cos x. -/
def f32Cos (a : W32) : W32 := f32Trig true a

/-! ### The quantiser (R151) -/

/-- The smallest bfloat16 at or above a positive number of at least 2^-126; infinity as 0x7F80. -/
def bf16RoundUp (m : Nat) (e : Int) : W16 :=
  let n := m.log2 + 1
  let q := if n ≤ 8 then m * 2 ^ (8 - n) else (m + 2 ^ (n - 8) - 1) / 2 ^ (n - 8)
  let x := e + (n : Int) - 1
  let q' := if q = 256 then 128 else q
  let x' := if q = 256 then x + 1 else x
  if x' > 127 then 0x7F80 else BitVec.ofNat 16 ((x' + 127).toNat * 128 + (q' - 128))

/-- A finite number rounded to the nearest whole number, half to even. -/
def roundWhole (neg : Bool) (m : Nat) (e : Int) : Int :=
  let v : Int := if e ≥ 0 then ((m * 2 ^ e.toNat : Nat) : Int) else rheDiv m (-e).toNat
  if neg then -v else v

/-- One code: clamp(round_half_even(v / s), -qmax, qmax), 0 for a NaN (R151). -/
def quantCode (s : W32) (qmax : Int) (v : W32) : Int :=
  match Fp.ofF32 v with
  | .nan => 0
  | .inf neg => if neg then -qmax else qmax
  | .fin _ _ _ =>
    match Fp.ofF32 (f32Div v s) with
    | .nan => 0
    | .inf neg => if neg then -qmax else qmax
    | .fin neg m e => max (-qmax) (min qmax (roundWhole neg m e))

/-- The magnitude of a binary32 word. -/
def f32Abs (a : W32) : W32 := a &&& 0x7FFFFFFF

/-- The largest finite magnitude; +0 when there is none. -/
def maxFinite (l : List W32) : W32 :=
  l.foldl (fun m v => if f32IsFin v && f32Lt m (f32Abs v) then f32Abs v else m) 0

/-- The scale code and integer codes of a group (R151). -/
def quantise (v : List W32) (qmax : Nat) : W16 × List Int :=
  let sat0 := v.any (fun x => !f32IsFin x)
  let r := f32Div (maxFinite v) (f32OfInt qmax)
  let r := if f32Lt r 0x00800000 then 0x00800000 else r
  let s0 : W16 :=
    match Fp.ofF32 r with
    | .fin _ m e => bf16RoundUp m e
    | _ => 0x7F80
  let sat := sat0 || s0 == 0x7F80
  let s := if sat then 0x7F7F else s0
  let q := v.map (quantCode (f32OfBf16 s) qmax)
  if !sat && q.all (· == 0) then (0x0000, q)
  else if sat then (0xFF7F, q)
  else (s, q)

/-- Whether a scale code is one R148 lets the device write (R150). -/
def scaleCodeOk (c : W16) : Bool :=
  c == 0 || c == 0xFF7F || (decide (0x0080 ≤ c.toNat) && decide (c.toNat ≤ 0x7F7F))

/-- The value of one code under a scale code, as binary32 (R149, R150, R156). -/
def scaledValue (c : W16) (q : Int) : W32 :=
  if c = 0 ∨ scaleCodeOk c = false then 0
  else f32Mul (f32OfInt q) (f32OfBf16 (c &&& 0x7FFF))

/-- The dequantised value of a column (R135): Z at the exponent eacc and the scale sx of the vector. -/
def dequant (z : Int) (eacc : Int) (sx : W16) : W32 :=
  f32Mul (f32Scale (f32OfInt z) (eacc - 1)) (f32OfBf16 (sx &&& 0x7FFF))

end Sys2Proof.Machine
end

