-- ==== Sys2Proof/Machine/Lane.lean ====
section
/-! DEFINITION. The exact arithmetic of one product: digits, passes, the correction lane, the sluice, accumulation,
reference arithmetic and the grading figures (03_pans, 04_correction, 05_formats). Nothing here reads the state. -/

namespace Sys2Proof
open Sys2Proof.Machine

/-! ### Input digits (R77) and blocks (R71 to R73, R79) -/

/-- High digit of an input element (R77). -/
def digitHigh (x : Int) : Int := (x + 8) / 16
/-- Low digit of an input element (R77). -/
def digitLow (x : Int) : Int := x - 16 * digitHigh x

/-- A value listed in a sparse list of a block; `d` where unlisted. -/
def listed {α : Type} (l : List (Nat × α)) (k : Nat) (d : α) : α :=
  match l with
  | [] => d
  | (j, v) :: l => if j = k then v else listed l k d

/-- Whether row `i` is a static outlier row of the block (R118). -/
def Block.isStatic (b : Block) (i : Nat) : Bool := b.statics.any (fun r => r.row == i)

/-- The level a cell of the block holds: 0 in rows and columns beyond the used ones and in static rows (R73). -/
def Block.levelAt (b : Block) (i j : Nat) : Nat :=
  if i ≥ b.rowsUsed ∨ j ≥ b.colsUsed ∨ b.isStatic i = true then 0 else listed b.levels (i * 512 + j) b.level

/-- The level of checksum column 512 + g in row i (R86). -/
def Block.checkLevel (b : Block) (i g : Nat) : Nat :=
  (rheDiv (((List.range 32).foldl (fun a k => a + b.levelAt i (32 * g + k)) 0 : Nat) : Int) 5).toNat

/-- Rows in one row group (R79). -/
def Block.groupRows (b : Block) : Nat := 1024 / max b.groups 1

/-- The alignment shift Δ of a column in a row group (Table 4.1). -/
def Block.shift (b : Block) (grp j : Nat) : Nat := listed b.delta (grp * 512 + j) 0

/-- Input element `i` at repeat level `r` (R129). -/
def inputAt (x : List Int) (r i : Nat) : Int := rheDiv (x.getD i 0) (2 * r)

/-! ### Outlier selection (R119) -/

/-- Eligible rows over the threshold, in row order. -/
def Block.outliers (b : Block) (x : List Int) : List Nat :=
  if b.threshold ≥ 128 then []
  else (List.range b.rowsUsed).filter (fun i => !b.isStatic i && decide (b.threshold < (x.getD i 0).natAbs))

/-- Whether row `i` comes before row `j`: larger |x| first, then the lower row (R119). -/
def outlierBefore (x : List Int) (i j : Nat) : Bool :=
  decide ((x.getD j 0).natAbs < (x.getD i 0).natAbs) ||
    (decide ((x.getD j 0).natAbs = (x.getD i 0).natAbs) && decide (i < j))

/-- Taken rows: those that fewer than 16 others come before, in row order. -/
def Block.taken (b : Block) (x : List Int) : List Nat :=
  let o := b.outliers x
  o.filter (fun i => decide ((o.filter (fun j => outlierBefore x j i)).length < 16))

/-- Spilled rows: the outliers not taken. -/
def Block.spilled (b : Block) (x : List Int) : List Nat :=
  let t := b.taken x
  (b.outliers x).filter (fun i => !t.contains i)

/-! ### Passes (R79, R82, R123) -/

/-- One conversion pass: phase, whether of the spill pass, rows [first, first + rows), and its row group. -/
structure PassDesc where
  low : Bool
  spill : Bool
  first : Nat
  rows : Nat
  group : Nat
deriving DecidableEq, Repr

/-- The main passes of a product (R79, R81). -/
def Block.mainPasses (b : Block) : List PassDesc :=
  [false, true].flatMap fun low =>
    (List.range b.groups).map fun g => ⟨low, false, g * b.groupRows, b.groupRows, g⟩

/-- The passes of the spill pass: one a phase for each row group with spilled rows, ascending (R123). -/
def Block.spillPasses (b : Block) (sp : List Nat) : List PassDesc :=
  [false, true].flatMap fun low =>
    ((List.range b.groups).filter (fun g => sp.any (fun i => i / b.groupRows == g))).map fun g =>
      ⟨low, true, g * b.groupRows, b.groupRows, g⟩

/-- The two halves of a saturated group (R82). -/
def PassDesc.halves (d : PassDesc) : List PassDesc :=
  [{ d with rows := d.rows / 2 }, { d with first := d.first + d.rows / 2, rows := d.rows / 2 }]

/-- The rows a pass drives: ungated rows of its range (R73, R123). -/
def Block.drivenRows (b : Block) (taken spilled : List Nat) (d : PassDesc) : List Nat :=
  ((List.range (min d.rows (b.rowsUsed - d.first))).map (· + d.first)).filter fun i =>
    if d.spill then spilled.contains i else !b.isStatic i && !taken.contains i && !spilled.contains i

/-- The signed pulse count of row `i` in a pass at repeat level `r` (R77, R123, R129). -/
def Block.pulse (b : Block) (x : List Int) (r : Nat) (d : PassDesc) (i : Nat) : Int :=
  let v := inputAt x r i
  let v := if d.spill then rheDiv v b.spillShift else v
  if d.low then digitLow v else digitHigh v

/-- The pulses of a pass: row and signed count (R73, R77). -/
def Block.pulses (b : Block) (x : List Int) (r : Nat) (taken spilled : List Nat) (d : PassDesc) : List (Nat × Int) :=
  (b.drivenRows taken spilled d).map (fun i => (i, b.pulse x r d i))

/-- The digit sum P of a pass (R115). -/
def Block.digitSum (b : Block) (x : List Int) (r : Nat) (taken spilled : List Nat) (d : PassDesc) : Int :=
  (b.drivenRows taken spilled d).foldl (fun a i => a + b.pulse x r d i) 0

/-- A of R87: the sum of |p| over the driven rows. -/
def Block.digitMag (b : Block) (x : List Int) (r : Nat) (taken spilled : List Nat) (d : PassDesc) : Nat :=
  (b.drivenRows taken spilled d).foldl (fun a i => a + (b.pulse x r d i).natAbs) 0

/-! ### The lane (Table 4.2) -/

/-- OFFSET of a coefficient entry (Table 3.14). -/
def coefOffset (c : W32) : Int := (c.extractLsb' 0 12).toInt
/-- GAIN of a coefficient entry (Table 3.14). -/
def coefGain (c : W32) : Int := ((c.extractLsb' 12 16).toNat : Int)
/-- A coefficient entry of given OFFSET and GAIN. -/
def coefEntry (off : BitVec 12) (gain : W16) : W32 := BitVec.ofNat 32 (off.toNat + gain.toNat * 4096)

/-- Stage 1: a code corrected by its coefficients, in 1/16 LSB (R113). -/
def stage1 (c : W32) (code : Nat) : Int :=
  rheDiv ((16 * ((code : Int) - 128) - coefOffset c) * coefGain c) 15

/-- Stage 2 (R113, R115). -/
def stage2 (w P : Int) (shift : Nat) : Int := (2 * (4 * w) - 15 * P) * 2 ^ shift

/-- Spare map of a bed: (spare, replaced physical column) (R88). -/
abbrev SpareMap := List (Nat × Nat)

/-- The physical column that is converted in the place of column `j` (R88). -/
def physColumn (m : SpareMap) (j : Nat) : Nat :=
  match m.find? (fun e => e.2 == j) with
  | some e => 528 + e.1
  | none => j

/-- The level that physical column `n` holds in row `i` (R74, R86, R88): data, checksum, or the column a spare replaces. -/
def Block.physLevel (b : Block) (m : SpareMap) (i n : Nat) : Nat :=
  let lvl := fun (j : Nat) => if j < 512 then b.levelAt i j else b.checkLevel i (j - 512)
  if n < 528 then lvl n
  else match m.find? (fun e => e.1 + 528 == n) with
    | some e => lvl e.2
    | none => 0

/-- The ideal analogue sum S of physical column `n` (R75). -/
def Block.colSum (b : Block) (m : SpareMap) (p : List (Nat × Int)) (n : Nat) : Int :=
  p.foldl (fun a e => a + (b.physLevel m e.1 n : Int) * e.2) 0

/-- The converter's transfer (R75). -/
def convert (S : Int) : Byte := BitVec.ofInt 8 (max 0 (min 255 (128 + rheDiv S 6)))

/-- The codes of a pass by physical column, each sum with its departure from the ideal (R75). -/
def Block.passCodes (b : Block) (m : SpareMap) (p : List (Nat × Int)) (dev : List Int) : List Byte :=
  (List.range 544).map (fun n => convert (b.colSum m p n + dev.getD n 0))

/-- A code of 0 or 255 (R76). -/
def saturatedCode (c : Nat) : Bool := c == 0 || c == 255

/-- Columns in use: used data columns and the checksum columns of their groups (R82, R104). -/
def judgedColumns (used : Nat) : List Nat :=
  (List.range used) ++ ((List.range 16).filter (fun g => decide (32 * g < used))).map (fun g => 512 + g)

/-- Whether a pass is saturated: columns in use are judged, replaced ones by their spares (R82, R88). -/
def passSaturated (m : SpareMap) (used : Nat) (codes : List Byte) : Bool :=
  (judgedColumns used).any fun j => saturatedCode (codes.getD (physColumn m j) 128).toNat

/-- What the lane keeps of a delivered pass. -/
structure PassRec where
  desc : PassDesc
  p : Int
  /-- stage 2 of the used data columns -/
  t : List Int
  codes : List Byte
deriving DecidableEq, Repr

/-- Stage 1 output of logical column `j` of a pass (R114). -/
def laneW (coefs : Cells W32) (dflt : Nat → W32) (m : SpareMap) (codes : List Byte) (j : Nat) : Int :=
  let n := physColumn m j
  stage1 (Cells.get dflt coefs n) (codes.getD n 128).toNat

/-- Whether checksum group `g` mismatches (R87, R114): over the used columns, for the conversions of the others are
discarded (R73; DEDUCED, log 113). -/
def checkMismatch (used : Nat) (w : Nat → Int) (mag g : Nat) : Bool :=
  let s := ((List.range 32).filter (fun k => decide (32 * g + k < used))).foldl (fun a k => a + w (32 * g + k)) 0
  decide (32 * g < used) && decide (16 * (32 + (mag + 3) / 4) < (32 * w (512 + g) - s).natAbs)

/-- T of a phase: the sum of stage 2 over its passes, a column (R116). -/
def phaseSum (recs : List PassRec) (low spill : Bool) (j : Nat) : Int :=
  (recs.filter (fun r => r.desc.low == low && r.desc.spill == spill)).foldl (fun a r => a + r.t.getD j 0) 0

/-- Stage 3 (R116). -/
def stage3 (recs : List PassRec) (spill : Bool) (j : Nat) : Int :=
  16 * phaseSum recs false spill j + phaseSum recs true spill j

/-- The sluice's sum q of a column (R117, R118, R120, R129). -/
def Block.sluice (b : Block) (x : List Int) (r : Nat) (taken : List Nat) (j : Nat) : Int :=
  let st := b.statics.foldl (fun a s => a + (listed s.v j 0 * inputAt x r s.row) * 2 ^ listed s.ds j 0) 0
  taken.foldl (fun a i =>
    a + ((2 * (b.levelAt i j : Int) - 15) * inputAt x r i) * 2 ^ (b.shift (i / b.groupRows) j)) st

/-- Stage 4 (R117). -/
def stage4 (recs : List PassRec) (spillShift : Nat) (q : List Int) (j : Nat) : Int :=
  stage3 recs false j + stage3 recs true j * 2 ^ spillShift + q.getD j 0

/-- Cycles the sluice spends on a product: ⌈N × C / 64⌉ (R122). -/
def sluiceCycles (n c : Nat) : Nat := (n * c + 63) / 64

/-! ### The rake (R102) -/

/-- The passes of a rake as they convert: codes and pulses of each delivered pass, and how many passes were split, and of
how many phases of row groups (R84). A 64-row pass that saturates is not used (R76). `fuel` bounds the passes. -/
def Block.rakeRun (b : Block) (m : SpareMap) (pat : List (List Int)) (fuel : Nat) (todo : List (Nat × PassDesc))
    (devs : List (List Int)) : List (List Byte × List (Nat × Int)) × Nat × Nat :=
  match fuel, todo with
  | 0, _ => ([], 0, 0)
  | _, [] => ([], 0, 0)
  | fuel + 1, (k, d) :: rest =>
    let p := b.pulses (pat.getD k []) 0 [] [] d
    let c := b.passCodes m p (devs.headD [])
    if !passSaturated m b.colsUsed c then
      let r := b.rakeRun m pat fuel rest devs.tail
      ((c, p) :: r.1, r.2)
    else if 64 < d.rows then
      let r := b.rakeRun m pat fuel (d.halves.map (fun h => (k, h)) ++ rest) devs.tail
      (r.1, r.2.1 + 1, if d.rows == b.groupRows then r.2.2 + 1 else r.2.2)
    else b.rakeRun m pat fuel rest devs.tail

/-- The 32 patterns' passes in order. -/
def Block.rakePasses (b : Block) : List (Nat × PassDesc) :=
  (List.range 32).flatMap (fun k => b.mainPasses.map (fun d => (k, d)))

/-- n / d rounded half to even. -/
def rheQuot (n d : Int) : Int :=
  let n := if d < 0 then -n else n
  let d := if d < 0 then -d else d
  let q := n / d
  let r := 2 * (n - q * d)
  if r < d then q else if d < r then q + 1 else if q % 2 = 0 then q else q + 1

/-- The fit of one column: OFFSET in 1/16 LSB, GAIN in 1/32,768, and its mean square residual in LSB² as a fraction. -/
structure ColFit where
  offset : Int
  gain : Int
  num : Nat
  den : Nat
deriving DecidableEq, Repr

/-- The least-squares line of the expected values over the measured ones (R102): samples (code - 128 in LSB, S in 1/64
LSB). None where the measured or the expected values do not vary together: no gain exists then. The spec does not say
over which samples or in which direction the squares are least (DESIGN CHOICE, log 115). -/
def fitColumn (l : List (Int × Int)) : Option ColFit :=
  let sum := fun (f : Int × Int → Int) => l.foldl (fun a e => a + f e) 0
  let n : Int := l.length
  let x := sum (fun e => e.1)
  let y := sum (fun e => e.2)
  let D := n * sum (fun e => e.1 * e.1) - x * x
  let A := n * sum (fun e => e.1 * e.2) - x * y
  let V := n * sum (fun e => e.2 * e.2) - y * y
  if D = 0 ∨ A = 0 then none
  else some ⟨rheQuot (16 * (x * A - y * D)) (n * A), rheQuot (512 * A) D, (V * D - A * A).toNat, (4096 * n * n * D).toNat⟩

/-- The fit of physical column `n` over the delivered passes. -/
def Block.rakeFit (b : Block) (m : SpareMap) (runs : List (List Byte × List (Nat × Int))) (n : Nat) : Option ColFit :=
  fitColumn (runs.map (fun e => (((e.1.getD n 128).toNat : Int) - 128, b.colSum m e.2 n)))

/-- A residual in unsigned Q8.8 (R107). -/
def residQ88 (num den : Nat) : Nat := min 0xFFFE (sqrtRatioRhe (65536 * num) (max 1 den))

/-- Σ Sᵢ/Nᵢ as a fraction. -/
def sumFractions (l : List (Nat × Nat)) : Nat × Nat :=
  l.foldl (fun a f => (a.1 * f.2 + f.1 * a.2, a.2 * f.2)) (0, 1)

/-- The bed's residual: the root mean square over the columns in use, in Q8.8 (R102). -/
def bedResid (l : List ColFit) : Nat :=
  let f := sumFractions (l.map (fun c => (c.num, c.den)))
  residQ88 f.1 (f.2 * l.length)

/-- A coefficient held to its field's range (Table 3.14). -/
def ColFit.entry (c : ColFit) : W32 :=
  coefEntry (BitVec.ofInt 12 (max (-2048) (min 2047 c.offset))) (BitVec.ofInt 16 (max 0 (min 65535 c.gain)))

/-- A column meets the limits of R104: residual at most 1.0 LSB rms, gain within 0.75 to 1.25. -/
def ColFit.ok (c : ColFit) : Bool := decide (c.num ≤ c.den) && decide (24576 ≤ c.gain) && decide (c.gain ≤ 40960)

/-! ### Reference arithmetic (R163) -/

/-- One used column of ref_block. -/
def Block.refColumn (b : Block) (x : List Int) (r j : Nat) : Int :=
  let dyn := ((List.range b.rowsUsed).filter (fun i => !b.isStatic i)).foldl (fun a i =>
    a + ((2 * (b.levelAt i j : Int) - 15) * inputAt x r i) * 2 ^ (b.shift (i / b.groupRows) j)) 0
  b.statics.foldl (fun a s => a + (listed s.v j 0 * inputAt x r s.row) * 2 ^ listed s.ds j 0) dyn

/-- ref_block over the used columns. -/
def Block.refBlock (b : Block) (x : List Int) (r : Nat) : List Int := (List.range b.colsUsed).map (b.refColumn x r)

/-! ### Accumulation (R126, R128 to R130) -/

/-- Whether a value fits an int32. -/
def fits32 (v : Int) : Bool := decide (-2 ^ 31 ≤ v) && decide (v ≤ 2 ^ 31 - 1)
/-- A value held to the range of an int32 (R130). -/
def clamp32 (v : Int) : Int := max (-2 ^ 31) (min (2 ^ 31 - 1) v)
/-- A value held to the range of an int48 (R133). -/
def clamp48 (v : Int) : Int := max (-2 ^ 47) (min (2 ^ 47 - 1) v)
/-- A value held to the range of a signed 64-bit word, as a word (R134). -/
def wrap64 (v : Int) : W64 := BitVec.ofInt 64 v

/-- What stage 5 would write: OVERWRITE writes every column, unused ones zero; ADD adds (R126). -/
def stage5 (add : Bool) (acc z : List Int) : List Int :=
  (List.range 512).map fun j => if add then acc.getD j 0 + z.getD j 0 else z.getD j 0

/-! ### Grading (R168 to R171) -/

/-- t_ref of a pass at a column (R168). -/
def Block.tRef (b : Block) (x : List Int) (r : Nat) (taken spilled : List Nat) (d : PassDesc) (j : Nat) : Int :=
  let rows := b.drivenRows taken spilled d
  let s := rows.foldl (fun a i => a + (b.levelAt i j : Int) * b.pulse x r d i) 0
  let p := rows.foldl (fun a i => a + b.pulse x r d i) 0
  (2 * s - 15 * p) * 2 ^ (b.shift d.group j)

/-- The errors ε of a product in units of 2^-14 LSB: (t - t_ref) · 2^(7 - Δ) (R168). -/
def Block.gradeErrors (b : Block) (x : List Int) (r : Nat) (taken spilled : List Nat) (recs : List PassRec) :
    List Int :=
  recs.flatMap fun rec => (List.range b.colsUsed).map fun j =>
    (rec.t.getD j 0 - b.tRef x r taken spilled rec.desc j) * 2 ^ (7 - b.shift rec.desc.group j)

/-- Σ ε² in units of 2^-28 LSB². -/
def sumSquares (e : List Int) : Nat := e.foldl (fun a v => a + v.natAbs * v.natAbs) 0
/-- The largest |ε| in units of 2^-14 LSB. -/
def maxMag (e : List Int) : Nat := e.foldl (fun a v => max a v.natAbs) 0

/-- The bound of R169: ρ ≤ 1.50 LSB rms and every |ε| ≤ 8.0 LSB. -/
def gradePasses (e : List Int) : Bool :=
  decide (4 * sumSquares e ≤ 9 * e.length * 2 ^ 28) && decide (maxMag e ≤ 8 * 2 ^ 14)

/-- ρ in unsigned Q8.8, half to even, at most 0xFFFE (R171). -/
def rhoQ88 (e : List Int) : Nat := min 0xFFFE (sqrtRatioRhe (sumSquares e) (e.length * 2 ^ 12))
/-- EPS_MAX in unsigned Q8.8, half to even, at most 0xFFFE (R171). -/
def epsQ88 (e : List Int) : Nat := min 0xFFFE (rheDiv (maxMag e) 6).toNat

/-- PAN_GRADE_RESID of the latest graded products, each (Σ ε², count) (R171). -/
def gradeResid (l : List (Nat × Nat)) : Nat :=
  if l.isEmpty then 0xFFFF
  else
    let f := sumFractions l
    min 0xFFFE (sqrtRatioRhe f.1 (f.2 * l.length * 2 ^ 12))

end Sys2Proof
end

