-- ==== Sys2Proof/Machine/Regs.lean ====
section
/-! DEFINITION. The registers of the spec, generated from its register tables: name, block, offset, size, count,
access code and reset value (Tables 2.2, 3.9, 4.6, 4.9, 6.12, 7.7, 8.12, 9.13, 10.8, 10.10, 10.11, 11.11, 12.8, 13.9,
13.10, 14.11, 14.14, 15.10, 15.12 to 15.14, 16.7 to 16.9, 16.11). A reset the tables mark FW (or do not give) is 0 here
until ROM or firmware sets it (DESIGN CHOICE, log 5). A register wider than 64 bits is a row of 64-bit words
(DESIGN CHOICE, log 6). -/

namespace Sys2Proof

/-- The register blocks (Tables 12.4 to 12.7); the last six are per unit. -/
inductive RegBlock where
  | hif | tde | aon | syn | evt | wgt | kvc | srv | bpl | fab | sec | fwp | hlt | pwr | thm | hka | bbx | cnt | cntT
  | pan | cor | slc | cre | synDbg | phys
deriving DecidableEq, Repr

/-- Access codes of registers (Table 0.5, R14). -/
inductive Access where
  | ro | rw | w1c | roW1c
deriving DecidableEq, Repr

/-- A register, named as the spec names it. -/
inductive Reg where
  | TDE_CTRL | TDE_STATUS | TDE_PERIOD_ACT | TDE_PERIOD_STAGE | TDE_LEAD_ACT | TDE_LEAD_STAGE
  | TDE_SEAL_LEAD | TDE_EFFECT_TIDE | TDE_TIDE | TDE_LATCH_TIDE | TDE_TIME | TDE_EDGE_TIME
  | TDE_ROOT_OFFSET | TDE_REBASE_DELTA | TDE_INT_STATUS | TDE_INT_ENABLE | TDE_OVERRUN_COUNT | TDE_OVERRUN_LAST
  | TDE_FREERUN_TIDES | PAN_ID | PAN_STATE | PAN_CTRL | PAN_CONFIG | PAN_AGE
  | PAN_RAKE_RESID | PAN_GRADE_RESID | PAN_SPARE_USED | PAN_RAKE_TIDE_A | PAN_RAKE_TIDE_B | PAN_ACTIVE_TIDE
  | PAN_PRODUCTS | PAN_SAT_EVENTS | PAN_SAT_PASSES | PAN_SAT_FAULTS | PAN_SPILL_PASSES | PAN_CHK_MISMATCH
  | PAN_REFRESH_SWAPS | PAN_REFRESH_MISS | PAN_BED_WRITES | PAN_WRITE_ABORTS | PAN_RAKES | PAN_SPARE_MAP_A
  | PAN_SPARE_MAP_B | PAN_COEF_A | PAN_COEF_B | COR_ID | COR_STATUS | COR_CAPTURE_CTRL
  | COR_PRODUCTS | COR_OVF_REPEATS | COR_OVF_SAT | COR_ADD_EMPTY | COR_DRAIN_STALL_NS | COR_SPILL_PASSES
  | COR_SAVES | COR_RESTORES | COR_CRU_ADDS | COR_CRU_SAT | COR_CRU_SLOTS | COR_CAPTURE
  | SLC_STORE_USED | SLC_DYN_MAX | SLC_SPILL_SHIFT | SLC_THRESH | SLC_MACS | SLC_DYN_ROWS
  | SLC_SPILL_ROWS | SLC_FETCH_MISS | SLC_FETCH_WAIT_NS | SLC_LANE_WAIT_NS | SLC_BUSY_CYCLES | WGT_CAPS
  | WGT_LOAD_CTRL | WGT_LOAD_STATUS | WGT_SLOT_STATE | WGT_LOAD_ADDR | WGT_LOAD_LEN | WGT_SHARDS_TOTAL
  | WGT_SHARDS_OK | WGT_SHARD_TIMEOUT | WGT_RETRY_WAIT | WGT_HOLD_MS | WGT_PIN_TIMEOUT | WGT_RECV_WAIT
  | WGT_RECV_GEN | WGT_RECV_MODEL_ID | WGT_MODEL_ID_0 | WGT_MODEL_ID_1 | WGT_GEN | WGT_EFFECT_TIDE
  | WGT_SWITCH_TIDE | WGT_PIN_WAIT | WGT_HOST_TIER_ADDR | WGT_HOST_TIER_LEN | WGT_HOLD_BYTES | WGT_ADAPTER_REGION
  | WGT_ADAPTERS | WGT_INT_STATUS | WGT_INT_ENABLE | WGT_STREAM_STALL_NS | WGT_STREAM_BYTES | WGT_HOST_TIER_WAIT_NS
  | WGT_SHARD_RETRIES | WGT_SHARD_SERVED | WGT_TIER_READ_FAULTS | WGT_TRUST_CTRL | WGT_TRUST_DIGEST | KVC_CAPS
  | KVC_STATUS | KVC_INT_STATUS | KVC_INT_ENABLE | KVC_RESERVE_BYTES | KVC_BUDGET_BYTES | KVC_BUDGET_EFF
  | KVC_PAGE_BYTES | KVC_SEQ_OPEN | KVC_POOL_PAGES | KVC_POOL_FREE | KVC_GEN_RESERVE | KVC_SPENT_LAST
  | KVC_SPENT_GEN_LAST | KVC_SPENT_PROMPT_LAST | KVC_READ_BYTES | KVC_WRITE_BYTES | KVC_BLOCKS_SKIPPED | KVC_ZERO_GROUPS
  | KVC_SLIDES | KVC_REFUSALS | KVC_PROMPT_PAUSE_TIDES | KVC_GEN_SHORT | KVC_BUCKET_SEQ | KVC_PT_SEL
  | KVC_PT_ENTRY | KVC_SEQ_BASE | KVC_SEQ_NEXT | KVC_SEQ_INFO | SRV_CAPS | SRV_STATUS
  | SRV_INT_STATUS | SRV_INT_ENABLE | SRV_ADMQ_SQ_BASE | SRV_ADMQ_CQ_BASE | SRV_ADMQ_CTRL | SRV_QP_FIRST
  | SRV_QP_COUNT | SRV_QP_SEL | SRV_QP_STATE | SRV_QP_RUNG | SRV_CMDS | SRV_LATE
  | SRV_LATE_DROPPED | SRV_CANCELLED | SRV_SPEC_PROPOSED | SRV_SPEC_ACCEPTED | SRV_VOIDED | SRV_DB_IGNORED
  | SRV_CQ_FULL_TIDES | SRV_TOKENS_OUT | SRV_FRAMES_IN | SRV_FRAMES_OUT | BPL_CAPS | BPL_CTRL
  | BPL_STATUS | BPL_SLOT_STATE | BPL_LOAD_ADDR | BPL_LOAD_LEN | BPL_FAIL_SECTION | BPL_FAIL_OFFSET
  | BPL_EFFECT_TIDE | BPL_SWITCH_TIDE | BPL_PLACE_EPOCH | BPL_INT_STATUS | BPL_INT_ENABLE | BPL_PLAN_ID_0
  | BPL_PLAN_ID_1 | BPL_MODEL_ID_0 | BPL_MODEL_ID_1 | BPL_DUMP_ADDR | BPL_DUMP_LEN | BPL_PL_SEL
  | BPL_PL_ENTRY | BPL_CORES_PLACED | BPL_CORES_DEGRADED | BPL_REPLACEMENTS | SYN_DBG_VALUE | SYN_DBG_LAST_SRC
  | SYN_DBG_LAST_OP | SYN_DBG_LAST_TIDE | SYN_DBG_WAITERS | SYN_DBG_LAST_TIME | SYN_DBG_WAITER0 | SYN_DBG_COND0
  | SYN_DBG_TARGET0 | SYN_DBG_WAITER1 | SYN_DBG_COND1 | SYN_DBG_TARGET1 | CRE_ID | CRE_CTX_STATE
  | CRE_HOIST_STATE | CRE_CTX_STEP | CRE_ISSUE_CYCLES | CRE_SWITCHES | CRE_SYNC_WAIT_NS | CRE_HOIST_WAIT_NS
  | CRE_LANE_WAIT_NS | CRE_IDLE_NS | CRE_HOIST0_BYTES | CRE_HOIST1_BYTES | CRE_HOIST_DEMAND | CRE_FENCES
  | CRE_FENCE_NS | SYN_CAPS | SYN_SHARE_BASE | SYN_SHARE_COUNT | SYN_ALLOC_SEL | SYN_ALLOC_BASE
  | SYN_ALLOC_CTRL | SYN_STALL_TIDES | SYN_INT_STATUS | SYN_INT_ENABLE | SYN_POOL_OPS | SYN_POOL_REMOTE_OPS
  | SYN_POOL_REFUSED | FAB_CAPS | FAB_CTRL | FAB_STATUS | FAB_ADDR | FAB_DIMS
  | FAB_ROOT | FAB_SYSTEM_ID | FAB_MAP_ADDR | FAB_MAP_LEN | FAB_MAP_EPOCH | FAB_INT_STATUS
  | FAB_INT_ENABLE | FAB_OP_TIMEOUT | FAB_RETRY_TIDES | FAB_ROUTE_EPOCH | FAB_LINK_SEL | FAB_LINK_STATE
  | FAB_LINK_PEER | FAB_LINK_DELAY | FAB_LINK_CTRL | FAB_LINK_FEC_CORR | FAB_LINK_FEC_UNCORR | FAB_LINK_CRC_ERR
  | FAB_LINK_REPLAYS | FAB_LINK_RETRAINS | FAB_LINK_INDET | FAB_GENMIX_COUNT | FAB_VER_DROPS | FAB_UNREACH_COUNT
  | FAB_PHASE2_PKTS | FAB_MARKER_SKEW | FAB_LSU_RX | FAB_LINK_PEER_KEY | HIF_ID | HIF_CAPS
  | HIF_PRESENCE | HIF_DEV_STATE | HIF_EMU_STATUS | HIF_EMU_DROPS | HIF_INT_STATUS | HIF_INT_ENABLE
  | HIF_COAL | HIF_LINK_STATUS | HIF_DMA_ERRORS | HIF_BAD_ACCESS | HIF_WIN0_SEL | HIF_WIN1_SEL
  | HIF_WIN_STATUS | HIF_FN_SEL | HIF_FN_QP_FIRST | HIF_FN_QP_COUNT | HIF_FN_SESSIONS | HIF_FN_CTRL
  | HIF_FN_OPEN | SEC_CAPS | SEC_STATUS | SEC_INT_STATUS | SEC_INT_ENABLE | SEC_KEY_ID
  | SEC_PUB_E | SEC_CERT_LEN | SEC_CERT_OFF | SEC_MEAS_SEL | SEC_SPDM_ERRORS | SEC_MEAS_DIGEST
  | SEC_PUB_N | SEC_CERT_DATA | FWP_STATUS | FWP_CTRL | FWP_FW_VERSION | FWP_SVN
  | FWP_IMG_ADDR | FWP_IMG_LEN | FWP_INT_STATUS | FWP_INT_ENABLE | FWP_READY_TIME | FWP_ST_RESULT
  | FWP_ST_HBM_FAIL | FWP_ST_LINK_FAIL | FWP_RESTARTS_SEC | FWP_RESTARTS_PWR | FWP_RESTARTS_SCH | FWP_RESTARTS_CCP
  | FWP_ST_CLUSTER_FAIL | HLT_CAPS | HLT_CTRL | HLT_STATUS | HLT_INT_STATUS | HLT_INT_ENABLE
  | HLT_GRADE_SAMPLES | HLT_SUSPECT_SAMPLES | HLT_SWEEP_PERIOD | HLT_DEFER_LIMIT | HLT_VOID_LIMIT | HLT_REQ_UNIT
  | HLT_REQ_STATUS | HLT_GRADED | HLT_GRADE_FAILS | HLT_CHK_TRIPS | HLT_SPARES_MAPPED | HLT_SWEEPS
  | HLT_SWEEP_MISMATCH | HLT_SWEEP_DEFERRED | HLT_MIGRATIONS | HLT_RETIREMENTS | HLT_CFG_CORRECTED | HLT_CFG_MISMATCH
  | HLT_MEM_CE | HLT_MEM_UE | HLT_KV_DAMAGED | HLT_VOID_EVENTS | HLT_HBM_FAIL | HLT_LINK_FAIL
  | HLT_LIST_COUNT | HLT_LIST_SEL | HLT_LIST_ENTRY | HLT_CPER_SEL | HLT_CPER_LEN | HLT_DIE_CAPACITY
  | HLT_CLUSTER_STATE | HLT_CPER_DATA | HLT_PC_STATE | HLT_PC_LOGICAL | HLT_PC_PAN_SUSPECT | HLT_PC_EVENTS
  | HLT_PC_LAST_FAULT | HLT_PC_LAST_TIDE | HLT_PC_SWEEP_TIDE | HLT_PC_DEFER | HLT_PC_GRADED | HLT_PC_GRADE_FAILS
  | HLT_PC_SWEEPS | HLT_PC_CE | HLT_PC_UE | PWR_CAPS | PWR_CTRL | PWR_STATUS
  | PWR_INT_STATUS | PWR_INT_ENABLE | PWR_VCORE_TARGET | PWR_VCORE_ACT | PWR_LIMIT | PWR_IDLE_TIDES
  | PWR_PKG_MW | PWR_ICORE_MA | PWR_ENERGY_UJ | PWR_TIDE_UJ | PWR_BRAKES | PWR_REG_WARNINGS
  | THM_THRESH | THM_STATUS | THM_INT_STATUS | THM_INT_ENABLE | THM_HOTTEST | THM_THROTTLE_TIDES
  | THM_WARN_EVENTS | THM_SENSOR | HKA_CTRL | HKA_STATUS | HKA_INT_STATUS | HKA_INT_ENABLE
  | HKA_REF_SCALE | HKA_REFIN_UV | HKA_SCANS | HKA_RAW | HKA_VALUE | HKA_COEF
  | HKA_RESID | AON_STATUS | AON_CTRL | AON_WAKE_EN | AON_TIME | AON_WAKE_TIME
  | AON_DEEP_SLEEPS | AON_WAKE_IGNORED | AON_CMP | BBX_STATUS | BBX_CTRL | BBX_FAULTS_LOST
  | BBX_SNAPS_LOST | BBX_CLEAR_TIME | BBX_SHUT_TIME | BBX_SHUT_TIDE | BBX_READ_OFF | BBX_INT_STATUS
  | BBX_INT_ENABLE | BBX_DATA | CNT_CAPS | CNT_PAN_WRITE_BYTES | CNT_SRAM_BYTES | CNT_CLUSTER_BYTES
  | CNT_DIE_NET_BYTES | CNT_D2D_CC | CNT_D2D_HOUSE | CNT_D2D_LINK | CNT_PCIE_DMA_RD | CNT_PCIE_DMA_WR
  | CNT_PCIE_BAR_WR | CNT_HBM_RD | CNT_HBM_WR | CNT_LINK_TX | CNT_LINK_RX | CNT_PRODUCTS
  | CNT_SLUICE_MACS | CNT_SAT_EVENTS | CNT_SAT_PASSES | CNT_SAT_FAULTS | CNT_SPILL_PASSES | CNT_OVF_REPEATS
  | CNT_OVF_SAT | CNT_OVERRUNS | CNT_GRADED | CNT_GRADE_FAILS | CNT_QSAT | CNT_KV_CHARGED
  | CNT_LAYER_SEL | CNT_LAYER | CNT_FN_SEL | CNT_FN_VIEW | CNT_T_FUNCTION | CNT_T_DMA_RD
  | CNT_T_DMA_WR | CNT_T_KV_CHARGED | CNT_T_KV_READ | CNT_T_KV_WRITE | CNT_T_PRODUCTS | CNT_T_OVERRUNS
  | CNT_T_QSAT | CNT_T_SLIDES | CNT_T_REFUSALS | EVT_CTRL | EVT_STATUS | EVT_INT_STATUS
  | EVT_INT_ENABLE | EVT_LOST | EVT_OFFERED | EVT_WFG_ADDR | EVT_WFG_LEN | EVT_WFG_EDGES
deriving DecidableEq, Repr

/-- What the register tables say of a register: `off` from the base of its block, `size` in bytes of one element,
`count` elements. -/
structure RegInfo where
  block : RegBlock
  off : Nat
  size : Nat
  count : Nat
  access : Access
  reset : Nat
deriving DecidableEq, Repr

/-- The rows of the register tables. -/
def Reg.info : Reg → RegInfo
  | .TDE_CTRL => ⟨.tde, 0x0, 4, 1, .rw, 0⟩
  | .TDE_STATUS => ⟨.tde, 0x4, 4, 1, .ro, 0x1⟩
  | .TDE_PERIOD_ACT => ⟨.tde, 0x8, 4, 1, .ro, 0x14⟩
  | .TDE_PERIOD_STAGE => ⟨.tde, 0xc, 4, 1, .rw, 0x14⟩
  | .TDE_LEAD_ACT => ⟨.tde, 0x10, 4, 1, .ro, 0xa⟩
  | .TDE_LEAD_STAGE => ⟨.tde, 0x14, 4, 1, .rw, 0xa⟩
  | .TDE_SEAL_LEAD => ⟨.tde, 0x18, 4, 1, .ro, 0x1f4⟩
  | .TDE_EFFECT_TIDE => ⟨.tde, 0x1c, 4, 1, .rw, 0⟩
  | .TDE_TIDE => ⟨.tde, 0x20, 4, 1, .ro, 0⟩
  | .TDE_LATCH_TIDE => ⟨.tde, 0x24, 4, 1, .ro, 0⟩
  | .TDE_TIME => ⟨.tde, 0x28, 8, 1, .ro, 0⟩
  | .TDE_EDGE_TIME => ⟨.tde, 0x30, 8, 1, .ro, 0⟩
  | .TDE_ROOT_OFFSET => ⟨.tde, 0x38, 4, 1, .ro, 0⟩
  | .TDE_REBASE_DELTA => ⟨.tde, 0x3c, 4, 1, .ro, 0⟩
  | .TDE_INT_STATUS => ⟨.tde, 0x40, 4, 1, .w1c, 0⟩
  | .TDE_INT_ENABLE => ⟨.tde, 0x44, 4, 1, .rw, 0⟩
  | .TDE_OVERRUN_COUNT => ⟨.tde, 0x48, 8, 1, .ro, 0⟩
  | .TDE_OVERRUN_LAST => ⟨.tde, 0x50, 4, 1, .ro, 0⟩
  | .TDE_FREERUN_TIDES => ⟨.tde, 0x58, 8, 1, .ro, 0⟩
  | .PAN_ID => ⟨.pan, 0x0, 4, 1, .ro, 0⟩
  | .PAN_STATE => ⟨.pan, 0x4, 4, 1, .ro, 0⟩
  | .PAN_CTRL => ⟨.pan, 0x8, 4, 1, .rw, 0⟩
  | .PAN_CONFIG => ⟨.pan, 0xc, 4, 1, .ro, 0⟩
  | .PAN_AGE => ⟨.pan, 0x10, 4, 1, .ro, 0⟩
  | .PAN_RAKE_RESID => ⟨.pan, 0x14, 4, 1, .ro, 0⟩
  | .PAN_GRADE_RESID => ⟨.pan, 0x18, 4, 1, .ro, 0xffff⟩
  | .PAN_SPARE_USED => ⟨.pan, 0x1c, 4, 1, .ro, 0⟩
  | .PAN_RAKE_TIDE_A => ⟨.pan, 0x20, 4, 1, .ro, 0⟩
  | .PAN_RAKE_TIDE_B => ⟨.pan, 0x24, 4, 1, .ro, 0⟩
  | .PAN_ACTIVE_TIDE => ⟨.pan, 0x28, 4, 1, .ro, 0⟩
  | .PAN_PRODUCTS => ⟨.pan, 0x30, 8, 1, .ro, 0⟩
  | .PAN_SAT_EVENTS => ⟨.pan, 0x38, 8, 1, .ro, 0⟩
  | .PAN_SAT_PASSES => ⟨.pan, 0x40, 8, 1, .ro, 0⟩
  | .PAN_SAT_FAULTS => ⟨.pan, 0x48, 8, 1, .ro, 0⟩
  | .PAN_SPILL_PASSES => ⟨.pan, 0x50, 8, 1, .ro, 0⟩
  | .PAN_CHK_MISMATCH => ⟨.pan, 0x58, 8, 1, .ro, 0⟩
  | .PAN_REFRESH_SWAPS => ⟨.pan, 0x60, 8, 1, .ro, 0⟩
  | .PAN_REFRESH_MISS => ⟨.pan, 0x68, 8, 1, .ro, 0⟩
  | .PAN_BED_WRITES => ⟨.pan, 0x70, 8, 1, .ro, 0⟩
  | .PAN_WRITE_ABORTS => ⟨.pan, 0x78, 8, 1, .ro, 0⟩
  | .PAN_RAKES => ⟨.pan, 0x80, 8, 1, .ro, 0⟩
  | .PAN_SPARE_MAP_A => ⟨.pan, 0x100, 4, 16, .ro, 0⟩
  | .PAN_SPARE_MAP_B => ⟨.pan, 0x140, 4, 16, .ro, 0⟩
  | .PAN_COEF_A => ⟨.pan, 0x1000, 4, 544, .ro, 0⟩
  | .PAN_COEF_B => ⟨.pan, 0x2000, 4, 544, .ro, 0⟩
  | .COR_ID => ⟨.cor, 0x0, 4, 1, .ro, 0⟩
  | .COR_STATUS => ⟨.cor, 0x4, 4, 1, .ro, 0⟩
  | .COR_CAPTURE_CTRL => ⟨.cor, 0x8, 4, 1, .rw, 0⟩
  | .COR_PRODUCTS => ⟨.cor, 0x10, 8, 1, .ro, 0⟩
  | .COR_OVF_REPEATS => ⟨.cor, 0x18, 8, 1, .ro, 0⟩
  | .COR_OVF_SAT => ⟨.cor, 0x20, 8, 1, .ro, 0⟩
  | .COR_ADD_EMPTY => ⟨.cor, 0x28, 8, 1, .ro, 0⟩
  | .COR_DRAIN_STALL_NS => ⟨.cor, 0x30, 8, 1, .ro, 0⟩
  | .COR_SPILL_PASSES => ⟨.cor, 0x38, 8, 1, .ro, 0⟩
  | .COR_SAVES => ⟨.cor, 0x40, 8, 1, .ro, 0⟩
  | .COR_RESTORES => ⟨.cor, 0x48, 8, 1, .ro, 0⟩
  | .COR_CRU_ADDS => ⟨.cor, 0x200, 8, 1, .ro, 0⟩
  | .COR_CRU_SAT => ⟨.cor, 0x208, 8, 1, .ro, 0⟩
  | .COR_CRU_SLOTS => ⟨.cor, 0x210, 4, 1, .ro, 0⟩
  | .COR_CAPTURE => ⟨.cor, 0x4000, 8, 2048, .ro, 0⟩
  | .SLC_STORE_USED => ⟨.slc, 0x0, 4, 1, .ro, 0⟩
  | .SLC_DYN_MAX => ⟨.slc, 0x4, 4, 1, .ro, 0x10⟩
  | .SLC_SPILL_SHIFT => ⟨.slc, 0x8, 4, 1, .ro, 0⟩
  | .SLC_THRESH => ⟨.slc, 0x10, 4, 4, .ro, 0⟩
  | .SLC_MACS => ⟨.slc, 0x40, 8, 1, .ro, 0⟩
  | .SLC_DYN_ROWS => ⟨.slc, 0x48, 8, 1, .ro, 0⟩
  | .SLC_SPILL_ROWS => ⟨.slc, 0x50, 8, 1, .ro, 0⟩
  | .SLC_FETCH_MISS => ⟨.slc, 0x58, 8, 1, .ro, 0⟩
  | .SLC_FETCH_WAIT_NS => ⟨.slc, 0x60, 8, 1, .ro, 0⟩
  | .SLC_LANE_WAIT_NS => ⟨.slc, 0x68, 8, 1, .ro, 0⟩
  | .SLC_BUSY_CYCLES => ⟨.slc, 0x70, 8, 1, .ro, 0⟩
  | .WGT_CAPS => ⟨.wgt, 0x0, 4, 1, .ro, 0⟩
  | .WGT_LOAD_CTRL => ⟨.wgt, 0x4, 4, 1, .rw, 0⟩
  | .WGT_LOAD_STATUS => ⟨.wgt, 0x8, 4, 1, .ro, 0⟩
  | .WGT_SLOT_STATE => ⟨.wgt, 0xc, 4, 1, .ro, 0⟩
  | .WGT_LOAD_ADDR => ⟨.wgt, 0x10, 8, 1, .rw, 0⟩
  | .WGT_LOAD_LEN => ⟨.wgt, 0x18, 8, 1, .rw, 0⟩
  | .WGT_SHARDS_TOTAL => ⟨.wgt, 0x20, 4, 1, .ro, 0⟩
  | .WGT_SHARDS_OK => ⟨.wgt, 0x24, 4, 1, .ro, 0⟩
  | .WGT_SHARD_TIMEOUT => ⟨.wgt, 0x28, 4, 1, .rw, 0x7d0⟩
  | .WGT_RETRY_WAIT => ⟨.wgt, 0x2c, 4, 1, .rw, 0x32⟩
  | .WGT_HOLD_MS => ⟨.wgt, 0x30, 4, 1, .rw, 0x1388⟩
  | .WGT_PIN_TIMEOUT => ⟨.wgt, 0x34, 4, 1, .rw, 0x5dc⟩
  | .WGT_RECV_WAIT => ⟨.wgt, 0x38, 4, 1, .rw, 0xea60⟩
  | .WGT_RECV_GEN => ⟨.wgt, 0x3c, 4, 1, .rw, 0⟩
  | .WGT_RECV_MODEL_ID => ⟨.wgt, 0x40, 8, 2, .rw, 0⟩
  | .WGT_MODEL_ID_0 => ⟨.wgt, 0x50, 8, 2, .ro, 0⟩
  | .WGT_MODEL_ID_1 => ⟨.wgt, 0x60, 8, 2, .ro, 0⟩
  | .WGT_GEN => ⟨.wgt, 0x70, 4, 1, .ro, 0⟩
  | .WGT_EFFECT_TIDE => ⟨.wgt, 0x74, 4, 1, .rw, 0⟩
  | .WGT_SWITCH_TIDE => ⟨.wgt, 0x78, 4, 1, .ro, 0⟩
  | .WGT_PIN_WAIT => ⟨.wgt, 0x7c, 4, 1, .ro, 0⟩
  | .WGT_HOST_TIER_ADDR => ⟨.wgt, 0x80, 8, 1, .rw, 0⟩
  | .WGT_HOST_TIER_LEN => ⟨.wgt, 0x88, 8, 1, .rw, 0⟩
  | .WGT_HOLD_BYTES => ⟨.wgt, 0x90, 8, 1, .rw, 0x100000000⟩
  | .WGT_ADAPTER_REGION => ⟨.wgt, 0x98, 8, 1, .rw, 0x1000000000⟩
  | .WGT_ADAPTERS => ⟨.wgt, 0xa0, 4, 1, .ro, 0⟩
  | .WGT_INT_STATUS => ⟨.wgt, 0xa4, 4, 1, .w1c, 0⟩
  | .WGT_INT_ENABLE => ⟨.wgt, 0xa8, 4, 1, .rw, 0⟩
  | .WGT_STREAM_STALL_NS => ⟨.wgt, 0xb0, 8, 1, .ro, 0⟩
  | .WGT_STREAM_BYTES => ⟨.wgt, 0xb8, 8, 1, .ro, 0⟩
  | .WGT_HOST_TIER_WAIT_NS => ⟨.wgt, 0xc0, 8, 1, .ro, 0⟩
  | .WGT_SHARD_RETRIES => ⟨.wgt, 0xc8, 8, 1, .ro, 0⟩
  | .WGT_SHARD_SERVED => ⟨.wgt, 0xd0, 8, 1, .ro, 0⟩
  | .WGT_TIER_READ_FAULTS => ⟨.wgt, 0xd8, 8, 1, .ro, 0⟩
  | .WGT_TRUST_CTRL => ⟨.wgt, 0x100, 4, 1, .rw, 0⟩
  | .WGT_TRUST_DIGEST => ⟨.wgt, 0x140, 8, 8, .rw, 0⟩
  | .KVC_CAPS => ⟨.kvc, 0x0, 4, 1, .ro, 0⟩
  | .KVC_STATUS => ⟨.kvc, 0x4, 4, 1, .ro, 0⟩
  | .KVC_INT_STATUS => ⟨.kvc, 0x8, 4, 1, .w1c, 0⟩
  | .KVC_INT_ENABLE => ⟨.kvc, 0xc, 4, 1, .rw, 0⟩
  | .KVC_RESERVE_BYTES => ⟨.kvc, 0x10, 8, 1, .rw, 0⟩
  | .KVC_BUDGET_BYTES => ⟨.kvc, 0x18, 8, 1, .rw, 0⟩
  | .KVC_BUDGET_EFF => ⟨.kvc, 0x20, 8, 1, .ro, 0⟩
  | .KVC_PAGE_BYTES => ⟨.kvc, 0x28, 4, 1, .ro, 0⟩
  | .KVC_SEQ_OPEN => ⟨.kvc, 0x2c, 4, 1, .ro, 0⟩
  | .KVC_POOL_PAGES => ⟨.kvc, 0x30, 4, 1, .ro, 0⟩
  | .KVC_POOL_FREE => ⟨.kvc, 0x34, 4, 1, .ro, 0⟩
  | .KVC_GEN_RESERVE => ⟨.kvc, 0x38, 4, 1, .ro, 0⟩
  | .KVC_SPENT_LAST => ⟨.kvc, 0x40, 8, 1, .ro, 0⟩
  | .KVC_SPENT_GEN_LAST => ⟨.kvc, 0x48, 8, 1, .ro, 0⟩
  | .KVC_SPENT_PROMPT_LAST => ⟨.kvc, 0x50, 8, 1, .ro, 0⟩
  | .KVC_READ_BYTES => ⟨.kvc, 0x58, 8, 1, .ro, 0⟩
  | .KVC_WRITE_BYTES => ⟨.kvc, 0x60, 8, 1, .ro, 0⟩
  | .KVC_BLOCKS_SKIPPED => ⟨.kvc, 0x68, 8, 1, .ro, 0⟩
  | .KVC_ZERO_GROUPS => ⟨.kvc, 0x70, 8, 1, .ro, 0⟩
  | .KVC_SLIDES => ⟨.kvc, 0x78, 8, 1, .ro, 0⟩
  | .KVC_REFUSALS => ⟨.kvc, 0x80, 8, 1, .ro, 0⟩
  | .KVC_PROMPT_PAUSE_TIDES => ⟨.kvc, 0x88, 8, 1, .ro, 0⟩
  | .KVC_GEN_SHORT => ⟨.kvc, 0x90, 8, 1, .ro, 0⟩
  | .KVC_BUCKET_SEQ => ⟨.kvc, 0xa0, 4, 4, .ro, 0⟩
  | .KVC_PT_SEL => ⟨.kvc, 0xc0, 4, 1, .rw, 0⟩
  | .KVC_PT_ENTRY => ⟨.kvc, 0xc4, 4, 1, .ro, 0⟩
  | .KVC_SEQ_BASE => ⟨.kvc, 0xc8, 4, 1, .ro, 0⟩
  | .KVC_SEQ_NEXT => ⟨.kvc, 0xcc, 4, 1, .ro, 0⟩
  | .KVC_SEQ_INFO => ⟨.kvc, 0xd0, 4, 1, .ro, 0⟩
  | .SRV_CAPS => ⟨.srv, 0x0, 4, 1, .ro, 0⟩
  | .SRV_STATUS => ⟨.srv, 0x4, 4, 1, .ro, 0⟩
  | .SRV_INT_STATUS => ⟨.srv, 0x8, 4, 1, .w1c, 0⟩
  | .SRV_INT_ENABLE => ⟨.srv, 0xc, 4, 1, .rw, 0⟩
  | .SRV_ADMQ_SQ_BASE => ⟨.srv, 0x10, 8, 1, .rw, 0⟩
  | .SRV_ADMQ_CQ_BASE => ⟨.srv, 0x18, 8, 1, .rw, 0⟩
  | .SRV_ADMQ_CTRL => ⟨.srv, 0x20, 4, 1, .rw, 0⟩
  | .SRV_QP_FIRST => ⟨.srv, 0x24, 4, 1, .ro, 0⟩
  | .SRV_QP_COUNT => ⟨.srv, 0x28, 4, 1, .ro, 0⟩
  | .SRV_QP_SEL => ⟨.srv, 0x2c, 4, 1, .rw, 0⟩
  | .SRV_QP_STATE => ⟨.srv, 0x30, 4, 1, .ro, 0⟩
  | .SRV_QP_RUNG => ⟨.srv, 0x34, 4, 1, .ro, 0⟩
  | .SRV_CMDS => ⟨.srv, 0x40, 8, 1, .ro, 0⟩
  | .SRV_LATE => ⟨.srv, 0x48, 8, 1, .ro, 0⟩
  | .SRV_LATE_DROPPED => ⟨.srv, 0x50, 8, 1, .ro, 0⟩
  | .SRV_CANCELLED => ⟨.srv, 0x58, 8, 1, .ro, 0⟩
  | .SRV_SPEC_PROPOSED => ⟨.srv, 0x60, 8, 1, .ro, 0⟩
  | .SRV_SPEC_ACCEPTED => ⟨.srv, 0x68, 8, 1, .ro, 0⟩
  | .SRV_VOIDED => ⟨.srv, 0x70, 8, 1, .ro, 0⟩
  | .SRV_DB_IGNORED => ⟨.srv, 0x78, 8, 1, .ro, 0⟩
  | .SRV_CQ_FULL_TIDES => ⟨.srv, 0x80, 8, 1, .ro, 0⟩
  | .SRV_TOKENS_OUT => ⟨.srv, 0x88, 8, 1, .ro, 0⟩
  | .SRV_FRAMES_IN => ⟨.srv, 0x90, 8, 1, .ro, 0⟩
  | .SRV_FRAMES_OUT => ⟨.srv, 0x98, 8, 1, .ro, 0⟩
  | .BPL_CAPS => ⟨.bpl, 0x0, 4, 1, .ro, 0⟩
  | .BPL_CTRL => ⟨.bpl, 0x4, 4, 1, .rw, 0⟩
  | .BPL_STATUS => ⟨.bpl, 0x8, 4, 1, .ro, 0⟩
  | .BPL_SLOT_STATE => ⟨.bpl, 0xc, 4, 1, .ro, 0⟩
  | .BPL_LOAD_ADDR => ⟨.bpl, 0x10, 8, 1, .rw, 0⟩
  | .BPL_LOAD_LEN => ⟨.bpl, 0x18, 8, 1, .rw, 0⟩
  | .BPL_FAIL_SECTION => ⟨.bpl, 0x20, 4, 1, .ro, 0⟩
  | .BPL_FAIL_OFFSET => ⟨.bpl, 0x24, 4, 1, .ro, 0⟩
  | .BPL_EFFECT_TIDE => ⟨.bpl, 0x28, 4, 1, .rw, 0⟩
  | .BPL_SWITCH_TIDE => ⟨.bpl, 0x2c, 4, 1, .ro, 0⟩
  | .BPL_PLACE_EPOCH => ⟨.bpl, 0x30, 4, 1, .ro, 0⟩
  | .BPL_INT_STATUS => ⟨.bpl, 0x34, 4, 1, .w1c, 0⟩
  | .BPL_INT_ENABLE => ⟨.bpl, 0x38, 4, 1, .rw, 0⟩
  | .BPL_PLAN_ID_0 => ⟨.bpl, 0x40, 8, 2, .ro, 0⟩
  | .BPL_PLAN_ID_1 => ⟨.bpl, 0x50, 8, 2, .ro, 0⟩
  | .BPL_MODEL_ID_0 => ⟨.bpl, 0x60, 8, 2, .ro, 0⟩
  | .BPL_MODEL_ID_1 => ⟨.bpl, 0x70, 8, 2, .ro, 0⟩
  | .BPL_DUMP_ADDR => ⟨.bpl, 0x80, 8, 1, .rw, 0⟩
  | .BPL_DUMP_LEN => ⟨.bpl, 0x88, 4, 1, .rw, 0⟩
  | .BPL_PL_SEL => ⟨.bpl, 0x8c, 4, 1, .rw, 0⟩
  | .BPL_PL_ENTRY => ⟨.bpl, 0x90, 8, 2, .ro, 0⟩
  | .BPL_CORES_PLACED => ⟨.bpl, 0xa0, 4, 1, .ro, 0⟩
  | .BPL_CORES_DEGRADED => ⟨.bpl, 0xa4, 4, 1, .ro, 0⟩
  | .BPL_REPLACEMENTS => ⟨.bpl, 0xa8, 8, 1, .ro, 0⟩
  | .SYN_DBG_VALUE => ⟨.synDbg, 0x0, 8, 1, .ro, 0⟩
  | .SYN_DBG_LAST_SRC => ⟨.synDbg, 0x8, 4, 1, .ro, 0⟩
  | .SYN_DBG_LAST_OP => ⟨.synDbg, 0xc, 4, 1, .ro, 0⟩
  | .SYN_DBG_LAST_TIDE => ⟨.synDbg, 0x10, 4, 1, .ro, 0⟩
  | .SYN_DBG_WAITERS => ⟨.synDbg, 0x14, 4, 1, .ro, 0⟩
  | .SYN_DBG_LAST_TIME => ⟨.synDbg, 0x18, 8, 1, .ro, 0⟩
  | .SYN_DBG_WAITER0 => ⟨.synDbg, 0x20, 4, 1, .ro, 0⟩
  | .SYN_DBG_COND0 => ⟨.synDbg, 0x24, 4, 1, .ro, 0⟩
  | .SYN_DBG_TARGET0 => ⟨.synDbg, 0x28, 8, 1, .ro, 0⟩
  | .SYN_DBG_WAITER1 => ⟨.synDbg, 0x30, 4, 1, .ro, 0⟩
  | .SYN_DBG_COND1 => ⟨.synDbg, 0x34, 4, 1, .ro, 0⟩
  | .SYN_DBG_TARGET1 => ⟨.synDbg, 0x38, 8, 1, .ro, 0⟩
  | .CRE_ID => ⟨.cre, 0x0, 4, 1, .ro, 0⟩
  | .CRE_CTX_STATE => ⟨.cre, 0x4, 4, 1, .ro, 0⟩
  | .CRE_HOIST_STATE => ⟨.cre, 0x8, 4, 1, .ro, 0⟩
  | .CRE_CTX_STEP => ⟨.cre, 0x10, 4, 4, .ro, 0⟩
  | .CRE_ISSUE_CYCLES => ⟨.cre, 0x40, 8, 1, .ro, 0⟩
  | .CRE_SWITCHES => ⟨.cre, 0x48, 8, 1, .ro, 0⟩
  | .CRE_SYNC_WAIT_NS => ⟨.cre, 0x50, 8, 1, .ro, 0⟩
  | .CRE_HOIST_WAIT_NS => ⟨.cre, 0x58, 8, 1, .ro, 0⟩
  | .CRE_LANE_WAIT_NS => ⟨.cre, 0x60, 8, 1, .ro, 0⟩
  | .CRE_IDLE_NS => ⟨.cre, 0x68, 8, 1, .ro, 0⟩
  | .CRE_HOIST0_BYTES => ⟨.cre, 0x70, 8, 1, .ro, 0⟩
  | .CRE_HOIST1_BYTES => ⟨.cre, 0x78, 8, 1, .ro, 0⟩
  | .CRE_HOIST_DEMAND => ⟨.cre, 0x80, 8, 1, .ro, 0⟩
  | .CRE_FENCES => ⟨.cre, 0x88, 8, 1, .ro, 0⟩
  | .CRE_FENCE_NS => ⟨.cre, 0x90, 8, 1, .ro, 0⟩
  | .SYN_CAPS => ⟨.syn, 0x0, 4, 1, .ro, 0x2000030⟩
  | .SYN_SHARE_BASE => ⟨.syn, 0x4, 4, 1, .ro, 0⟩
  | .SYN_SHARE_COUNT => ⟨.syn, 0x8, 4, 1, .ro, 0⟩
  | .SYN_ALLOC_SEL => ⟨.syn, 0x10, 4, 1, .rw, 0⟩
  | .SYN_ALLOC_BASE => ⟨.syn, 0x14, 4, 1, .rw, 0⟩
  | .SYN_ALLOC_CTRL => ⟨.syn, 0x18, 4, 1, .rw, 0⟩
  | .SYN_STALL_TIDES => ⟨.syn, 0x1c, 4, 1, .rw, 0x8⟩
  | .SYN_INT_STATUS => ⟨.syn, 0x20, 4, 1, .w1c, 0⟩
  | .SYN_INT_ENABLE => ⟨.syn, 0x24, 4, 1, .rw, 0⟩
  | .SYN_POOL_OPS => ⟨.syn, 0x40, 8, 1, .ro, 0⟩
  | .SYN_POOL_REMOTE_OPS => ⟨.syn, 0x48, 8, 1, .ro, 0⟩
  | .SYN_POOL_REFUSED => ⟨.syn, 0x50, 8, 1, .ro, 0⟩
  | .FAB_CAPS => ⟨.fab, 0x0, 4, 1, .ro, 0⟩
  | .FAB_CTRL => ⟨.fab, 0x4, 4, 1, .rw, 0⟩
  | .FAB_STATUS => ⟨.fab, 0x8, 4, 1, .ro, 0⟩
  | .FAB_ADDR => ⟨.fab, 0xc, 4, 1, .ro, 0⟩
  | .FAB_DIMS => ⟨.fab, 0x10, 4, 1, .rw, 0⟩
  | .FAB_ROOT => ⟨.fab, 0x14, 4, 1, .ro, 0⟩
  | .FAB_SYSTEM_ID => ⟨.fab, 0x18, 8, 1, .rw, 0⟩
  | .FAB_MAP_ADDR => ⟨.fab, 0x20, 8, 1, .rw, 0⟩
  | .FAB_MAP_LEN => ⟨.fab, 0x28, 4, 1, .rw, 0⟩
  | .FAB_MAP_EPOCH => ⟨.fab, 0x2c, 4, 1, .ro, 0⟩
  | .FAB_INT_STATUS => ⟨.fab, 0x30, 4, 1, .w1c, 0⟩
  | .FAB_INT_ENABLE => ⟨.fab, 0x34, 4, 1, .rw, 0⟩
  | .FAB_OP_TIMEOUT => ⟨.fab, 0x38, 4, 1, .rw, 0x3e8⟩
  | .FAB_RETRY_TIDES => ⟨.fab, 0x3c, 4, 1, .rw, 0x10⟩
  | .FAB_ROUTE_EPOCH => ⟨.fab, 0x40, 4, 1, .ro, 0⟩
  | .FAB_LINK_SEL => ⟨.fab, 0x44, 4, 1, .rw, 0⟩
  | .FAB_LINK_STATE => ⟨.fab, 0x48, 4, 1, .ro, 0⟩
  | .FAB_LINK_PEER => ⟨.fab, 0x4c, 4, 1, .ro, 0⟩
  | .FAB_LINK_DELAY => ⟨.fab, 0x50, 4, 1, .ro, 0⟩
  | .FAB_LINK_CTRL => ⟨.fab, 0x54, 4, 1, .rw, 0⟩
  | .FAB_LINK_FEC_CORR => ⟨.fab, 0x58, 8, 1, .ro, 0⟩
  | .FAB_LINK_FEC_UNCORR => ⟨.fab, 0x60, 8, 1, .ro, 0⟩
  | .FAB_LINK_CRC_ERR => ⟨.fab, 0x68, 8, 1, .ro, 0⟩
  | .FAB_LINK_REPLAYS => ⟨.fab, 0x70, 8, 1, .ro, 0⟩
  | .FAB_LINK_RETRAINS => ⟨.fab, 0x78, 8, 1, .ro, 0⟩
  | .FAB_LINK_INDET => ⟨.fab, 0x80, 8, 1, .ro, 0⟩
  | .FAB_GENMIX_COUNT => ⟨.fab, 0x88, 8, 1, .ro, 0⟩
  | .FAB_VER_DROPS => ⟨.fab, 0x90, 8, 1, .ro, 0⟩
  | .FAB_UNREACH_COUNT => ⟨.fab, 0x98, 8, 1, .ro, 0⟩
  | .FAB_PHASE2_PKTS => ⟨.fab, 0xa0, 8, 1, .ro, 0⟩
  | .FAB_MARKER_SKEW => ⟨.fab, 0xa8, 8, 1, .ro, 0⟩
  | .FAB_LSU_RX => ⟨.fab, 0xb0, 8, 1, .ro, 0⟩
  | .FAB_LINK_PEER_KEY => ⟨.fab, 0xc0, 8, 2, .ro, 0⟩
  | .HIF_ID => ⟨.hif, 0x0, 4, 1, .ro, 0⟩
  | .HIF_CAPS => ⟨.hif, 0x4, 4, 1, .ro, 0⟩
  | .HIF_PRESENCE => ⟨.hif, 0x8, 4, 1, .ro, 0⟩
  | .HIF_DEV_STATE => ⟨.hif, 0xc, 4, 1, .ro, 0⟩
  | .HIF_EMU_STATUS => ⟨.hif, 0x10, 4, 1, .roW1c, 0⟩
  | .HIF_EMU_DROPS => ⟨.hif, 0x14, 4, 1, .ro, 0⟩
  | .HIF_INT_STATUS => ⟨.hif, 0x18, 4, 1, .w1c, 0⟩
  | .HIF_INT_ENABLE => ⟨.hif, 0x1c, 4, 1, .rw, 0⟩
  | .HIF_COAL => ⟨.hif, 0x20, 4, 1, .rw, 0x101⟩
  | .HIF_LINK_STATUS => ⟨.hif, 0x24, 4, 1, .ro, 0⟩
  | .HIF_DMA_ERRORS => ⟨.hif, 0x28, 8, 1, .ro, 0⟩
  | .HIF_BAD_ACCESS => ⟨.hif, 0x30, 8, 1, .ro, 0⟩
  | .HIF_WIN0_SEL => ⟨.hif, 0x40, 4, 1, .rw, 0⟩
  | .HIF_WIN1_SEL => ⟨.hif, 0x44, 4, 1, .rw, 0⟩
  | .HIF_WIN_STATUS => ⟨.hif, 0x48, 4, 1, .ro, 0⟩
  | .HIF_FN_SEL => ⟨.hif, 0x50, 4, 1, .rw, 0⟩
  | .HIF_FN_QP_FIRST => ⟨.hif, 0x54, 4, 1, .rw, 0⟩
  | .HIF_FN_QP_COUNT => ⟨.hif, 0x58, 4, 1, .rw, 0⟩
  | .HIF_FN_SESSIONS => ⟨.hif, 0x5c, 4, 1, .rw, 0⟩
  | .HIF_FN_CTRL => ⟨.hif, 0x60, 4, 1, .rw, 0⟩
  | .HIF_FN_OPEN => ⟨.hif, 0x64, 4, 1, .ro, 0⟩
  | .SEC_CAPS => ⟨.sec, 0x0, 4, 1, .ro, 0⟩
  | .SEC_STATUS => ⟨.sec, 0x4, 4, 1, .ro, 0⟩
  | .SEC_INT_STATUS => ⟨.sec, 0x8, 4, 1, .w1c, 0⟩
  | .SEC_INT_ENABLE => ⟨.sec, 0xc, 4, 1, .rw, 0⟩
  | .SEC_KEY_ID => ⟨.sec, 0x10, 8, 2, .ro, 0⟩
  | .SEC_PUB_E => ⟨.sec, 0x20, 4, 1, .ro, 0⟩
  | .SEC_CERT_LEN => ⟨.sec, 0x24, 4, 1, .ro, 0⟩
  | .SEC_CERT_OFF => ⟨.sec, 0x28, 4, 1, .rw, 0⟩
  | .SEC_MEAS_SEL => ⟨.sec, 0x2c, 4, 1, .rw, 0x1⟩
  | .SEC_SPDM_ERRORS => ⟨.sec, 0x30, 8, 1, .ro, 0⟩
  | .SEC_MEAS_DIGEST => ⟨.sec, 0x40, 8, 8, .ro, 0⟩
  | .SEC_PUB_N => ⟨.sec, 0x200, 8, 64, .ro, 0⟩
  | .SEC_CERT_DATA => ⟨.sec, 0x1000, 8, 512, .ro, 0⟩
  | .FWP_STATUS => ⟨.fwp, 0x0, 4, 1, .ro, 0⟩
  | .FWP_CTRL => ⟨.fwp, 0x4, 4, 1, .rw, 0⟩
  | .FWP_FW_VERSION => ⟨.fwp, 0x8, 4, 1, .ro, 0⟩
  | .FWP_SVN => ⟨.fwp, 0xc, 4, 1, .ro, 0⟩
  | .FWP_IMG_ADDR => ⟨.fwp, 0x10, 8, 1, .rw, 0⟩
  | .FWP_IMG_LEN => ⟨.fwp, 0x18, 4, 1, .rw, 0⟩
  | .FWP_INT_STATUS => ⟨.fwp, 0x1c, 4, 1, .w1c, 0⟩
  | .FWP_INT_ENABLE => ⟨.fwp, 0x20, 4, 1, .rw, 0⟩
  | .FWP_READY_TIME => ⟨.fwp, 0x28, 8, 1, .ro, 0⟩
  | .FWP_ST_RESULT => ⟨.fwp, 0x30, 4, 1, .ro, 0⟩
  | .FWP_ST_HBM_FAIL => ⟨.fwp, 0x34, 4, 1, .ro, 0⟩
  | .FWP_ST_LINK_FAIL => ⟨.fwp, 0x38, 8, 1, .ro, 0⟩
  | .FWP_RESTARTS_SEC => ⟨.fwp, 0x40, 4, 1, .ro, 0⟩
  | .FWP_RESTARTS_PWR => ⟨.fwp, 0x44, 4, 1, .ro, 0⟩
  | .FWP_RESTARTS_SCH => ⟨.fwp, 0x48, 4, 1, .ro, 0⟩
  | .FWP_RESTARTS_CCP => ⟨.fwp, 0x4c, 4, 1, .ro, 0⟩
  | .FWP_ST_CLUSTER_FAIL => ⟨.fwp, 0x100, 4, 64, .ro, 0⟩
  | .HLT_CAPS => ⟨.hlt, 0x0, 4, 1, .ro, 0⟩
  | .HLT_CTRL => ⟨.hlt, 0x4, 4, 1, .rw, 0x1⟩
  | .HLT_STATUS => ⟨.hlt, 0x8, 4, 1, .ro, 0⟩
  | .HLT_INT_STATUS => ⟨.hlt, 0xc, 4, 1, .w1c, 0⟩
  | .HLT_INT_ENABLE => ⟨.hlt, 0x10, 4, 1, .rw, 0⟩
  | .HLT_GRADE_SAMPLES => ⟨.hlt, 0x14, 4, 1, .rw, 0x1⟩
  | .HLT_SUSPECT_SAMPLES => ⟨.hlt, 0x18, 4, 1, .rw, 0x10⟩
  | .HLT_SWEEP_PERIOD => ⟨.hlt, 0x1c, 4, 1, .rw, 0x400⟩
  | .HLT_DEFER_LIMIT => ⟨.hlt, 0x20, 4, 1, .ro, 0x40⟩
  | .HLT_VOID_LIMIT => ⟨.hlt, 0x24, 4, 1, .rw, 0x10⟩
  | .HLT_REQ_UNIT => ⟨.hlt, 0x28, 4, 1, .rw, 0⟩
  | .HLT_REQ_STATUS => ⟨.hlt, 0x2c, 4, 1, .ro, 0⟩
  | .HLT_GRADED => ⟨.hlt, 0x30, 8, 1, .ro, 0⟩
  | .HLT_GRADE_FAILS => ⟨.hlt, 0x38, 8, 1, .ro, 0⟩
  | .HLT_CHK_TRIPS => ⟨.hlt, 0x40, 8, 1, .ro, 0⟩
  | .HLT_SPARES_MAPPED => ⟨.hlt, 0x48, 8, 1, .ro, 0⟩
  | .HLT_SWEEPS => ⟨.hlt, 0x50, 8, 1, .ro, 0⟩
  | .HLT_SWEEP_MISMATCH => ⟨.hlt, 0x58, 8, 1, .ro, 0⟩
  | .HLT_SWEEP_DEFERRED => ⟨.hlt, 0x60, 8, 1, .ro, 0⟩
  | .HLT_MIGRATIONS => ⟨.hlt, 0x68, 8, 1, .ro, 0⟩
  | .HLT_RETIREMENTS => ⟨.hlt, 0x70, 8, 1, .ro, 0⟩
  | .HLT_CFG_CORRECTED => ⟨.hlt, 0x78, 8, 1, .ro, 0⟩
  | .HLT_CFG_MISMATCH => ⟨.hlt, 0x80, 8, 1, .ro, 0⟩
  | .HLT_MEM_CE => ⟨.hlt, 0x88, 8, 1, .ro, 0⟩
  | .HLT_MEM_UE => ⟨.hlt, 0x90, 8, 1, .ro, 0⟩
  | .HLT_KV_DAMAGED => ⟨.hlt, 0x98, 8, 1, .ro, 0⟩
  | .HLT_VOID_EVENTS => ⟨.hlt, 0xa0, 8, 1, .ro, 0⟩
  | .HLT_HBM_FAIL => ⟨.hlt, 0x100, 4, 1, .ro, 0⟩
  | .HLT_LINK_FAIL => ⟨.hlt, 0x108, 8, 1, .ro, 0⟩
  | .HLT_LIST_COUNT => ⟨.hlt, 0x110, 4, 1, .ro, 0⟩
  | .HLT_LIST_SEL => ⟨.hlt, 0x114, 4, 1, .rw, 0⟩
  | .HLT_LIST_ENTRY => ⟨.hlt, 0x118, 8, 2, .ro, 0⟩
  | .HLT_CPER_SEL => ⟨.hlt, 0x130, 4, 1, .rw, 0⟩
  | .HLT_CPER_LEN => ⟨.hlt, 0x134, 4, 1, .ro, 0⟩
  | .HLT_DIE_CAPACITY => ⟨.hlt, 0x140, 4, 4, .ro, 0⟩
  | .HLT_CLUSTER_STATE => ⟨.hlt, 0x200, 4, 64, .ro, 0⟩
  | .HLT_CPER_DATA => ⟨.hlt, 0x1000, 8, 41, .ro, 0⟩
  | .HLT_PC_STATE => ⟨.phys, 0x0, 4, 1, .ro, 0⟩
  | .HLT_PC_LOGICAL => ⟨.phys, 0x4, 4, 1, .ro, 0⟩
  | .HLT_PC_PAN_SUSPECT => ⟨.phys, 0x8, 4, 1, .ro, 0⟩
  | .HLT_PC_EVENTS => ⟨.phys, 0xc, 4, 1, .ro, 0⟩
  | .HLT_PC_LAST_FAULT => ⟨.phys, 0x10, 4, 1, .ro, 0⟩
  | .HLT_PC_LAST_TIDE => ⟨.phys, 0x14, 4, 1, .ro, 0⟩
  | .HLT_PC_SWEEP_TIDE => ⟨.phys, 0x18, 4, 1, .ro, 0⟩
  | .HLT_PC_DEFER => ⟨.phys, 0x1c, 4, 1, .ro, 0⟩
  | .HLT_PC_GRADED => ⟨.phys, 0x20, 8, 1, .ro, 0⟩
  | .HLT_PC_GRADE_FAILS => ⟨.phys, 0x28, 8, 1, .ro, 0⟩
  | .HLT_PC_SWEEPS => ⟨.phys, 0x30, 8, 1, .ro, 0⟩
  | .HLT_PC_CE => ⟨.phys, 0x38, 8, 1, .ro, 0⟩
  | .HLT_PC_UE => ⟨.phys, 0x40, 8, 1, .ro, 0⟩
  | .PWR_CAPS => ⟨.pwr, 0x0, 4, 1, .ro, 0⟩
  | .PWR_CTRL => ⟨.pwr, 0x4, 4, 1, .rw, 0⟩
  | .PWR_STATUS => ⟨.pwr, 0x8, 4, 1, .ro, 0⟩
  | .PWR_INT_STATUS => ⟨.pwr, 0xc, 4, 1, .w1c, 0⟩
  | .PWR_INT_ENABLE => ⟨.pwr, 0x10, 4, 1, .rw, 0⟩
  | .PWR_VCORE_TARGET => ⟨.pwr, 0x14, 4, 1, .rw, 0x8c⟩
  | .PWR_VCORE_ACT => ⟨.pwr, 0x18, 4, 1, .ro, 0x8c⟩
  | .PWR_LIMIT => ⟨.pwr, 0x1c, 4, 1, .rw, 0⟩
  | .PWR_IDLE_TIDES => ⟨.pwr, 0x20, 4, 1, .rw, 0x32⟩
  | .PWR_PKG_MW => ⟨.pwr, 0x24, 4, 1, .ro, 0⟩
  | .PWR_ICORE_MA => ⟨.pwr, 0x28, 4, 1, .ro, 0⟩
  | .PWR_ENERGY_UJ => ⟨.pwr, 0x30, 8, 1, .ro, 0⟩
  | .PWR_TIDE_UJ => ⟨.pwr, 0x38, 8, 1, .ro, 0⟩
  | .PWR_BRAKES => ⟨.pwr, 0x40, 8, 1, .ro, 0⟩
  | .PWR_REG_WARNINGS => ⟨.pwr, 0x48, 8, 1, .ro, 0⟩
  | .THM_THRESH => ⟨.thm, 0x0, 4, 1, .ro, 0x7d73695f⟩
  | .THM_STATUS => ⟨.thm, 0x4, 4, 1, .ro, 0⟩
  | .THM_INT_STATUS => ⟨.thm, 0x8, 4, 1, .w1c, 0⟩
  | .THM_INT_ENABLE => ⟨.thm, 0xc, 4, 1, .rw, 0⟩
  | .THM_HOTTEST => ⟨.thm, 0x10, 4, 1, .ro, 0⟩
  | .THM_THROTTLE_TIDES => ⟨.thm, 0x18, 8, 1, .ro, 0⟩
  | .THM_WARN_EVENTS => ⟨.thm, 0x20, 8, 1, .ro, 0⟩
  | .THM_SENSOR => ⟨.thm, 0x40, 4, 32, .ro, 0⟩
  | .HKA_CTRL => ⟨.hka, 0x0, 4, 1, .rw, 0⟩
  | .HKA_STATUS => ⟨.hka, 0x4, 4, 1, .ro, 0⟩
  | .HKA_INT_STATUS => ⟨.hka, 0x8, 4, 1, .w1c, 0⟩
  | .HKA_INT_ENABLE => ⟨.hka, 0xc, 4, 1, .rw, 0⟩
  | .HKA_REF_SCALE => ⟨.hka, 0x10, 4, 1, .ro, 0x40000000⟩
  | .HKA_REFIN_UV => ⟨.hka, 0x14, 4, 1, .ro, 0⟩
  | .HKA_SCANS => ⟨.hka, 0x18, 8, 1, .ro, 0⟩
  | .HKA_RAW => ⟨.hka, 0x100, 4, 64, .ro, 0⟩
  | .HKA_VALUE => ⟨.hka, 0x200, 4, 64, .ro, 0⟩
  | .HKA_COEF => ⟨.hka, 0x300, 4, 64, .rw, 0⟩
  | .HKA_RESID => ⟨.hka, 0x400, 4, 64, .ro, 0xffff⟩
  | .AON_STATUS => ⟨.aon, 0x0, 4, 1, .ro, 0⟩
  | .AON_CTRL => ⟨.aon, 0x4, 4, 1, .rw, 0⟩
  | .AON_WAKE_EN => ⟨.aon, 0x8, 4, 1, .rw, 0x10⟩
  | .AON_TIME => ⟨.aon, 0x10, 8, 1, .ro, 0⟩
  | .AON_WAKE_TIME => ⟨.aon, 0x18, 8, 1, .rw, 0⟩
  | .AON_DEEP_SLEEPS => ⟨.aon, 0x20, 4, 1, .ro, 0⟩
  | .AON_WAKE_IGNORED => ⟨.aon, 0x24, 4, 1, .ro, 0⟩
  | .AON_CMP => ⟨.aon, 0x40, 4, 8, .rw, 0⟩
  | .BBX_STATUS => ⟨.bbx, 0x0, 4, 1, .ro, 0⟩
  | .BBX_CTRL => ⟨.bbx, 0x4, 4, 1, .rw, 0⟩
  | .BBX_FAULTS_LOST => ⟨.bbx, 0x8, 4, 1, .ro, 0⟩
  | .BBX_SNAPS_LOST => ⟨.bbx, 0xc, 4, 1, .ro, 0⟩
  | .BBX_CLEAR_TIME => ⟨.bbx, 0x10, 8, 1, .ro, 0⟩
  | .BBX_SHUT_TIME => ⟨.bbx, 0x18, 8, 1, .ro, 0⟩
  | .BBX_SHUT_TIDE => ⟨.bbx, 0x20, 4, 1, .ro, 0⟩
  | .BBX_READ_OFF => ⟨.bbx, 0x24, 4, 1, .rw, 0⟩
  | .BBX_INT_STATUS => ⟨.bbx, 0x28, 4, 1, .w1c, 0⟩
  | .BBX_INT_ENABLE => ⟨.bbx, 0x2c, 4, 1, .rw, 0⟩
  | .BBX_DATA => ⟨.bbx, 0x1000, 8, 512, .ro, 0⟩
  | .CNT_CAPS => ⟨.cnt, 0x0, 4, 1, .ro, 0⟩
  | .CNT_PAN_WRITE_BYTES => ⟨.cnt, 0x100, 8, 1, .ro, 0⟩
  | .CNT_SRAM_BYTES => ⟨.cnt, 0x108, 8, 1, .ro, 0⟩
  | .CNT_CLUSTER_BYTES => ⟨.cnt, 0x110, 8, 1, .ro, 0⟩
  | .CNT_DIE_NET_BYTES => ⟨.cnt, 0x118, 8, 1, .ro, 0⟩
  | .CNT_D2D_CC => ⟨.cnt, 0x120, 8, 6, .ro, 0⟩
  | .CNT_D2D_HOUSE => ⟨.cnt, 0x150, 8, 4, .ro, 0⟩
  | .CNT_D2D_LINK => ⟨.cnt, 0x170, 8, 8, .ro, 0⟩
  | .CNT_PCIE_DMA_RD => ⟨.cnt, 0x1b0, 8, 1, .ro, 0⟩
  | .CNT_PCIE_DMA_WR => ⟨.cnt, 0x1b8, 8, 1, .ro, 0⟩
  | .CNT_PCIE_BAR_WR => ⟨.cnt, 0x1c0, 8, 1, .ro, 0⟩
  | .CNT_HBM_RD => ⟨.cnt, 0x200, 8, 8, .ro, 0⟩
  | .CNT_HBM_WR => ⟨.cnt, 0x240, 8, 8, .ro, 0⟩
  | .CNT_LINK_TX => ⟨.cnt, 0x300, 8, 36, .ro, 0⟩
  | .CNT_LINK_RX => ⟨.cnt, 0x480, 8, 36, .ro, 0⟩
  | .CNT_PRODUCTS => ⟨.cnt, 0x600, 8, 1, .ro, 0⟩
  | .CNT_SLUICE_MACS => ⟨.cnt, 0x608, 8, 1, .ro, 0⟩
  | .CNT_SAT_EVENTS => ⟨.cnt, 0x610, 8, 1, .ro, 0⟩
  | .CNT_SAT_PASSES => ⟨.cnt, 0x618, 8, 1, .ro, 0⟩
  | .CNT_SAT_FAULTS => ⟨.cnt, 0x620, 8, 1, .ro, 0⟩
  | .CNT_SPILL_PASSES => ⟨.cnt, 0x628, 8, 1, .ro, 0⟩
  | .CNT_OVF_REPEATS => ⟨.cnt, 0x630, 8, 1, .ro, 0⟩
  | .CNT_OVF_SAT => ⟨.cnt, 0x638, 8, 1, .ro, 0⟩
  | .CNT_OVERRUNS => ⟨.cnt, 0x640, 8, 1, .ro, 0⟩
  | .CNT_GRADED => ⟨.cnt, 0x648, 8, 1, .ro, 0⟩
  | .CNT_GRADE_FAILS => ⟨.cnt, 0x650, 8, 1, .ro, 0⟩
  | .CNT_QSAT => ⟨.cnt, 0x658, 8, 3, .ro, 0⟩
  | .CNT_KV_CHARGED => ⟨.cnt, 0x670, 8, 1, .ro, 0⟩
  | .CNT_LAYER_SEL => ⟨.cnt, 0x800, 4, 1, .rw, 0⟩
  | .CNT_LAYER => ⟨.cnt, 0x808, 8, 5, .ro, 0⟩
  | .CNT_FN_SEL => ⟨.cnt, 0x2000, 4, 1, .rw, 0⟩
  | .CNT_FN_VIEW => ⟨.cnt, 0x2008, 8, 13, .ro, 0⟩
  | .CNT_T_FUNCTION => ⟨.cntT, 0x0, 4, 1, .ro, 0⟩
  | .CNT_T_DMA_RD => ⟨.cntT, 0x8, 8, 1, .ro, 0⟩
  | .CNT_T_DMA_WR => ⟨.cntT, 0x10, 8, 1, .ro, 0⟩
  | .CNT_T_KV_CHARGED => ⟨.cntT, 0x18, 8, 1, .ro, 0⟩
  | .CNT_T_KV_READ => ⟨.cntT, 0x20, 8, 1, .ro, 0⟩
  | .CNT_T_KV_WRITE => ⟨.cntT, 0x28, 8, 1, .ro, 0⟩
  | .CNT_T_PRODUCTS => ⟨.cntT, 0x30, 8, 1, .ro, 0⟩
  | .CNT_T_OVERRUNS => ⟨.cntT, 0x38, 8, 1, .ro, 0⟩
  | .CNT_T_QSAT => ⟨.cntT, 0x40, 8, 3, .ro, 0⟩
  | .CNT_T_SLIDES => ⟨.cntT, 0x58, 8, 1, .ro, 0⟩
  | .CNT_T_REFUSALS => ⟨.cntT, 0x60, 8, 1, .ro, 0⟩
  | .EVT_CTRL => ⟨.evt, 0x0, 4, 1, .rw, 0⟩
  | .EVT_STATUS => ⟨.evt, 0x4, 4, 1, .ro, 0⟩
  | .EVT_INT_STATUS => ⟨.evt, 0x8, 4, 1, .w1c, 0⟩
  | .EVT_INT_ENABLE => ⟨.evt, 0xc, 4, 1, .rw, 0⟩
  | .EVT_LOST => ⟨.evt, 0x10, 8, 1, .ro, 0⟩
  | .EVT_OFFERED => ⟨.evt, 0x18, 8, 1, .ro, 0⟩
  | .EVT_WFG_ADDR => ⟨.evt, 0x20, 8, 1, .rw, 0⟩
  | .EVT_WFG_LEN => ⟨.evt, 0x28, 4, 1, .rw, 0⟩
  | .EVT_WFG_EDGES => ⟨.evt, 0x2c, 4, 1, .ro, 0⟩

/-- The registers of a block, in the order of its table. -/
def RegBlock.regs : RegBlock → List Reg
  | .hif => [.HIF_ID, .HIF_CAPS, .HIF_PRESENCE, .HIF_DEV_STATE, .HIF_EMU_STATUS, .HIF_EMU_DROPS, .HIF_INT_STATUS, .HIF_INT_ENABLE, .HIF_COAL, .HIF_LINK_STATUS, .HIF_DMA_ERRORS, .HIF_BAD_ACCESS, .HIF_WIN0_SEL, .HIF_WIN1_SEL, .HIF_WIN_STATUS, .HIF_FN_SEL, .HIF_FN_QP_FIRST, .HIF_FN_QP_COUNT, .HIF_FN_SESSIONS, .HIF_FN_CTRL, .HIF_FN_OPEN]
  | .tde => [.TDE_CTRL, .TDE_STATUS, .TDE_PERIOD_ACT, .TDE_PERIOD_STAGE, .TDE_LEAD_ACT, .TDE_LEAD_STAGE, .TDE_SEAL_LEAD, .TDE_EFFECT_TIDE, .TDE_TIDE, .TDE_LATCH_TIDE, .TDE_TIME, .TDE_EDGE_TIME, .TDE_ROOT_OFFSET, .TDE_REBASE_DELTA, .TDE_INT_STATUS, .TDE_INT_ENABLE, .TDE_OVERRUN_COUNT, .TDE_OVERRUN_LAST, .TDE_FREERUN_TIDES]
  | .aon => [.AON_STATUS, .AON_CTRL, .AON_WAKE_EN, .AON_TIME, .AON_WAKE_TIME, .AON_DEEP_SLEEPS, .AON_WAKE_IGNORED, .AON_CMP]
  | .syn => [.SYN_CAPS, .SYN_SHARE_BASE, .SYN_SHARE_COUNT, .SYN_ALLOC_SEL, .SYN_ALLOC_BASE, .SYN_ALLOC_CTRL, .SYN_STALL_TIDES, .SYN_INT_STATUS, .SYN_INT_ENABLE, .SYN_POOL_OPS, .SYN_POOL_REMOTE_OPS, .SYN_POOL_REFUSED]
  | .evt => [.EVT_CTRL, .EVT_STATUS, .EVT_INT_STATUS, .EVT_INT_ENABLE, .EVT_LOST, .EVT_OFFERED, .EVT_WFG_ADDR, .EVT_WFG_LEN, .EVT_WFG_EDGES]
  | .wgt => [.WGT_CAPS, .WGT_LOAD_CTRL, .WGT_LOAD_STATUS, .WGT_SLOT_STATE, .WGT_LOAD_ADDR, .WGT_LOAD_LEN, .WGT_SHARDS_TOTAL, .WGT_SHARDS_OK, .WGT_SHARD_TIMEOUT, .WGT_RETRY_WAIT, .WGT_HOLD_MS, .WGT_PIN_TIMEOUT, .WGT_RECV_WAIT, .WGT_RECV_GEN, .WGT_RECV_MODEL_ID, .WGT_MODEL_ID_0, .WGT_MODEL_ID_1, .WGT_GEN, .WGT_EFFECT_TIDE, .WGT_SWITCH_TIDE, .WGT_PIN_WAIT, .WGT_HOST_TIER_ADDR, .WGT_HOST_TIER_LEN, .WGT_HOLD_BYTES] ++ [.WGT_ADAPTER_REGION, .WGT_ADAPTERS, .WGT_INT_STATUS, .WGT_INT_ENABLE, .WGT_STREAM_STALL_NS, .WGT_STREAM_BYTES, .WGT_HOST_TIER_WAIT_NS, .WGT_SHARD_RETRIES, .WGT_SHARD_SERVED, .WGT_TIER_READ_FAULTS, .WGT_TRUST_CTRL, .WGT_TRUST_DIGEST]
  | .kvc => [.KVC_CAPS, .KVC_STATUS, .KVC_INT_STATUS, .KVC_INT_ENABLE, .KVC_RESERVE_BYTES, .KVC_BUDGET_BYTES, .KVC_BUDGET_EFF, .KVC_PAGE_BYTES, .KVC_SEQ_OPEN, .KVC_POOL_PAGES, .KVC_POOL_FREE, .KVC_GEN_RESERVE, .KVC_SPENT_LAST, .KVC_SPENT_GEN_LAST, .KVC_SPENT_PROMPT_LAST, .KVC_READ_BYTES, .KVC_WRITE_BYTES, .KVC_BLOCKS_SKIPPED, .KVC_ZERO_GROUPS, .KVC_SLIDES, .KVC_REFUSALS, .KVC_PROMPT_PAUSE_TIDES, .KVC_GEN_SHORT, .KVC_BUCKET_SEQ] ++ [.KVC_PT_SEL, .KVC_PT_ENTRY, .KVC_SEQ_BASE, .KVC_SEQ_NEXT, .KVC_SEQ_INFO]
  | .srv => [.SRV_CAPS, .SRV_STATUS, .SRV_INT_STATUS, .SRV_INT_ENABLE, .SRV_ADMQ_SQ_BASE, .SRV_ADMQ_CQ_BASE, .SRV_ADMQ_CTRL, .SRV_QP_FIRST, .SRV_QP_COUNT, .SRV_QP_SEL, .SRV_QP_STATE, .SRV_QP_RUNG, .SRV_CMDS, .SRV_LATE, .SRV_LATE_DROPPED, .SRV_CANCELLED, .SRV_SPEC_PROPOSED, .SRV_SPEC_ACCEPTED, .SRV_VOIDED, .SRV_DB_IGNORED, .SRV_CQ_FULL_TIDES, .SRV_TOKENS_OUT, .SRV_FRAMES_IN, .SRV_FRAMES_OUT]
  | .bpl => [.BPL_CAPS, .BPL_CTRL, .BPL_STATUS, .BPL_SLOT_STATE, .BPL_LOAD_ADDR, .BPL_LOAD_LEN, .BPL_FAIL_SECTION, .BPL_FAIL_OFFSET, .BPL_EFFECT_TIDE, .BPL_SWITCH_TIDE, .BPL_PLACE_EPOCH, .BPL_INT_STATUS, .BPL_INT_ENABLE, .BPL_PLAN_ID_0, .BPL_PLAN_ID_1, .BPL_MODEL_ID_0, .BPL_MODEL_ID_1, .BPL_DUMP_ADDR, .BPL_DUMP_LEN, .BPL_PL_SEL, .BPL_PL_ENTRY, .BPL_CORES_PLACED, .BPL_CORES_DEGRADED, .BPL_REPLACEMENTS]
  | .fab => [.FAB_CAPS, .FAB_CTRL, .FAB_STATUS, .FAB_ADDR, .FAB_DIMS, .FAB_ROOT, .FAB_SYSTEM_ID, .FAB_MAP_ADDR, .FAB_MAP_LEN, .FAB_MAP_EPOCH, .FAB_INT_STATUS, .FAB_INT_ENABLE, .FAB_OP_TIMEOUT, .FAB_RETRY_TIDES, .FAB_ROUTE_EPOCH, .FAB_LINK_SEL, .FAB_LINK_STATE, .FAB_LINK_PEER, .FAB_LINK_DELAY, .FAB_LINK_CTRL, .FAB_LINK_FEC_CORR, .FAB_LINK_FEC_UNCORR, .FAB_LINK_CRC_ERR, .FAB_LINK_REPLAYS] ++ [.FAB_LINK_RETRAINS, .FAB_LINK_INDET, .FAB_GENMIX_COUNT, .FAB_VER_DROPS, .FAB_UNREACH_COUNT, .FAB_PHASE2_PKTS, .FAB_MARKER_SKEW, .FAB_LSU_RX, .FAB_LINK_PEER_KEY]
  | .sec => [.SEC_CAPS, .SEC_STATUS, .SEC_INT_STATUS, .SEC_INT_ENABLE, .SEC_KEY_ID, .SEC_PUB_E, .SEC_CERT_LEN, .SEC_CERT_OFF, .SEC_MEAS_SEL, .SEC_SPDM_ERRORS, .SEC_MEAS_DIGEST, .SEC_PUB_N, .SEC_CERT_DATA]
  | .fwp => [.FWP_STATUS, .FWP_CTRL, .FWP_FW_VERSION, .FWP_SVN, .FWP_IMG_ADDR, .FWP_IMG_LEN, .FWP_INT_STATUS, .FWP_INT_ENABLE, .FWP_READY_TIME, .FWP_ST_RESULT, .FWP_ST_HBM_FAIL, .FWP_ST_LINK_FAIL, .FWP_RESTARTS_SEC, .FWP_RESTARTS_PWR, .FWP_RESTARTS_SCH, .FWP_RESTARTS_CCP, .FWP_ST_CLUSTER_FAIL]
  | .hlt => [.HLT_CAPS, .HLT_CTRL, .HLT_STATUS, .HLT_INT_STATUS, .HLT_INT_ENABLE, .HLT_GRADE_SAMPLES, .HLT_SUSPECT_SAMPLES, .HLT_SWEEP_PERIOD, .HLT_DEFER_LIMIT, .HLT_VOID_LIMIT, .HLT_REQ_UNIT, .HLT_REQ_STATUS, .HLT_GRADED, .HLT_GRADE_FAILS, .HLT_CHK_TRIPS, .HLT_SPARES_MAPPED, .HLT_SWEEPS, .HLT_SWEEP_MISMATCH, .HLT_SWEEP_DEFERRED, .HLT_MIGRATIONS, .HLT_RETIREMENTS, .HLT_CFG_CORRECTED, .HLT_CFG_MISMATCH, .HLT_MEM_CE] ++ [.HLT_MEM_UE, .HLT_KV_DAMAGED, .HLT_VOID_EVENTS, .HLT_HBM_FAIL, .HLT_LINK_FAIL, .HLT_LIST_COUNT, .HLT_LIST_SEL, .HLT_LIST_ENTRY, .HLT_CPER_SEL, .HLT_CPER_LEN, .HLT_DIE_CAPACITY, .HLT_CLUSTER_STATE, .HLT_CPER_DATA]
  | .pwr => [.PWR_CAPS, .PWR_CTRL, .PWR_STATUS, .PWR_INT_STATUS, .PWR_INT_ENABLE, .PWR_VCORE_TARGET, .PWR_VCORE_ACT, .PWR_LIMIT, .PWR_IDLE_TIDES, .PWR_PKG_MW, .PWR_ICORE_MA, .PWR_ENERGY_UJ, .PWR_TIDE_UJ, .PWR_BRAKES, .PWR_REG_WARNINGS]
  | .thm => [.THM_THRESH, .THM_STATUS, .THM_INT_STATUS, .THM_INT_ENABLE, .THM_HOTTEST, .THM_THROTTLE_TIDES, .THM_WARN_EVENTS, .THM_SENSOR]
  | .hka => [.HKA_CTRL, .HKA_STATUS, .HKA_INT_STATUS, .HKA_INT_ENABLE, .HKA_REF_SCALE, .HKA_REFIN_UV, .HKA_SCANS, .HKA_RAW, .HKA_VALUE, .HKA_COEF, .HKA_RESID]
  | .bbx => [.BBX_STATUS, .BBX_CTRL, .BBX_FAULTS_LOST, .BBX_SNAPS_LOST, .BBX_CLEAR_TIME, .BBX_SHUT_TIME, .BBX_SHUT_TIDE, .BBX_READ_OFF, .BBX_INT_STATUS, .BBX_INT_ENABLE, .BBX_DATA]
  | .cnt => [.CNT_CAPS, .CNT_PAN_WRITE_BYTES, .CNT_SRAM_BYTES, .CNT_CLUSTER_BYTES, .CNT_DIE_NET_BYTES, .CNT_D2D_CC, .CNT_D2D_HOUSE, .CNT_D2D_LINK, .CNT_PCIE_DMA_RD, .CNT_PCIE_DMA_WR, .CNT_PCIE_BAR_WR, .CNT_HBM_RD, .CNT_HBM_WR, .CNT_LINK_TX, .CNT_LINK_RX, .CNT_PRODUCTS, .CNT_SLUICE_MACS, .CNT_SAT_EVENTS, .CNT_SAT_PASSES, .CNT_SAT_FAULTS, .CNT_SPILL_PASSES, .CNT_OVF_REPEATS, .CNT_OVF_SAT, .CNT_OVERRUNS] ++ [.CNT_GRADED, .CNT_GRADE_FAILS, .CNT_QSAT, .CNT_KV_CHARGED, .CNT_LAYER_SEL, .CNT_LAYER, .CNT_FN_SEL, .CNT_FN_VIEW]
  | .cntT => [.CNT_T_FUNCTION, .CNT_T_DMA_RD, .CNT_T_DMA_WR, .CNT_T_KV_CHARGED, .CNT_T_KV_READ, .CNT_T_KV_WRITE, .CNT_T_PRODUCTS, .CNT_T_OVERRUNS, .CNT_T_QSAT, .CNT_T_SLIDES, .CNT_T_REFUSALS]
  | .pan => [.PAN_ID, .PAN_STATE, .PAN_CTRL, .PAN_CONFIG, .PAN_AGE, .PAN_RAKE_RESID, .PAN_GRADE_RESID, .PAN_SPARE_USED, .PAN_RAKE_TIDE_A, .PAN_RAKE_TIDE_B, .PAN_ACTIVE_TIDE, .PAN_PRODUCTS, .PAN_SAT_EVENTS, .PAN_SAT_PASSES, .PAN_SAT_FAULTS, .PAN_SPILL_PASSES, .PAN_CHK_MISMATCH, .PAN_REFRESH_SWAPS, .PAN_REFRESH_MISS, .PAN_BED_WRITES, .PAN_WRITE_ABORTS, .PAN_RAKES, .PAN_SPARE_MAP_A, .PAN_SPARE_MAP_B] ++ [.PAN_COEF_A, .PAN_COEF_B]
  | .cor => [.COR_ID, .COR_STATUS, .COR_CAPTURE_CTRL, .COR_PRODUCTS, .COR_OVF_REPEATS, .COR_OVF_SAT, .COR_ADD_EMPTY, .COR_DRAIN_STALL_NS, .COR_SPILL_PASSES, .COR_SAVES, .COR_RESTORES, .COR_CRU_ADDS, .COR_CRU_SAT, .COR_CRU_SLOTS, .COR_CAPTURE]
  | .slc => [.SLC_STORE_USED, .SLC_DYN_MAX, .SLC_SPILL_SHIFT, .SLC_THRESH, .SLC_MACS, .SLC_DYN_ROWS, .SLC_SPILL_ROWS, .SLC_FETCH_MISS, .SLC_FETCH_WAIT_NS, .SLC_LANE_WAIT_NS, .SLC_BUSY_CYCLES]
  | .cre => [.CRE_ID, .CRE_CTX_STATE, .CRE_HOIST_STATE, .CRE_CTX_STEP, .CRE_ISSUE_CYCLES, .CRE_SWITCHES, .CRE_SYNC_WAIT_NS, .CRE_HOIST_WAIT_NS, .CRE_LANE_WAIT_NS, .CRE_IDLE_NS, .CRE_HOIST0_BYTES, .CRE_HOIST1_BYTES, .CRE_HOIST_DEMAND, .CRE_FENCES, .CRE_FENCE_NS]
  | .synDbg => [.SYN_DBG_VALUE, .SYN_DBG_LAST_SRC, .SYN_DBG_LAST_OP, .SYN_DBG_LAST_TIDE, .SYN_DBG_WAITERS, .SYN_DBG_LAST_TIME, .SYN_DBG_WAITER0, .SYN_DBG_COND0, .SYN_DBG_TARGET0, .SYN_DBG_WAITER1, .SYN_DBG_COND1, .SYN_DBG_TARGET1]
  | .phys => [.HLT_PC_STATE, .HLT_PC_LOGICAL, .HLT_PC_PAN_SUSPECT, .HLT_PC_EVENTS, .HLT_PC_LAST_FAULT, .HLT_PC_LAST_TIDE, .HLT_PC_SWEEP_TIDE, .HLT_PC_DEFER, .HLT_PC_GRADED, .HLT_PC_GRADE_FAILS, .HLT_PC_SWEEPS, .HLT_PC_CE, .HLT_PC_UE]

/-- The register and element that an offset of a block falls in, with the byte offset inside the element. -/
def RegBlock.find (b : RegBlock) (off : Nat) : Option (Reg × Nat × Nat) :=
  match b.regs.find? (fun r => r.info.off ≤ off && off < r.info.off + r.info.size * r.info.count) with
  | some r => some (r, (off - r.info.off) / r.info.size, (off - r.info.off) % r.info.size)
  | none => none

/-- Where element `i` of register `r` of unit `u` is held. -/
def Reg.key (u : Nat) (r : Reg) (i : Nat) : Nat := (u * 512 + r.ctorIdx) * 1024 + i % 1024

end Sys2Proof
end

