-- ==== Sys2Proof/Machine/State.lean ====
section
/-! DEFINITION. The state of the device: plain data, holding what the spec gives the machine. Registers are held in
one file, `regs` (their home); what is not a register is held in the typed fields. Queue: `pending`. -/

namespace Sys2Proof.Machine

/-! ### Records (16_records) -/

/-- An event record (Table 16.1). -/
structure Event where
  code : Nat
  src : Nat
  flags : Nat := 0
  tide : W32
  time : Nat
  p0 : Nat := 0
  p1 : Nat := 0
  p2 : Nat := 0
  p3 : Nat := 0
deriving DecidableEq, Repr

/-- What a fault record says (Tables 14.6, 14.7, 16.5). -/
structure FaultRec where
  severity : Nat
  kind : Nat
  action : Nat := 0
  phys : Option Nat := none
  core : Option Nat := none
  pan : Nat := 0xFF
  tide : W32
  time : Nat
  rho : Nat := 0xFFFF
  eps : Nat := 0xFFFF
  qid : Nat := 0xFFFFFFFF
  p0 : W64 := 0
  p1 : W64 := 0
  placeEpoch : W32 := 0
  fwVersion : W32 := 0
  gen : W16 := 0
  /-- fault events of the core in its window, this one included -/
  events : Nat := 0
  bed : Nat := 0xFF
  column : Nat := 0xFFFF
deriving DecidableEq, Repr

/-- A wait-for graph edge (Table 16.10). -/
structure WfgEdge where
  waiter : Nat
  resource : Nat
  holder : Nat
  since : Nat
deriving DecidableEq, Repr

/-- A wait-for graph: trigger, processor for trigger 1, edges (R501, R502). -/
structure Wfg where
  trigger : Nat
  proc : Nat := 0
  edges : List WfgEdge := []
deriving DecidableEq, Repr

/-- A session status record (Table 8.6), as published: its fields in the order of the table. -/
structure StatusRec where
  slot : Nat
  qid : Nat
  fields : List (Nat × Nat) := []
deriving DecidableEq, Repr

/-- A snapshot (Table 16.6). `images` lists the nonzero 32-bit words of the block images by byte offset. -/
structure Snapshot where
  trigger : Nat
  safeReason : Nat
  devState : Nat
  tide : W32
  time : Nat
  fwVersion : W32
  placeEpoch : W32
  gen : W16
  detail : Nat
  tail : List Event
  status : List StatusRec
  images : List (Nat × W32)
  wfg : Option Wfg
deriving DecidableEq, Repr

/-- A snapshot not yet complete: trigger and detail (R492). -/
structure SnapReq where
  trigger : Nat
  detail : Nat := 0
  safeReason : Nat := 0
  devState : Nat := 0
  tide : W32 := 0
  time : Nat := 0
  /-- the graph assembled at trigger 1 or 2 -/
  wfg : Option Wfg := none
deriving DecidableEq, Repr

/-- The event recorder, its tail ring and the wait-for graph (R485 to R489, R501). -/
structure Recorder where
  /-- records stamped and not yet at the recorder, oldest first -/
  inFlight : List Event := []
  recs : List Event := []
  tail : List Event := []
  /-- the latest instant at which records arrived, and those of that instant, each with whether FREEZE lost it; the
  instant at which FREEZE was set (R488) -/
  arrT : Nat := 0
  arrived : List (Event × Bool) := []
  freezeT : Nat := 0
  /-- sums of COUNT and EVT_LOST over the clears whose EVT_CLEARED record is not stored yet -/
  cleared : Option (Nat × Nat) := none
  /-- trigger of a graph not yet assembled: trigger, processor -/
  wfgAsked : Option (Nat × Nat) := none
  wfgWriting : Option Wfg := none
  wfgLatest : Option Wfg := none
deriving DecidableEq, Repr

/-- The black box in MRAM (R490 to R494). Slots fill in order and are freed together. -/
structure BlackBox where
  faults : List FaultRec := []
  snaps : List Snapshot := []
  faultsLost : W32 := 0
  snapsLost : W32 := 0
  clearTime : Nat := 0
  shutReason : Nat := 0
  shutTime : Nat := 0
  shutAon : Nat := 0
  shutTide : W32 := 0
deriving DecidableEq, Repr

/-- An entry of the retirement list (R440, Table 14.10). -/
structure RetireEntry where
  isLink : Bool := false
  unit : Nat
  kind : Nat := 0
  time : Nat := 0
  tide : W32 := 0
  fw : W32 := 0
deriving DecidableEq, Repr

/-- MRAM: what survives power loss (Table 13.7, R419, R524). -/
structure Mram where
  refKeyId : BitVec 128 := 1
  minSvn : W16 := 0
  /-- the 16 entries of the trust list (R186) -/
  trust : List (Option (BitVec 512)) := List.replicate 16 none
  retired : List RetireEntry := []
  bbx : BlackBox := {}
deriving DecidableEq, Repr

/-! ### The always-on domain and start-up (13_startup, 15_power, 17_package) -/

/-- Where the always-on domain stands in the power-up sequence or a power-down (R510, R511, R463, R471, R472). -/
inductive AonPhase where
  | vaonOff | seqVio | seqVcore | seqHouse | retryWait | heldLow | on | sleepGranted | asleep | stopped
deriving DecidableEq, Repr

/-- The always-on domain, beside its registers (R465, R466, R510, R511). -/
structure Aon where
  phase : AonPhase := .seqVio
  fails : Nat := 0
  pwrEn : Bool := true
  vrEn : Bool := false
  /-- THERMTRIP_N asserted (R472) -/
  thermtrip : Bool := false
  /-- WAKE# asserted (Table 15.4) -/
  wakeOut : Bool := false
  /-- PERST# asserted, and whether that assertion came after the stop or the sleep (R467, R473) -/
  perst : Bool := false
  perstCycle : Bool := false
  /-- AON_TIME at which TRIP_LATCH was set, until the next start records it (R493) -/
  tripAon : Option Nat := none
  /-- tick of the latest wake (R467) -/
  wakeTick : Option Nat := none
  /-- the start in progress is warm (R17), and from Deep sleep (Table 15.4) -/
  warm : Bool := false
  fromSleep : Bool := false
  /-- index, TDE_TIME and length of the last edge before a stop (R17) -/
  keptTide : W32 := 0
  keptTime : Nat := 0
  keptLen : Nat := 20000000
deriving DecidableEq, Repr

/-- A firmware command that waits for the one that runs (R414). -/
inductive FwWork where
  | flash (img : Image) | selfTest (st : SelfTest) | retire | restart
deriving DecidableEq, Repr

/-- The identity key pair: modulus, public and private exponent (R415). -/
structure Identity where
  n : Nat := 0
  e : Nat := 0
  d : Nat := 0
deriving DecidableEq, Repr

/-- Start-up, firmware and identity beside their registers (R397 to R418). -/
structure Boot where
  identity : Identity := {}
  /-- the PCI Express Device Serial Number (R416, Table 12.2) -/
  serial : W64 := 0
  bootSel : Bool := false
  smbAddr : BitVec 3 := 0
  /-- digests of signing keys that ROM holds: the current firmware key and its successor (R404); ROM never changes, and the spec
  gives no value (log 137, DESIGN CHOICE) -/
  signers : List (BitVec 512) := [0, 0]
  /-- start-up resumed by RESTART_DEVICE with an image of its own: its length (Table 13.6) -/
  ownImage : Option Nat := none
  /-- digests of the image that the latest start verified: header and sections (R421) -/
  image : List (BitVec 512) := []
  /-- failures found by the latest self-test (R401) -/
  failed : SelfTest := {}
  /-- firmware runs (Table 13.6) -/
  fwRuns : Bool := false
  /-- FW_FLASH in progress: queue pair, command identifier, IRQ (R407) -/
  flashing : Option (Qid × W16 × Bool) := none
  /-- firmware commands that wait, in ring order (R414) -/
  waitFw : List (Qid × SrvCmd × FwWork) := []
  /-- the power and the scheduler processor have run since the start (R395) -/
  pwrRan : Bool := false
  schRan : Bool := false
deriving DecidableEq, Repr

/-! ### The tide (02_tide) -/

/-- What a valid marker said of an edge: the root's edge time on the local clock, its tide index (R356). -/
structure RootEdge where
  time : Nat
  tide : W32
deriving DecidableEq, Repr

/-- The tide timer, beside the TDE registers (R43 to R68). -/
structure TideTimer where
  running : Bool := false
  /-- the next edge is edge 0 of a cold start (R68) -/
  first : Bool := true
  /-- length of the open tide (R43) -/
  len : Nat := 20000000
  nextEdge : Nat := 0
  /-- intake closes of the latest and of the coming edge (R49) -/
  close : Nat := 0
  /-- work has begun; no new work starts, at seal or after an orderly stop; the counters have latched (R44, R48, R471) -/
  work : Bool := false
  sealed : Bool := false
  latched : Bool := false
  /-- the latest root edge known from markers (R61, R63), whether it came since the latest edge, and consecutive edges
  without one (R62) -/
  marker : Option RootEdge := none
  fresh : Bool := false
  missed : Nat := 0
  /-- tide and plane of the first valid marker of the latest root edge (R356) -/
  firstMarker : Option (W32 × Nat) := none
  /-- period and effective index the root carries (R67) -/
  rootPeriod : Option (Nat × W32) := none
  /-- edges since the timer started, for bounds counted in tides -/
  count : Nat := 0
deriving DecidableEq, Repr

/-! ### Pans and lanes (03_pans, 04_correction) -/

/-- Bed states (Table 3.4). -/
inductive BedState where
  | empty | writing | written | raking | ready | active | stale | failed
deriving DecidableEq, Repr

/-- A streamed block as the plan names it (R176, R284): its group and number, and what the plan alone says of it. -/
structure StreamKey where
  group : Nat
  block : Nat
  shape : Block
deriving DecidableEq, Repr

/-- What a bed holds: the start pattern (R402), the content of the current or the staged placement, or a streamed
block. -/
inductive Content where
  | none | start | current | staged | stream (k : StreamKey)
deriving DecidableEq, Repr

/-- One bed of a pan (R88 to R104). -/
structure Bed where
  state : BedState := .empty
  content : Content := .none
  /-- the streamed block that the latest write put in the cells, as the master held it then (R176, R182) -/
  loaded : Option Block := none
  /-- tide edges since the write completed (R97) -/
  age : Nat := 0
  /-- raked since the start (R103), and the bed's last rake tide -/
  raked : Bool := false
  rakeTide : W32 := 0
  resid : W16 := 0xFFFF
  spares : SpareMap := []
  /-- the spare map changed since the last rake (R96, R103) -/
  remapped : Bool := false
  /-- the latest start rake or exit rake of this bed, whose fit the spec leaves open; 0 before the first (log 8) -/
  rakeId : Nat := 0
  /-- the residual is one that a fit reported (R102) -/
  residOwn : Bool := false
  /-- coefficient entries by physical column; unlisted ones are the unity entry before the first rake and the open fit
  of rake `rakeId` after it (log 8) -/
  coefs : Cells W32 := []
  /-- checksum mismatches of this tide by group (R87) -/
  mism : List (Nat × Nat) := []
  /-- the queue pairs and first positions of the products that mismatched, by group (R431) -/
  mismOf : List (Nat × Qid × W32) := []
  /-- marked for re-programming by the checksum (R87, R426) -/
  reprog : Bool := false
  /-- failed its rake once with this content (R104, R526) -/
  firstFail : Bool := false
  /-- written before the latest edge (R95) -/
  beforeEdge : Bool := false
deriving DecidableEq, Repr

/-- A claim on the shadow bed (Table 3.7). -/
structure Claim where
  rank : Nat
  what : Content
  /-- it needs a rake whatever R103 says -/
  rake : Bool := false
  /-- PAN_CTRL.REFRESH_REQ or RAKE_REQ stands behind it -/
  refreshReq : Bool := false
  rakeReq : Bool := false
deriving DecidableEq, Repr

/-- A product between its issue and its stage 5 (R81, R116, R117, R128, R131). -/
structure Flight where
  prod : Product
  /-- first position of the step it belongs to -/
  first : W32 := 0
  t0 : Nat
  level : Nat
  /-- computed in reference arithmetic (R164) -/
  reference : Bool := false
  taken : List Nat := []
  spilled : List Nat := []
  todo : List PassDesc := []
  recs : List PassRec := []
  /-- phases of row groups counted as saturated: (row group, low, spill) (R84) -/
  satSeen : List (Nat × Bool × Bool) := []
  passes : Nat := 0
  /-- taken rows fetched on demand and not here yet (R121) -/
  fetching : Nat := 0
  fetchedAt : Nat := 0
  q : Option (List Int) := none
  qAt : Nat := 0
  lastCode : Nat := 0
  /-- its place in the order of issue on the core (R122); it waits behind a repeat to be issued again (R131) -/
  seq : Nat := 0
  again : Bool := false
deriving DecidableEq, Repr

/-- Use of an accumulator set (R125). -/
inductive SetUse where
  | free | working | draining
deriving DecidableEq, Repr

/-- One accumulator set (R125); an empty list of accumulators is 512 zeros. -/
structure AccSet where
  use : SetUse := .free
  acc : List Int := []
  shift : Nat := 0
  valid : Bool := false
  sat : Bool := false
  cols : Nat := 0
  tile : W32 := 0
  products : Nat := 0
  owner : Option Qid := none
  /-- the layer of its tile -/
  layer : Nat := 0
deriving DecidableEq, Repr

/-- A product kept for grading (R168): its original input, final level, rows and passes. -/
structure Graded where
  x : List Int
  level : Nat
  taken : List Nat
  spilled : List Nat
  recs : List PassRec
  block : Block
  owner : Option Qid
  /-- first position of the step it belongs to -/
  first : W32 := 0
  tile : W32
deriving DecidableEq, Repr

/-- A pan with its lane. -/
structure Pan where
  a : Bed := {}
  b : Bed := {}
  /-- bed B is the active bed, and the tide in which it became ACTIVE -/
  activeB : Bool := false
  activeTide : W32 := 0
  withdrawn : Bool := false
  streamed : Bool := false
  /-- blocks of the current and of the staged placement (R97, R101) -/
  cur : Option Block := none
  staged : Option Block := none
  /-- streamed blocks named by the schedule, in its order, and the one that is claimed next (R95, R176) -/
  streams : List StreamKey := []
  streamAt : Nat := 0
  claims : List Claim := []
  /-- the claim whose write or rake runs -/
  serving : Option Claim := none
  flights : List Flight := []
  set0 : AccSet := { use := .working }
  set1 : AccSet := {}
  /-- working set is set 1 -/
  work1 : Bool := false
  /-- (Σ ε², count) of the last 64 graded products, newest first (R107, R171) -/
  grades : List (Nat × Nat) := []
  /-- products kept for grading, not judged yet, oldest first -/
  kept : List Graded := []
  /-- queue pairs whose vectors entered products of this tide (R431) -/
  users : List Qid := []
  /-- products still to be drawn for grading in this tide (R429) -/
  toDraw : Nat := 0
  /-- bytes of a bed's content that hoist 1 has brought for the next write to complete (R92) -/
  stagedIn : Nat := 0
  /-- writes and rakes of start-up and of power exits since the start, which PAN_BED_WRITES and PAN_RAKES count with the
  others (R104, R105, R461) -/
  baseWrites : Nat := 0
  baseRakes : Nat := 0
  /-- since when the next product waits on the sluice (R122), and the pan on a streamed block (R95) -/
  stallFrom : Option Nat := none
  streamFrom : Option Nat := none
deriving DecidableEq, Repr

/-- A lane set or cluster slot save record (Tables 4.4, 4.5): what it saves, the address at which its bytes lie, and
what the device knows of it beside them: the queue pair and the layer of the tile, and whether the bytes lie in HBM. -/
structure SaveRec where
  target : SaveTarget
  addr : Nat
  owner : Option Qid := none
  layer : Nat := 0
deriving DecidableEq, Repr

/-! ### Weights (06_weights) -/

/-- Model slot states (Table 6.10). -/
inductive SlotState where
  | empty | loading | verified | staging | staged | active | retired | failed
deriving DecidableEq, Repr

/-- A model slot (R174, R191, R204). -/
structure Slot where
  state : SlotState := .empty
  modelId : BitVec 128 := 0
  gen : W16 := 0
  /-- bytes of the master in HBM; layers in the host tier (R174, R180) -/
  hbmBytes : Nat := 0
  hostLayers : List Nat := []
  /-- the content key, while it is held (R188) -/
  key : Option (List Byte) := none
  /-- SHA-512 of the manifest (R421) -/
  manifestSha : BitVec 512 := 0
  /-- NONCE_SALT and the shards; their content is the master in `mem` (R173) -/
  salt : List Byte := []
  shards : List ShardEntry := []
  /-- pans concerned while STAGING and STAGED (R200) -/
  pans : List Nat := []
deriving DecidableEq, Repr

/-- A shard wanted from the fabric (R196, R197). -/
structure Wanted where
  shard : Nat
  first : Nat
  /-- the latest request: its number and its time -/
  sent : Nat := 1
  asked : Nat := 0
deriving DecidableEq, Repr

/-- A load in progress (R189 to R197). `mode` as WGT_LOAD_CTRL.MODE. -/
structure Load where
  mode : Nat
  /-- none for a model slot -/
  adapter : Option Nat := none
  slot : Nat := 0
  start : Nat
  pkg : Option Package := none
  key : Option (List Byte) := none
  /-- layers to be placed in the host tier (R180) -/
  hostLayers : List Nat := []
  ok : List Nat := []
  /-- bytes of each part of the package that have come over the fabric: i for shard i, from 65,536 on the header, the
  manifest and the key table (R194, log 134) -/
  parts : List (Nat × Nat) := []
  /-- failed reads by shard (R192) -/
  fails : List (Nat × Nat) := []
  wanted : List Wanted := []
  /-- the END marker has come (R196) -/
  ended : Bool := false
  abort : Bool := false
  bcaster : Option (BitVec 17) := none
  lastPkt : Nat := 0
  /-- shards in the hold area, each with its bytes (R198) -/
  held : List (Nat × Nat) := []
deriving DecidableEq, Repr

/-- An adapter (R207 to R211). -/
structure Adapter where
  id : Nat
  base : BitVec 128
  gen : W16
  rank : Nat
  bytes : Nat
  shards : List ShardEntry := []
  /-- verified before the latest edge, so that sessions can name it -/
  usable : Bool := false
  retiring : Bool := false
deriving DecidableEq, Repr

/-- Shards a device serves to others (R194, R198). -/
structure Serving where
  modelId : BitVec 128
  gen : W16
  /-- the broadcaster re-reads from host memory; a receiver has its hold area: shards held, each with its bytes -/
  broadcaster : Bool
  shards : List (Nat × Nat) := []
  total : Nat := 0
  /-- end of the hold time, once the own load has ended -/
  untilT : Option Nat := none
deriving DecidableEq, Repr

/-- The copy of a host-tier layer in the bounce region (R181, R182): the pans whose beds were written from it, and whether
the streaming set has left the layer. -/
structure Bounce where
  layer : Nat
  pans : List Nat := []
  left : Bool := false
deriving DecidableEq, Repr

/-- Weights, beside the WGT registers. -/
structure Weights where
  slot0 : Slot := {}
  slot1 : Slot := {}
  load : Option Load := none
  adapters : List Adapter := []
  tierFault : Bool := false
  /-- failed host-tier reads of this tide by layer (R183) -/
  tierFails : List (Nat × Nat) := []
  /-- host-tier layers in the bounce region (R181, R182) -/
  bounce : List Bounce := []
  /-- layers a streaming set waits for, and since when (R181) -/
  tierWait : List (Nat × Nat) := []
  /-- since when a pan of the streaming set waits at a layer boundary (R178) -/
  stallFrom : Option Nat := none
  /-- packets of the latest broadcast of this device (R351) -/
  bcast : Nat := 0
  /-- edge at which the hold of a pinned switch began (R202) -/
  heldFrom : Option W32 := none
  serving : Option Serving := none
deriving DecidableEq, Repr

/-! ### Serving and the KV cache (07_attention, 08_serving) -/

/-- A scale group as a page holds it (R155, R217): its scale code and codes. -/
structure KvStored where
  scale : W16
  codes : List Int
deriving DecidableEq, Repr

/-- The pages of one block of a sequence, one a KV layer (R221, R222). -/
structure BlockPages where
  block : Nat
  pages : List Nat
deriving DecidableEq, Repr

/-- Sampling settings (Table 8.9). -/
structure Sampling where
  temp : W32 := 0
  topP : W32 := 0x3F800000
  rep : W32 := 0x3F800000
  pres : W32 := 0
  freq : W32 := 0
  topK : Nat := 1
  history : Nat := 0
  seed : W64 := 0
  stop0 : W32 := 0xFFFFFFFF
  stop1 : W32 := 0xFFFFFFFF
  includeInput : Bool := false
deriving DecidableEq, Repr

/-- What a command has to report in its next record (Table 8.5). -/
structure Report where
  flags : Nat := 0
  tokens : Nat := 0
  frames : Nat := 0
  specAcc : Nat := 0
  specProp : Nat := 0
deriving DecidableEq, Repr

/-- A work command of a session that has not completed (R256, R258). -/
structure Work where
  opcode : Nat
  flags : Nat
  cid : W16
  deadline : W32
  dataAddr : W64 := 0
  dataLen : Nat := 0
  maxTokens : Nat := 0
  audioAddr : W64 := 0
  audioLen : Nat := 0
  /-- its input tokens, how many are committed, and its audio frames -/
  input : List W32 := []
  inputCommitted : Nat := 0
  frames : Nat := 0
  started : Bool := false
  /-- tokens delivered, tokens and frames written (Table 8.5) -/
  delivered : Nat := 0
  tokTotal : Nat := 0
  frmTotal : Nat := 0
  /-- its final status, once it has one, with the detail and the flags of R256 -/
  done : Option (Nat × Nat) := none
  endFlags : Nat := 0
  /-- positions of it are computed again after a fault (R276) -/
  fault : Bool := false
deriving DecidableEq, Repr

/-- A step or prompt chunk planned for a session in the tide (R237, R273). -/
structure Step where
  gen : Bool
  first : W32
  count : Nat
  draft : Nat := 0
  /-- it samples from the last input position again and completes no new position (log 24) -/
  prime : Bool := false
  probe : Bool := false
  /-- pages it reads, layers it runs and has completed (R234, R238) -/
  pages : Nat := 0
  layers : Nat := 0
  layersDone : Nat := 0
  /-- reference mode in effect at the edge at which it started (R166) -/
  reference : Bool := false
  /-- generation of the model it started on (R203) -/
  tag : W16 := 0
  /-- its place in the order in which the tide's steps were planned (R237, R260) -/
  turn : Nat := 0
  /-- the settings in effect when it started (R259) -/
  sampling : Sampling := {}
  adapter : Nat := 0xFFFF
  rolled : Bool := false
  void : Bool := false
  /-- its output is dropped (R268) -/
  cancelled : Bool := false
  /-- it has finished (STEP_COMPLETE) -/
  complete : Bool := false
deriving DecidableEq, Repr

/-- A position completed and not committed yet (R275): its input token, whether it is an input position, the token
delivered from it, and what its step adds to the next record (R256). -/
structure DonePos where
  pos : W32
  token : W32
  isInput : Bool
  prime : Bool := false
  delivered : Option W32 := none
  flags : Nat := 0
  specAcc : Nat := 0
  specProp : Nat := 0
deriving DecidableEq, Repr

/-- Session states (Table 8.7) but FREE. -/
inductive SessionState where
  | opened | closing | closed | failed
deriving DecidableEq, Repr

/-- A session with its sequence (R224, R257, R273 to R277). -/
structure Session where
  state : SessionState := .opened
  slot : Nat
  limit : Nat
  policy : Nat
  pinned : Bool
  textOut : Bool
  audioOut : Bool
  in24 : Bool
  out24 : Bool
  specMax : Nat
  adapter : Nat := 0xFFFF
  statusAddr : W64
  commit : W32 := 0xFFFFFFFF
  base : W32 := 0
  head : Option W32 := none
  exclusive : Bool := false
  blocks : List BlockPages := []
  sampling : Sampling := {}
  /-- committed tokens, newest first, each with whether it is an input token (R270) -/
  hist : List (W32 × Bool) := []
  /-- the last delivered token, which the position after the commit index holds (R273) -/
  nextToken : Option W32 := none
  /-- runs of positions written, with the generation of the model (R203) -/
  segs : List (W32 × Nat × W16) := []
  /-- no further step of it runs in this tide (R240, R276) -/
  barred : Bool := false
  work : List Work := []
  steps : List Step := []
  done : List DonePos := []
  draftLen : Nat
  specOff : Bool := false
  rejectRun : Nat := 0
  /-- verifications run and drafts accepted in this tide, and the tide's probe has run (R274) -/
  verified : Nat := 0
  probed : Bool := false
  accepted : Nat := 0
  /-- edge at which the draft length became 0 (R274) -/
  offTide : W32 := 0
  probeWon : Bool := false
  /-- tokens generated in the previous tide (R237) -/
  genPrev : Nat := 0
  events : Nat := 0
  faultEpoch : W16 := 0
  faultFlag : Bool := false
  tokensOut : W64 := 0
  framesIn : W64 := 0
  framesOut : W64 := 0
  /-- committed tokens of a frame not complete yet (R263) -/
  frameTokens : Nat := 0
  /-- the CLOSE that waits for its record (R257) -/
  closing : Option (W16 × Bool) := none
  /-- the record last written (R277) -/
  written : Option StatusRec := none
  /-- bucket at the latest edge (R232) -/
  bucket : Nat := 0
  /-- tide since which its next command waits for budget (R51, R501) -/
  waitFrom : Option W32 := none
deriving DecidableEq, Repr

/-- A completion record waiting for its edge: CID, status, opcode, whether IRQ is set, detail (Table 8.5). -/
structure Cpl where
  cid : W16
  status : Nat
  opcode : Nat
  irq : Bool := false
  detail : Nat := 0
  report : Report := {}
  tokTotal : Nat := 0
  frmTotal : Nat := 0
  more : Bool := false
deriving DecidableEq, Repr

/-- Queue pair states (R250). -/
inductive QpState where
  | free | ready | error
deriving DecidableEq, Repr

/-- A queue pair (R248 to R253). -/
structure Qp where
  state : QpState := .free
  sqBase : W64 := 0
  cqBase : W64 := 0
  sqLog : Nat := 0
  cqLog : Nat := 0
  vector : Nat := 0
  mem : Bool := false
  lateDrop : Bool := false
  /-- entries made visible, taken, written and freed since the pair was created; a ring index is the count modulo the
  ring size (R252, R253) -/
  sqTail : Nat := 0
  sqHead : Nat := 0
  cqTail : Nat := 0
  cqHead : Nat := 0
  /-- entries made visible and not admitted: arrival stamp and count, oldest first (R252) -/
  rung : List (Stamp × Nat) := []
  /-- records for the next edge -/
  recs : List Cpl := []
  /-- edges at which unsignalled IRQ records were published (R377) -/
  unsignalled : List Nat := []
  cqFull : Bool := false
  cqFullFrom : W32 := 0
  /-- the tail and head last rung (SRV_QP_RUNG) -/
  lastTail : Nat := 0
  lastHead : Nat := 0
  session : Option Session := none
  /-- buffer of a QUERY_SESSION to write at the next edge: address, session's queue pair (R277) -/
  queries : List (W64 × Nat) := []
deriving DecidableEq, Repr

/-- A ring entry admitted at the latest edge and not taken yet (R259). -/
structure Admitted where
  stamp : Stamp
  fn : Nat
  qid : Nat
deriving DecidableEq, Repr

/-- Serving and KV state that belongs to no session. -/
structure Serve where
  admitted : List Admitted := []
  /-- doorbell latches by function (R251) -/
  latch : Cells (Option W32) := []
  /-- charges of the open tide: generation and prompts (R238) -/
  spentGen : Nat := 0
  spentPrompt : Nat := 0
  /-- pages in the pool of the active plan's page size (R220) -/
  poolPages : Nat := 0
  /-- budget left for the tide, steps planned in it and its rounds (R237) -/
  left : Nat := 0
  turn : Nat := 0
  rounds : Nat := 0
  /-- WGT_STREAM_STALL_NS when the latest tide was planned (R178) -/
  stallMark : Nat := 0
  /-- queue pairs whose steps find no pages in this tide, and those offered pages first (R240) -/
  short : List Nat := []
  first : List Nat := []
  /-- pages to be freed at the next edge (R45 step 5) -/
  limbo : List Nat := []
deriving DecidableEq, Repr

/-- A function's shares (Table 12.3). -/
structure Share where
  qpFirst : Nat
  qpCount : Nat
  sessMax : Nat := 96
  sessRes : Nat := 0
  poolBase : Nat := 0
  poolCount : Nat := 0
  /-- remote devices reach its words (R317) -/
  fabric : Bool := false
deriving DecidableEq, Repr

/-! ### The bench plan (09_bench_plan) -/

/-- Plan slot states (Table 9.10). -/
inductive PlanState where
  | empty | loading | waitModel | staging | staged | active | failed
deriving DecidableEq, Repr

/-- Where placement put a group core (Table 9.11). -/
structure Placed where
  group : Nat
  groupCore : Nat
  core : Nat
  moving : Option Nat := none
deriving DecidableEq, Repr

/-- A plan slot (R290 to R297). -/
structure PlanSlot where
  state : PlanState := .empty
  img : Option PlanImage := none
  place : List Placed := []
  /-- residency: streamed layers (R175) -/
  streamed : List Nat := []
  /-- weight slot it is bound to (R292) -/
  bound : Option Nat := none
  /-- pans concerned (R200, R293) -/
  pans : List Nat := []
deriving DecidableEq, Repr

/-- The two plan slots and the load in progress. -/
structure Plans where
  s0 : PlanSlot := {}
  s1 : PlanSlot := {}
  /-- slot being loaded, and whether ABORT was written (R291) -/
  loading : Option (Nat × Bool) := none
  dump : Bool := false
  /-- the placement in effect since the latest edge, of every logical core that is placed or not on its home: logical
  core, its placement entry, its physical core (0xFFFFFFFF for none) (R298) -/
  shown : List (Nat × Nat × Nat) := []
deriving DecidableEq, Repr

/-! ### Cores, synchronisation, clusters (10_cores, 04_correction) -/

/-- States of a context (Table 10.2). -/
inductive CtxState where
  | idle | ready | running | waiting
deriving DecidableEq, Repr

/-- What a WAITING context waits for (Table 10.2). -/
inductive WaitReason where
  | sync | hoist | lane | save | fence | vector
deriving DecidableEq, Repr

/-- A wait on a sync word (R313): word, condition, target. -/
structure SyncWait where
  ref : SyncRef
  cond : WaitCond
  target : W64
deriving DecidableEq, Repr

/-- A hardware context (R301 to R303). -/
structure Ctx where
  state : CtxState := .idle
  reason : Option WaitReason := none
  wait : Option SyncWait := none
  /-- schedule step, in its context's order -/
  step : Nat := 0
  /-- the step has begun -/
  mid : Bool := false
  /-- the sequence's queue pair whose step runs -/
  owner : Option Qid := none
  since : Nat := 0
  /-- consecutive seals at which it waited on one word for one step, which these are, and whether the stall was
  reported (R324) -/
  seals : Nat := 0
  stallRef : Option SyncRef := none
  stallStep : Nat := 0
  stalled : Bool := false
  /-- the step is voided and its results are discarded (R276, R306) -/
  void : Bool := false
  rolled : Bool := false
  /-- kind of the fence in progress: 0 LOCAL, 1 DEVICE, 2 FABRIC (R318) -/
  fence : Nat := 0
  /-- its operand registers as far as the spec gives them a content: what its latest LOAD, ADD or CAS returned (R301, R312) -/
  operand : W64 := 0
deriving DecidableEq, Repr

/-- A transfer of a hoist queue (R307, R308): where in core SRAM it puts its bytes or takes them from, how many, whether
it takes them out to HBM, the bed whose content it brings, and the context and step it belongs to. -/
structure Desc where
  dest : Nat := 0
  bytes : Nat := 0
  out : Bool := false
  bed : Option PanId := none
  ctx : CtxId := 0
  step : Nat := 0
  /-- an on-demand fetch of a taken row for this pan (R121) -/
  demand : Option PanId := none
  wait : Option SyncWait := none
deriving DecidableEq, Repr

/-- A buffer that a hoist fills for a step (R308, R309). -/
structure Fill where
  ctx : CtxId
  step : Nat
  dest : Nat
  bytes : Nat
deriving DecidableEq, Repr

/-- A hoist (R307 to R310). -/
structure Hoist where
  queue : List Desc := []
  busy : Option Desc := none
  /-- the buffers of transfers started in this tide -/
  ahead : List Fill := []
  since : Nat := 0
  /-- as a context's, for the transfer at the head of the queue (R324) -/
  seals : Nat := 0
  stallRef : Option SyncRef := none
  stallStep : Nat := 0
  stalled : Bool := false
deriving DecidableEq, Repr

/-- Who waits on a sync word: a context or a hoist of a core. -/
inductive Waiter where
  | ctx (core : CoreId) (ctx : CtxId) (w : SyncWait) (since : Nat)
  | hoist (core : CoreId) (hoist : Fin 2) (w : SyncWait) (since : Nat)
deriving DecidableEq, Repr

/-- A sync word with its debug registers (R311, R325). -/
structure SyncWord where
  value : W64 := 0
  lastSrc : Nat := 0
  lastOp : Nat := 3
  lastTide : W32 := 0
  lastTime : Nat := 0
  waiters : List Waiter := []
deriving DecidableEq, Repr

/-- The capture buffer of a core (R139, Table 4.8). -/
structure Capture where
  recs : List PassRec := []
  level : Nat := 0
  spillShift : Nat := 0
  add : Bool := false
  last : Bool := false
  sat : Bool := false
  cols : Nat := 0
  tide : W32 := 0
  q : List Int := []
  acc : List Int := []
deriving DecidableEq, Repr

/-- What a core's combine holds of a tile: the sums, how many lanes have arrived, SAT (R132). -/
structure CombineSum where
  tile : W32
  layer : Nat
  sums : List Int := []
  lanes : Nat := 0
  sat : Bool := false
deriving DecidableEq, Repr

/-- A logical core (R301 to R326, R132, R139). -/
structure Core where
  ctxs : List Ctx := [{}, {}, {}, {}]
  hoists : List Hoist := [{}, {}]
  words : Cells SyncWord := []
  /-- the context that ran last, for the round robin (R304) -/
  last : Nat := 3
  capture : Capture := {}
  combine : List CombineSum := []
  /-- draws of the tide not used yet (R429) -/
  draws : Nat := 0
  /-- products issued on the core, for their order (R122) -/
  issued : Nat := 0
deriving DecidableEq, Repr

/-- A slot of a cluster reduction unit (R133). -/
structure CruSlot where
  used : Bool := false
  acc : List Int := []
  expected : Nat := 0
  received : Nat := 0
  sat : Bool := false
  tile : W32 := 0
  /-- the layer and the queue pair of its tile -/
  layer : Nat := 0
  owner : Option Qid := none
deriving DecidableEq, Repr

/-- A cluster. -/
structure Cluster where
  slots : Cells CruSlot := []
  /-- its control processor is stopped (R410) -/
  ccpStopped : Bool := false
  unitFailed : Bool := false
deriving DecidableEq, Repr

/-! ### Physical cores (14_resilience) -/

/-- HLT_PC_STATE (Table 14.14). -/
inductive PhysRole where
  | home | reserve | carrying | filling | retired
deriving DecidableEq, Repr

/-- A physical core (Table 14.14, R425, R435, R436). `home` is as after a start: cores 0 to 63 of a cluster carry the
logical core of their number, 64 to 67 are reserves. -/
structure Phys where
  role : PhysRole := .home
  logical : Option Nat := none
  testing : Option PhysId := none
  /-- the core whose sweep this core checks (R434) -/
  partnerOf : Option PhysId := none
  listed : Bool := false
  kind : Nat := 0
  /-- fault events: tide indices, newest first -/
  events : List W32 := []
  /-- latest sweep passed -/
  sweepOk : Bool := true
  due : Bool := false
  defer : Nat := 0
  /-- last tide of the suspect window by pan (R430) -/
  suspect : List (Nat × W32) := []
  /-- an accepted sweep (0) or retirement (1) request not in effect yet (R445) -/
  asked : Option Nat := none
  sweepTide : W32 := 0
  lastFault : Nat := 0
  lastTide : W32 := 0
  graded : Nat := 0
  gradeFails : Nat := 0
  sweeps : Nat := 0
  ce : Nat := 0
  ue : Nat := 0
deriving DecidableEq, Repr

/-- A migration for a deferred test (R436): its edge E, the core, the reserve, how far it is. -/
structure Migration where
  phys : Nat
  reserve : Nat
  /-- the logical core that moves -/
  core : Nat := 0
  edge : W32
  phase : Nat := 0
  /-- the pans of the vacated physical core, whose beds are not written (Table 14.2) -/
  beds : List Pan := []
deriving DecidableEq, Repr

/-- Resilience, beside the HLT registers. -/
structure Resil where
  degraded : List Nat := []
  migrations : List Migration := []
  /-- re-programmed beds swapped in after a trip: pan, group, edge (R427) -/
  trips : List (PanId × Nat × W32) := []
  /-- marked groups whose re-programmed bed has not swapped in: pan, group -/
  marked : List (PanId × Nat) := []
  /-- consecutive tides in which faults voided a step of a session (R445): queue pair, count, latest tide -/
  voids : List (Nat × Nat × W32) := []
  /-- the same for a fabric code (R353): queue pair, code, count, latest tide -/
  fabVoids : List (Nat × Nat × Nat × W32) := []
  /-- columns of the other bed still to be mapped (R428): pan, bed B, columns -/
  mapLater : List (PanId × Bool × List Nat) := []
deriving DecidableEq, Repr

/-! ### Fabric (11_fabric) -/

/-- Link states (Table 11.5), numbered by their codes. -/
inductive LinkSt where
  | down | detect | train | hello | admitSt | up | retrain | held
deriving DecidableEq, Repr

/-- A packet as sent (Table 11.3) with the operation it carries. -/
structure Pkt where
  type : Nat
  ver : Nat := 1
  seq : BitVec 12 := 0
  phase : Bool := false
  dateline : Bool := false
  dst : BitVec 17 := 0
  src : BitVec 17 := 0
  gen : W16 := 0
  last : Bool := true
  len : Nat := 4
  opNum : Nat := 0
  /-- the payload's values, in the order the row's rule names them -/
  args : List Nat := []
deriving DecidableEq, Repr

/-- A link (R327 to R341, R357). -/
structure Link where
  st : LinkSt := .down
  code : Nat := 0
  present : Bool := false
  disabled : Bool := false
  /-- first instant of the presence that is being debounced or of the present state -/
  since : Nat := 0
  trainFails : Nat := 0
  /-- stamps of the retrains that failed in the open second (R336) -/
  retrains : List Nat := []
  nonce : BitVec 256 := 0
  /-- the partner's first HELLO has come -/
  first : Bool := false
  peer : Option Hello := none
  ver : Nat := 0
  txSeq : BitVec 12 := 0
  rxSeq : BitVec 12 := 0
  unacked : List (Pkt × Nat) := []
  /-- credits spent of each of the 16 buffers, in 16-byte units (R335) -/
  spent : List Nat := []
  /-- packets that wait for credits or for room in the replay buffer (R334, R335) -/
  waiting : List Pkt := []
  /-- credits of each buffer to return to the partner (R335) -/
  freed : List Nat := []
  /-- packets accepted since the latest acknowledgement (R334) -/
  toAck : Nat := 0
  /-- buffers whose next packet has not the credits it needs: buffer, stamp and tide since (R501) -/
  starved : List (Nat × Nat × W32) := []
deriving DecidableEq, Repr

/-- A member in the link-state database (R347): links reported UP, links in routes. -/
structure Member where
  addr : BitVec 17
  counter : Nat
  up : List LinkId
  routes : List LinkId
  verMin : Nat
  verMax : Nat
deriving DecidableEq, Repr

/-- What an operation of a context is (R350, R354). -/
inductive OpKind where
  | write | reduceAdd | load | store | modify
deriving DecidableEq, Repr

/-- An outstanding fabric operation (R350, R352, R353). -/
structure FabOp where
  num : Nat
  kind : OpKind
  core : CoreId
  ctx : CtxId
  dst : BitVec 17
  sent : Nat
  /-- packets not acknowledged yet -/
  left : Nat := 1
deriving DecidableEq, Repr

/-- A destination buffer in its tide: the generation tag, the contributions that have arrived, and whether they are all
(R287, R361). -/
structure RedBuf where
  buf : Nat
  tag : W16
  failed : Bool := false
  received : Nat := 0
  complete : Bool := false
deriving DecidableEq, Repr

/-- The fabric, beside the FAB registers. -/
structure Fabric where
  links : Cells Link := []
  db : List Member := []
  counter : Nat := 0
  ops : List FabOp := []
  nextOp : Nat := 0
  /-- plane after the one of the previous packet to a destination (R348) -/
  nextPlane : List (BitVec 17 × Nat) := []
  red : List RedBuf := []
  sysver : Nat := 0
  sysverNext : Option (Nat × W32) := none
  /-- keys of the map in effect: address, key (R344) -/
  map : List (BitVec 17 × BitVec 128) := []
  mapped : Bool := false
  noAddr : Bool := false
  usable : List (BitVec 17 × List Nat) := []
  /-- packets that came in Standby and wait in the link buffers (R462) -/
  standby : List Instr := []
deriving DecidableEq, Repr

/-! ### Host interface, security, power (12_host, 13_startup, 15_power) -/

/-- An entry of a function's MSI-X table (R376). -/
structure MsixEntry where
  addr : W64 := 0
  data : W32 := 0
  mask : Bool := true
  pending : Bool := false
deriving DecidableEq, Repr

/-- A write held while its block's processor restarts (R388). -/
structure HeldWrite where
  fn : FnId
  bar : Fin 6
  off : Nat
  size : Nat
  v : W64
  proc : HouseProc
deriving DecidableEq, Repr

/-- Errors that AER logs: a poisoned write is non-fatal (R368), a failed IDE check uncorrectable (R379). -/
inductive AerError where
  | poisonedWrite | ideCheck
deriving DecidableEq, Repr

/-- The host side, beside the HIF registers. -/
structure HostIf where
  /-- errors that AER has logged, by function (R368, R379) -/
  aer : List (Nat × AerError) := []
  held : List HeldWrite := []
  restarting : List Proc := []
  /-- restarts: processor, stamp (R410) -/
  history : List (Proc × Nat) := []
  msix : Cells MsixEntry := []
  numVfs : Nat := 0
  /-- upper halves of 64-bit reads and lower halves of 64-bit writes kept by function and register (R385) -/
  rdLatch : List (Nat × Nat × W32) := []
  wrLatch : List (Nat × Nat × W32) := []
deriving DecidableEq, Repr

/-- An SPDM session (R420). -/
structure SpdmSession where
  id : Nat
  fn : Nat
  /-- finished: application data may flow -/
  ready : Bool := false
  keys : Nat := 0
  last : Nat := 0
deriving DecidableEq, Repr

/-- Attestation and IDE state (R379, R380, R420). -/
structure Security where
  /-- negotiation reached by function: 0 none, 1 version, 2 capabilities, 3 algorithms -/
  stage : Cells Nat := []
  sessions : List SpdmSession := []
  /-- IDE stream: session that keyed it -/
  ide : Option Nat := none
  ideFailed : Bool := false
deriving DecidableEq, Repr

/-- A staged write of HIF_FN registers (R373, R374). -/
structure FnStage where
  fn : Nat
  share : Share
deriving DecidableEq, Repr

/-- Power and thermal control, beside its registers. -/
structure Power where
  /-- idle tides counted (R460) -/
  idle : Nat := 0
  level : Nat := 0
  thermLevel : Nat := 0
  /-- tides in a row below 95 % of the limit, without brake and warning (R458) -/
  calm : Nat := 0
  /-- tides closed since the thermal level last rose (R470) -/
  thermRise : Nat := 0
  /-- the brake engaged in this tide (R457, R458) -/
  brakeTide : Bool := false
  vrWarn : Bool := false
  /-- THROTTLE and WARN hold, and the first reading below the clearing threshold of each (R469) -/
  throttle : Bool := false
  throttleFrom : Option Nat := none
  warn : Bool := false
  warnFrom : Option Nat := none
  /-- the last conversions of each thermal sensor, newest first (R468) -/
  readings : List (Nat × List Int) := []
  stopping : Option Nat := none
  exitDue : Option Nat := none
  exitFrom : Nat := 0
  /-- an exit has completed and work is admitted from the next edge on (R461) -/
  waitEdge : Bool := false
  selfRefresh : Bool := false
  /-- scans in a row a rail or REFIN was out of its range (R479, R509) -/
  railScans : List (Nat × Nat) := []
  refScans : Nat := 0
  /-- PWR_ENERGY_UJ at the latest edge and at the latest seal (R458, R48) -/
  edgeUj : Nat := 0
  sealUj : Nat := 0
  /-- channel 63 has been converted and the scan is not judged yet (R474) -/
  scanDue : Bool := false
  channel : Nat := 0
  calibrating : Option Nat := none
  /-- VCORE current in mA and power in mW summed over the scans since the latest brake evaluation, and their number (R457) -/
  scanMa : Int := 0
  scanMw : Int := 0
  scans : Nat := 0
  /-- the means of the latest ten milliseconds, newest first: VCORE current in mA, package power in mW (R457) -/
  means : List (Int × Int) := []
  /-- the power monitors that answered at step 7: VARR, VDDQ, VPP, VLINK, VIO (R514) -/
  monitors : BitVec 5 := 0
deriving DecidableEq, Repr

/-! ### The whole -/

/-- What the device emits in a command, for whoever is outside (log 3). -/
inductive Output where
  | completion (qid : Nat) (c : Cpl) (phase : Bool) (sqHead : Nat) (commit tide : W32)
  | status (addr : W64) (r : StatusRec)
  | msix (fn vector : Nat)
  | packet (link : Nat) (p : Pkt)
  | hello (link : Nat) (payload : List Byte)
  | read (v : W64)
  | unsupported
  | spdm (code : Nat) (data : List Nat)
  | doe (vendor type next : Nat)
  | hor (data : List Nat)
  | dma (addr : W64) (data : List Nat)
  | tokens (addr : W64) (tokens : List W32)
  | audio (addr : W64) (bytes : Nat)
deriving DecidableEq, Repr

/-- The ways a command stops the model: the spec names none for the block as a whole, and no meaning raises one. -/
inductive Fault where
  /-- raised by no meaning; safe -/
  | none
deriving DecidableEq, Repr

/-- The refusals. -/
inductive Refusal where
  /-- raised by an arm of exec whose meaning is not written; safe -/
  | notModelled (mnemonic : String)
  /-- raised by PRODUCT_ISSUE and STEP_COMPLETE for operands that lie outside core SRAM (WellFormed.lean): no such event
  exists; safe -/
  | illFormed
deriving DecidableEq, Repr

/-- The state of the device. -/
structure State where
  /-- commands waiting, first in first out -/
  pending : List Instr := []
  /-- emitted in the latest command (log 3) -/
  out : List Output := []
  /-- counter of the free values; the model's own field (log 4) -/
  freeCtr : Nat := 0
  part : Part := .jn8
  /-- TDE_TIME of the latest command in nanoseconds (R57) -/
  now : Nat := 0
  regs : Cells W64 := []
  aon : Aon := {}
  boot : Boot := {}
  mram : Mram := {}
  tide : TideTimer := {}
  pans : Pool Pan := { dflt := {} }
  cores : Pool Core := { dflt := {} }
  clusters : Pool Cluster := { dflt := {} }
  phys : Pool Phys := { dflt := {} }
  pool : Cells SyncWord := []
  wgt : Weights := {}
  qps : Pool Qp := { dflt := {} }
  srv : Serve := {}
  shares : Cells Share := []
  stages : List FnStage := []
  plans : Plans := {}
  fab : Fabric := {}
  hif : HostIf := {}
  sec : Security := {}
  hlt : Resil := {}
  pwr : Power := {}
  evt : Recorder := {}
  /-- a snapshot not yet complete, and those that wait for it (R492) -/
  snaps : List SnapReq := []
  saved : List SaveRec := []
  /-- core SRAM, 524,288 bytes a core from core × 524,288 on (R25), and from 2^40 on what HBM holds: save records and
  destination buffers (R134, R137), the pages of the KV cache (R217), the masters, the bounce region and the hold area
  (Table 6.2) -/
  mem : Cells Byte := []
  /-- the ring area behind BAR4 (R383) -/
  rings : Cells Byte := []
deriving DecidableEq, Repr

/-- The machine right after reset: a cold start of a CNK-JN8-768 from the factory, VAON applied (R17, R510, R524). -/
def State.reset : State := {}

end Sys2Proof.Machine
end

