-- ==== Sys2Proof/WellFormed.lean ====
section
/-! DEFINITION. Which commands are well formed: what a product or a vector operation names lies in core SRAM, 524,288 bytes
(R25). -/

namespace Sys2Proof

/-- `n` bytes from `off` on lie in a core's SRAM (Table 1.3). -/
def inSram (off n : Nat) : Bool := decide (off + n ≤ 524288)

/-- The input vector and the scale code lie in core SRAM (R73, R153). -/
def ProductCmd.wellFormed (p : ProductCmd) : Bool := inSram p.x 1024 && inSram p.sx 2

/-- The arrays whose length the operation itself gives lie in core SRAM; those of a layer are judged with the layer
(layerFits). -/
def VecOp.wellFormed (o : VecOp) : Bool :=
  match o with
  | .dequant _ _ _ sx dst => inSram sx 2 && inSram dst 2048
  | .adapter _ x sx dst => inSram x 1 && inSram sx 2 && inSram dst 4
  | .quant n src x sx _ => inSram src (4 * n) && inSram x n && inSram sx 2
  | .wide _ _ n src dst => inSram src 4 && inSram dst (4 * n)
  | .embed _ _ dst => inSram dst 4
  | .weights _ _ n dst => inSram dst (4 * n)
  | .map _ n src dst => inSram src (4 * n) && inSram dst (4 * n)
  | .zip _ n a b dst => inSram a (4 * n) && inSram b (4 * n) && inSram dst (4 * n)
  | .sum n src dst => inSram src (4 * n) && inSram dst 4
  | .fill n src dst => inSram src 4 && inSram dst (4 * n)
  | .kvWrite _ _ _ _ src => inSram src 512
  | .attend _ _ _ query dst => inSram query 512 && inSram dst 512
  | .logits _ _ n src => inSram src (4 * n)

/-- Every operation of a step is well formed. -/
def StepRun.wellFormed (r : StepRun) : Bool := r.ops.all (fun e => e.2.wellFormed)

/-- Whether `i` is a command at all. -/
def Instr.wellFormed (i : Instr) : Bool :=
  match i with
  | .productIssue _ _ p => p.wellFormed
  | .stepComplete _ _ r => r.wellFormed
  | _ => true

end Sys2Proof
end

