-- ==== Sys2Proof/Machine/Ops.lean ====
section
/-! DEFINITION. The named operations over the state that every meaning is built from: registers and their fields,
interrupts, event and fault records, the device state, placement, tide indices, voiding. -/

namespace Sys2Proof.Machine

/-- What a command is answered with. -/
abbrev Res := Host.Outcome State Fault Refusal

/-- A command stamped `t` begins: what the previous one emitted is gone and time has advanced (R57, log 1). -/
def State.enter (s : State) (t : Stamp) : State := { s with out := [], now := max s.now t }

/-- A command stamped `t` with effect `f`. -/
def answer (t : Stamp) (s : State) (f : State → State) : Res := .next (f (s.enter t))

/-- `f` where `b` holds. -/
def State.when (s : State) (b : Bool) (f : State → State) : State := if b then f s else s

/-- `f` for every element of the list, first to last. -/
def State.each {α : Type} (s : State) (l : List α) (f : α → State → State) : State := l.foldl (fun s a => f a s) s

/-! ### Registers -/

/-- The field of `w` bits at `lo`. -/
def fldOf (v : W64) (lo w : Nat) : Nat := v.toNat / 2 ^ lo % 2 ^ w

/-- `v` with the field of `w` bits at `lo` set to `x`. -/
def setFld (v : W64) (lo w x : Nat) : W64 :=
  (v &&& ~~~(BitVec.ofNat 64 ((2 ^ w - 1) * 2 ^ lo))) ||| BitVec.ofNat 64 (x % 2 ^ w * 2 ^ lo)

/-- What element `i` of a register holds at a cold start (Table 0.5; AON_CMP of Table 15.5; HKA_COEF holds the unity
entry, log 5). -/
def Reg.resetAt (r : Reg) (i : Nat) : W64 :=
  match r with
  | .AON_CMP => BitVec.ofNat 64 ([750 + 850 * 1024, 850 + 950 * 1024, 2 ^ 31, 2 ^ 31, 2 ^ 31, 450 * 1024, 450 * 1024,
      580 + 820 * 1024].getD i 0)
  | .HKA_COEF => BitVec.ofNat 64 (32768 * 4096)
  | _ => BitVec.ofNat 64 r.info.reset

/-- Element `i` of register `r` of unit `u` (0 the physical function, or the one unit). -/
def State.reg (s : State) (r : Reg) (u : Nat := 0) (i : Nat := 0) : W64 :=
  Cells.get (fun _ => Reg.resetAt r i) s.regs (Reg.key u r i)

/-- Its value as a number. -/
def State.num (s : State) (r : Reg) (u : Nat := 0) (i : Nat := 0) : Nat := (s.reg r u i).toNat

/-- A field of it. -/
def State.fld (s : State) (r : Reg) (lo w : Nat) (u : Nat := 0) (i : Nat := 0) : Nat := fldOf (s.reg r u i) lo w

/-- Bit `b` of it. -/
def State.bit (s : State) (r : Reg) (b : Nat) (u : Nat := 0) (i : Nat := 0) : Bool := s.fld r b 1 u i == 1

/-- The register set to `v`, in as many bytes as it has. -/
def State.setReg (s : State) (r : Reg) (v : W64) (u : Nat := 0) (i : Nat := 0) : State :=
  { s with
    regs := Cells.set (fun _ => Reg.resetAt r i) s.regs (Reg.key u r i)
      (BitVec.ofNat 64 (v.toNat % 2 ^ (8 * r.info.size))) }

/-- The register set to a number. -/
def State.setNum (s : State) (r : Reg) (n : Nat) (u : Nat := 0) (i : Nat := 0) : State :=
  s.setReg r (BitVec.ofNat 64 n) u i

/-- A field of it set. -/
def State.setF (s : State) (r : Reg) (lo w x : Nat) (u : Nat := 0) (i : Nat := 0) : State :=
  s.setReg r (setFld (s.reg r u i) lo w x) u i

/-- A counter advanced by `n`; it wraps (R496). -/
def State.bump (s : State) (r : Reg) (n : Nat := 1) (u : Nat := 0) (i : Nat := 0) : State :=
  s.setNum r (s.num r u i + n) u i

/-- A counter that saturates at 0xFFFF_FFFF. -/
def State.bumpSat (s : State) (r : Reg) (u : Nat := 0) : State := s.setNum r (min 0xFFFFFFFF (s.num r u + 1)) u

/-- A fresh free value's index (log 4). -/
def State.tick (s : State) : State := { s with freeCtr := s.freeCtr + 1 }

/-- Something emitted (log 3). -/
def State.emit (s : State) (o : Output) : State := { s with out := s.out ++ [o] }

/-! ### Functions and interrupts (R376, R378) -/

/-- The functions that exist now: the physical function and the enabled virtual functions (R372). -/
def State.fns (s : State) : List Nat := List.range (s.hif.numVfs + 1)

/-- An entry of a function's MSI-X table. -/
def State.msixEntry (s : State) (fn v : Nat) : MsixEntry := Cells.get (fun _ => {}) s.hif.msix (fn * 2048 + v)

/-- That entry changed. -/
def State.setMsix (s : State) (fn v : Nat) (e : MsixEntry) : State :=
  { s with hif := { s.hif with msix := Cells.set (fun _ => {}) s.hif.msix (fn * 2048 + v) e } }

/-- A message on vector `v` of function `fn`: sent, or pending while the vector is masked (R376, log 12). -/
def State.sendMsix (s : State) (fn v : Nat) : State :=
  let e := s.msixEntry fn v
  if e.mask then s.setMsix fn v { e with pending := true } else s.emit (.msix fn v)

/-- The bits set in an INT_STATUS register of function `fn`; the event vector sends a message when an enabled one of
them was 0 (R378). -/
def State.raise (s : State) (st en : Reg) (bits : Nat) (fn : Nat := 0) : State :=
  let old := s.reg st fn
  let b := BitVec.ofNat 64 bits
  let s' := s.setReg st (old ||| b) fn
  if b &&& ~~~old &&& s.reg en fn == 0 then s' else s'.sendMsix fn 0

/-! ### Tide indices (R55) -/

/-- The current tide index. -/
def State.tideIdx (s : State) : W32 := BitVec.ofNat 32 (s.num .TDE_TIDE)

/-- The serial distance from `a` to `b` (R55). -/
def tideDist (a b : W32) : Int := (b - a).toInt

/-- `a` lies before `b` (R55). -/
def tideBefore (a b : W32) : Bool := decide (0 < tideDist a b)

/-! ### Records (R484 to R493) -/

/-- An event, stamped now; it reaches the recorder later (R485). -/
def State.event (s : State) (code src : Nat) (p0 : Nat := 0) (p1 : Nat := 0) (p2 : Nat := 0) (p3 : Nat := 0)
    (flags : Nat := 0) : State :=
  let e : Event := ⟨code, src, flags, s.tideIdx, s.now, p0, p1, p2, p3⟩
  { s with evt := { s.evt with inFlight := s.evt.inFlight ++ [e] } }

/-- Severity of a fault kind (Table 14.9): 0 recoverable, 1 fatal, 2 corrected, 3 informational. -/
def severityOf (kind : Nat) : Nat :=
  if kind == 0x11 then 1 else if kind == 0x10 then 3
  else if kind == 0x03 || kind == 0x05 || kind == 0x0D then 2 else 0

/-- A fault record in the first free slot, with its event record (R491, Table 16.2). -/
def State.faultRec (s : State) (kind : Nat) (phys core : Option Nat) (pan : Nat := 0xFF) (action : Nat := 0)
    (rho : Nat := 0xFFFF) (eps : Nat := 0xFFFF) (qid : Nat := 0xFFFFFFFF) (p0 p1 : W64 := 0) (bed : Nat := 0xFF)
    (column : Nat := 0xFFFF) : State :=
  let b := s.mram.bbx
  let gen := if s.wgt.slot0.state == .active then s.wgt.slot0.gen else if s.wgt.slot1.state == .active then s.wgt.slot1.gen else 0
  let own := kind == 1 || kind == 2 || kind == 4 || kind == 7 || kind == 9 || kind == 10 || kind == 11
  let ev := match phys with
    | none => 0
    | some p => ((s.phys.get p).events.filter (fun e => decide (tideDist e s.tideIdx < 64))).length + (if own then 1 else 0)
  let f : FaultRec := ⟨severityOf kind, kind, action, phys, core, pan, s.tideIdx, s.now, rho, eps, qid, p0, p1,
    BitVec.ofNat 32 (s.num .BPL_PLACE_EPOCH), BitVec.ofNat 32 (s.num .FWP_FW_VERSION), gen, ev, bed, column⟩
  let n := b.faults.length
  if n < 1024 then
    { s with mram := { s.mram with bbx := { b with faults := b.faults ++ [f] } } }.event 0x0E01 0 kind
      (phys.getD 0xFFFFFFFF) n (core.getD 0xFFFFFFFF) 1
  else
    ({ s with mram := { s.mram with bbx := { b with faultsLost := b.faultsLost + 1 } } }.raise .BBX_INT_STATUS
      .BBX_INT_ENABLE 2).event 0x0E01 0 kind (phys.getD 0xFFFFFFFF) 0xFFFFFFFF (core.getD 0xFFFFFFFF) 0

/-- The black-box header's shutdown fields (R493). -/
def State.shutRecord (s : State) (reason : Nat) : State :=
  let b := s.mram.bbx
  let aon := s.now * 32768 / 1000000000
  { s with
    mram.bbx := { b with shutReason := reason, shutTime := s.now, shutAon := aon, shutTide := s.tideIdx } }

/-! ### The phases of a tide (R44, R47, R54) -/

/-- New work may start: seal has not come; what is stamped exactly at seal does not start (R54). -/
def State.beforeSeal (s : State) : Bool := !s.tide.sealed && decide (s.now + 500000 < s.tide.nextEdge)

/-- The work phase is open (R44). -/
def State.workOpen (s : State) : Bool := s.tide.work && s.beforeSeal

/-! ### The device state (R398, R412) -/

/-- HIF_DEV_STATE: 0 STARTING, 1 READY, 2 SAFE, 3 STOPPING. -/
def State.devState (s : State) : Nat := s.fld .HIF_DEV_STATE 0 3

/-- The house die is powered and out of reset (R397 step 3). -/
def State.powered (s : State) : Bool := s.aon.phase == .on

/-- STARTING, READY, SAFE and STOPPING, with the house die out of reset. -/
def State.starting (s : State) : Bool := s.powered && s.devState == 0
/-- READY. -/
def State.ready (s : State) : Bool := s.powered && s.devState == 1
/-- SAFE. -/
def State.safe (s : State) : Bool := s.powered && s.devState == 2
/-- STOPPING. -/
def State.stopping (s : State) : Bool := s.powered && s.devState == 3

/-- HIF_DEV_STATE becomes `d`: STATE_CHANGE in every function and an event record (R392, R398). -/
def State.setDevState (s : State) (d : Nat) : State :=
  if s.devState == d then s
  else
    ((s.setNum .HIF_DEV_STATE d).each s.fns (fun fn s => s.raise .HIF_INT_STATUS .HIF_INT_ENABLE 64 fn)).event 0x0D03 0x80
      s.devState d

/-- The step of Table 13.1 in progress. -/
def State.bootStep (s : State) : Nat := s.fld .FWP_STATUS 0 4

/-- A processor of the house die is restarting. -/
def State.restarting (s : State) (p : Proc) : Bool := s.hif.restarting.contains p

/-! ### Queue pairs and sessions -/

/-- A queue pair. -/
def State.qp (s : State) (q : Nat) : Qp := s.qps.get q
/-- A queue pair changed. -/
def State.updQp (s : State) (q : Nat) (f : Qp → Qp) : State := { s with qps := s.qps.upd q f }
/-- Its session changed, where it has one. -/
def State.updSess (s : State) (q : Nat) (f : Session → Session) : State :=
  s.updQp q (fun x => { x with session := x.session.map f })
/-- Queue pairs that hold a session. -/
def State.withSess (s : State) : List (Nat × Session) :=
  s.qps.cells.filterMap (fun e => e.2.session.map (fun x => (e.1, x)))
/-- Shares a function holds by default (Table 12.3). -/
def shareDefault (fn : Nat) : Share :=
  if fn == 0 then { qpFirst := 0, qpCount := 65536, poolCount := 65536 }
  else { qpFirst := 65536 + 15360 * (fn - 1), qpCount := 15360 }
/-- The shares of a function (R373). -/
def State.share (s : State) (fn : Nat) : Share := Cells.get shareDefault s.shares fn
/-- Its shares changed. -/
def State.setShare (s : State) (fn : Nat) (x : Share) : State :=
  { s with shares := Cells.set shareDefault s.shares fn x }
/-- The function whose share holds a queue pair. -/
def State.fnOf (s : State) (q : Nat) : Nat :=
  ((List.range 65).find? (fun f => (s.share f).qpFirst ≤ q && q < (s.share f).qpFirst + (s.share f).qpCount)).getD 0
/-- OPEN and CLOSING sessions of a function. -/
def State.openOf (s : State) (fn : Nat) : Nat :=
  (s.withSess.filter (fun e => s.fnOf e.1 == fn && (e.2.state == .opened || e.2.state == .closing))).length
/-- OPEN and CLOSING sessions. -/
def State.openAll (s : State) : Nat :=
  (s.withSess.filter (fun e => e.2.state == .opened || e.2.state == .closing)).length

/-! ### Placement (R26 to R28, R36, R38) -/

/-- The cluster of a physical core. -/
def clusterOfPhys (p : Nat) : Nat := p / 1088 * 16 + p % 1088 / 68
/-- The cluster of a logical core. -/
def clusterOfCore (c : Nat) : Nat := c / 64
/-- The physical core that carries logical core `c` after a start. -/
def homePhys (c : Nat) : Nat := c / 1024 * 1088 + c % 1024 / 64 * 68 + c % 64
/-- The logical core that physical core `p` carries after a start. -/
def homeCore (p : Nat) : Option Nat :=
  if p % 1088 % 68 < 64 then some (p / 1088 * 1024 + p % 1088 / 68 * 64 + p % 1088 % 68) else none
/-- A pan. -/
def State.pan (s : State) (p : Nat) : Pan := s.pans.get p
/-- Pans of a logical core. -/
def pansOf (core : Nat) : List Nat := (List.range 16).map (fun i => core * 16 + i)
/-- Physical core `p`. -/
def State.ph (s : State) (p : Nat) : Phys := s.phys.get p
/-- The logical core a physical core carries. -/
def State.carried (s : State) (p : Nat) : Option Nat :=
  match (s.ph p).role with
  | .home => homeCore p
  | .carrying => (s.ph p).logical
  | _ => none
/-- The physical cores of a cluster. -/
def physOfCluster (c : Nat) : List Nat := (List.range 68).map (fun k => c / 16 * 1088 + c % 16 * 68 + k)
/-- The physical core that carries a logical core; none while it is DEGRADED. -/
def State.physOf (s : State) (c : Nat) : Option Nat :=
  if s.carried (homePhys c) == some c then some (homePhys c)
  else (physOfCluster (clusterOfCore c)).find? (fun p => s.carried p == some c)
/-- A physical core is a free reserve: a reserve, not under test, not carrying or filling (R438). -/
def State.freeReserve (s : State) (p : Nat) : Bool :=
  ((s.ph p).role == .reserve || ((s.ph p).role == .home && p % 1088 % 68 ≥ 64)) && (s.ph p).testing.isNone &&
    (s.ph p).partnerOf.isNone
/-- A fitted physical core that is not retired. -/
def State.physWorks (s : State) (p : Nat) : Bool := decide (p < s.part.physCores) && (s.ph p).role != .retired
/-- A physical core changed. -/
def State.updPhys (s : State) (p : Nat) (f : Phys → Phys) : State := { s with phys := s.phys.upd p f }

/-! ### Voiding (R276) -/

/-- The later of two positions counted from the commit index. -/
def posLe (base a b : W32) : Bool := decide ((a - base).toNat ≤ (b - base).toNat)

/-- Positions that a void from `p` takes: those completed and those of the step that runs. Steps planned behind it have
taken none yet. -/
def Session.voidCount (x : Session) (p : W32) : Nat :=
  (x.done.filter (fun d => !d.prime && posLe x.commit p d.pos)).length +
  (match x.steps.find? (fun t => !t.complete && !t.void) with
    | none => 0
    | some t => if !t.prime && posLe x.commit p t.first then t.count else 0)

/-- A void from `p` takes a step. -/
def Session.voidHits (x : Session) (p : W32) : Bool :=
  x.done.any (fun d => posLe x.commit p d.pos) || x.steps.any (fun t => !t.complete && !t.void && posLe x.commit p t.first)

/-- A session whose positions from `p` on are void (R276). -/
def Session.voidFrom (x : Session) (p : W32) : Session :=
  { x with
    steps := x.steps.map (fun t => if posLe x.commit p t.first then { t with void := true } else t)
    done := x.done.filter (fun d => !posLe x.commit p d.pos)
    work := x.work.map (fun w => if w.started && w.done.isNone then { w with fault := true } else w)
    barred := true
    faultEpoch := x.faultEpoch + 1
    faultFlag := true }

/-- A counter of the SRV block: the function's own, and the physical function's, which counts every function (R279). -/
def State.bumpSrv (s : State) (r : Reg) (n fn : Nat) : State :=
  let s := s.bump r n
  if fn == 0 then s else s.bump r n fn

/-- The counter of a wait reason (Table 10.2). -/
def WaitReason.counter : WaitReason → Reg
  | .sync => .CRE_SYNC_WAIT_NS | .hoist => .CRE_HOIST_WAIT_NS | .fence => .CRE_FENCE_NS
  | .lane | .save | .vector => .CRE_LANE_WAIT_NS

/-- Contexts that run the steps of queue pair `q`: core, context. -/
def State.ctxsOf (s : State) (q : Nat) : List (Nat × Nat) :=
  s.cores.cells.flatMap (fun e => ((List.range 4).filter (fun x => (e.2.ctxs.getD x {}).owner.map Fin.val == some q)).map (fun x => (e.1, x)))

/-- The waits of some contexts are dropped from the sync words (R305, R306). -/
def State.dropWaits (s : State) (l : List (Nat × Nat)) : State :=
  let gone := fun (w : Waiter) => match w with
    | .ctx c x _ _ => l.contains (c.val, x.val)
    | .hoist .. => false
  let f := fun (_ : Nat) (w : SyncWord) => { w with waiters := w.waiters.filter (fun x => !gone x) }
  let g := fun (_ : Nat) (c : Core) => { c with words := Cells.mapAll (fun _ => {}) f c.words }
  { s with pool := Cells.mapAll (fun _ => {}) f s.pool, cores.cells := Cells.mapAll (fun _ => s.cores.dflt) g s.cores.cells }

/-- A context becomes IDLE, its wait dropped; the time it waited is counted (R303, R305, R306). -/
def State.idleCtx (s : State) (c x : Nat) (void : Bool) : State :=
  let k := (s.cores.get c).ctxs.getD x {}
  let s := match k.reason with
    | none => s
    | some r => s.bump r.counter (s.now - k.since) c
  { s with cores := s.cores.upd c (fun k => { k with ctxs := k.ctxs.modify x (fun y =>
      { y with state := .idle, reason := none, wait := none, mid := false, void := void, owner := none }) }) }

/-- The contexts that run a voided step are IDLE for the rest of the tide (R306). -/
def State.idleStep (s : State) (q : Nat) : State :=
  let l := s.ctxsOf q
  (s.dropWaits l).each l (fun e s => s.idleCtx e.1 e.2 true)

/-- A fault voids the sequence of queue pair `q` from position `p` on: FAULT_EPOCH, FAULT_VOID, SRV_VOIDED, and the
run of tides for R445. -/
def State.voidAt (s : State) (q : Nat) (p : W32) : State :=
  match (s.qp q).session with
  | none => s
  | some x =>
    if !x.voidHits p then s
    else
      let s := s.when (x.steps.any (fun t => !t.complete && !t.void && posLe x.commit p t.first)) (fun s => s.idleStep q)
      let s := (s.updSess q (fun x => x.voidFrom p)).bumpSrv .SRV_VOIDED (x.voidCount p) (s.fnOf q)
      let v := s.hlt.voids
      let c := match v.find? (fun e => e.1 == q) with
        | none => 1
        | some (_, k, l) => if l == s.tideIdx then k else if l + 1 == s.tideIdx then k + 1 else 1
      { s with hlt := { s.hlt with voids := (q, c, s.tideIdx) :: v.filter (fun e => e.1 != q) } }

/-- A fault voids sequences from positions; HLT_VOID_EVENTS counts it when it voids a step. -/
def State.voidAll (s : State) (l : List (Nat × W32)) : State :=
  let hit := l.any (fun e => match (s.qp e.1).session with | none => false | some x => x.voidHits e.2)
  (s.each l (fun e s => s.voidAt e.1 e.2)).when hit (fun s => s.bump .HLT_VOID_EVENTS)

/-- The first position of a session's steps of the tide, complete or not. -/
def Session.tideFirst (x : Session) : Option W32 := x.steps.head?.map (·.first)
/-- The first position of its first step that is not complete. -/
def Session.openFirst (x : Session) : Option W32 := (x.steps.find? (fun t => !t.complete && !t.void)).map (·.first)

/-- Sequences with a step of the tide that has not completed, from its first position. -/
def State.running (s : State) : List (Nat × W32) :=
  s.withSess.filterMap (fun e => e.2.openFirst.map (fun p => (e.1, p)))

/-- The step of a product, by its queue pair and first position. -/
def stepOf (owner : Option Qid) (first : W32) : List (Nat × W32) :=
  match owner with | none => [] | some q => [(q.val, first)]

/-- The steps a fault of a pan voids: VOID_SCOPE 1, every step of the tide that used a product of the pan; 0, the
steps of the products at fault (R431). -/
def State.panScope (s : State) (pan : Nat) (own : List (Nat × W32)) : List (Nat × W32) :=
  if s.bit .HLT_CTRL 0 then
    (s.pans.get pan).users.filterMap (fun (q : Qid) => match (s.qp q.val).session with
      | none => none
      | some x => x.tideFirst.map (fun p => (q.val, p)))
  else own

/-! ### The ring area (R384) -/

/-- The byte of the ring area at an offset; unlisted ones read 0 (log 7). -/
def State.ringByte (s : State) (a : Nat) : Byte := Cells.get (fun _ => 0) s.rings a
/-- It written. -/
def State.setRing (s : State) (a : Nat) (b : Byte) : State := { s with rings := Cells.set (fun _ => 0) s.rings a b }
/-- `n` bytes from `a`, little-endian (R13). -/
def State.ringRead (s : State) (a n : Nat) : Nat :=
  match n with
  | 0 => 0
  | n + 1 => (s.ringByte a).toNat + 256 * s.ringRead (a + 1) n
/-- `n` bytes of `v` at `a`, little-endian (R13). -/
def State.ringWrite (s : State) (a n v : Nat) : State :=
  match n with
  | 0 => s
  | n + 1 => (s.setRing a (BitVec.ofNat 8 v)).ringWrite (a + 1) n (v / 256)

end Sys2Proof.Machine
end

