-- ==== Sys2Proof/Machine/PowerOps.lean ====
section
/-! DEFINITION. Power states as other families meet them (R459 to R462). -/

namespace Sys2Proof.Machine

/-- PWR_STATUS.STATE: 0 Active, 1 Idle, 2 Standby, 3 EXITING. -/
def State.pwrState (s : State) : Nat := s.fld .PWR_STATUS 0 3

/-- The power state becomes `x`, with its event record (Table 16.2). -/
def State.setPwrState (s : State) (x : Nat) : State :=
  (s.setF .PWR_STATUS 0 3 x).event 0x0F04 2 s.pwrState x

/-- A waking event: the exit from Idle (30 ms) or Standby (35 ms) starts (R461); VCORE returns to its target (R453). -/
def State.exitPower (s : State) : State :=
  if s.pwrState == 1 || s.pwrState == 2 then
    let d := if s.pwrState == 1 then 30000000 else 35000000
    let s' := (s.setPwrState 3).setNum .PWR_VCORE_ACT (s.fld .PWR_VCORE_TARGET 0 8)
    { s' with pwr := { s'.pwr with exitDue := some (s.now + d), exitFrom := s.now } }
  else s

/-! ### Housekeeping channels -/

/-- The channel belongs to an absent unit (Table 15.8). -/
def State.chanAbsent (s : State) (c : Nat) : Bool :=
  if c < 24 then decide (s.part.dies ≤ c / 6) else if c < 28 then decide (s.part.linkDies ≤ (c - 24) / 2) else if c < 32 then false
  else if c < 40 then decide (s.part.dies ≤ c % 4) else if c < 48 then decide (s.fld .PWR_CAPS 24 3 ≤ (c - 40) / 2)
  else if c == 53 || c == 54 then decide (s.part.linkDies ≤ c - 53) else if 55 ≤ c && c < 63 then decide (s.part.stacks ≤ c - 55)
  else false

/-! ### Loss of the supplies (R57, R459, R463, R465, R471, R472, R482) -/

/-- The registers of the always-on domain, which VAON keeps. -/
def keepAon (c : Cells W64) : Cells W64 :=
  c.filter (fun e => (RegBlock.aon.regs.map Reg.ctorIdx).contains (e.1 / 1024 % 512))

/-- What is left when every supply but VAON is gone: MRAM, the always-on domain, time, and what is outside. -/
def State.volatileLost (s : State) : State :=
  { pending := s.pending, out := s.out, freeCtr := s.freeCtr, part := s.part, now := s.now, regs := keepAon s.regs, aon := s.aon
    mram := s.mram, boot := { signers := s.boot.signers } }

/-- Every rail but VAON is off, and the always-on domain is in phase `ph`; it keeps the last edge (R68). -/
def State.powerDown (s : State) (ph : AonPhase) : State :=
  let a := { s.aon with phase := ph, pwrEn := false, vrEn := false, perstCycle := false }
  let a := if s.tide.running then { a with keptTide := s.tideIdx, keptTime := s.num .TDE_EDGE_TIME, keptLen := s.tide.len } else a
  { s.volatileLost with aon := a }

/-- The end of an orderly stop (R471 step 4): SHUT_LATCH, and every rail but VAON goes. -/
def State.stopOff (s : State) : State := (s.setF .AON_STATUS 3 1 1).powerDown .stopped

end Sys2Proof.Machine
end

