-- ==== Sys2Proof/Machine/PlanFile.lean ====
section
/-! DEFINITION. The bench plan as bytes and records, and the checks of steps 1 to 10 of Table 9.9 (09_bench_plan R281 to
R289). -/

namespace Sys2Proof.Machine

/-! ### What records say (R284 to R287) -/

/-- A layer record. -/
def layerOf (i : PlanImage) (n : Nat) : Option LayerRec := i.layers.find? (fun l => l.layer == n)
/-- Row tiles of a layer: R of R284. -/
def rowTiles (i : PlanImage) (layer : Nat) : Nat :=
  match i.layers.find? (fun l => l.layer == layer) with
  | none => 1
  | some l => max 1 ((l.dIn + 1023) / 1024)
/-- Output tiles of a layer (R284). -/
def colTiles (l : LayerRec) : Nat := (l.dOut + 511) / 512
/-- Used rows of block `b` (R284). -/
def usedRows (i : PlanImage) (l : LayerRec) (b : Nat) : Nat := min 1024 (l.dIn - 1024 * (b % rowTiles i l.layer))
/-- Used columns of block `b` (R284). -/
def usedCols (i : PlanImage) (l : LayerRec) (b : Nat) : Nat := min 512 (l.dOut - 512 * (b / rowTiles i l.layer))
/-- The accumulator exponent of an output column (R111, R285). -/
def eaccAt (l : LayerRec) (col : Nat) : Int := l.eaccs.getD col 0
/-- The outlier record of a block; without one T = 128 and no rows (R286). -/
def outlierOf (i : PlanImage) (group block : Nat) : OutlierRec :=
  (i.outliers.find? (fun o => o.group == group && o.block == block)).getD ⟨0, group, block, 128, [], []⟩
/-- The blocks of a group core: block, pan of the core (R284). -/
def blocksOf (g : GroupRec) (groupCore : Nat) : List (Nat × Nat) :=
  ((List.range g.blocks.length).zip g.blocks).filterMap (fun e => if e.2.1 == groupCore then some (e.1, e.2.2) else none)
/-- The group of a layer. -/
def groupOfLayer (i : PlanImage) (layer : Nat) : Option GroupRec := i.groups.find? (fun g => g.layer == layer)
/-- The regions that the BUFFERS section lists, each with its group core, in the order of the section. -/
def planRegions (i : PlanImage) : List ((Nat × Nat) × BufRegion) :=
  i.scheds.flatMap (fun c => c.buffers.map (fun b => ((c.group, c.groupCore), b)))
/-- The static rows of a layer in the order of the OUTLIERS section's records: block and row. -/
def staticRows (i : PlanImage) (layer : Nat) : List (Nat × Nat) :=
  (i.outliers.filter (fun o => i.groups.any (fun g => g.group == o.group && g.layer == layer))).flatMap
    (fun o => o.statics.map (fun r => (o.block, r)))

/-! ### The file (Tables 9.1 to 9.7) -/

/-- Field at `off` of section table entry `n` (Table 9.3). -/
def planEntry (f : PlanFile) (n off k : Nat) : Nat := field f.table (96 * n + off) k
/-- The section table: TYPE and OPTIONAL. -/
def sectionTypes (f : PlanFile) : List (Nat × Bool) :=
  (List.range f.sections.length).map (fun n => (planEntry f n 0 2, planEntry f n 2 2 % 2 == 1))
/-- The index of a section type in the section table; 0xFFFF without one. -/
def sectionIndex (f : PlanFile) (type : Nat) : Nat := ((sectionTypes f).findIdx? (fun e => e.1 == type)).getD 0xFFFF
/-- The bytes of the section of a type. -/
def sectionBytes (f : PlanFile) (type : Nat) : List Byte := f.sections.getD (sectionIndex f type) []

/-- The MODEL record (Table 9.6). -/
def modelRec (b : List Byte) : ModelRec :=
  let fl := field b 6 1
  { kvLayers := field b 0 2, kvHeads := field b 2 1, gqa := field b 3 1, kvFormat := BitVec.ofNat 8 (field b 4 1)
    frameTokens := field b 5 1, audioFrontEnd := fl % 2 == 1, codec := fl / 2 % 2 == 1, draft := fl / 4 % 2 == 1
    vocab := field b 8 4, endToken := BitVec.ofNat 32 (field b 12 4), chunkTokens := field b 16 2
    draftKvFirst := BitVec.ofNat 16 (field b 18 2), theta := (leSplit 4 64 (b.drop 64)).map (BitVec.ofNat 32) }

/-- A layer record (Table 9.7) with its exponents from SCALES (R285). -/
def layerRec (b scales : List Byte) (j : Nat) : LayerRec :=
  let x := fun (off k : Nat) => field b (64 * j + off) k
  let wide := x 2 1 == 1
  { layer := x 0 2, wide := wide, kind := x 3 1, dIn := x 4 4, dOut := x 8 4, wformat := BitVec.ofNat 8 (x 12 1), rowGroups := x 13 1
    spillShift := x 14 1, rank := x 16 2, kvLayer := BitVec.ofNat 16 (x 18 2), group := BitVec.ofNat 32 (x 20 4)
    scalesOff := x 24 4, wideProg := BitVec.ofNat 32 (x 28 4)
    eaccs := if wide then [] else ((scales.drop (x 24 4)).take (x 8 4)).map (fun e => e.toInt) }

/-- The layer records of the LAYERS section. -/
def layerRecs (f : PlanFile) : List LayerRec :=
  (List.range ((sectionBytes f 2).length / 64)).map (layerRec (sectionBytes f 2) (sectionBytes f 4))

/-- The plan that a file holds. -/
def planOf (f : PlanFile) : PlanImage :=
  { planLen := field f.header 8 8, digest := BitVec.ofNat 512 (field f.trailer 64 64)
    planId := BitVec.ofNat 128 (field f.header 16 16), modelId := BitVec.ofNat 128 (field f.header 32 16)
    model := modelRec (sectionBytes f 1), layers := layerRecs f
    groups := f.parts.groups, outliers := f.parts.outliers, routes := f.parts.routes, reduces := f.parts.reduces
    scheds := f.parts.scheds, wide := f.parts.wide, visits := f.parts.visits }

/-! ### Faults (R289) -/

/-- A check's failure: step, code, section (0xFFFF header, 0xFFFE missing), offset. -/
structure PlanFault where
  step : Nat
  code : Nat
  sec : Nat
  off : Nat
deriving DecidableEq, Repr

/-- An offset at fault, where a condition fails. -/
def bad (ok : Bool) (off : Nat) : List Nat := if ok then [] else [off]
/-- The first byte that is not zero among the `n` from `off` on. -/
def nonzero (l : List Byte) (off n : Nat) : List Nat :=
  match ((l.drop off).take n).findIdx? (fun b => b != 0) with
  | none => []
  | some i => [off + i]
/-- The smallest of the offsets at fault. -/
def firstFault (l : List Nat) : Option Nat := match l with | [] => none | x :: l => some (l.foldl min x)

/-- Step 1 in the header (Table 9.2). -/
def headFaults (f : PlanFile) (loadLen : Nat) : List Nat :=
  let h := f.header
  let len := field h 8 8
  bad (field h 0 4 == 0x50424E4A) 0 ++ bad (field h 4 2 == 1) 4 ++
  bad (decide (1 ≤ field h 6 2) && decide (field h 6 2 ≤ 64) && f.table.length == 96 * field h 6 2 && f.sections.length == field h 6 2) 6 ++
  bad (len % 4096 == 0 && decide (4096 ≤ len) && decide (len ≤ loadLen) && decide (len ≤ 536870912)) 8 ++ nonzero h 56 200

/-- Step 1 in entry `n` of the section table (Table 9.3, R282). -/
def entryFaults (f : PlanFile) (n : Nat) : List Nat :=
  let at_ := 256 + 96 * n
  let off := planEntry f n 8 8
  let len := planEntry f n 16 8
  let before := (List.range n).all (fun k =>
    decide (planEntry f k 8 8 + planEntry f k 16 8 ≤ off) || decide (off + len ≤ planEntry f k 8 8))
  bad (decide (planEntry f n 2 2 < 2)) (at_ + 2) ++
  bad (off % 4096 == 0 && decide (256 + 96 * f.sections.length ≤ off) && before) (at_ + 8) ++
  bad (decide (1 ≤ len) && decide (len ≤ 268435456) && decide (off + len + 128 ≤ field f.header 8 8) &&
    (f.sections.getD n []).length == len) (at_ + 16) ++
  (nonzero f.table (96 * n + 24) 8).map (fun o => o + 256)

/-- Step 1 in the trailer (Table 9.4). -/
def tailFaults (f : PlanFile) : List Nat :=
  let at_ := field f.header 8 8 - 128
  bad (field f.trailer 0 4 == 0x45424E4A) at_ ++ (nonzero f.trailer 4 4).map (fun o => at_ + o) ++
  bad (field f.trailer 8 8 == field f.header 8 8) (at_ + 8) ++ (nonzero f.trailer 16 48).map (fun o => at_ + o)

/-- Step 1 (R281, R282). -/
def headerFault (f : PlanFile) (loadLen : Nat) : Option Nat :=
  firstFault (headFaults f loadLen ++ (List.range f.sections.length).flatMap (entryFaults f) ++ tailFaults f ++ f.stray.toList)

/-- Step 3: the first section whose digest is wrong. -/
def digestFault (f : PlanFile) : Option Nat :=
  (List.range f.sections.length).find? (fun n => (digestOf (f.sections.getD n [])).toNat != planEntry f n 32 64)

/-- The section types that Table 9.5 requires (R283). -/
def requiredTypes (f : PlanFile) : List Nat :=
  if (layerRecs f).any (fun l => !l.wide) then [1, 2, 3, 4, 6, 7, 8, 9, 10] else [1, 2, 6, 8, 9, 10]

/-- Step 4: missing, duplicated or unknown sections (R283, R289). -/
def sectionFault (f : PlanFile) : Option PlanFault :=
  let l := sectionTypes f
  let types := l.map (·.1)
  match (requiredTypes f).find? (fun t => !types.contains t) with
  | some t => some ⟨4, 0x62, 0xFFFE, t⟩
  | none =>
    let idx := List.range l.length
    match idx.find? (fun n => (types.take n).any (fun e => e == types.getD n 0 && decide (1 ≤ e) && decide (e ≤ 10))) with
    | some n => some ⟨4, 0x62, n, 0⟩
    | none => (l.findIdx? (fun e => (e.1 == 0 || decide (10 < e.1)) && !e.2)).map (fun n => ⟨4, 0x62, n, 0⟩)

/-- A number lies in a range. -/
def within (lo x hi : Nat) : Bool := decide (lo ≤ x) && decide (x ≤ hi)

/-- The MODEL record within Table 9.6 and R215. -/
def modelFault (b : List Byte) : Option Nat :=
  let m := modelRec b
  firstFault (
    bad (within 1 m.kvLayers 128) 0 ++ bad (within 1 m.kvHeads 16) 2 ++ bad (within 1 m.gqa 16) 3 ++
    bad (if m.codec then within 1 m.frameTokens 8 else m.frameTokens == 0) 5 ++ bad (decide (field b 6 1 < 8)) 6 ++ nonzero b 7 1 ++
    bad (within 2 m.vocab 1048576) 8 ++ bad (decide (m.endToken.toNat < m.vocab)) 12 ++ bad (within 64 m.chunkTokens 8192) 16 ++
    bad (if m.draft then decide (m.draftKvFirst.toNat < m.kvLayers) else m.draftKvFirst == 0xFFFF) 18 ++
    bad (within 1 (field b 20 2) 4096) 20 ++ nonzero b 22 42 ++ bad (b.length == 320) 0)

/-- A layer record within Table 9.7, at place `j`. -/
def layerFaults (f : PlanFile) (m : ModelRec) (j : Nat) : List Nat :=
  let b := sectionBytes f 2
  let l := layerRec b [] j
  (bad (l.layer == j) 0 ++ bad (decide (field b (64 * j + 2) 1 ≤ 1)) 2 ++ bad (decide (l.kind ≤ 5)) 3 ++
    bad (within 1 l.dIn 1048576) 4 ++ bad (within 1 l.dOut 1048576) 8 ++
    bad (if l.wide then l.rowGroups == 0 else l.rowGroups == 1 || l.rowGroups == 2 || l.rowGroups == 4) 13 ++
    bad (decide (l.spillShift ≤ (if l.wide then 0 else 3))) 14 ++
    bad (l.kvLayer == 0xFFFF || decide (l.kvLayer.toNat < m.kvLayers)) 18 ++
    bad ((l.group == 0xFFFFFFFF) == l.wide) 20 ++
    bad (if l.wide then l.scalesOff == 0 else decide (l.scalesOff + l.dOut ≤ (sectionBytes f 4).length)) 24 ++
    bad ((l.wideProg == 0xFFFFFFFF) == !l.wide) 28).map (fun o => 64 * j + o) ++
  nonzero b (64 * j + 15) 1 ++ nonzero b (64 * j + 32) 32

/-- The LAYERS section: as many records as MATRIX_LAYERS, each within Table 9.7. -/
def layersFault (f : PlanFile) : Option Nat :=
  let b := sectionBytes f 2
  let n := field (sectionBytes f 1) 20 2
  firstFault (bad (b.length == 64 * n) (min b.length (64 * n)) ++ (List.range (b.length / 64)).flatMap (layerFaults f (modelRec (sectionBytes f 1))))

/-- Step 5 (Table 9.8): the first failing section, with the offset of the record at fault (log 130). -/
def limitFault (f : PlanFile) : Option PlanFault :=
  let at_ := fun (t : Nat) (o : Option Nat) => o.map (fun o => (⟨5, 0x64, sectionIndex f t, o⟩ : PlanFault))
  let p := f.parts
  let g := p.groups.find? (fun g => decide (65535 < g.group) || !within 1 g.groupCores (if g.clusterLocal then 64 else 1024))
  let o := p.outliers.find? (fun o => !within 1 o.threshold 128 || decide (32 < o.statics.length) || decide (16 < o.candidates.length))
  let c := p.scheds.find? (fun c => !within 1 c.window 8 || decide (65536 < c.steps.length))
  let b := p.scheds.find? (fun c => decide (256 < c.buffers.length))
  (at_ 1 (modelFault (sectionBytes f 1))).orElse fun _ => (at_ 2 (layersFault f)).orElse fun _ =>
  (at_ 3 (g.map (·.off))).orElse fun _ => (at_ 3 (if 65536 < p.groups.length then some 0 else none)).orElse fun _ =>
  (at_ 5 (o.map (·.off))).orElse fun _ => (at_ 8 (c.map (·.off))).orElse fun _ => (at_ 9 (b.map (·.bufOff))).orElse fun _ =>
  at_ 10 (if 4096 < p.wide.length then some 0 else none)

/-- Step 6: format codes matching PATH (R142, R289). -/
def formatFault (f : PlanFile) : Option PlanFault :=
  let m := modelRec (sectionBytes f 1)
  if m.kvFormat.toNat != 5 && m.kvFormat.toNat != 6 then some ⟨6, 0x63, sectionIndex f 1, 4⟩
  else ((layerRecs f).findIdx? (fun l => l.wformat.toNat != (if l.wide then 3 else 1))).map (fun j =>
    ⟨6, 0x63, sectionIndex f 2, 64 * j + 12⟩)

/-- Step 7: embedding and output projection present and WIDE (R162). -/
def pathFault (l : List LayerRec) : Option Nat :=
  match l.findIdx? (fun l => (l.kind == 1 || l.kind == 2) && !l.wide) with
  | some j => some (64 * j + 2)
  | none => if [1, 2].all (fun k => l.any (fun l => l.kind == k)) then none else some 0

/-- Bytes of the sluice weight store a group core needs (R286). -/
def storeBytes (i : PlanImage) (g : GroupRec) (gc : Nat) : Nat :=
  match layerOf i g.layer with
  | none => 0
  | some l => ((blocksOf g gc).map (fun b => (outlierOf i g.group b.1).statics.length * (1 + usedCols i l b.1))).sum

/-- Step 8: the record of the first block of a group core whose rows do not fit the store (R286). -/
def sluiceFault (i : PlanImage) : Option Nat :=
  (i.outliers.find? (fun o => i.groups.any (fun g => g.group == o.group &&
    (match g.blocks[o.block]? with | none => false | some b => decide (65536 < storeBytes i g b.1))))).map (·.off)

/-- Regions that lie apart, in the core's SRAM (R288). -/
def regionsOk (l : List BufRegion) : Bool :=
  l.all (fun e => decide (e.off + e.len ≤ 524288)) && disjoint (l.map (fun e => (e.off, e.len)))

/-- Step 9: the first group core whose regions break R288, or which holds blocks and has no SAVE region. -/
def buffersFault (i : PlanImage) : Option Nat :=
  (i.scheds.find? (fun c => !regionsOk c.buffers ||
    (i.groups.any (fun g => g.group == c.group && !(blocksOf g c.groupCore).isEmpty) &&
      !c.buffers.any (fun e => e.save && decide (67584 ≤ e.len))))).map (·.bufOff)

/-! ### Step 10: references and cycles (R284, R286 to R288) -/

/-- A group core that the plan has. -/
def groupCoreOk (i : PlanImage) (c : Nat × Nat) : Bool := i.groups.any (fun g => g.group == c.1 && decide (c.2 < g.groupCores))

/-- A GROUPS record: its group and its layer are its own, its layer names it, every block has one entry that names a pan
of a group core, and no two share one; at most 64 cluster slots (R284, R287). -/
def groupOk (i : PlanImage) (g : GroupRec) : Bool :=
  (i.groups.filter (fun h => h.group == g.group || h.layer == g.layer)).length == 1 &&
  (match layerOf i g.layer with
    | none => false
    | some l => !l.wide && l.group.toNat == g.group && g.blocks.length == rowTiles i l.layer * colTiles l) &&
  g.blocks.all (fun b => decide (b.1 < g.groupCores) && decide (b.2 < 16)) && decide (g.blocks.Nodup) && g.spare.all (fun x => x == 0) &&
  decide (g.slots ≤ 64)

/-- An OUTLIERS record: a block of a group, the only record of it, rows among its used ones, none twice (R286). -/
def outlierOk (i : PlanImage) (o : OutlierRec) : Bool :=
  (i.outliers.filter (fun x => x.group == o.group && x.block == o.block)).length == 1 &&
  match i.groups.find? (fun g => g.group == o.group) with
  | none => false
  | some g => match layerOf i g.layer with
    | none => false
    | some l => decide (o.block < g.blocks.length) && (o.statics ++ o.candidates).all (fun r => decide (r < usedRows i l o.block)) &&
      decide ((o.statics ++ o.candidates).Nodup)

/-- The group cores that hold the blocks of an output tile (R287). -/
def tileCores (i : PlanImage) (g : GroupRec) (tile : Nat) : List Nat :=
  ((((List.range g.blocks.length).zip g.blocks).filter (fun e => e.1 / rowTiles i g.layer == tile)).map (fun e => e.2.1)).eraseDups

/-- A REDUCE record: one tile of one PAN layer, the only record of it, at a level that its blocks have (R287). -/
def reduceOk (i : PlanImage) (r : ReduceRec) : Bool :=
  (i.reduces.filter (fun x => x.layer == r.layer && x.tile == r.tile)).length == 1 &&
  match layerOf i r.layer, groupOfLayer i r.layer with
  | some l, some g =>
    let n := (tileCores i g r.tile).length
    decide (r.tile < colTiles l) &&
    (if r.level == 0 then n == 1
     else if r.level == 1 then g.clusterLocal && decide (2 ≤ n) && r.expected == n
     else r.level == 2 && decide (1 ≤ r.expected))
  | _, _ => false

/-- A route between group cores, over buffers that the plan has (R288). -/
def routeOk (i : PlanImage) (r : RouteRec) : Bool :=
  groupCoreOk i r.src && groupCoreOk i r.dst && r.buffers.all (fun b => decide (b < (planRegions i).length))

/-- A schedule step: contexts 0 to 2, sync words 0 to 47, programs, routes and buffers of the plan (R288, R301). -/
def stepOk (i : PlanImage) (t : SchedStep) : Bool :=
  decide (t.context < 3) && t.words.all (fun w => decide (w < 48)) && t.programs.all (fun p => decide (p < i.wide.length)) &&
  t.routes.all (fun r => decide (r < i.routes.length)) && t.buffers.all (fun b => decide (b < (planRegions i).length))

/-- A group core's schedule: of a group core of the plan, the only one of it. -/
def schedOk (i : PlanImage) (c : CoreSched) : Bool :=
  groupCoreOk i (c.group, c.groupCore) && (i.scheds.filter (fun x => x.group == c.group && x.groupCore == c.groupCore)).length == 1 &&
  c.steps.all (stepOk i) && c.initWords.all (fun w => decide (w.1 < 48))

/-- Edges left once every item without one before it is taken out, `fuel` times. -/
def peel (fuel : Nat) (edges : List (Nat × Nat)) : List (Nat × Nat) :=
  match fuel with
  | 0 => edges
  | fuel + 1 => peel fuel (edges.filter (fun e => edges.any (fun d => d.2 == e.1)))
/-- An order has no cycle. -/
def acyclic (edges : List (Nat × Nat)) : Bool := (peel edges.length edges).isEmpty

/-- Every tile of every PAN layer has its REDUCE record, every layer its visit (R176, R287). -/
def tilesOk (i : PlanImage) (l : LayerRec) : Bool :=
  l.wide || ((List.range (colTiles l)).all (fun t => i.reduces.any (fun r => r.layer == l.layer && r.tile == t)) && i.visits.contains l.layer)

/-- Step 10: the first item at fault, by section. -/
def structFault (f : PlanFile) : Option PlanFault :=
  let i := planOf f
  let at_ := fun (t : Nat) (o : Option Nat) => o.map (fun o => (⟨10, 0x68, sectionIndex f t, o⟩ : PlanFault))
  let lay := i.layers.findIdx? (fun l =>
    if l.wide then decide (i.wide.length ≤ l.wideProg.toNat) else !i.groups.any (fun g => g.group == l.group.toNat && g.layer == l.layer))
  let grp := i.groups.find? (fun g => !groupOk i g)
  let sum := (i.groups.map (·.groupCores)).sum
  (if field f.header 52 4 != sum then some ⟨10, 0x68, 0xFFFF, 52⟩ else none).orElse fun _ =>
  (at_ 2 (lay.map (fun j => 64 * j + (if (i.layers.getD j (layerRec [] [] 0)).wide then 28 else 20)))).orElse fun _ =>
  (at_ 3 (grp.map (·.off))).orElse fun _ =>
  (at_ 5 ((i.outliers.find? (fun o => !outlierOk i o)).map (·.off))).orElse fun _ =>
  (at_ 6 ((i.routes.find? (fun r => !routeOk i r)).map (·.off))).orElse fun _ =>
  (at_ 7 ((i.reduces.find? (fun r => !reduceOk i r)).map (·.off))).orElse fun _ =>
  (at_ 7 (if i.layers.all (tilesOk i) && acyclic f.parts.treeOrder then none else some 0)).orElse fun _ =>
  (at_ 8 ((i.scheds.find? (fun c => !schedOk i c)).map (·.off))).orElse fun _ =>
  at_ 8 (if acyclic f.parts.stepOrder then none else some 0)

/-- Steps 1 to 10 in order: the first failure (Table 9.9). Where no single byte is at fault, the offset is zero. -/
def planFault (f : PlanFile) (loadLen : Nat) : Option PlanFault :=
  match headerFault f loadLen with
  | some o => some ⟨1, 0x60, 0xFFFF, o⟩
  | none =>
    if (digestOf (f.header ++ f.table)).toNat != field f.trailer 64 64 then some ⟨2, 0x61, 0xFFFF, 0⟩
    else match digestFault f with
      | some n => some ⟨3, 0x61, n, 0⟩
      | none =>
        let i := planOf f
        (sectionFault f).orElse fun _ => (limitFault f).orElse fun _ => (formatFault f).orElse fun _ =>
        ((pathFault i.layers).map (fun o => (⟨7, 0x65, sectionIndex f 2, o⟩ : PlanFault))).orElse fun _ =>
        ((sluiceFault i).map (fun o => (⟨8, 0x66, sectionIndex f 5, o⟩ : PlanFault))).orElse fun _ =>
        ((buffersFault i).map (fun o => (⟨9, 0x67, sectionIndex f 9, o⟩ : PlanFault))).orElse fun _ => structFault f

end Sys2Proof.Machine
end

