-- ==== Sys2Proof/Machine/Mem.lean ====
section
/-! DEFINITION. The memories and the paths between them: core SRAM and what HBM holds for the cores as one store of
bytes, where the active plan puts a destination buffer, what a move of bytes counts, and the sums in destination buffers
(R23 to R25, R134, R287, R288, R361, R496). -/

namespace Sys2Proof.Machine

/-- The plan slot that is ACTIVE. -/
def State.activePlan (s : State) : Option PlanSlot :=
  if s.plans.s0.state == .active then some s.plans.s0 else if s.plans.s1.state == .active then some s.plans.s1 else none

/-- The active model's generation tag (R361). -/
def State.activeGen (s : State) : W16 :=
  if s.wgt.slot0.state == .active then s.wgt.slot0.gen
  else if s.wgt.slot1.state == .active then s.wgt.slot1.gen else 0

/-! ### Bytes -/

/-- `n` bytes of the memory from address `a`; a byte that nothing has written reads 0 (log 7). -/
def State.memRead (s : State) (a n : Nat) : List Byte := Cells.read (fun _ => 0) s.mem a n

/-- Bytes written from address `a` on. -/
def State.memWrite (s : State) (a : Nat) (l : List Byte) : State := { s with mem := Cells.write (fun _ => 0) s.mem a l }

/-! ### Where content lies (the device's choice, R36; log 125) -/

/-- The master of model slot `w`; of an adapter; the bounce region; the copy that the host tier holds of model slot `w`
(R180); the hold area; what arrives of a package over the fabric. -/
def slotBase (w : Nat) : Nat := 2 ^ 100 + w * 2 ^ 43
def bounceBase : Nat := 2 ^ 103
def adapterBase (id : Nat) : Nat := 2 ^ 104 + id * 2 ^ 43
def hostBase (w : Nat) : Nat := 2 ^ 105 + w * 2 ^ 43
def holdBase : Nat := 2 ^ 106
def arriveBase : Nat := 2 ^ 107
/-- Shard `i` of a region; a shard has at most 64 MiB, sealed 48 bytes more. -/
def shardAddr (base i : Nat) : Nat := base + i * 2 ^ 27
/-- Parts of a region emptied: `n` shards from number `i` on. -/
def State.clearParts (s : State) (base i n : Nat) : State := { s with mem := Cells.clear s.mem (shardAddr base i) (n * 2 ^ 27) }
/-- A region of shards emptied. -/
def State.clearShards (s : State) (base : Nat) : State := s.clearParts base 0 65536
/-- The content of model slot `w` is gone (R190, R204). -/
def State.dropContent (s : State) (w : Nat) : State := (s.clearShards (slotBase w)).clearShards (hostBase w)

/-- Bytes in one core's SRAM (Table 1.3). -/
def sramBytes : Nat := 524288

/-- The address of a byte of a core's SRAM. -/
def sramAddr (core off : Nat) : Nat := core * sramBytes + off

/-! ### Paths (Tables 1.2, 16.8) -/

/-- An end of a move of bytes. -/
inductive Site where
  | core (c : Nat) | stack (k : Nat) | house | linkDie (l : Nat)
deriving DecidableEq, Repr

/-- The compute stack at which a place lies or to which it is attached (R24). -/
def Site.die : Site → Option Nat
  | .core c => some (c / 1024)
  | .stack k => some (k / 2)
  | _ => none

/-- The element of CNT_D2D_CC for two compute stacks (Table 16.8). -/
def diePair (a b : Nat) : Nat :=
  let lo := min a b
  let hi := max a b
  if lo == 0 then hi - 1 else if lo == 1 then hi + 1 else 5

/-- The bytes that cross the die-to-die path between two places (Table 1.2, R24). -/
def State.crossed (s : State) (a b : Site) (n : Nat) : State :=
  match a, b with
  | .house, p | p, .house => match p.die with
    | some d => s.bump .CNT_D2D_HOUSE n 0 d
    | none => s
  | .linkDie l, p | p, .linkDie l => match p.die with
    | some d => s.bump .CNT_D2D_LINK n 0 (2 * d + l)
    | none => s
  | a, b => match a.die, b.die with
    | some x, some y => s.when (x != y) (fun s => s.bump .CNT_D2D_CC n 0 (diePair x y))
    | _, _ => s

/-- `n` bytes move from `a` to `b`: they count once at each level that they cross (R24, R496). -/
def State.moves (s : State) (a b : Site) (n : Nat) : State :=
  let end_ := fun (p : Site) (r : Reg) (s : State) => match p with
    | .core _ => s.bump .CNT_SRAM_BYTES n
    | .stack k => s.bump r n 0 k
    | _ => s
  let s := ((end_ b .CNT_HBM_WR (end_ a .CNT_HBM_RD s))).crossed a b n
  match a, b with
  | .core x, .core y =>
    if x == y then s
    else (s.bump .CNT_CLUSTER_BYTES n).when (clusterOfCore x != clusterOfCore y) (fun s => s.bump .CNT_DIE_NET_BYTES n)
  | _, _ => s.bump .CNT_DIE_NET_BYTES n

/-- A stack of the device's choice, which the spec does not give, for a thing of a kind (R36, log 4). -/
def State.someStack (s : State) (kind n : Nat) : Nat := Config.freeNat (Config.freeKey kind n) % s.part.stacks

/-! ### Destination buffers (R134, R287, R288) -/

/-- A region of memory: its first address, its length, where it lies. -/
structure Region where
  base : Nat
  len : Nat
  place : Site
deriving DecidableEq, Repr

/-- The buffer that the active plan names by index: a region of its BUFFERS section in the SRAM of the core that carries
the region's group core, else a buffer in HBM (R134, R288, R350; DEDUCED and DESIGN CHOICE, log 117). -/
def State.buffer (s : State) (buf : Nat) : Region :=
  let hbm : Region := ⟨2 ^ 48 + buf * 2 ^ 32, 2 ^ 32, .stack (s.someStack 15 buf)⟩
  match s.activePlan with
  | none => hbm
  | some p => match p.img.bind (fun i => (planRegions i)[buf]?) with
    | none => hbm
    | some (g, r) => match p.place.find? (fun e => e.group == g.1 && e.groupCore == g.2) with
      | none => hbm
      | some e => ⟨sramAddr e.core r.off, r.len, .core e.core⟩

/-- Words in a destination row: 512 sums and the SAT flag word beside them (R134, log 14). -/
def rowWords : Nat := 513

/-- A completed sum drains to its destination buffer (R287). -/
def State.storeRow (s : State) (from_ : Site) (buf : Nat) (sums : List Int) (sat : Bool) : State :=
  let r := s.buffer buf
  let words := (List.range 512).map (fun j => (wrap64 (sums.getD j 0)).toNat) ++ [if sat then 1 else 0]
  (s.memWrite r.base (leFields 8 words)).moves from_ r.place (8 * rowWords)

/-- Word `i` of a destination row after an atomic add of `v` to `old`: a sum, or the flag word, which is combined by OR
(R134). -/
def addWord (i old : Nat) (v : W64) : Nat :=
  if i % rowWords == 512 then (BitVec.ofNat 64 old ||| v).toNat else (BitVec.ofNat 64 old + v).toNat

/-- Atomic adds to consecutive words of a region from word `first` on; what lies beyond the region is not applied
(R134, log 117). -/
def State.addWords (s : State) (r : Region) (first : Nat) (vals : List W64) : State :=
  let vals := vals.take (r.len / 8 - first)
  let old := leSplit 8 vals.length (s.memRead (r.base + 8 * first) (8 * vals.length))
  s.memWrite (r.base + 8 * first)
    (leFields 8 ((vals.zip (List.range vals.length)).map (fun e => addWord (first + e.2) (old.getD e.2 0) e.1)))

/-- The contributions that the plan names for a destination buffer of level 2 (R287). -/
def State.expected (s : State) (buf : Nat) : Option Nat :=
  (s.activePlan.bind (·.img)).bind (fun i => (i.reduces.find? (fun r => r.dest == buf && r.level == 2)).map (·.expected))

/-- A destination buffer that takes contributions: the first starts it from zero, with the tag of its tide; one that has
all that the plan names is complete, and the next contribution starts it anew (R287, R361). -/
def State.openBuf (s : State) (buf : Nat) (gen : W16) : State :=
  if s.fab.red.any (fun r => r.buf == buf && !r.complete) then s
  else
    let r := s.buffer buf
    { s with
      mem := Cells.clear s.mem r.base r.len
      fab.red := { buf := buf, tag := gen } :: s.fab.red.filter (fun x => x.buf != buf) }

/-- One contribution more has arrived in a destination buffer (R287). -/
def State.contributed (s : State) (buf : Nat) : State :=
  let full := fun (n : Nat) => (s.expected buf).any (fun e => decide (e ≤ n))
  { s with
    fab.red := s.fab.red.map (fun r =>
      if r.buf == buf then { r with received := r.received + 1, complete := full (r.received + 1) } else r) }

/-- Atomic adds of a tile's sums to a destination buffer, with SAT combined by OR (R134). -/
def State.addRow (s : State) (from_ : Site) (buf : Nat) (gen : W16) (sums : List Int) (sat : Bool) : State :=
  let s := s.openBuf buf gen
  let r := s.buffer buf
  let vals := (List.range 512).map (fun j => wrap64 (sums.getD j 0)) ++ [if sat then 1 else 0]
  ((s.addWords r 0 vals).contributed buf).moves from_ r.place (8 * rowWords)

end Sys2Proof.Machine
end

