-- ==== Sys2Proof/Machine/Sync.lean ====
section
/-! DEFINITION. Cores, contexts, hoists, sync words and fences (10_cores): rows SYNC_LOAD to SHARE_APPLY. -/

namespace Sys2Proof.Machine

/-! ### Plans and schedules -/

/-- The schedule of the group core that a logical core carries (R288); a core of the streaming set runs those of every
group core it visits, in the plan's order (R176). -/
def State.schedOf (s : State) (core : Nat) : Option CoreSched :=
  match s.activePlan with
  | none => none
  | some p => match p.img with
    | none => none
    | some img =>
      let here := p.place.filter (fun e => e.core == core)
      match img.scheds.filter (fun c => here.any (fun e => e.group == c.group && e.groupCore == c.groupCore)) with
      | [] => none
      | c :: cs => some { c with steps := c.steps ++ cs.flatMap CoreSched.steps }

/-- The steps of a context, in their order (R301). -/
def ctxSteps (c : CoreSched) (x : Nat) : List SchedStep := c.steps.filter (fun t => t.context == x)

/-! ### Contexts -/

/-- A logical core. -/
def State.core (s : State) (c : Nat) : Core := s.cores.get c
/-- It changed. -/
def State.updCore (s : State) (c : Nat) (f : Core → Core) : State := { s with cores := s.cores.upd c f }
/-- A context. -/
def Core.ctx (c : Core) (x : Nat) : Ctx := c.ctxs.getD x {}
/-- It changed. -/
def State.updCtx (s : State) (c x : Nat) (f : Ctx → Ctx) : State :=
  s.updCore c (fun k => { k with ctxs := k.ctxs.modify x f })
/-- A hoist. -/
def Core.hoist (c : Core) (h : Nat) : Hoist := c.hoists.getD h {}
/-- It changed. -/
def State.updHoist (s : State) (c h : Nat) (f : Hoist → Hoist) : State :=
  s.updCore c (fun k => { k with hoists := k.hoists.modify h f })
/-- The core is fitted. -/
def State.fitted (s : State) (c : Nat) : Bool := decide (c < s.part.cores)
/-- The context is the one whose instructions the sequencer issues (R302). -/
def State.issuing (s : State) (c x : Nat) : Bool := s.fitted c && ((s.core c).ctx x).state == .running

/-- Grading or a due test waits or runs on a core: class 2 of Table 8.8. -/
def State.grades (s : State) (c : Nat) : Bool :=
  (pansOf c).any (fun p => !(s.pan p).kept.isEmpty) || (match s.physOf c with | none => false | some p => (s.ph p).testing.isSome && (s.ph p).due)
/-- The vector engine of a core rakes a bed (R102). -/
def State.coreRakes (s : State) (c : Nat) : Bool :=
  (pansOf c).any (fun p => (s.pan p).a.state == .raking || (s.pan p).b.state == .raking)
/-- A core's vector engine rakes a bed, or the core takes part in a test: maintenance, class 4 of Table 8.8. -/
def State.maintains (s : State) (c : Nat) : Bool :=
  s.coreRakes c ||
  (match s.physOf c with | none => false | some p => (s.ph p).testing.isSome || (s.ph p).partnerOf.isSome)

/-- Class of the step a context is at (Table 8.8); context 3 runs what the cluster control processor issues (R301). -/
def State.stepClass (s : State) (c x : Nat) : Nat :=
  if x == 3 then (if s.grades c then 2 else 4)
  else match s.schedOf c with
    | none => 1
    | some d => ((ctxSteps d x)[((s.core c).ctx x).step]?.map SchedStep.cls).getD 1

/-- Rank of a READY context (R304): a rolled-over step first, then its class. -/
def State.ctxRank (s : State) (c x : Nat) : Nat := if ((s.core c).ctx x).rolled then 0 else s.stepClass c x

/-- The context that R304 chooses: the best rank, and among equals the first at or after the pointer (R320). -/
def State.choose (s : State) (c : Nat) : Option Nat :=
  let k := s.core c
  let order := (List.range 4).map (fun i => (k.last + 1 + i) % 4)
  let rdy := order.filter (fun x => (k.ctx x).state == .ready)
  match rdy with
  | [] => none
  | x :: xs => some (xs.foldl (fun b y => if s.ctxRank c y < s.ctxRank c b then y else b) x)

/-- The sequencer takes up a READY context whose step has begun, when no context is RUNNING and R304 chooses it. -/
def State.dispatch (s : State) (c : Nat) : State :=
  if (s.core c).ctxs.any (fun x => x.state == .running) then s
  else match s.choose c with
    | none => s
    | some x =>
      if ((s.core c).ctx x).mid then
        ((s.updCtx c x (fun k => { k with state := .running })).updCore c (fun k => { k with last := x })).bump .CRE_SWITCHES
          1 c
      else s

/-- A RUNNING context is descheduled (R303). -/
def State.deschedule (s : State) (c x : Nat) (r : WaitReason) : State :=
  (s.updCtx c x (fun k => { k with state := .waiting, reason := some r, since := s.now })).dispatch c

/-- The cause of a wait clears: READY, and the time waited is counted (R303). -/
def State.wakeCtx (s : State) (c x : Nat) : State :=
  let k := (s.core c).ctx x
  match k.reason with
  | none => s
  | some r =>
    ((s.updCtx c x (fun k => { k with state := .ready, reason := none, wait := none })).bump r.counter (s.now - k.since)
      c).dispatch c

/-- Context 3 is READY while the cluster control processor has work for it, and IDLE else (R301, R302). -/
def State.ctx3 (s : State) (c : Nat) : State :=
  let k := (s.core c).ctx 3
  if s.grades c || s.maintains c then
    if k.state == .idle then (s.updCtx c 3 (fun k => { k with state := .ready, mid := true })).dispatch c else s
  else if k.state == .idle then s
  else (s.updCtx c 3 (fun k => { k with state := .idle, mid := false, reason := none, wait := none })).dispatch c

/-- Context 3 of the two cores of a test follows it (R301). -/
def State.testCtx (s : State) (p q : Nat) : State := s.each ([p, q].filterMap s.carried) (fun c s => s.ctx3 c)

/-- The vector engine of a core is free again: the contexts that wait for it become READY (R303). -/
def State.vectorFree (s : State) (c : Nat) : State :=
  s.each ((List.range 3).filter (fun x => ((s.core c).ctx x).reason == some WaitReason.vector)) (fun x s => s.wakeCtx c x)

/-! ### Sync words (R311 to R313, R321) -/

/-- A sync word. -/
def State.word (s : State) (r : SyncRef) : SyncWord :=
  match r with
  | .core c i => Cells.get (fun _ => {}) (s.core c.val).words i.val
  | .pool i => Cells.get (fun _ => {}) s.pool i.val

/-- Identity of an edge reset or of firmware (Table 10.9). -/
def resetId : Nat := 6 + 2 ^ 31

/-- A sync word as its debug record shows it: a core-local word that nothing has written since the latest edge was reset by
it (R311, Table 10.8). -/
def State.shownWord (s : State) (r : SyncRef) : SyncWord :=
  let w := s.word r
  match r with
  | .pool _ => w
  | .core .. => if w.lastSrc == 0 && s.tide.running && !s.tide.first then
      { w with lastSrc := resetId, lastOp := 3, lastTide := s.tideIdx, lastTime := s.num .TDE_EDGE_TIME } else w

/-- It replaced. -/
def State.setWord (s : State) (r : SyncRef) (w : SyncWord) : State :=
  match r with
  | .core c i => s.updCore c.val (fun k => { k with words := Cells.set (fun _ => {}) k.words i.val w })
  | .pool i => { s with pool := Cells.set (fun _ => {}) s.pool i.val w }

/-- The WAIT conditions (Table 10.5). -/
def condHolds (k : WaitCond) (v t : W64) : Bool :=
  match k with
  | .eq => v == t
  | .ne => v != t
  | .ge => decide (0 ≤ (v - t).toInt)

/-- Identity of a context or a hoist (Table 10.9). -/
def State.unitId (s : State) (kind c unit : Nat) : Nat :=
  kind + c * 16 + unit * 2 ^ 16 + (match s.physOf c with | none => 0 | some p => p % 1088 % 68) * 2 ^ 18 + 2 ^ 31
/-- Identity of a host function. -/
def hostId (fn : Nat) : Nat := 4 + fn * 16 + 2 ^ 31
/-- Identity of a remote device. -/
def remoteId (a : BitVec 17) : Nat := 5 + a.toNat * 16 + 2 ^ 31

/-- What a waiter waits for. -/
def Waiter.cond : Waiter → SyncWait
  | .ctx _ _ w _ => w
  | .hoist _ _ w _ => w

/-- A waiter is woken (R313). -/
def State.wake (s : State) (w : Waiter) : State :=
  match w with
  | .ctx c x _ _ => s.wakeCtx c.val x.val
  | .hoist c h _ _ => s.updHoist c.val h.val (fun k => { k with queue := k.queue.modify 0 (fun d => { d with wait := none }) })

/-- An operation that writes a sync word: value, signaller, operation; then every waiter whose condition holds is
woken (R312, R313). -/
def State.writeWord (s : State) (r : SyncRef) (v : W64) (src op : Nat) : State :=
  let w := s.word r
  let woken := w.waiters.filter (fun x => condHolds x.cond.cond v x.cond.target)
  let w' : SyncWord := ⟨v, src, op, s.tideIdx, s.now, w.waiters.filter (fun x => !condHolds x.cond.cond v x.cond.target)⟩
  (s.setWord r w').each woken (fun x s => s.wake x)

/-- Operations on pool words count in the pool sync store (Table 10.11). -/
def State.countPool (s : State) (r : SyncRef) : State :=
  match r with
  | .pool _ => s.bump .SYN_POOL_OPS
  | .core _ _ => s

/-- STORE. -/
def State.syncStore (s : State) (r : SyncRef) (v : W64) (src : Nat) : State := (s.countPool r).writeWord r v src 0
/-- ADD, modulo 2^64. -/
def State.syncAdd (s : State) (r : SyncRef) (v : W64) (src : Nat) : State :=
  (s.countPool r).writeWord r ((s.word r).value + v) src 1
/-- CAS. -/
def State.syncCas (s : State) (r : SyncRef) (e v : W64) (src : Nat) : State :=
  if (s.word r).value == e then (s.countPool r).writeWord r v src 2 else s.countPool r
/-- The value that an operation returns goes to the context's operand register (R301, R312), and is what the command shows. -/
def State.returns (s : State) (c x : Nat) (v : W64) : State := (s.updCtx c x (fun k => { k with operand := v })).emit (.read v)
/-- The word is one the device has. -/
def State.hasWord (s : State) (r : SyncRef) : Bool :=
  match r with
  | .core c _ => s.fitted c.val
  | .pool _ => true

/-- A WAIT whose condition is false: the context waits on the word (R313). -/
def State.syncWait (s : State) (core : CoreId) (ctx : CtxId) (r : SyncRef) (w : SyncWait) : State :=
  let x := s.word r
  ((s.setWord r { x with waiters := x.waiters ++ [.ctx core ctx w s.now] }).updCtx core.val ctx.val
    (fun k => { k with wait := some w })).deschedule core.val ctx.val .sync

/-- SYNC_WAIT (R312, R313): a condition that holds does not deschedule the context. -/
def execSyncWait (t : Stamp) (core : CoreId) (ctx : CtxId) (r : SyncRef) (cond : WaitCond) (target : W64) (s : State) : Res :=
  answer t s fun s => s.when (s.issuing core.val ctx.val && s.hasWord r) (fun s =>
    if condHolds cond (s.word r).value target then s else s.syncWait core ctx r ⟨r, cond, target⟩)

/-! ### Fences (R318, R352) -/

/-- A fence of the issuing context begins: it waits with reason FENCE. Kind 0 LOCAL, 1 DEVICE, 2 FABRIC. -/
def State.fence (s : State) (c x kind : Nat) : State :=
  (s.updCtx c x (fun k => { k with fence := kind })).deschedule c x .fence

/-- FENCE_LOCAL (R318). -/
def execFenceLocal (t : Stamp) (core : CoreId) (ctx : CtxId) (s : State) : Res :=
  answer t s fun s => s.when (s.issuing core.val ctx.val) (fun s => s.fence core.val ctx.val 0)

/-- FENCE_DEVICE (R318). -/
def execFenceDevice (t : Stamp) (core : CoreId) (ctx : CtxId) (s : State) : Res :=
  answer t s fun s => s.when (s.issuing core.val ctx.val) (fun s => s.fence core.val ctx.val 1)

/-- FENCE_FABRIC (R318, R352). -/
def execFenceFabric (t : Stamp) (core : CoreId) (ctx : CtxId) (s : State) : Res :=
  answer t s fun s => s.when (s.issuing core.val ctx.val) (fun s => s.fence core.val ctx.val 2)

/-- A context has fabric operations without an answer that a fence waits for (R352). -/
def State.opsOpen (s : State) (core : CoreId) (ctx : CtxId) : Bool :=
  s.fab.ops.any (fun o => o.core == core && o.ctx == ctx && o.kind != .load)

/-- FENCE_COMPLETE (R318, R352): a fabric fence completes once every earlier operation of the context is answered. -/
def execFenceComplete (t : Stamp) (core : CoreId) (ctx : CtxId) (s : State) : Res :=
  answer t s fun s =>
    let k := (s.core core.val).ctx ctx.val
    s.when (s.fitted core.val && k.reason == some .fence && !(k.fence == 2 && s.opsOpen core ctx)) (fun s =>
      (s.bump .CRE_FENCES 1 core.val).wakeCtx core.val ctx.val)

/-! ### Hoists (R307 to R310) -/

/-- A buffer that was filled, or is being filled, for a step that has not completed and that the transfer would
overwrite (R308). -/
def Core.stillRead (k : Core) (d : Desc) : Bool :=
  k.hoists.any (fun h => h.ahead.any (fun f =>
    !(f.ctx == d.ctx && f.step == d.step) && decide (f.dest < d.dest + d.bytes) && decide (d.dest < f.dest + f.bytes) &&
    decide ((k.ctx f.ctx.val).step ≤ f.step)))

/-- A transfer may start (R308): inside the run-ahead window, its buffer no longer read, before seal, its sync condition
true. -/
def State.mayStart (s : State) (c : Nat) (d : Desc) : Bool :=
  let k := (s.core c).ctx d.ctx.val
  let win := ((s.schedOf c).map (·.window)).getD 1
  d.wait.isNone && s.beforeSeal && (d.demand.isSome || (decide (d.step < k.step + win) && !(s.core c).stillRead d))

/-- The transfer at the head of a hoist's queue starts, when it may. -/
def State.startHead (s : State) (c h : Nat) : State :=
  match ((s.core c).hoist h).queue with
  | [] => s
  | d :: rest =>
    if ((s.core c).hoist h).busy.isSome || !s.mayStart c d then s
    else s.updHoist c h (fun k =>
      { k with
        queue := rest, busy := some d, since := s.now
        ahead := if d.demand.isSome || d.out then k.ahead else k.ahead ++ [⟨d.ctx, d.step, d.dest, d.bytes⟩] })

/-- The wait a transfer's sync condition makes; none where it holds already. -/
def State.transferWait (s : State) (cond : Option (SyncRef × WaitCond × W64)) : Option SyncWait :=
  match cond with
  | none => none
  | some (r, k, v) => if condHolds k (s.word r).value v then none else some ⟨r, k, v⟩

/-- A transfer joins its hoist's queue; where its sync condition is false the hoist waits on the word. -/
def State.queueTransfer (s : State) (core : CoreId) (h : Fin 2) (d : Desc) : State :=
  let s := s.updHoist core.val h.val (fun k => { k with queue := k.queue ++ [d], since := s.now })
  match d.wait with
  | none => s
  | some w =>
    let x := s.word w.ref
    s.setWord w.ref { x with waiters := x.waiters ++ [.hoist core h w s.now] }

/-- HOIST_TRANSFER_START (R307, R308): the transfer at the head of the queue, else the schedule's next one, which the
operands name (log 13). -/
def execHoistTransferStart (t : Stamp) (core : CoreId) (hoist : Fin 2) (ctx : CtxId) (step : Nat) (x : Transfer)
    (s : State) : Res :=
  answer t s fun s => s.when (s.fitted core.val && s.beforeSeal) (fun s =>
    if ((s.core core.val).hoist hoist.val).queue.isEmpty then
      (s.queueTransfer core hoist
        { dest := x.dest, bytes := x.bytes, out := x.out, bed := x.bed, ctx := ctx, step := step, wait := s.transferWait x.cond }).startHead
        core.val hoist.val
    else s.startHead core.val hoist.val)

/-- The register that counts a hoist's bytes (R310). -/
def hoistBytes (h : Nat) : Reg := if h == 0 then .CRE_HOIST0_BYTES else .CRE_HOIST1_BYTES

/-- A taken row's fetch has ended: the oldest product that waits for one has one less to wait for (R121). -/
def fetchedIn (now : Nat) (l : List Flight) : List Flight :=
  match l with
  | [] => []
  | f :: l => if f.fetching == 0 then f :: fetchedIn now l else { f with fetching := f.fetching - 1, fetchedAt := now } :: l

/-- The stack that holds the masters of a logical core's blocks, one of the two attached to its die (R296, log 4). -/
def State.masterStack (s : State) (core : Nat) : Nat := core / 1024 * 2 + s.someStack 7 core % 2

/-- The stack at the other end of a hoist's transfer: the master's for the content of a bed and for a taken row; for
what else a hoist carries the spec lays out no addresses (log 4). -/
def State.transferStack (s : State) (core : Nat) (d : Desc) : Nat :=
  if d.bed.isSome || d.demand.isSome then s.masterStack core else Config.freeNat s.freeCtr % s.part.stacks

/-- The bytes of a transfer that has ended have moved between HBM and core SRAM (R92, R310, R496); the content of a bed
is staged there for its write. -/
def State.moved1 (s : State) (core : Nat) (d : Desc) (data : List Byte) : State :=
  let k : Site := .stack (s.transferStack core d)
  if d.out then s.tick.moves (.core core) k d.bytes
  else
    let s := (s.tick.moves k (.core core) d.bytes).memWrite (sramAddr core d.dest)
      (data.take (min d.bytes (sramBytes - d.dest)))
    match d.bed with
    | none => s
    | some p => { s with pans := s.pans.upd p.val (fun x => { x with stagedIn := x.stagedIn + d.bytes }) }

/-- Transfers for the step a context is at that have not completed (R309). -/
def Core.unfilled (k : Core) (x : Nat) : Bool :=
  k.hoists.any (fun h => (h.queue ++ h.busy.toList).any (fun d =>
    d.demand.isNone && !d.out && d.ctx.val == x && d.step == (k.ctx x).step))

/-- The step that owns a transfer is void from its first position (R310). -/
def State.transferVoid (s : State) (c : Nat) (d : Desc) : List (Nat × W32) :=
  match ((s.core c).ctx d.ctx.val).owner with
  | none => []
  | some q => match (s.qp q.val).session with
    | none => []
    | some x => match x.openFirst with | none => [] | some p => [(q.val, p)]

/-- HOIST_TRANSFER_COMPLETE (R309, R310): the bytes have moved and count; a context that waits for the buffers of its step
becomes READY when all are filled; an uncorrectable error voids the step that owns the transfer and counts in HLT_MEM_UE
(Table 14.4). -/
def execHoistTransferComplete (t : Stamp) (core : CoreId) (hoist : Fin 2) (data : List Byte) (uncorrectable : Bool)
    (s : State) : Res :=
  answer t s fun s =>
    match ((s.core core.val).hoist hoist.val).busy with
    | none => s
    | some d =>
      let s := ((s.updHoist core.val hoist.val (fun k => { k with busy := none })).bump (hoistBytes hoist.val) d.bytes
        core.val).moved1 core.val d data
      let s := match d.demand with
        | none => s
        | some p => { s with pans := s.pans.upd p.val (fun x => { x with flights := fetchedIn s.now x.flights }) }
      let s := s.when uncorrectable (fun s =>
        ((s.voidAll (s.transferVoid core.val d)).bump .HLT_MEM_UE).raise .HLT_INT_STATUS .HLT_INT_ENABLE 64)
      let s := s.when (((s.core core.val).ctx d.ctx.val).reason == some WaitReason.hoist && !(s.core core.val).unfilled d.ctx.val)
        (fun s => s.wakeCtx core.val d.ctx.val)
      s.startHead core.val hoist.val

/-! ### Pool words of the host and shares (R315 to R319) -/

/-- The pool word a function's offset names (R315): its share's word, or any for the physical function. -/
def State.poolWord (s : State) (fn off : Nat) : Option Nat :=
  if fn == 0 then (if off / 8 < 65536 then some (off / 8) else none)
  else if off / 8 < (s.share fn).poolCount then some ((s.share fn).poolBase + off / 8) else none

/-- A pool word by its number. -/
def poolRef (i : Nat) : SyncRef := .pool ⟨i % 65536, Nat.mod_lt _ (by decide)⟩

/-- A function's register space answers: the house die is out of reset and the function exists. -/
def State.fnLive (s : State) (fn : Nat) : Bool := s.powered && decide (fn ≤ s.hif.numVfs)

/-- POOL_HOST_STORE (R315): a 64-bit write in the access view. -/
def execPoolHostStore (t : Stamp) (fn : FnId) (off : Nat) (v : W64) (s : State) : Res :=
  answer t s fun s => s.when (s.fnLive fn.val) (fun s =>
    match s.poolWord fn.val off with
    | none => s
    | some i => s.syncStore (poolRef i) v (hostId fn.val))

/-- POOL_HOST_ADD (R315): a 64-bit write in the add view. -/
def execPoolHostAdd (t : Stamp) (fn : FnId) (off : Nat) (v : W64) (s : State) : Res :=
  answer t s fun s => s.when (s.fnLive fn.val) (fun s =>
    match s.poolWord fn.val off with
    | none => s
    | some i => s.syncAdd (poolRef i) v (hostId fn.val))

/-- Two runs of words overlap. -/
def runsOverlap (a n b m : Nat) : Bool := decide (0 < n) && decide (0 < m) && decide (a < b + m) && decide (b < a + n)

/-- The change of a function's pool share is refused (R316). -/
def State.shareRefused (s : State) (fn base count : Nat) : Bool :=
  let x := s.share fn
  let moved := fun (e : Nat × SyncWord) => x.poolBase ≤ e.1 && e.1 < x.poolBase + x.poolCount &&
    !(base == x.poolBase && e.1 < base + count) && e.2.waiters.any (fun w => match w with | .ctx .. => true | _ => false)
  decide (64 < fn) || decide (0 < s.openOf fn) || s.pool.any moved ||
  (List.range 65).any (fun g => g != fn && runsOverlap base count (s.share g).poolBase (s.share g).poolCount) ||
  (decide (0 < fn) && decide (2048 < count)) || decide (65536 < base + count)

/-- SYN_ALLOC_CTRL.APPLY acts (R316, R317). -/
def State.shareApply (s : State) : State :=
  let fn := s.fld .SYN_ALLOC_SEL 0 7
  let base := s.fld .SYN_ALLOC_BASE 0 16
  let count := s.fld .SYN_ALLOC_CTRL 0 17
  let s' := s.setF .SYN_ALLOC_CTRL 18 1 0
  if s.shareRefused fn base count then s'.raise .SYN_INT_STATUS .SYN_INT_ENABLE 2
  else
    (s'.setShare fn
      { s.share fn with
        poolBase := base, poolCount := count
        fabric := s.bit .SYN_ALLOC_CTRL 17 && s.part != .jn8s }).raise .SYN_INT_STATUS .SYN_INT_ENABLE 4

end Sys2Proof.Machine
end

