-- ==== Sys2Proof/Machine/FabOps.lean ====
section
/-! DEFINITION. The fabric's shared operations (11_fabric): links, routes, sending, delivery, operations. -/

namespace Sys2Proof.Machine

/-! ### Links -/

/-- A link. -/
def State.link (s : State) (n : Nat) : Link := Cells.get (fun _ => {}) s.fab.links n
/-- It replaced. -/
def State.setLink (s : State) (n : Nat) (l : Link) : State :=
  { s with fab.links := Cells.set (fun _ => {}) s.fab.links n l }
/-- It changed. -/
def State.updLink (s : State) (n : Nat) (f : Link → Link) : State := s.setLink n (f (s.link n))
/-- The link is fitted (R327, R362). -/
def State.linkFitted (s : State) (n : Nat) : Bool := decide (n < s.part.links)
/-- FAB_CTRL.ENABLE. -/
def State.fabOn (s : State) : Bool := s.bit .FAB_CTRL 0
/-- Mapped mode (R343). -/
def State.mapped (s : State) : Bool := s.bit .FAB_CTRL 1
/-- This device is named the timing root (R343). -/
def State.isRoot (s : State) : Bool := s.bit .FAB_CTRL 3 && s.part != .jn8s
/-- The device's address, when it has one. -/
def State.addr (s : State) : Option (BitVec 17) :=
  if s.bit .FAB_ADDR 31 then some (BitVec.ofNat 17 (s.fld .FAB_ADDR 0 17)) else none
/-- The links that are UP. -/
def State.upLinks (s : State) : List Nat := (s.fab.links.filter (fun e => e.2.st == .up)).map (·.1)
/-- The links that are UP or in ADMIT. -/
def State.liveLinks (s : State) : List Nat :=
  (s.fab.links.filter (fun e => e.2.st == .up || e.2.st == .admitSt)).map (·.1)
/-- LINK_SEL names the selected link; per-link registers are held by link number. -/
def State.bumpLink (s : State) (r : Reg) (n : Nat) (by_ : Nat := 1) : State := s.bump r by_ 0 n

/-! ### Coordinates and routes (R342, R346) -/

/-- Coordinates of an address. -/
def coordOf (a : BitVec 17) : List Nat := [a.toNat / 2048, a.toNat / 32 % 64, a.toNat % 32]
/-- The address of coordinates. -/
def addrOf (c : List Nat) : BitVec 17 := BitVec.ofNat 17 (c.getD 0 0 * 2048 + c.getD 1 0 * 32 + c.getD 2 0)
/-- Sizes of the torus, from a DIMS word (Table 11.7). -/
def dimsOf (d : Nat) : List Nat := [d % 64 + 1, d / 64 % 64 + 1, d / 4096 % 32 + 1]
/-- The torus this device lies in. -/
def State.dims (s : State) : List Nat := dimsOf (s.num .FAB_DIMS)
/-- An address inside the torus. -/
def addrValid (dims : List Nat) (a : BitVec 17) : Bool := (List.range 3).all (fun i => decide ((coordOf a).getD i 0 < dims.getD i 1))
/-- The neighbour in direction `d` (Table 11.1, R328). -/
def neighbour (dims : List Nat) (a : BitVec 17) (d : Nat) : BitVec 17 :=
  let c := coordOf a
  let n := dims.getD (d / 2) 1
  let x := c.getD (d / 2) 0
  addrOf (c.set (d / 2) (if d % 2 == 0 then (x + 1) % n else (x + n - 1) % n))
/-- The next hop's direction on the direct route: x, then y, then z, the shorter way, + when equal (R346). -/
def hopDir (dims : List Nat) (src dst : BitVec 17) : Option Nat :=
  ((List.range 3).filterMap (fun i =>
    let n := dims.getD i 1
    let p := ((coordOf dst).getD i 0 + n - (coordOf src).getD i 0) % n
    if p == 0 then none else some (2 * i + (if p ≤ n - p then 0 else 1)))).head?
/-- The hops of the direct route: device and direction. -/
def routeHops (dims : List Nat) (fuel : Nat) (src dst : BitVec 17) : List (BitVec 17 × Nat) :=
  match fuel with
  | 0 => []
  | fuel + 1 =>
    match hopDir dims src dst with
    | none => []
    | some d => (src, d) :: routeHops dims fuel (neighbour dims src d) dst
/-- A member's entry in the link-state database. -/
def State.memberAt (s : State) (a : BitVec 17) : Option Member := s.fab.db.find? (fun m => m.addr == a)
/-- A plane is usable: every link of the direct route on it is in routes (R347). -/
def State.planeUsable (s : State) (p : Nat) (src dst : BitVec 17) : Bool :=
  src != dst && (routeHops s.dims 128 src dst).all (fun h => match s.memberAt h.1 with
    | none => false
    | some m => m.routes.any (fun l => l.val == 6 * p + h.2))
/-- The usable planes for a destination. -/
def State.usablePlanes (s : State) (src dst : BitVec 17) : List Nat :=
  (List.range s.part.planes).filter (fun p => s.planeUsable p src dst)
/-- The intermediate member of a detour (R349): the smallest address with usable planes on both legs. -/
def State.detour (s : State) (src dst : BitVec 17) : Option (BitVec 17) :=
  ((s.fab.db.map (·.addr)).filter (fun i => i != src && i != dst && !(s.usablePlanes src i).isEmpty &&
    !(s.usablePlanes i dst).isEmpty)).foldl (fun b i => match b with
      | none => some i
      | some j => if i.toNat < j.toNat then some i else some j) none

/-! ### Status registers -/

/-- FAB_STATUS and TDE_STATUS.ROOT as the fabric stands; MEMBER is raised when it changes (Tables 11.13, 11.14). -/
def State.fabStatus (s : State) : State :=
  let up := s.upLinks
  let member := s.addr.isSome && !up.isEmpty
  let planes := ((List.range 6).map (fun p => if up.any (fun n => n / 6 == p) then 2 ^ p else 0)).sum
  let det := match s.addr with
    | none => false
    | some a => s.fab.db.any (fun m => m.addr != a && (s.usablePlanes a m.addr).isEmpty && (s.detour a m.addr).isSome)
  let v := (if member then 1 else 0) + (if s.isRoot then 2 else 0) + (if s.fab.mapped then 4 else 0) +
    (if det then 8 else 0) + s.fab.sysver % 16 * 16 + planes * 256 + up.length * 16384
  let s' := (s.setNum .FAB_STATUS v).setF .TDE_STATUS 4 1 (if s.isRoot then 1 else 0)
  if s.bit .FAB_STATUS 0 == member then s' else s'.raise .FAB_INT_STATUS .FAB_INT_ENABLE 16

/-! ### Sending (R331 to R335, R347, R348) -/

/-- Class of a packet type (Table 11.4). -/
def classOf (type : Nat) : Nat :=
  if type == 5 || type == 6 then 1 else if 7 ≤ type && type ≤ 11 then 2 else if type == 12 || type == 13 then 3 else 0
/-- The receive buffer of a packet (R335). -/
def bufferOf (p : Pkt) : Nat := classOf p.type * 4 + (if p.phase then 2 else 0) + (if p.dateline then 1 else 0)
/-- The hop in direction `d` from `a` crosses the wrap link of its dimension (R346). -/
def crossesWrap (dims : List Nat) (a : BitVec 17) (d : Nat) : Bool :=
  (coordOf a).getD (d / 2) 0 == (if d % 2 == 0 then dims.getD (d / 2) 1 - 1 else 0)
/-- A packet may start: room in the replay buffer and all its credits (R334, R335). -/
def Link.maySend (l : Link) (p : Pkt) : Bool :=
  decide (l.unacked.length < 512) && decide (l.spent.getD (bufferOf p) 0 + p.len + 1 ≤ 1024)
/-- A list of 16 with one element changed. -/
def addAt (l : List Nat) (i n : Nat) : List Nat := (List.range 16).map (fun k => l.getD k 0 + (if k == i then n else 0))
/-- A packet starts on a link: numbered, kept until acknowledged, its credits spent, its payload counted (R334, R496). -/
def State.transmit (s : State) (n : Nat) (p : Pkt) : State :=
  let l := s.link n
  let q := { p with seq := l.txSeq }
  (((s.setLink n
    { l with
      txSeq := l.txSeq + 1, unacked := l.unacked ++ [(q, 0)]
      spent := addAt l.spent (bufferOf p) (p.len + 1) }).bump .CNT_LINK_TX (p.len * 16) 0 n)).emit (.packet n q)
/-- The buffers whose next waiting packet has not the credits it needs, since when (R335, R501). -/
def Link.restarve (l : Link) (now : Nat) (tide : W32) : Link :=
  let short := (List.range 16).filter (fun b => match l.waiting.find? (fun p => bufferOf p == b) with
    | none => false
    | some p => decide (1024 < l.spent.getD b 0 + p.len + 1))
  { l with starved := short.map (fun b => (l.starved.find? (fun e => e.1 == b)).getD (b, now, tide)) }
/-- A packet goes to a link: at once, or it waits there behind those of its own buffer (R333, R335). -/
def State.sendOn (s : State) (n : Nat) (p : Pkt) : State :=
  if (s.link n).waiting.all (fun q => bufferOf q != bufferOf p) && (s.link n).maySend p then s.transmit n p
  else s.updLink n (fun l => ({ l with waiting := l.waiting ++ [p] } : Link).restarve s.now s.tideIdx)
/-- Waiting packets that may start now, in the order of each buffer. -/
def State.sendList (s : State) (n : Nat) (l : List Pkt) (kept : List Pkt) : State :=
  match l with
  | [] => s.updLink n (fun k => ({ k with waiting := kept } : Link).restarve s.now s.tideIdx)
  | p :: rest =>
    if kept.all (fun q => bufferOf q != bufferOf p) && (s.link n).maySend p then (s.transmit n p).sendList n rest kept
    else s.sendList n rest (kept ++ [p])
/-- Packets that wait on a link start as credits and the replay buffer allow. -/
def State.sendWaiting (s : State) (n : Nat) : State := s.sendList n (s.link n).waiting []
/-- A control packet of this device on a link (Table 11.4): LINK_CTRL is not sequenced; it and DELAY carry the link version,
others the system version (R358). -/
def State.sendCtrl (s : State) (n type : Nat) (args : List Nat) : State :=
  let p : Pkt := { type := type, ver := if type == 0 || type == 4 then (s.link n).ver else s.fab.sysver, src := s.addr.getD 0, args := args }
  if type == 0 then s.emit (.packet n p) else s.sendOn n p
/-- The plane for the next packet to a destination: ascending, cycling (R348). -/
def State.pickPlane (s : State) (dst : BitVec 17) (planes : List Nat) : Nat :=
  let k := listed (s.fab.nextPlane.map (fun e => (e.1.toNat, e.2))) dst.toNat 0
  ((planes.find? (fun p => decide (k ≤ p))).orElse (fun _ => planes.head?)).getD 0
/-- A packet sent towards a destination on the next usable plane (R348), or by a detour (R349); none where there is
no way. -/
def State.routePkt (s : State) (dst : BitVec 17) (p : Pkt) : Option State :=
  match s.addr with
  | none => none
  | some a =>
    let planes := s.usablePlanes a dst
    let go := fun (s : State) (to_ : BitVec 17) (planes : List Nat) (p : Pkt) =>
      let pl := s.pickPlane dst planes
      let d := (hopDir s.dims a to_).getD 0
      let np := (dst, pl + 1) :: s.fab.nextPlane.filter (fun e => e.1 != dst)
      ({ s with fab.nextPlane := np } : State).sendOn (6 * pl + d) { p with dateline := crossesWrap s.dims a d }
    if !planes.isEmpty then some (go s dst planes p)
    else match s.detour a dst with
      | none => none
      | some i => some (go (s.bump .FAB_PHASE2_PKTS) i (s.usablePlanes a i) { p with dst := i, len := p.len + 1, args := dst.toNat :: p.args })
/-! ### Broadcasts (R351) -/

/-- The link leads on along the tree from device `root` (R351): the last hop of the direct route to its far end. -/
def State.onTree (s : State) (root : BitVec 17) (n : Nat) : Bool :=
  match s.addr with
  | none => false
  | some a =>
    let f := neighbour s.dims a (n % 6)
    f != root && (routeHops s.dims 128 root f).getLast? == some (a, n % 6)

/-- The links of a plane on which a broadcast of device `root` goes on from here. -/
def State.treeLinks (s : State) (root : BitVec 17) (plane : Nat) : List Nat :=
  ((List.range 6).map (fun d => 6 * plane + d)).filter (s.onTree root)

/-- The planes usable for the first hops of this device's tree. -/
def State.treePlanes (s : State) (a : BitVec 17) : List Nat :=
  (List.range s.part.planes).filter (fun p => !(s.treeLinks a p).isEmpty &&
    (s.treeLinks a p).all (fun n => (s.memberAt a).any (fun m => m.routes.any (fun l => l.val == n))))

/-- One hop of a packet along a tree. -/
def State.treeSend (s : State) (a : BitVec 17) (p : Pkt) (links : List Nat) : State :=
  s.each links (fun n s => s.sendOn n { p with dateline := crossesWrap s.dims a (n % 6) })

/-- The next packet of a broadcast of this device: packet k goes on the k-th plane, cycling (R351). -/
def State.bcast (s : State) (type : Nat) (args : List Nat) (len : Nat := 4) (last : Bool := true) : State :=
  match s.addr with
  | none => s
  | some a =>
    let planes := s.treePlanes a
    let links := s.treeLinks a (planes.getD (s.wgt.bcast % planes.length) 0)
    if planes.isEmpty then s
    else
      let s : State := { s with wgt.bcast := s.wgt.bcast + 1 }
      s.treeSend a { type := type, ver := s.fab.sysver, src := a, last := last, len := len, args := args } links

/-- A packet of another device's broadcast that has come in on link `n` goes on along the tree of its plane (R351). -/
def State.bcastForward (s : State) (n : Nat) (h : PktHdr) (type : Nat) (args : List Nat) : State :=
  match s.addr with
  | none => s
  | some a => s.treeSend a { type := type, ver := h.ver, src := h.src, last := h.last, len := h.len, args := args }
      ((s.treeLinks h.src (n / 6)).filter (fun k => k != n))

/-- The timing root: its own address is the root's; an unmapped root sits at address 0 (R345); alone, its system version
is its VER_MAX (R359). -/
def State.rootSelf (s : State) : State :=
  if !s.isRoot then s
  else
    let s := if s.mapped then s else s.setNum .FAB_ADDR (2 ^ 31)
    let s := s.when s.addr.isSome (fun s => s.setNum .FAB_ROOT (s.num .FAB_ADDR))
    if s.fab.sysver == 0 then { s with fab.sysver := 2 } else s

/-- The link-state update of this device on every UP and ADMIT link (R347). -/
def State.sendLsu (s : State) : State :=
  match s.addr with
  | none => s
  | some a =>
    let up := s.upLinks
    let c := s.fab.counter + 1
    let upl : List LinkId := (List.finRange 36).filter (fun l => up.contains l.val)
    let old := (s.memberAt a).map (·.routes)
    let me : Member := ⟨a, c, upl, (old.getD []).filter (fun l => upl.contains l), 1, 2⟩
    let db := me :: s.fab.db.filter (fun m => m.addr != a)
    let s : State := { s with fab.counter := c, fab.db := db }
    s.each s.liveLinks (fun n s => s.sendCtrl n 2 [a.toNat, c, (up.map (fun k => 2 ^ k)).sum, 1, 2])

/-! ### Operations of contexts (R350, R352 to R354) -/

/-- The queue pair whose step a context runs, with the step's first position. -/
def State.ctxStep (s : State) (c : CoreId) (x : CtxId) : Option (Nat × W32) :=
  match ((s.core c.val).ctx x.val).owner with
  | none => none
  | some q => match (s.qp q.val).session with
    | none => none
    | some y => y.openFirst.map (fun p => (q.val, p))
/-- The work command of a session that runs ends with a status (R353). -/
def Session.endWork (x : Session) (st detail : Nat) : Session :=
  match x.work with
  | [] => x
  | w :: rest => { x with work := (if w.done.isNone then { w with done := some (st, detail) } else w) :: rest }
/-- A step failed with a fabric code in this tide (R353): the run of consecutive tides, and the command's end at
FAB_RETRY_TIDES. -/
def State.fabRetry (s : State) (q code : Nat) : State :=
  let v := s.hlt.fabVoids
  let c := match v.find? (fun e => e.1 == q && e.2.1 == code) with
    | none => 1
    | some (_, _, k, l) => if l == s.tideIdx then k else if l + 1 == s.tideIdx then k + 1 else 1
  let s : State := { s with hlt.fabVoids := (q, code, c, s.tideIdx) :: v.filter (fun e => !(e.1 == q && e.2.1 == code)) }
  if c ≥ s.fld .FAB_RETRY_TIDES 0 16 then s.updSess q (fun x => x.endWork code 0) else s
/-- An operation's status, other than ST_OK, voids its step and counts (R353). -/
def State.opFailed (s : State) (core : CoreId) (ctx : CtxId) (code : Nat) : State :=
  let s := s.when (code == 0x30) (fun s => (s.bump .FAB_UNREACH_COUNT).raise .FAB_INT_STATUS .FAB_INT_ENABLE 256)
  match s.ctxStep core ctx with
  | none => s
  | some (q, p) =>
    let s := s.voidAll [(q, p)]
    if code == 0x31 || code == 0x32 || code == 0x0E then s.updSess q (fun x => x.endWork code 0) else s.fabRetry q code
/-- An outstanding operation is answered (R350, R352, R353). -/
def State.opDone (s : State) (num code : Nat) : State :=
  match s.fab.ops.find? (fun o => o.num == num) with
  | none => s
  | some o =>
    if code == 0 then
      { s with fab.ops := (s.fab.ops.map (fun x => if x.num == num then { x with left := x.left - 1 } else x)).filter (fun x => x.left != 0) }
    else
      ({ s with fab.ops := s.fab.ops.filter (fun x => x.num != num) } : State).opFailed o.core o.ctx code
/-- An ACK to a source: over any usable plane, or applied here when the source is this device (R350, R354). -/
def State.ackTo (s : State) (src : BitVec 17) (num code : Nat) : State :=
  if s.addr == some src then s.opDone num code
  else (s.routePkt src { type := 12, ver := s.fab.sysver, dst := src, src := s.addr.getD 0, opNum := num, args := [code] }).getD s
/-- The unacknowledged packets of a link become indeterminate and are discarded (R354). -/
def State.indeterminate (s : State) (n : Nat) : State :=
  let l := s.link n
  let pk := l.unacked.map (·.1) ++ l.waiting
  let s := s.setLink n { l with unacked := [], waiting := [], spent := [], starved := [] }
  s.each pk (fun p s => (s.bumpLink .FAB_LINK_INDET n).when (p.type == 5 || p.type == 7 || p.type == 8) (fun s =>
    s.ackTo p.src p.opNum 0x33))

/-! ### States of a link (R336 to R341) -/

/-- A link leaves UP: out of this device's routes, LSU, LINK_DOWN (Table 11.14). -/
def State.leaveUp (s : State) (_ : Nat) (was : LinkSt) : State :=
  if was == .up then (s.sendLsu.raise .FAB_INT_STATUS .FAB_INT_ENABLE 2).fabStatus else s
/-- A link is HELD with a code (R337): it leaves the routes first, and its packets become indeterminate. -/
def State.hold (s : State) (n code : Nat) : State :=
  let was := (s.link n).st
  (((((s.updLink n (fun l => { l with st := .held, code := code, since := s.now })).leaveUp n was).indeterminate n).raise
    .FAB_INT_STATUS .FAB_INT_ENABLE 4).event 0x0B03 0 n code)
/-- A link goes DOWN (R341): it leaves the routes first, and its packets become indeterminate; the device loses an
address taken from neighbours with its last link (R345). -/
def State.linkDown (s : State) (n : Nat) : State :=
  let l := s.link n
  let peer := (l.peer.map (fun h => h.coord.toNat)).getD 0
  let s := s.updLink n (fun l => { l with st := .down })
  let s := if l.st == .up || l.st == .admitSt || l.st == .retrain then
      (s.sendLsu.raise .FAB_INT_STATUS .FAB_INT_ENABLE 2).event 0x0B02 0 n peer
    else s
  let s := (s.indeterminate n).updLink n (fun l =>
    { present := l.present, disabled := l.disabled, since := s.now })
  let none_ := s.fab.links.all (fun e => e.2.st == .down || e.2.st == .detect || e.2.st == .held)
  (s.when (none_ && !s.mapped && !s.isRoot) (fun s =>
    { s.setNum .FAB_ADDR 0 with fab.db := [] })).fabStatus
/-- A link enters RETRAIN (R336): it leaves the routes at once, and its packets become indeterminate. -/
def State.enterRetrain (s : State) (n : Nat) : State :=
  ((((s.updLink n (fun l => { l with st := .retrain, since := s.now })).leaveUp n .up).indeterminate n).updLink n (fun l =>
    { l with txSeq := 0, rxSeq := 0, toAck := 0 })).bumpLink .FAB_LINK_RETRAINS n

/-! ### Receiving (R334, R358) -/

/-- LINK_CTRL with the latest SEQ received in order, or a NAK with the one expected, and the credits freed (R334, R335). -/
def State.sendLinkCtrl (s : State) (n : Nat) (nak : Bool) : State :=
  let l := s.link n
  (s.setLink n { l with toAck := if nak then l.toAck else 0, freed := [] }).sendCtrl n 0
    ((if nak then [1, l.rxSeq.toNat] else [0, (l.rxSeq - 1).toNat]) ++ l.freed)

/-- An accepted packet leaves its receive buffer (R335). -/
def State.freeBuf (s : State) (n type : Nat) (h : PktHdr) : State :=
  s.updLink n (fun l => { l with freed := addAt l.freed (bufferOf { type := type, phase := h.phase, dateline := h.dateline }) (h.len + 1) })

/-- A sequenced packet arrives on a link: accepted when the link carries its class and its SEQ is the next one, else answered
with NAK (R334, R337); one whose version lies outside the range is then dropped (R358). -/
def State.accept (s : State) (n : Nat) (h : PktHdr) (type : Nat) : State × Bool :=
  let l := s.link n
  if !(l.st == .up || (classOf type == 0 && l.st == .admitSt)) then (s, false)
  else if h.seq != l.rxSeq then (s.sendLinkCtrl n true, false)
  else
    let s := (s.setLink n { l with rxSeq := l.rxSeq + 1, toAck := l.toAck + 1 }).bump .CNT_LINK_RX (h.len * 16) 0 n
    let s := s.when (decide (64 ≤ l.toAck + 1)) (fun s => s.sendLinkCtrl n false)
    if h.ver < 1 || 2 < h.ver then ((s.freeBuf n type h).bump .FAB_VER_DROPS, false) else (s, true)

/-- A packet that arrives for another member goes on its direct route, on the same plane (R346, log 20). DATELINE stays
within a dimension and is set where the hop crosses the wrap link. -/
def State.forward (s : State) (n : Nat) (p : Pkt) : State :=
  match s.addr with
  | none => s
  | some a => match hopDir s.dims a p.dst with
    | none => s
    | some d => s.sendOn (n / 6 * 6 + d) { p with dateline := (p.dateline && n % 6 / 2 == d / 2) || crossesWrap s.dims a d }

end Sys2Proof.Machine
end

