-- ==== Sys2Proof/Machine/WaitGraph.lean ====
section
/-! DEFINITION. The wait-for graph and the snapshot triggers that take it with them (R492, R501, R502). -/

namespace Sys2Proof.Machine

/-- Resource field of a sync word (R502). -/
def refResource (r : SyncRef) : Nat :=
  match r with
  | .core c i => 2 ^ 28 + c.val * 64 + i.val
  | .pool i => 2 * 2 ^ 28 + i.val
/-- An edge that waits on a sync word: its holder is the last signaller. -/
def State.syncEdge (s : State) (waiter : Nat) (w : SyncWait) : WfgEdge :=
  ⟨waiter, refResource w.ref, (s.shownWord w.ref).lastSrc, s.tideIdx.toNat⟩
/-- The region of a core's BUFFERS section in which an offset of its SRAM lies (R288); 0 where none does. -/
def State.regionAt (s : State) (c off : Nat) : Nat :=
  match s.schedOf c with
  | none => 0
  | some d => ((List.range d.buffers.length).find? (fun i => match d.buffers[i]? with
    | none => false
    | some b => decide (b.off ≤ off) && decide (off < b.off + b.len))).getD 0
/-- The region of the first buffer that a context of a core waits for. -/
def State.waitRegion (s : State) (c x : Nat) (k : Core) : Nat :=
  match (k.hoists.flatMap (fun h => h.busy.toList ++ h.queue)).find? (fun d => d.ctx.val == x && d.step == (k.ctx x).step) with
  | none => 0
  | some d => s.regionAt c d.dest
/-- Edges of a core: contexts that wait with reason SYNC or HOIST, hoists held by a sync condition. -/
def State.coreEdges (s : State) (c : Nat) (k : Core) : List WfgEdge :=
  ((List.range 4).flatMap (fun x =>
    let y := k.ctx x
    match y.state, y.reason, y.wait with
    | .waiting, some .sync, some w => [s.syncEdge (s.unitId 1 c x) w]
    | .waiting, some .hoist, _ =>
      [⟨s.unitId 1 c x, 6 * 2 ^ 28 + c + s.waitRegion c x k % 256 * 4096, 0, s.tideIdx.toNat⟩]
    | _, _, _ => [])) ++
  ((List.range 2).flatMap (fun h => match (k.hoist h).queue with
    | [] => []
    | d :: _ => match d.wait with | none => [] | some w => [s.syncEdge (s.unitId 2 c h) w]))
/-- Identity of a queue pair (R502). -/
def qpId (q : Nat) : Nat := 7 + q * 16 + 2 ^ 31
/-- Edges of a queue pair: its full completion ring, and its session's command that waits for budget. -/
def State.qpEdges (s : State) (q : Nat) (x : Qp) : List WfgEdge :=
  (if x.cqFull then [⟨qpId q, 3 * 2 ^ 28 + q, hostId (s.fnOf q), x.cqFullFrom.toNat⟩] else []) ++
  (match x.session with
    | none => []
    | some y => match y.waitFrom with | none => [] | some t => [⟨qpId q, 4 * 2 ^ 28 + q, 0, t.toNat⟩])
/-- Edges of a link: its buffers without credits for 1 µs or more. A link class has no identity of its own in Table 10.9:
the waiter reads zero (log 46). -/
def State.linkEdges (s : State) (n : Nat) (l : Link) : List WfgEdge :=
  let holder := match l.peer with | none => 0 | some h => if h.assigned then remoteId h.coord else 0
  (l.starved.filter (fun e => decide (e.2.1 + 1000 ≤ s.now))).map (fun e =>
    ⟨0, 5 * 2 ^ 28 + n + e.1 / 4 * 64 + e.1 / 2 % 2 * 256 + e.1 % 2 * 512, holder, e.2.2.toNat⟩)
/-- The edges of the graph, in one pass over the waits held now (R501). -/
def State.waitEdges (s : State) : List WfgEdge :=
  s.cores.cells.flatMap (fun e => s.coreEdges e.1 e.2) ++ s.qps.cells.flatMap (fun e => s.qpEdges e.1 e.2) ++
  s.fab.links.flatMap (fun e => s.linkEdges e.1 e.2)

/-- A snapshot trigger (R492): 1 the safe state, 2 an orderly stop, 3 BBX_CTRL.SNAP. -/
def State.snapTrigger (s : State) (trigger detail : Nat) : State :=
  if s.mram.bbx.snaps.length + s.snaps.length < 8 then
    let g : Option Wfg := if trigger == 3 then none else some { trigger := trigger, edges := s.waitEdges }
    let q : SnapReq := ⟨trigger, detail, s.fld .FWP_STATUS 16 8, s.fld .HIF_DEV_STATE 0 3, s.tideIdx, s.now, g⟩
    { s with snaps := s.snaps ++ [q] }
  else
    { s with mram := { s.mram with bbx := { s.mram.bbx with snapsLost := s.mram.bbx.snapsLost + 1 } } }.raise
      .BBX_INT_STATUS .BBX_INT_ENABLE 4

end Sys2Proof.Machine
end

