-- ==== Sys2Proof/Machine/ResilOps.lean ====
section
/-! DEFINITION. Shared operations of resilience: the safe state, fault events, retirement, withdrawal, claims
(14_resilience, R412, R413, R100). -/

namespace Sys2Proof.Machine

/-! ### Model slots and plan slots -/

/-- A model slot. -/
def State.wslot (s : State) (i : Nat) : Slot := if i == 0 then s.wgt.slot0 else s.wgt.slot1
/-- It changed. -/
def State.updWslot (s : State) (i : Nat) (f : Slot → Slot) : State :=
  if i == 0 then { s with wgt.slot0 := f s.wgt.slot0 } else { s with wgt.slot1 := f s.wgt.slot1 }
/-- A plan slot. -/
def State.pslot (s : State) (i : Nat) : PlanSlot := if i == 0 then s.plans.s0 else s.plans.s1
/-- It changed. -/
def State.updPslot (s : State) (i : Nat) (f : PlanSlot → PlanSlot) : State :=
  if i == 0 then { s with plans.s0 := f s.plans.s0 } else { s with plans.s1 := f s.plans.s1 }

/-- The active weight slot's number. -/
def State.activeSlot (s : State) : Option Nat := [0, 1].find? (fun w => (s.wslot w).state == .active)

/-- The host-tier layers of the active model (R180). -/
def State.tierLayers (s : State) : List Nat := match s.activeSlot with | none => [] | some w => (s.wslot w).hostLayers

/-! ### Pans as other families change them -/

/-- It changed. -/
def State.updPan (s : State) (p : Nat) (f : Pan → Pan) : State := { s with pans := s.pans.upd p f }
/-- The shadow bed is bed A or B: the one that is not active. -/
def Pan.shadow (p : Pan) : Bed := if p.activeB then p.a else p.b
/-- The active bed. -/
def Pan.active (p : Pan) : Bed := if p.activeB then p.b else p.a
/-- The shadow bed replaced. -/
def Pan.setShadow (p : Pan) (x : Bed) : Pan := if p.activeB then { p with a := x } else { p with b := x }
/-- The active bed replaced. -/
def Pan.setActive (p : Pan) (x : Bed) : Pan := if p.activeB then { p with b := x } else { p with a := x }
/-- A claim joins the pan's claims: one of a rank, in rank order; requests merge (R100). -/
def Pan.addClaim (p : Pan) (c : Claim) : Pan :=
  match p.claims.find? (fun d => d.rank == c.rank) with
  | some d =>
    { p with
      claims := p.claims.map (fun e => if e.rank == c.rank then
        { d with rake := d.rake || c.rake, refreshReq := d.refreshReq || c.refreshReq, rakeReq := d.rakeReq || c.rakeReq } else e) }
  | none => { p with claims := p.claims.filter (fun d => decide (d.rank < c.rank)) ++ [c] ++ p.claims.filter (fun d => decide (c.rank < d.rank)) }
/-- The block whose configuration the pan shows (Table 3.12): its block of the placement, or, on a streamed pan, the
streamed block that is active, else the first of its schedule. -/
def Pan.placedBlock (p : Pan) : Option Block :=
  match p.cur, p.active.content with
  | some b, _ => some b
  | none, .stream k => some k.shape
  | none, _ => p.streams.head?.map (·.shape)
/-- The claim that held the bed is pending again, but for a sweep test's, which no write serves (R101). -/
def Pan.returnClaim (p : Pan) : Pan :=
  match p.serving with
  | none => p
  | some d => if d.what == .none then { p with serving := none } else { p with serving := none }.addClaim d

/-! ### The safe state (R412, R413) -/

/-- The record of a command (R256). -/
def cplOf (w : Work) (rep : Report) : Cpl :=
  let d := w.done.getD (0, 0)
  { cid := w.cid, status := d.1, opcode := w.opcode, irq := w.flags / 2 % 2 == 1, detail := d.2
    report := { rep with flags := rep.flags ||| w.endFlags }, tokTotal := w.tokTotal, frmTotal := w.frmTotal, more := w.done.isNone }

/-- The records with which a session's pending commands end, CLOSE last; one that has its end keeps it. -/
def Session.ends (x : Session) (code : Nat) : List Cpl :=
  x.work.map (fun w => cplOf { w with done := some (w.done.getD (code, 0)) } {}) ++
  (match x.closing with
    | none => []
    | some (cid, irq) => [{ cid := cid, status := code, opcode := 7, irq := irq }])

/-- A queue pair whose session fails (R257, R413): its pending commands end with ST_SESSION_FAILED (Table 8.11), without a
record in an ERROR pair (R250); `silent`, nothing further is published (R444). -/
def Qp.failAll (silent : Bool) (x : Qp) : Qp :=
  let ended := match x.session with
    | none => []
    | some y => if y.state == .failed || x.state != .ready then [] else y.ends 0x18
  { x with
    recs := if silent then [] else x.recs ++ ended
    rung := if silent then [] else x.rung
    session := x.session.map (fun y => { y with state := .failed, steps := [], done := [], work := [], closing := none }) }

/-- SESSION_FAILED of every function with a session that has not failed yet. -/
def State.tellFailed (s : State) : State :=
  let l := ((s.withSess.filter (fun e => e.2.state != .failed)).map (fun e => s.fnOf e.1)).eraseDups
  s.each l (fun fn s => s.raise .SRV_INT_STATUS .SRV_INT_ENABLE 8 fn)

/-- A load that is gone with its slot: START reads 0, and WGT_LOAD_STATUS shows no load (Tables 6.13, 6.14). -/
def State.closeLoad (s : State) : State :=
  s.when s.wgt.load.isSome (fun s => (s.setF .WGT_LOAD_CTRL 0 1 0).setF .WGT_LOAD_STATUS 0 4 0)

/-- The content a refresh of the pan writes: its block of the placement, or the streamed block that is active, or the
first of its schedule (log 116); none of a host-tier layer, which no refresh reads (R182). -/
def Pan.currentContent (p : Pan) (host : List Nat) : Option Content :=
  if p.cur.isSome then some .current
  else
    let k := match p.active.content, p.streams with
      | .stream b, _ => some b
      | _, b :: _ => some b
      | _, [] => none
    (k.filter (fun b => !host.contains b.shape.layer)).map Content.stream

/-- Everything closes: pans, sluices and vector engines stop; sessions FAILED; plan and weight slots EMPTY; content keys
gone; loads ended (R413). -/
def State.closeAll (s : State) (silent : Bool) : State :=
  let s := s.tellFailed.closeLoad
  let admin := (s.share 0).qpFirst
  { s with
    qps := s.qps.map (Qp.failAll silent)
    pans := s.pans.map (fun p => { p with flights := [], claims := [], serving := none, cur := none, staged := none, streams := [], streamAt := 0, kept := [], toDraw := 0, users := [], withdrawn := false, streamed := false })
    cores := s.cores.map (fun c => { c with ctxs := [{}, {}, {}, {}], hoists := [{}, {}], combine := [] })
    plans := {}
    wgt := { s.wgt with
      slot0 := {}, slot1 := {}, load := none, adapters := [], bounce := [], tierWait := [], stallFrom := none, heldFrom := none, serving := none }
    mem := Cells.clear s.mem (2 ^ 100) (2 ^ 109)
    srv := { s.srv with admitted := s.srv.admitted.filter (fun e => !silent || e.qid == admin) }
    hlt.degraded := []
    hlt.migrations := [] }

/-- The physical function's admin queue pair keeps what it holds through the safe state (R413, R414). -/
def State.keepAdmin (s old : State) : State :=
  let a := (old.share 0).qpFirst
  s.updQp a (fun q => { old.qp a with session := q.session })

/-- The device enters the safe state, from STARTING or READY (R398, R412); `detail` is the snapshot's code. -/
def State.enterSafe (s : State) (reason detail : Nat) : State :=
  if s.devState == 0 || s.devState == 1 then
    let s1 := ((s.setF .FWP_STATUS 16 8 reason).setDevState 2).raise .FWP_INT_STATUS .FWP_INT_ENABLE 1
    ((((s1.event 0x0D02 1 reason 0 0 0 2).snapTrigger 1 detail).shutRecord 4).closeAll (reason == 5)).keepAdmin s
  else s

/-- An uncontained fault (R444): fault record with its unit class, then the safe state. -/
def State.uncontained (s : State) (unitClass : Nat) (core : Option Nat) (detail : Nat) (stack : Nat := 0xFF) : State :=
  (s.faultRec 0x11 none core 0xFF 64 0xFFFF 0xFFFF 0xFFFFFFFF (BitVec.ofNat 64 unitClass) (BitVec.ofNat 64 stack)).enterSafe 5 detail

/-! ### Retirement and degradation (R437 to R440, R297) -/

/-- A fault kind charged to a core: HLT_PC_LAST_FAULT and HLT_PC_LAST_TIDE (Table 14.14). -/
def State.lastFault (s : State) (p kind : Nat) : State :=
  s.updPhys p (fun x => { x with lastFault := kind, lastTide := s.tideIdx })

/-- The retirement list gains an entry, unless it is full (R440). -/
def State.listRetired (s : State) (e : RetireEntry) : State :=
  if s.mram.retired.length < 1024 then { s with mram.retired := s.mram.retired ++ [e] }
  else s.raise .HLT_INT_STATUS .HLT_INT_ENABLE 256

/-- The lowest-numbered free reserve of a cluster whose latest sweep passed (R438). -/
def State.takeReserve (s : State) (cluster : Nat) : Option Nat :=
  (physOfCluster cluster).find? (fun p => s.freeReserve p && (s.ph p).sweepOk)

/-- A reserve is being filled for a logical core (R38). -/
def State.fillOf (s : State) (core : Nat) : Option Nat :=
  (physOfCluster (clusterOfCore core)).find? (fun p => (s.ph p).role == .filling && (s.ph p).logical == some core)

/-- The pans of a logical core that moves to other beds: start content, withdrawn until the content is there (R38). -/
def Pan.rehome (p : Pan) : Pan :=
  let fresh : Pan :=
    { p with
      a := { state := .active, content := .start }, b := { state := .stale, content := .start }
      activeB := false, flights := [], serving := none, claims := [] }
  let p := match p.cur with
    | none => fresh
    | some _ => { fresh with withdrawn := true }.addClaim { rank := 2, what := .current, rake := true }
  match p.staged with
  | none => p
  | some _ => p.addClaim { rank := 3, what := .staged, rake := true }

/-- The logical core that a group core is on, or moves to. -/
def Placed.goal (e : Placed) : Nat := e.moving.getD e.core

/-- An UNUSED logical core of a die that can take a group core of a plan (R297); a CLUSTER_LOCAL group stays in its
cluster. -/
def State.unusedCore (s : State) (p : PlanSlot) (core : Nat) (clusterLocal : Bool) : Option Nat :=
  ((List.range 1024).map (fun k => core / 1024 * 1024 + k)).find? (fun c =>
    !(p.place.any (fun e => e.core == c || e.moving == some c)) && (s.physOf c).isSome && !s.hlt.degraded.contains c && c < s.part.cores &&
    (!clusterLocal || clusterOfCore c == clusterOfCore core))

/-- The placement of a plan slot with a group core that moves, or stays, or is elsewhere at once where the plan is not
active. -/
def PlanSlot.moveTo (p : PlanSlot) (core : Nat) (target : Option Nat) : PlanSlot :=
  let f := fun (e : Placed) =>
    if e.core != core then e
    else if p.state == .active then { e with moving := target }
    else { e with core := target.getD core, moving := none }
  { p with place := p.place.map (fun e => f e) }

/-- A plan whose placement changes and that is STAGED returns to STAGING (R297). -/
def PlanSlot.unstage (p : PlanSlot) : PlanSlot := if p.state == .staged then { p with state := .staging } else p
/-- Both plan slots and the weight slots follow (R297). -/
def State.unstage (s : State) : State :=
  let ws := fun (x : Slot) => if x.state == .staged then { x with state := .staging } else x
  { s with
    plans := { s.plans with s0 := s.plans.s0.unstage, s1 := s.plans.s1.unstage }
    wgt := { s.wgt with slot0 := ws s.wgt.slot0, slot1 := ws s.wgt.slot1 } }

/-- A placed logical core (of the active plan). -/
def State.placed (s : State) (core : Nat) : Bool :=
  match s.activePlan with | none => false | some p => p.place.any (fun e => e.core == core)

/-- The kinds of the layers that the active plan puts on a logical core (Table 9.7). -/
def State.kindsOn (s : State) (core : Nat) : List Nat :=
  match s.activePlan with
  | none => []
  | some p => match p.img with
    | none => []
    | some i => (p.place.filter (fun e => e.core == core)).flatMap (fun e =>
        (i.groups.filter (fun g => g.group == e.group)).flatMap (fun g => (i.layers.filter (fun l => l.layer == g.layer)).map (·.kind)))

/-- A step has work on layers of some kinds (R260, R263, R273): the audio encoder in chunks of AUDIO_IN, the codec decoder
in generation with AUDIO_OUT, the draft model in a verification, every other layer in every step. -/
def Session.uses (x : Session) (kinds : List Nat) (t : Step) : Bool :=
  kinds.any (fun k =>
    if k == 3 then !t.gen && (x.work.head?.map (fun w => w.opcode == 2)).getD false
    else if k == 4 then t.gen && x.audioOut
    else if k == 5 then decide (0 < t.draft)
    else true)

/-- Sequences with a step that has not completed and whose work in the tide includes work on a core, from that step on
(R276). -/
def State.runningOn (s : State) (core : Nat) : List (Nat × W32) :=
  let k := s.kindsOn core
  s.withSess.filterMap (fun e => (e.2.steps.find? (fun t => !t.complete && !t.void && e.2.uses k t)).map (fun t => (e.1, t.first)))

/-- The same for every step of the tide, complete or not (R442). -/
def State.tideOn (s : State) (core : Nat) : List (Nat × W32) :=
  let k := s.kindsOn core
  s.withSess.filterMap (fun e => (e.2.steps.find? (fun t => e.2.uses k t)).map (fun t => (e.1, t.first)))

/-- The group of an entry is CLUSTER_LOCAL. -/
def PlanSlot.isLocal (p : PlanSlot) (e : Placed) : Bool :=
  match p.img with
  | none => false
  | some i => i.groups.any (fun g => g.group == e.group && g.clusterLocal)

/-- The pans concerned of a staged model or plan follow a group core to another logical core (R200). -/
def movePans (core target : Nat) (l : List Nat) : List Nat :=
  l.map (fun p => if p / 16 == core then target * 16 + p % 16 else p)

/-- Staged content and the pans concerned go from one logical core to another (R200). -/
def State.moveStaged (s : State) (core target : Nat) : State :=
  let pp := fun (p : PlanSlot) => { p with pans := movePans core target p.pans }
  let ps := fun (x : Slot) => { x with pans := movePans core target x.pans }
  let s : State := { s with
    plans := { s.plans with s0 := pp s.plans.s0, s1 := pp s.plans.s1 }
    wgt := { s.wgt with slot0 := ps s.wgt.slot0, slot1 := ps s.wgt.slot1 } }
  s.each (List.range 16) (fun i s =>
    let x := (s.pan (core * 16 + i)).staged
    let s := s.updPan (core * 16 + i) (fun p => { p with staged := none, claims := p.claims.filter (fun c => c.rank != 3) })
    s.when x.isSome (fun s => s.updPan (target * 16 + i) (fun p => { p with staged := x }.addClaim { rank := 3, what := .staged })))

/-- The pans of a logical core hold nothing of a plan. -/
def State.clearPans (s : State) (core : Nat) : State :=
  s.each (pansOf core) (fun p s => s.updPan p (fun x => { x with
    cur := none, staged := none, withdrawn := false, streamed := false, streams := [], streamAt := 0, claims := [], serving := none }))

/-- The active plan's group core of an entry leaves for `target`, whose beds are to be filled (R38, R297). -/
def State.moveActive (s : State) (e : Placed) (target : Nat) : State :=
  s.each (List.range 16) (fun i s =>
    let x := s.pan (e.core * 16 + i)
    s.updPan (target * 16 + i) (fun y => { y with cur := x.cur, streamed := x.streamed, streams := x.streams }.rehome))

/-- Plan slot `k` is placed again without a lost logical core (R297); where the group core goes. -/
def State.replace (s : State) (k core : Nat) : State × Option Nat :=
  let p := if k == 0 then s.plans.s0 else s.plans.s1
  match p.place.find? (fun e => e.goal == core) with
  | none => (s, none)
  | some e =>
    let t := s.unusedCore p core ((p.place.filter (fun x => x.goal == core)).any p.isLocal)
    let p' := p.moveTo e.core t
    let s : State := if k == 0 then { s with plans.s0 := p' } else { s with plans.s1 := p' }
    if p.state != .active then (s, t)
    else
      let s := s.when (e.core != core) (fun s => s.clearPans core)
      match t with
      | none => (s, none)
      | some t => (s.moveActive e t, some t)

/-- The plans that place a logical core are placed again (R297): counted once an event (log 135). -/
def State.countReplace (s : State) (core : Nat) : State :=
  s.when ((s.plans.s0.place ++ s.plans.s1.place).any (fun e => e.goal == core)) (fun s => s.bump .BPL_REPLACEMENTS)

/-- A logical core becomes DEGRADED: fault record, DEGRADED, and the plans are placed again, a group core going to an
UNUSED core of the die where there is one (R297, R439). -/
def State.degrade (s : State) (core : Nat) (phys : Option Nat) : State :=
  if s.hlt.degraded.contains core then s
  else
    let s : State := (({ s with hlt.degraded := s.hlt.degraded ++ [core] } : State).faultRec 0x0F phys (some core) 0xFF 16).raise
      .HLT_INT_STATUS .HLT_INT_ENABLE 4
    let s := s.countReplace core
    let s := s.each (pansOf core) (fun p s => s.when (s.pan p).cur.isSome (fun s => s.updPan p (fun x =>
      { x with withdrawn := true, claims := x.claims.filter (fun c => c.rank == 3), serving := none })))
    let (s, t0) := s.replace 0 core
    let (s, t1) := s.replace 1 core
    let (act, oth) := if s.plans.s0.state == .active then (t0, t1) else (t1, t0)
    match oth.orElse (fun _ => act) with
    | none => s
    | some t => s.moveStaged core t

/-- A logical core without a physical core is mapped onto a reserve whose beds are to be filled, or is DEGRADED (R38,
R438, R439). -/
def State.remap (s : State) (core p : Nat) : State :=
  let s := s.unstage
  match s.takeReserve (clusterOfPhys p) with
  | some r => ((s.countReplace core).updPhys r (fun x => { x with role := .filling, logical := some core })).each (pansOf core) (fun q s => s.updPan q Pan.rehome)
  | none => s.degrade core (some p)

/-- A physical core is retired (R437): its steps void, the list entry, the record, and its logical core mapped onto a
reserve whose beds are to be filled, or DEGRADED (R38, R438, R439). The reserve of a migration that retires gives its
logical core back at the next edge (Table 14.2). -/
def State.retire (s : State) (p kind : Nat) : State :=
  if (s.ph p).role == .retired || s.part.physCores ≤ p then s
  else
    let core := if (s.ph p).role == .filling then (s.ph p).logical else s.carried p
    let back := s.hlt.migrations.any (fun m => m.reserve == p && m.phase == 1)
    let s : State := match core with
      | none => s
      | some c => s.when ((s.ph p).role != .filling) (fun s => s.voidAll (s.runningOn c))
    let s := s.updPhys p (fun x => { x with role := .retired, kind := kind, testing := none, logical := none })
    let s := (((s.bump .HLT_RETIREMENTS).listRetired ⟨false, p, kind, s.now, s.tideIdx, BitVec.ofNat 32 (s.num .FWP_FW_VERSION)⟩).faultRec 0x0E (some p)
      core 0xFF 136).raise .HLT_INT_STATUS .HLT_INT_ENABLE 2
    match core with
    | none => s
    | some c => if back then s else s.remap c p

/-! ### Fault events (R425) -/

/-- A fault event charged to a core; the third within 64 tides retires it (R425, R437). -/
def State.charge (s : State) (p kind : Nat) : State :=
  if (s.ph p).role == .retired then s
  else
    let ev := s.tideIdx :: ((s.ph p).events.filter (fun e => decide (tideDist e s.tideIdx < 64)))
    let s := (s.updPhys p (fun x => { x with events := ev })).lastFault p kind
    if ev.length ≥ 3 then s.retire p kind else s

/-- The physical core of a pan, where its logical core is not DEGRADED. -/
def State.physOfPan (s : State) (pan : Nat) : Option Nat := s.physOf (pan / 16)

/-- A fault event of a pan: record, then the charge. -/
def State.panEvent (s : State) (pan kind action : Nat) (rho eps : Nat := 0xFFFF) (qid : Nat := 0xFFFFFFFF) : State :=
  let s' := s.faultRec kind (s.physOfPan pan) (some (pan / 16)) (pan % 16) action rho eps qid
  match s.physOfPan pan with
  | none => s'
  | some p => s'.charge p kind

/-- The pan is suspect through the 64 tides from the next edge (R430). -/
def State.suspectPan (s : State) (pan : Nat) : State :=
  match s.physOfPan pan with
  | none => s
  | some p => s.updPhys p (fun x => { x with suspect := (pan % 16, s.tideIdx + 64) :: x.suspect.filter (fun e => e.1 != pan % 16) })

/-- The suspect window of pan `i` of a physical core covers a tide (R430). -/
def Phys.isSuspect (x : Phys) (i : Nat) (t : W32) : Bool :=
  x.suspect.any (fun e => e.1 == i && !tideBefore e.2 t)

/-- A saturation fault (R83, R430): event, fault event, steps voided. -/
def State.satFault (s : State) (pan row : Nat) (owner : Option Qid) (first : W32) : State :=
  ((s.event 0x0302 0x80 pan row).voidAll (s.panScope pan (stepOf owner first))).panEvent pan 0x02 1 0xFFFF 0xFFFF
    ((owner.map Fin.val).getD 0xFFFFFFFF)

/-- A checksum trip (R426, R427): the pan is withdrawn, steps are voided, a rank-2 claim re-programs the bed; a group
that trips again within 1,024 tides of its re-programmed bed's swap is a fault event. -/
def State.chkTrip (s : State) (pan : PanId) (group : Nat) (own : List (Nat × W32)) : State :=
  let again := s.hlt.trips.any (fun e => e.1 == pan && e.2.1 == group && decide (tideDist e.2.2 s.tideIdx < 1024))
  let what := (s.pan pan.val).currentContent s.tierLayers
  let s := (s.voidAll (s.panScope pan.val own)).updPan pan.val (fun x =>
    let y := { x with withdrawn := true }
    match what with | none => y | some c => y.addClaim { rank := 2, what := c, rake := true })
  let s := (s.bump .HLT_CHK_TRIPS).faultRec 0x03 (s.physOfPan pan.val) (some (pan.val / 16)) (pan.val % 16) 3
  let s : State := { s with hlt.marked := s.hlt.marked ++ [(pan, group)] }
  if again then s.panEvent pan.val 0x04 1 else s

end Sys2Proof.Machine
end

