-- ==== Sys2Proof/Machine/LoadOps.lean ====
section
/-! DEFINITION. How a weight load and a plan load end (R190, R193, R198, R289, R291), for every family that ends one. -/

namespace Sys2Proof.Machine

/-! ### The bounce region (R181, R182) -/

/-- The layer of streamed content. -/
def Content.layer (c : Content) : Option Nat := match c with | .stream k => some k.shape.layer | _ => Option.none

/-- A pan still needs the copy of a layer for the visit: a bed of it holds the layer or is written with it, a product of it
is in flight, or one waits for its grading verdict (R182). -/
def Pan.needsCopy (p : Pan) (layer : Nat) : Bool :=
  (p.active.state == .active && !p.active.beforeEdge && p.active.content.layer == some layer) ||
  (p.shadow.state != .empty && p.shadow.state != .stale && !p.shadow.beforeEdge && p.shadow.content.layer == some layer) ||
  p.kept.any (fun g => g.block.layer == layer)

/-- Copies that the streaming set has left are released once no pan needs them (R182); their bytes are gone. -/
def State.releaseBounce (s : State) : State :=
  let gone := s.wgt.bounce.filter (fun (b : Bounce) => b.left && !s.pans.any (fun p => p.needsCopy b.layer))
  if gone.isEmpty then s
  else
    let sh := match s.activeSlot with | none => [] | some w => (s.wslot w).shards
    let ix := ((List.range sh.length).zip sh).filter (fun e => gone.any (fun (b : Bounce) => b.layer == e.2.layer))
    ({ s with wgt.bounce := s.wgt.bounce.filter (fun b => !gone.contains b) } : State).each ix (fun e s => s.clearParts bounceBase e.1 1)

/-- A load's end starts the hold time of what the device serves (R198). -/
def State.startHold (s : State) : State :=
  match s.wgt.serving with
  | none => s
  | some v => { s with wgt.serving := some { v with untilT := some (s.now + s.num .WGT_HOLD_MS * 1000000) } }

/-- P0 and P1 of LOAD_DONE and LOAD_FAIL (Table 16.2). -/
def Load.named (l : Load) : Nat × Nat := match l.adapter with | none => (0, l.slot) | some a => (1, a)

/-- Where a load writes the content that it verifies. -/
def Load.base (l : Load) : Nat := match l.adapter with | none => slotBase l.slot | some a => adapterBase a

/-- A load fails with a code at a shard, or at none: the slot FAILED, its content and key gone (R190); a broadcaster that
aborts tells the receivers (R199). -/
def State.failLoad (s : State) (code : Nat) (shard : Nat := 0xFFFFFFFF) : State :=
  match s.wgt.load with
  | none => s
  | some l =>
    let s : State := { s with wgt.load := none }
    let s := if l.adapter.isSome then s else (s.updWslot l.slot (fun _ => { state := .failed })).clearShards (hostBase l.slot)
    let s := (s.clearShards l.base).clearParts arriveBase 0 65539
    let s := ((s.setF .WGT_LOAD_STATUS 0 4 5).setF .WGT_LOAD_STATUS 8 8 code).setF .WGT_LOAD_CTRL 0 1 0
    let s := s.when (l.mode == 1 && code == 0x2B) (fun s => s.bcast 10 [2])
    ((s.raise .WGT_INT_STATUS .WGT_INT_ENABLE 2).event 0x0602 0 l.named.1 l.named.2 code shard).startHold

/-- A plan load fails with a code, at a section and an offset (R289, Table 9.9). -/
def State.failPlan (s : State) (code : Nat) : State :=
  match s.plans.loading with
  | none => s
  | some (i, _) =>
    let s := ({ s with plans.loading := none } : State).updPslot i (fun x => { state := .failed, img := none, streamed := x.streamed, pans := [] })
    ((s.setF .BPL_STATUS 8 8 code).setF .BPL_CTRL 0 1 0).raise .BPL_INT_STATUS .BPL_INT_ENABLE 2

end Sys2Proof.Machine
end

