-- ==== Sys2Proof/Machine/Products.lean ====
section
/-! DEFINITION. One product through the pan, the lane, the sluice and the reductions: rows PRODUCT_ISSUE to CAPTURE_ARM
(03_pans R71 to R87, 04_correction, 05_formats R163 to R168). -/

namespace Sys2Proof.Machine

/-! ### What a pan computes -/

/-- The block that a bed of a pan holds. -/
def Pan.blockIn (p : Pan) (b : Bed) : Option Block :=
  match b.content with
  | .none => none
  | .start => none
  | .current => p.cur
  | .staged => p.staged
  | .stream _ => b.loaded

/-- The block of the active bed; a withdrawn pan's products compute its current block (R98). -/
def Pan.block (p : Pan) : Option Block :=
  match p.blockIn p.active with
  | some b => some b
  | none => p.cur

/-- A counter of a pan, of the device and, where the block has a layer, of its layer (Tables 3.9, 16.8; R499). -/
def State.countPan (s : State) (pan layer : Nat) (rp rc : Reg) (ix n : Nat) : State :=
  ((s.bump rp n pan).bump rc n).bump .CNT_LAYER n layer ix

/-- The step (queue pair) runs its products in reference mode (R166); a test follows the mode in effect. -/
def State.inReference (s : State) (owner : Option Qid) : Bool :=
  match owner with
  | none => s.bit .SRV_STATUS 7
  | some q => match (s.qp q.val).session with
    | none => false
    | some x => match x.steps.find? (fun t => !t.complete && !t.void) with
      | none => false
      | some t => t.reference

/-- First position of the step of a queue pair that runs. -/
def State.stepFirst (s : State) (owner : Option Qid) : W32 :=
  match owner with
  | none => 0
  | some q => match (s.qp q.val).session with
    | none => 0
    | some x => x.openFirst.getD 0

/-- The set that receives stage 5 (R125). -/
def Pan.workSet (p : Pan) : AccSet := if p.work1 then p.set1 else p.set0
/-- It replaced. -/
def Pan.setWork (p : Pan) (a : AccSet) : Pan := if p.work1 then { p with set1 := a } else { p with set0 := a }
/-- The other set. -/
def Pan.otherSet (p : Pan) : AccSet := if p.work1 then p.set0 else p.set1
/-- It replaced. -/
def Pan.setOther (p : Pan) (a : AccSet) : Pan := if p.work1 then { p with set0 := a } else { p with set1 := a }

/-- The level at which a product starts after `prev`, the product before it on the pan, or after the set's content
(R126, R129). -/
def Pan.startLevel (p : Pan) (prev : Option Flight) (prod : Product) : Nat :=
  if !prod.add then 0
  else match prev with
    | some f => if f.prod.last then 0 else f.level
    | none => if p.workSet.use == .working && p.workSet.valid then p.workSet.shift else 0

/-- Taken rows that are not among the block's staged candidates (R121). -/
def missingRows (b : Block) (taken : List Nat) : List Nat := taken.filter (fun i => !b.candidates.contains i)

/-- A product's state at the start of an attempt at `level` (R81, R129). -/
def Flight.start (f : Flight) (b : Block) (t0 level : Nat) : Flight :=
  { f with
    t0 := t0, level := level, todo := if f.reference then [] else b.mainPasses
    recs := [], satSeen := [], passes := 0, q := none, qAt := 0, lastCode := t0, fetchedAt := 0 }

/-- On-demand fetches go to the head of hoist 0's queue, ahead of run-ahead transfers (R307). -/
def State.demand (s : State) (core : Nat) (pan : PanId) (n : Nat) : State :=
  if n == 0 then s
  else
    let d : Desc := { bytes := 272, demand := some pan }
    (((s.updHoist core 0 (fun h => { h with queue := List.replicate n d ++ h.queue })).bump .CRE_HOIST_DEMAND n core).bump
      .SLC_FETCH_MISS n core).startHead core 0

/-- Whether a product is drawn for grading: its core's generator drew it and draws are left (R429). -/
def State.mayDraw (s : State) (pan : Nat) (prod : Product) (ref : Bool) : Bool :=
  prod.drawn && !ref && (decide (0 < (s.pan pan).toDraw) || decide (0 < (s.core (pan / 16)).draws))

/-- A draw is used: one of the pan's added ones first. -/
def State.useDraw (s : State) (pan : Nat) : State :=
  if 0 < (s.pan pan).toDraw then s.updPan pan (fun p => { p with toDraw := p.toDraw - 1 })
  else s.updCore (pan / 16) (fun c => { c with draws := c.draws - 1 })

/-- No physical core carries the pan's logical core: it is filling or DEGRADED, and its products run in reference
arithmetic on other cores of the cluster (R38, R439). -/
def State.uncarried (s : State) (pan : Nat) : Bool := (s.physOf (pan / 16)).isNone

/-- The products of a pan can be computed: it is fitted, a core of its cluster works, the work phase is open. -/
def State.panWorks (s : State) (pan : Nat) : Bool :=
  s.ready && s.pwrState == 0 && s.workOpen && decide (pan < s.part.pans) &&
    (!s.uncarried pan || (physOfCluster (clusterOfCore (pan / 16))).any (fun p => s.physWorks p))

/-! ### Save records (R137, R138) -/

/-- A record written: COR_SAVES of the core; a cluster slot counts in the first core of its cluster (log 14). -/
def saveUnit (x : SaveTarget) : Nat := match x with | .lane p _ => p.val / 16 | .slot c _ => c.val * 64

/-- Accumulators and slots as bytes: values of `k` bytes, two's complement. -/
def accBytes (k : Nat) (l : List Int) : List Byte := leFields k ((List.range 512).map (fun j => (BitVec.ofInt 64 (l.getD j 0)).toNat))

/-- The lowest `w` bits of a number as a two's complement value. -/
def signedOf (w n : Nat) : Int := (BitVec.ofNat w n).toInt

/-- A lane set save record (Table 4.4). -/
def laneRecord (pan : Nat) (set : Nat) (a : AccSet) (tide : W32) : List Byte :=
  leBytes 1 (pan % 16) ++ leBytes 1 set ++
  leBytes 1 ((if a.valid then 1 else 0) + (if a.sat then 2 else 0) + (if a.use == .working then 4 else 0)) ++
  leBytes 1 a.shift ++ leBytes 2 a.cols ++ leBytes 2 0 ++ leBytes 4 a.tile.toNat ++ leBytes 4 a.products ++
  leBytes 4 tide.toNat ++ List.replicate 44 0 ++ accBytes 4 a.acc

/-- The set that a lane record restores, bit for bit (R138). -/
def laneOf (l : List Byte) (r : SaveRec) : AccSet :=
  let f := leNat (l.drop 2 |>.take 1)
  let working := f / 4 % 2 == 1
  { use := if working then .working else .free, valid := f % 2 == 1, sat := f / 2 % 2 == 1, shift := leNat (l.drop 3 |>.take 1) % 4
    cols := leNat (l.drop 4 |>.take 2), tile := BitVec.ofNat 32 (leNat (l.drop 8 |>.take 4)), products := leNat (l.drop 12 |>.take 4)
    acc := (leSplit 4 512 (l.drop 64)).map (signedOf 32), owner := r.owner, layer := r.layer }

/-- A cluster slot save record (Table 4.5). -/
def slotRecord (slot : Nat) (k : CruSlot) (tide : W32) : List Byte :=
  leBytes 2 slot ++ leBytes 1 ((if k.used then 1 else 0) + (if k.sat then 2 else 0)) ++ leBytes 1 0 ++ leBytes 2 k.expected ++
  leBytes 2 k.received ++ leBytes 4 k.tile.toNat ++ leBytes 4 tide.toNat ++ List.replicate 16 0 ++ accBytes 8 k.acc

/-- The slot that a slot record restores: of a column, bits [47:0] (R138). -/
def slotOf (l : List Byte) (r : SaveRec) : CruSlot :=
  let f := leNat (l.drop 2 |>.take 1)
  { used := f % 2 == 1, sat := f / 2 % 2 == 1, expected := leNat (l.drop 4 |>.take 2), received := leNat (l.drop 6 |>.take 2)
    tile := BitVec.ofNat 32 (leNat (l.drop 8 |>.take 4)), acc := (leSplit 8 512 (l.drop 32)).map (signedOf 48)
    owner := r.owner, layer := r.layer }

/-- Where a lane's record goes: its place in the SAVE region of the group core that the core carries, or HBM when the
work moves to another core or the plan has no such region (R137, R288; log 118). -/
def State.lanePlace (s : State) (pan set : Nat) (away : Bool) : Nat × Site :=
  let k := 2 * (pan % 16) + set
  let save := match s.schedOf (pan / 16) with
    | none => none
    | some d => d.buffers.find? (fun (b : BufRegion) => b.save)
  match away, save with
  | false, some b => (sramAddr (pan / 16) (b.off + k * 2112), .core (pan / 16))
  | _, _ => (2 ^ 40 + (pan / 16 * 32 + k) * 2112, .stack (s.someStack 16 (pan / 16)))

/-- Where a cluster slot's record goes: HBM, for the SAVE regions hold lane records (R288; log 118). -/
def State.slotPlace (s : State) (cluster slot : Nat) : Nat × Site :=
  (2 ^ 44 + (cluster * 64 + slot) * 4128, .stack (s.someStack 17 cluster))

/-- A save record written: its bytes in memory, and the record known for a restore. -/
def State.record (s : State) (r : SaveRec) (l : List Byte) (from_ to_ : Site) : State :=
  let s := ((s.memWrite r.addr l).moves from_ to_ l.length).bump .COR_SAVES 1 (saveUnit r.target)
  { s with saved := r :: s.saved.filter (fun x => x.target != r.target) }

/-- A set of a lane. -/
def Pan.setAt (p : Pan) (i : Nat) : AccSet := if i == 0 then p.set0 else p.set1
/-- It replaced. -/
def Pan.putSet (p : Pan) (i : Nat) (a : AccSet) : Pan := if i == 0 then { p with set0 := a } else { p with set1 := a }

/-- A pan by its number. -/
def panId (n : Nat) : PanId := ⟨n % 65536, Nat.mod_lt _ (by decide)⟩

/-- A lane set saved (R137): the set is no longer valid, and products kept for grading that lose their values are drawn
anew (R170). -/
def State.saveLane (s : State) (pan : Nat) (i : Fin 2) (away : Bool := false) : State :=
  let p := s.pan pan
  let a := p.setAt i.val
  let to_ := s.lanePlace pan i.val away
  let lost := p.kept.filter (fun g => g.tile == a.tile)
  let s := s.record ⟨.lane (panId pan) i, to_.1, a.owner, a.layer⟩ (laneRecord pan i.val a s.tideIdx) (.core (pan / 16)) to_.2
  let s := s.updPan pan (fun p => { p.putSet i.val { use := a.use } with kept := p.kept.filter (fun g => g.tile != a.tile) })
  s.updCore (pan / 16) (fun c => { c with draws := c.draws + lost.length })

/-- The valid sets of a lane saved. -/
def State.saveSets (s : State) (pan : Nat) (away : Bool := false) : State :=
  s.each [(0 : Fin 2), 1] (fun i s =>
    s.when (((s.pan pan).setAt i.val).valid && ((s.pan pan).setAt i.val).use != .draining) (fun s => s.saveLane pan i away))

/-- A slot of a cluster reduction unit. -/
def State.slot (s : State) (cluster i : Nat) : CruSlot := Cells.get (fun _ => {}) (s.clusters.get cluster).slots i
/-- It replaced. -/
def State.setSlot (s : State) (cluster i : Nat) (x : CruSlot) : State :=
  { s with clusters := s.clusters.upd cluster (fun k => { k with slots := Cells.set (fun _ => {}) k.slots i x }) }

/-- A used slot of a cluster saved (R137). -/
def State.saveSlot (s : State) (c : ClusterId) (i : Fin 64) : State :=
  let k := s.slot c.val i.val
  let to_ := s.slotPlace c.val i.val
  (s.record ⟨.slot c i, to_.1, k.owner, k.layer⟩ (slotRecord i.val k s.tideIdx) (.core (c.val * 64)) to_.2).setSlot c.val i.val {}

/-- The context of a core that runs the steps of a queue pair. -/
def State.ctxOf (s : State) (core : Nat) (owner : Option Qid) : Option Nat :=
  match owner with
  | none => none
  | some q => (List.range 4).find? (fun x => ((s.core core).ctx x).owner == some q && ((s.core core).ctx x).state == .running)

/-- The context that issued a product waits: no lane takes the product yet (R303). -/
def State.laneWait (s : State) (core : Nat) (owner : Option Qid) (r : WaitReason) : State :=
  match s.ctxOf core owner with
  | none => s
  | some x => s.deschedule core x r

/-- The contexts of a core that wait for a lane or a save are READY again. -/
def State.laneFree (s : State) (core : Nat) : State :=
  s.each (List.range 4) (fun x s =>
    s.when (((s.core core).ctx x).reason == some .lane || ((s.core core).ctx x).reason == some .save) (fun s => s.wakeCtx core x))

/-- A product of block `b` starts on a pan: outlier selection, on-demand fetches, main passes (R77 to R82, R119, R121,
R164). A withdrawn pan's products, and those of a logical core that no physical core carries, are computed in reference
arithmetic (R38, R98, R439). A product issued while others wait to be issued again waits behind them (R131). -/
def State.issue (s : State) (pan : PanId) (prod : Product) (b : Block) : State :=
  let p := s.pan pan.val
  let core := pan.val / 16
  let ref := p.withdrawn || s.uncarried pan.val || s.inReference prod.owner
  let taken := if ref then [] else b.taken prod.x
  let spilled := if ref then [] else b.spilled prod.x
  let miss := if ref then 0 else (missingRows b taken).length
  let drawn := s.mayDraw pan.val prod ref
  let f : Flight := { prod := { prod with drawn := drawn }, first := s.stepFirst prod.owner, t0 := s.now, level := 0, reference := ref, taken := taken, spilled := spilled, fetching := miss }
  let f := { f.start b s.now (p.startLevel p.flights.getLast? prod) with
    seq := (s.core core).issued, again := p.flights.any (fun g => g.again) }
  let us := match prod.owner with | none => p.users | some q => if p.users.contains q then p.users else p.users ++ [q]
  let s := s.updPan pan.val (fun p => { p with flights := p.flights ++ [f], users := us })
  let s := (s.updCore core (fun k => { k with issued := k.issued + 1 })).bump .SLC_DYN_ROWS taken.length core
  (s.when drawn (fun s => s.useDraw pan.val)).demand core pan miss

/-- The set that a product would enter belongs to a tile of another queue pair (R137). -/
def Pan.foreign (p : Pan) (owner : Option Qid) : Bool :=
  let other := fun (o : Option Qid) => o.isSome && owner.isSome && o != owner
  match p.flights.getLast? with
  | some f => !f.prod.last && other f.prod.owner
  | none => p.workSet.valid && other p.workSet.owner

/-- A save on the lane waits: products are in flight, or a set drains (R137). -/
def Pan.saveWaits (p : Pan) : Bool := !p.flights.isEmpty || p.set0.use == .draining || p.set1.use == .draining

/-- A flight awaits q. -/
def Flight.awaitsQ (f : Flight) : Bool := f.q.isNone && !f.reference && !f.again

/-- The product that a command issues, its input vector and scale code as core SRAM holds them (R77, R153). -/
def State.fetchProduct (s : State) (core : Nat) (p : ProductCmd) : Product :=
  { x := (s.memRead (sramAddr core p.x) 1024).map (fun b => b.toInt)
    sx := BitVec.ofNat 16 (leNat (s.memRead (sramAddr core p.sx) 2))
    add := p.add, last := p.last, tile := p.tile, owner := p.owner, drawn := p.drawn }

/-- PRODUCT_ISSUE (R81, R119, R122, R137). A pan whose lane holds two products awaiting q starts none until one
completes stage 4, and the wait begins. Sets that hold another context's tile are saved, and what is under way for them
is waited for. -/
def execProductIssue (t : Stamp) (pan : PanId) (p : ProductCmd) (s : State) : Res :=
  if p.wellFormed then
    answer t s fun s =>
      let x := s.pan pan.val
      match x.block with
      | none => s
      | some b =>
        if !s.panWorks pan.val || (x.streamed && x.active.beforeEdge) then s
        else if x.stallFrom.isSome || 2 ≤ (x.flights.filter Flight.awaitsQ).length then
          (s.updPan pan.val (fun x => { x with stallFrom := some (x.stallFrom.getD s.now) })).laneWait (pan.val / 16) p.owner .lane
        else if x.foreign p.owner && x.saveWaits then s.laneWait (pan.val / 16) p.owner .save
        else (s.when (x.foreign p.owner) (fun s => s.saveSets pan.val)).issue pan (s.fetchProduct (pan.val / 16) p) b
  else .refused .illFormed

/-! ### Passes (R82 to R87, R123, R124) -/

/-- The flight that converts: the oldest with passes to do; the others stay as they are. -/
def updFlight (f : Flight → Bool) (g : Flight → Flight) (l : List Flight) : List Flight :=
  match l with
  | [] => []
  | x :: l => if f x then g x :: l else x :: updFlight f g l

/-- The flight that converts, changed. -/
def State.updConv (s : State) (pan : Nat) (g : Flight → Flight) : State :=
  s.updPan pan (fun p => { p with flights := updFlight (fun f => !f.todo.isEmpty) g p.flights })

/-- The coefficient entry of physical column `n` of a bed that no RAKE_COMPLETE wrote: offset 0, gain 1 before the
first rake; the open fit of the bed's latest start or exit rake after it (log 8). -/
def Bed.coefDefault (b : Bed) (pan : Nat) (isB : Bool) (n : Nat) : W32 :=
  if b.rakeId == 0 then coefEntry 0 32768
  else (Config.freeWord (Config.freeKey 4 (((b.rakeId * 65536 + pan) * 2 + (if isB then 1 else 0)) * 1024 + n))).setWidth 32

/-- Products that wait to be issued again start once every earlier product of the pan has no pass left (R131): drive
begins at `t0`, and each takes its new place in the core's order of issue. -/
def startAgain (t0 seq : Nat) (l : List Flight) : List Flight × Nat :=
  match l with
  | [] => ([], seq)
  | f :: l =>
    let g : Flight := if f.again then { f with again := false, t0 := t0, lastCode := t0, seq := seq } else f
    let n := if f.again then seq + 1 else seq
    if !g.todo.isEmpty then (g :: l, n)
    else
      let r := startAgain t0 n l
      (g :: r.1, r.2)

/-- The pan is free for its next product: the conversions of the one before have ended, 64 ns after its drive (R81). -/
def State.nextProduct (s : State) (pan : Nat) : State :=
  let core := pan / 16
  let r := startAgain (s.now - 64) (s.core core).issued (s.pan pan).flights
  if (s.pan pan).flights.any (fun f => f.again) then
    (s.updPan pan (fun p => { p with flights := r.1 })).updCore core (fun k => { k with issued := r.2 })
  else s

/-- A saturated pass of more than 64 rows: repeated as two halves; a phase counts one event (R82, R84). -/
def State.splitPass (s : State) (pan : Nat) (b : Block) (f : Flight) (d : PassDesc) (rest : List PassDesc) : State :=
  let key := (d.group, d.low, d.spill)
  let seen := f.satSeen.contains key
  let s := s.updConv pan (fun f => { f with todo := d.halves ++ rest, satSeen := if seen then f.satSeen else key :: f.satSeen, passes := f.passes + 1 })
  let s := s.countPan pan b.layer .PAN_SAT_PASSES .CNT_SAT_PASSES 2 2
  s.when (!seen) (fun s => s.countPan pan b.layer .PAN_SAT_EVENTS .CNT_SAT_EVENTS 1 1)

/-- A saturated 64-row pass: the product is abandoned and computed in reference arithmetic; a drawn product's draw moves
on (R83, R170, R429). -/
def State.satAbandon (s : State) (pan : Nat) (b : Block) (f : Flight) (d : PassDesc) : State :=
  let key := (d.group, d.low, d.spill)
  let s := s.when (!f.satSeen.contains key) (fun s => s.countPan pan b.layer .PAN_SAT_EVENTS .CNT_SAT_EVENTS 1 1)
  let s := s.updConv pan (fun f => { f with todo := [], recs := [], reference := true, q := none, lastCode := s.now, prod := { f.prod with drawn := false } })
  let s := s.when f.prod.drawn (fun s => s.updPan pan (fun p => { p with toDraw := p.toDraw + 1 }))
  (((s.bump .PAN_SAT_FAULTS 1 pan).bump .CNT_SAT_FAULTS).satFault pan d.first f.prod.owner f.first).nextProduct pan

/-- A checksum mismatch of a group: counted; the fourth of the tide on the same bed marks it (R87, R426). -/
def State.mismatch (s : State) (pan : PanId) (f : Flight) (g : Nat) : State :=
  let n := listed (s.pan pan.val).active.mism g 0 + 1
  let own := match f.prod.owner with | none => [] | some q => [(g, q, f.first)]
  let s := (s.bump .PAN_CHK_MISMATCH 1 pan.val).updPan pan.val (fun p => p.setActive
    { p.active with
      mism := (g, n) :: p.active.mism.filter (fun e => e.1 != g), reprog := p.active.reprog || decide (n ≥ 4)
      mismOf := own ++ p.active.mismOf })
  s.when (n == 4) (fun s =>
    s.chkTrip pan g (((s.pan pan.val).active.mismOf.filter (fun e => e.1 == g)).map (fun e => (e.2.1.val, e.2.2))))

/-- A pass delivered to the lane: stages 1 and 2, the checksum check, and, after the last main pass of a product with
spilled rows, the spill pass (R87, R113, R123, R124). The spec does not say when a spill pass counts: here it counts as
its passes are queued, one that a saturation then abandons among them (DESIGN CHOICE, log 119). -/
def State.deliver (s : State) (pan : PanId) (b : Block) (f : Flight) (d : PassDesc) (rest : List PassDesc)
    (codes : List Byte) : State :=
  let bed := (s.pan pan.val).active
  let isB := (s.pan pan.val).activeB
  let P := b.digitSum f.prod.x f.level f.taken f.spilled d
  let w := laneW bed.coefs (bed.coefDefault pan.val isB) bed.spares codes
  let rec_ : PassRec := ⟨d, P, (List.range b.colsUsed).map (fun j => stage2 (w j) P (b.shift d.group j)), codes⟩
  let spillNow := rest.isEmpty && !d.spill && !f.spilled.isEmpty
  let s := s.updConv pan.val (fun f =>
    { f with
      todo := if spillNow then b.spillPasses f.spilled else rest
      recs := f.recs ++ [rec_], passes := f.passes + 1, lastCode := s.now })
  let s := s.when spillNow (fun s =>
    ((s.countPan pan.val b.layer .PAN_SPILL_PASSES .CNT_SPILL_PASSES 3 1).bump .COR_SPILL_PASSES 1 (pan.val / 16)).bump
      .SLC_SPILL_ROWS f.spilled.length (pan.val / 16))
  let s := s.when (rest.isEmpty && !spillNow) (fun s => s.nextProduct pan.val)
  let mag := b.digitMag f.prod.x f.level f.taken f.spilled d
  s.each ((List.range 16).filter (fun g => checkMismatch b.colsUsed w mag g)) (fun g s => s.mismatch pan f g)

/-- The codes of a flight's next pass (R75). -/
def Flight.codes (f : Flight) (b : Block) (m : SpareMap) (d : PassDesc) (dev : List Int) : List Byte :=
  b.passCodes m (b.pulses f.prod.x f.level f.taken f.spilled d) dev

/-- PASS_COMPLETE (R75, R82, R83, R87, R123). -/
def execPassComplete (t : Stamp) (pan : PanId) (dev : List Int) (s : State) : Res :=
  answer t s fun s =>
    match (s.pan pan.val).flights.find? (fun f => !f.todo.isEmpty), (s.pan pan.val).block with
    | some f, some b => match f.todo with
      | [] => s
      | d :: rest =>
        let m := (s.pan pan.val).active.spares
        let codes := f.codes b m d dev
        if !passSaturated m b.colsUsed codes then s.deliver pan b f d rest codes
        else if 64 < d.rows then s.splitPass pan.val b f d rest
        else s.satAbandon pan.val b f d
    | _, _ => s

/-! ### The sluice (R117 to R122) -/

/-- No product issued earlier on the core still awaits q (R122). -/
def State.sluiceTurn (s : State) (core seq : Nat) : Bool :=
  (pansOf core).all (fun p => (s.pan p).flights.all (fun f => !f.awaitsQ || decide (seq ≤ f.seq)))

/-- SLUICE_Q_READY (R117, R120, R122): q of the pan's oldest product that awaits it. -/
def execSluiceQReady (t : Stamp) (pan : PanId) (s : State) : Res :=
  answer t s fun s =>
    match (s.pan pan.val).flights.find? Flight.awaitsQ, (s.pan pan.val).block with
    | some f, some b =>
      if f.fetching != 0 || !s.sluiceTurn (pan.val / 16) f.seq then s
      else
        let n := b.statics.length + f.taken.length
        let q := (List.range b.colsUsed).map (fun j => b.sluice f.prod.x f.level f.taken j)
        let s := s.updPan pan.val (fun p => { p with flights := updFlight Flight.awaitsQ (fun f => { f with q := some q, qAt := s.now }) p.flights })
        ((s.bump .SLC_MACS (n * b.colsUsed) (pan.val / 16)).bump .CNT_SLUICE_MACS (n * b.colsUsed)).bump .SLC_BUSY_CYCLES
          (sluiceCycles n b.colsUsed) (pan.val / 16)
    | _, _ => s

/-! ### Stage 5 (R125 to R131) -/

/-- The product at the head of the lane is ready for stages 4 and 5: every pass delivered and q here (R116, R117). -/
def Flight.ready (f : Flight) : Bool := f.todo.isEmpty && (f.reference || f.q.isSome)
/-- The earliest completion of its stage 5 (R117, R131). -/
def Flight.readyAt (f : Flight) : Nat := max (f.lastCode + 16) (f.qAt + 8)

/-- z of a product by column (R117, R163). -/
def Flight.z (f : Flight) (b : Block) : List Int :=
  if f.reference then b.refBlock f.prod.x f.level
  else (List.range b.colsUsed).map (fun j => stage4 f.recs b.spillShift (f.q.getD []) j)

/-- Later products of the pan wait to be issued again after a repeat, each at the level its set then has (R126, R131). -/
def reissue (b : Block) (t0 : Nat) (prev : Flight) (l : List Flight) : List Flight :=
  match l with
  | [] => []
  | f :: l =>
    let level := if !f.prod.add || prev.prod.last then 0 else prev.level
    let g := { f.start b t0 level with again := true }
    g :: reissue b t0 g l

/-- The time that stage 4 of a product waited for taken rows fetched on demand (R121). -/
def Flight.fetchWait (f : Flight) : Nat := if f.fetchedAt == 0 then 0 else f.fetchedAt - (f.lastCode + 8)

/-- Stage 4 of a product is complete: its wait for fetched rows counts, and a pan that started no further product ends its
wait (R121, R122). -/
def State.stage4Done (s : State) (pan : Nat) (f : Flight) : State :=
  let s := s.bump .SLC_FETCH_WAIT_NS f.fetchWait (pan / 16)
  match (s.pan pan).stallFrom with
  | none => s
  | some u => ((s.bump .SLC_LANE_WAIT_NS (s.now - u) (pan / 16)).updPan pan (fun p => { p with stallFrom := none })).laneFree (pan / 16)

/-- An overflow below level 3: the set is quartered for ADD, the product repeats at the next level (R128, R129, R131). -/
def State.repeatProduct (s : State) (pan : Nat) (b : Block) (f : Flight) (rest : List Flight) (add : Bool) : State :=
  let t0 := f.t0 + (s.now - f.t0 + 63) / 64 * 64
  let g := f.start b t0 (f.level + 1)
  let s := s.updPan pan (fun p =>
    let a := p.workSet
    let p := if add then p.setWork { a with acc := (List.range 512).map (fun j => rheDiv (a.acc.getD j 0) 2), shift := f.level + 1 } else p
    { p with flights := g :: reissue b t0 g rest })
  (((s.bump .COR_OVF_REPEATS 1 (pan / 16)).bump .CNT_OVF_REPEATS).bump .CNT_LAYER 1 b.layer 4).when g.todo.isEmpty (fun s => s.nextProduct pan)

/-- A capture is armed on this lane (R139). -/
def State.capturing (s : State) (pan : Nat) : Bool :=
  s.bit .COR_CAPTURE_CTRL 0 (pan / 16) && s.fld .COR_CAPTURE_CTRL 4 4 (pan / 16) == pan % 16

/-- The capture of a product (R139, Table 4.8): DONE, TRUNC beyond 20 passes, ARM clear. The spec does not say whether a
saturated pass, which is discarded and split, is among the recorded passes and the 20 of TRUNC: here only delivered
passes are (DESIGN CHOICE, log 120). Nor does it say what a capture holds of a product computed in reference arithmetic:
here no pass, and q zero (DESIGN CHOICE, log 121). -/
def State.capture (s : State) (pan : Nat) (b : Block) (f : Flight) (a : AccSet) : State :=
  let c : Capture := { recs := f.recs.take 20, level := f.level, spillShift := b.spillShift, add := f.prod.add, last := f.prod.last, sat := a.sat, cols := b.colsUsed, tide := s.tideIdx, q := f.q.getD [], acc := a.acc }
  let u := pan / 16
  (((s.updCore u (fun k => { k with capture := c })).setF .COR_CAPTURE_CTRL 0 1 0 u).setF .COR_CAPTURE_CTRL 1 1 1 u).setF
    .COR_CAPTURE_CTRL 2 1 (if 20 < f.recs.length then 1 else 0) u

/-- After stage 5 of a LAST product the set drains and a free set takes its place (R127). -/
def Pan.endTile (p : Pan) : Pan :=
  let q := p.setWork { p.workSet with use := .draining }
  if q.otherSet.use == .free then { q.setOther { q.otherSet with use := .working } with work1 := !q.work1 } else q

/-- Tenant counting of a pan product (R500). -/
def State.countOwner (s : State) (owner : Option Qid) : State :=
  match owner with | none => s | some q => s.bump .CNT_T_PRODUCTS 1 (s.fnOf q.val)

/-- The product kept for grading where it was drawn (R168). -/
def State.keepGraded (s : State) (pan : Nat) (b : Block) (f : Flight) : State :=
  s.when (f.prod.drawn && !f.reference) (fun s => (s.updPan pan (fun p =>
    { p with kept := p.kept ++ [{ x := f.prod.x, level := f.level, taken := f.taken, spilled := f.spilled, recs := f.recs, block := b, owner := f.prod.owner, first := f.first, tile := f.prod.tile }] })).ctx3 (pan / 16))

/-- Stage 5 writes the set and the product is complete (R126, R129, R130). -/
def State.completeProduct (s : State) (pan : Nat) (b : Block) (f : Flight) (rest : List Flight) (add : Bool)
    (vals : List Int) (sat : Bool) : State :=
  let old := (s.pan pan).workSet
  let a : AccSet :=
    { use := .working, acc := vals, shift := f.level, valid := true, sat := sat || (add && old.sat), cols := b.colsUsed,
      tile := f.prod.tile, products := if add then old.products + 1 else 1, owner := f.prod.owner, layer := b.layer }
  let s := (s.updPan pan (fun p => { p.setWork a with flights := rest })).bump .COR_PRODUCTS 1 (pan / 16)
  let s := s.when (!f.reference) (fun s => (s.countPan pan b.layer .PAN_PRODUCTS .CNT_PRODUCTS 0 1).countOwner f.prod.owner)
  let s := s.when sat (fun s => ((s.bump .COR_OVF_SAT 1 (pan / 16)).bump .CNT_OVF_SAT).event 0x0401 0x80 (pan / 16) (pan % 16) f.prod.tile.toNat)
  let s := (s.when (s.capturing pan) (fun s => s.capture pan b f a)).keepGraded pan b f
  (s.when f.prod.last (fun s => s.updPan pan (fun p => p.endTile))).laneFree (pan / 16)

/-- STAGE5_COMPLETE (R126 to R131): the pan's oldest product, when its passes and q are there and a set is working. -/
def execStage5Complete (t : Stamp) (pan : PanId) (s : State) : Res :=
  answer t s fun s =>
    match (s.pan pan.val).flights, (s.pan pan.val).block with
    | f :: rest, some b =>
      let a := (s.pan pan.val).workSet
      if !f.ready || a.use != .working then s
      else
        let add := f.prod.add && a.valid
        let vals := stage5 add a.acc (f.z b)
        let empty := f.prod.add && !a.valid && f.level == 0
        let s := (s.when empty (fun s => s.bump .COR_ADD_EMPTY 1 (pan.val / 16))).stage4Done pan.val f
        if vals.all fits32 then s.completeProduct pan.val b f rest add vals false
        else if f.level < 3 then s.repeatProduct pan.val b f rest add
        else s.completeProduct pan.val b f rest add (vals.map clamp32) true
    | _, _ => s

/-! ### Draining and reduction (R127, R132 to R134) -/

/-- The group cores that a logical core carries, with the plan: one, or those that a core of the streaming set visits. -/
def State.groupsAt (s : State) (core : Nat) : Option PlanImage × List Placed :=
  match s.activePlan with
  | none => (none, [])
  | some p => (p.img, p.place.filter (fun e => e.core == core))

/-- The tile of a layer's block on a pan: output tile, and how many lanes of the core share it (R132, R284). -/
def State.tileOf (s : State) (pan layer : Nat) : Option (Nat × Nat) :=
  match s.groupsAt (pan / 16) with
  | (none, _) => none
  | (some i, l) =>
    match l.findSome? (fun e => (i.groups.find? (fun g => g.group == e.group && g.layer == layer)).map (fun g => (g, e.groupCore))) with
    | none => none
    | some (g, gc) =>
      let R := rowTiles i layer
      let mine := blocksOf g gc
      match mine.find? (fun b => b.2 == pan % 16) with
      | none => none
      | some b => some (b.1 / R, (mine.filter (fun c => c.1 / R == b.1 / R)).length)

/-- The REDUCE record of a tile (R287). -/
def State.reduceRec (s : State) (layer tile : Nat) : Option ReduceRec :=
  (s.activePlan.bind (·.img)).bind (fun i => i.reduces.find? (fun r => r.layer == layer && r.tile == tile))

/-- A contribution to a slot of a cluster reduction unit (R133): the slot of the tile, else the lowest free one. A plan
uses at most 64 at once (R287); what a contribution does that finds all 64 in use the spec does not say, and here it is
lost (DESIGN CHOICE, log 122). -/
def State.slotAdd (s : State) (core : Nat) (a : AccSet) (sums : List Int) (sat : Bool) (r : ReduceRec) : State :=
  let cluster := clusterOfCore core
  let slots := List.range 64
  let mine := slots.find? (fun i => (s.slot cluster i).used && (s.slot cluster i).tile == a.tile && (s.slot cluster i).layer == a.layer)
  match mine.orElse (fun _ => slots.find? (fun i => !(s.slot cluster i).used)) with
  | none => s
  | some i =>
    let c := s.slot cluster i
    let raw := (List.range 512).map (fun j => c.acc.getD j 0 + sums.getD j 0)
    let sats := (raw.filter (fun v => clamp48 v != v)).length
    let n := c.received + 1
    let c' : CruSlot := ⟨true, raw.map clamp48, r.expected, n, c.sat || sat || decide (0 < sats), a.tile, a.layer, a.owner⟩
    let s := (s.bump .COR_CRU_ADDS 1 (cluster * 64)).bump .COR_CRU_SAT sats (cluster * 64)
    if n ≥ r.expected then (s.setSlot cluster i {}).storeRow (.core (cluster * 64)) r.dest c'.acc c'.sat else s.setSlot cluster i c'

/-- The core's combine has a tile's sum: it ends there, or goes to a cluster slot or to a destination word (R132 to R134,
R287). -/
def State.reduce (s : State) (core tile : Nat) (a : AccSet) (sums : List Int) (sat : Bool) : State :=
  match s.reduceRec a.layer tile with
  | none => s
  | some r =>
    if r.level == 0 then s.storeRow (.core core) r.dest sums sat
    else if r.level == 1 then s.slotAdd core a sums sat r
    else s.addRow (.core core) r.dest s.activeGen sums sat

/-- Column sums of the core's combine with a lane's set added, normalised (R132). -/
def combineAdd (sums : List Int) (a : AccSet) : List Int :=
  (List.range 512).map (fun j => sums.getD j 0 + a.acc.getD j 0 * 4 ^ a.shift)

/-- The set that drains, the older where both do: a set that is not the working one has drained for longer (R127). -/
def Pan.drainSet (p : Pan) : AccSet := if p.otherSet.use == .draining then p.otherSet else p.workSet

/-- A drained set becomes free and not VALID; it works again where the other is draining too, or none works (R127). -/
def Pan.drained (p : Pan) : Pan :=
  let p := if p.otherSet.use == .draining then p.setOther {} else p.setWork {}
  if p.workSet.use == .working then p
  else if p.workSet.use == .free then p.setWork { p.workSet with use := .working }
  else { p.setOther { p.otherSet with use := .working } with work1 := !p.work1 }

/-- ACCUMULATOR_DRAIN_DONE (R127, R132 to R134): the older draining set reaches the combine; stage 5 that waited for it
counts its wait. -/
def execAccumulatorDrainDone (t : Stamp) (pan : PanId) (s : State) : Res :=
  answer t s fun s =>
    let p := s.pan pan.val
    let core := pan.val / 16
    let a := p.drainSet
    if a.use != .draining then s
    else
      let stall := match p.flights with
        | [] => 0
        | f :: _ => if f.ready && p.workSet.use != .working then s.now - f.readyAt else 0
      let s := ((s.updPan pan.val Pan.drained).bump .COR_DRAIN_STALL_NS stall core).laneFree core
      let (tile, lanes) := (s.tileOf pan.val a.layer).getD (0, 1)
      let mine := fun (e : CombineSum) => e.tile == a.tile && e.layer == a.layer
      let e := ((s.core core).combine.find? mine).getD { tile := a.tile, layer := a.layer }
      let e := { e with sums := combineAdd e.sums a, lanes := e.lanes + 1, sat := e.sat || a.sat }
      let others := (s.core core).combine.filter (fun e => !mine e)
      if e.lanes < lanes then s.updCore core (fun k => { k with combine := others ++ [e] })
      else (s.updCore core (fun k => { k with combine := others })).reduce core tile a e.sums e.sat

/-! ### Saving and restoring (R137, R138) -/

/-- ACC_SAVE (R137): it waits for products in flight and for a drain. -/
def execAccSave (t : Stamp) (x : SaveTarget) (s : State) : Res :=
  answer t s fun s =>
    match x with
    | .lane pan i =>
      let p := s.pan pan.val
      if !p.flights.isEmpty || (p.setAt i.val).use == .draining || !decide (pan.val < s.part.pans) then s
      else s.saveLane pan.val i
    | .slot c i => s.when (s.slot c.val i.val).used (fun s => s.saveSlot c i)

/-- A restored set; a working set takes the place of the one that works (R138). -/
def Pan.restore (p : Pan) (i : Nat) (a : AccSet) : Pan :=
  let p := p.putSet i a
  if a.use == .working then
    let p := { p with work1 := i == 1 }
    if p.otherSet.use == .working then p.setOther { p.otherSet with use := .free } else p
  else p

/-- A record restored, every field bit for bit (R138). -/
def State.restore (s : State) (r : SaveRec) : State :=
  let s := { s.bump .COR_RESTORES 1 (saveUnit r.target) with saved := s.saved.filter (fun y => y.target != r.target) }
  match r.target with
  | .lane pan i =>
    let from_ := s.lanePlace pan.val i.val (decide (2 ^ 40 ≤ r.addr))
    let l := s.memRead r.addr 2112
    ((s.moves from_.2 (.core (pan.val / 16)) 2112).updPan pan.val (fun p => p.restore i.val (laneOf l r))).laneFree (pan.val / 16)
  | .slot c i => (s.moves (s.slotPlace c.val i.val).2 (.core (c.val * 64)) 4128).setSlot c.val i.val (slotOf (s.memRead r.addr 4128) r)

/-- ACC_RESTORE (R138): the latest record of the target. -/
def execAccRestore (t : Stamp) (x : SaveTarget) (s : State) : Res :=
  answer t s fun s =>
    match s.saved.find? (fun r => r.target == x) with
    | none => s
    | some r => s.restore r

/-- The work of a logical core moves to another physical core at this edge, for a deferred test or back from it (R436). -/
def State.movesAway (s : State) (c : Nat) : Bool :=
  s.hlt.migrations.any (fun m => if m.phase == 1 then m.core == c else s.carried m.phys == some c)

/-- A step of the queue pair rolls over. -/
def State.rolls (s : State) (owner : Option Qid) : Bool :=
  match owner.bind (fun q => (s.qp q.val).session) with
  | none => false
  | some x => x.openFirst.isSome

/-- The sets and cluster slots of steps that roll over are saved: to the core's SAVE region, or to HBM where the work moves
away (R59, R137). -/
def State.saveRolled (s : State) : State :=
  let s := s.each s.pans.cells (fun x s => s.each [(0 : Fin 2), 1] (fun i s =>
    let a := (s.pan x.1).setAt i.val
    s.when (a.valid && a.use != .draining && s.rolls a.owner) (fun s => s.saveLane x.1 i (s.movesAway (x.1 / 16)))))
  s.each (List.finRange 64) (fun c s => s.when (!(s.clusters.get c.val).slots.isEmpty) (fun s =>
    s.each (List.finRange 64) (fun i s => s.when ((s.slot c.val i.val).used && s.rolls (s.slot c.val i.val).owner) (fun s => s.saveSlot c i))))

/-- The sets saved of a logical core that has moved are restored on the core it moved to (R137, R436). -/
def State.restoreMoved (s : State) (c : Nat) : State :=
  s.each (s.saved.filter (fun r => match r.target with | .lane p _ => p.val / 16 == c && decide (2 ^ 40 ≤ r.addr) | .slot .. => false))
    (fun r s => s.restore r)

end Sys2Proof.Machine
end

