-- ==== Sys2Proof/Machine/Masters.lean ====
section
/-! DEFINITION. The digital master in HBM and the bounce region (06_weights R173, R182, R185; 05_formats R146, R147): where
a shard's content lies, and what it says of blocks, static rows and weights. -/

namespace Sys2Proof.Machine

/-! ### Items of a layer -/

/-- The content of a model's shards, at a place. -/
structure Master where
  shards : List ShardEntry
  base : Nat
deriving DecidableEq, Repr

/-- The master of a layer of slot `w`: in its region, or the copy in the bounce region (R173, R182). -/
def State.masterOf (s : State) (w layer : Nat) : Master :=
  ⟨(s.wslot w).shards, if (s.wslot w).hostLayers.contains layer then bounceBase else slotBase w⟩
/-- The content of a layer of slot `w` wherever its master is, for the checks of R200. -/
def State.contentOf (s : State) (w layer : Nat) : Master :=
  ⟨(s.wslot w).shards, if (s.wslot w).hostLayers.contains layer then hostBase w else slotBase w⟩

/-- The shards of a layer in a role, with their numbers. -/
def shardsOf (sh : List ShardEntry) (layer role : Nat) : List (Nat × ShardEntry) :=
  ((List.range sh.length).zip sh).filter (fun e => e.2.layer == layer && e.2.role == role)

/-- The address of item `k` of a layer whose items of a role have `size` bytes each (R185). -/
def itemAddr (m : Master) (layer role size k : Nat) : Option Nat :=
  ((shardsOf m.shards layer role).find? (fun e => decide (e.2.first ≤ k) && decide (k < e.2.first + e.2.clearLen / size))).map
    (fun e => shardAddr m.base e.1 + (k - e.2.first) * size)

/-! ### W4B blocks (R144 to R146) -/

/-- Bytes of one pan block, levels and exponents (R146). -/
def bedBytes : Nat := 278528
/-- The tile of a row and column: tiles of a block lie row strip by row strip (DESIGN CHOICE, log 125). -/
def tileAt (row col : Nat) : Nat := row / 32 * 16 + col / 32
/-- The exponent of a column in the 32-row block of a row (Table 5.2). -/
def State.blockExp (s : State) (a row col : Nat) : Int :=
  (BitVec.ofNat 8 (leNat (s.memRead (a + tileAt row col * 544 + 512 + col % 32) 1))).toInt
/-- Two levels of one byte of a tile: cell number (row × 512 + column) and level (Table 5.2). -/
def levelPair (off v : Nat) : List (Nat × Nat) :=
  let t := off / 544
  let o := off % 544
  if 512 ≤ o then []
  else
    let col := t % 16 * 32 + o / 16
    let row := t / 16 * 32 + o % 16 * 2
    [(row * 512 + col, v % 16), ((row + 1) * 512 + col, v / 16)].filter (fun e => e.2 != 0)
/-- The levels of a block that are not 0, from the bytes that its tiles hold (R144, R146). -/
def State.blockLevels (s : State) (a : Nat) : List (Nat × Nat) :=
  (s.mem.filter (fun e => decide (a ≤ e.1) && decide (e.1 < a + bedBytes))).flatMap (fun e => levelPair (e.1 - a) e.2.toNat)

/-! ### S8E rows (R147) -/

/-- Bytes of each static row of a layer, in the order of its rows: an exponent and a weight for each used column. -/
def rowSizes (i : PlanImage) (l : LayerRec) : List Nat := (staticRows i l.layer).map (fun e => 1 + usedCols i l e.1)
/-- How many rows from `first` on fill `len` bytes exactly. -/
def rowsIn (fuel : Nat) (sizes : List Nat) (len : Nat) : Option Nat :=
  match fuel with
  | 0 => none
  | fuel + 1 =>
    if len == 0 then some 0
    else match sizes with
      | [] => none
      | n :: l => if n ≤ len then (rowsIn fuel l (len - n)).map (fun k => k + 1) else none
/-- The address of static row `k` of a layer: rows lie one after another in the order of the OUTLIERS section, a shard's
first being number FIRST_BLOCK (DESIGN CHOICE, log 125). -/
def rowAddr (i : PlanImage) (m : Master) (l : LayerRec) (k : Nat) : Option Nat :=
  let z := rowSizes i l
  ((shardsOf m.shards l.layer 1).find? (fun e => decide (e.2.first ≤ k) &&
      decide (k < e.2.first + (rowsIn (z.length + 1) (z.drop e.2.first) e.2.clearLen).getD 0))).map
    (fun e => shardAddr m.base e.1 + ((z.drop e.2.first).take (k - e.2.first)).sum)

/-! ### Blocks (R71 to R73, R112, R118, R284 to R286) -/

/-- A shift lies in 0 to 7 (R112). -/
def shiftOk (d : Int) : Bool := decide (0 ≤ d) && decide (d ≤ 7)

/-- What the plan alone says of block `b` of a layer. -/
def planBlock (i : PlanImage) (l : LayerRec) (group b : Nat) : Block :=
  let o := outlierOf i group b
  { layer := l.layer, groups := max 1 l.rowGroups, rowsUsed := usedRows i l b, colsUsed := usedCols i l b, level := 0
    threshold := o.threshold, candidates := o.candidates, spillShift := l.spillShift }

/-- The address of block `b` of a layer. -/
def blockAddr (m : Master) (l : LayerRec) (b : Nat) : Nat := (itemAddr m l.layer 0 bedBytes b).getD 0

/-- The static rows of a block: row, and where its exponent and weights lie. -/
def blockRows (i : PlanImage) (m : Master) (l : LayerRec) (b : Nat) : List (Nat × Nat) :=
  let rows := staticRows i l.layer
  ((List.range rows.length).zip rows).filterMap (fun e =>
    if e.2.1 == b then (rowAddr i m l e.1).map (fun a => (e.2.2, a)) else none)

/-- The shifts Δ of a block by row group × 512 + column (Table 4.1). -/
def State.blockShifts (s : State) (i : PlanImage) (m : Master) (l : LayerRec) (b : Nat) : List (Nat × Int) :=
  let a := blockAddr m l b
  let G := max 1 l.rowGroups
  let col0 := 512 * (b / rowTiles i l.layer)
  (List.range G).flatMap (fun g => (List.range (usedCols i l b)).map (fun j => (g * 512 + j, s.blockExp a (g * (1024 / G)) j - eaccAt l (col0 + j))))

/-- The shifts Δs of a static row that lies at an address, by column (Table 4.1). -/
def State.rowShifts (s : State) (i : PlanImage) (l : LayerRec) (b a : Nat) : List (Nat × Int) :=
  let e := (BitVec.ofNat 8 (leNat (s.memRead a 1))).toInt
  let col0 := 512 * (b / rowTiles i l.layer)
  (List.range (usedCols i l b)).map (fun j => (j, e - eaccAt l (col0 + j) + 1))

/-- The values of a list that are not zero, as naturals. -/
def nonzeroNat (l : List (Nat × Int)) : List (Nat × Nat) := (l.map (fun e => (e.1, e.2.toNat))).filter (fun e => e.2 != 0)

/-- Block `b` of a layer as a pan holds it: the master's levels, exponents and static rows under the plan (R71, R112, R118,
R286). -/
def State.mkBlock (s : State) (i : PlanImage) (m : Master) (l : LayerRec) (group b : Nat) : Block :=
  { planBlock i l group b with
    levels := s.blockLevels (blockAddr m l b), delta := nonzeroNat (s.blockShifts i m l b)
    statics := (blockRows i m l b).map (fun r =>
      ⟨r.1, (List.range (usedCols i l b)).zip ((s.memRead (r.2 + 1) (usedCols i l b)).map (fun v => v.toInt)), nonzeroNat (s.rowShifts i l b r.2)⟩) }

/-- Block `b` keeps R72 (one exponent a column and row group) and R112 (shifts 0 to 7). -/
def State.blockOk (s : State) (i : PlanImage) (m : Master) (l : LayerRec) (b : Nat) : Bool :=
  let a := blockAddr m l b
  let span := 1024 / max 1 l.rowGroups
  (List.range ((usedRows i l b + 31) / 32)).all (fun k => (List.range (usedCols i l b)).all (fun j =>
    s.blockExp a (32 * k) j == s.blockExp a (32 * k / span * span) j)) &&
  (s.blockShifts i m l b).all (fun e => shiftOk e.2 || decide (usedRows i l b ≤ e.1 / 512 * span)) &&
  (blockRows i m l b).all (fun r => (s.rowShifts i l b r.2).all (fun e => shiftOk e.2))

/-- Every block of every PAN layer of the content in slot `w` keeps R72 and R112. -/
def State.weightsFit (s : State) (i : PlanImage) (w : Nat) : Bool :=
  i.groups.all (fun g => match layerOf i g.layer with
    | none => false
    | some l => (List.range g.blocks.length).all (fun b => s.blockOk i (s.contentOf w l.layer) l b))

/-! ### BF16 weights (R161, R185, R206) -/

/-- Row `k` of the BF16 weights of a layer in a role, `n` values to a row: none where no shard carries it. -/
def State.weightRow (s : State) (m : Master) (layer role n k : Nat) : Option (List W16) :=
  (itemAddr m layer role (2 * n) k).map (fun a => (leSplit 2 n (s.memRead a (2 * n))).map (BitVec.ofNat 16))

end Sys2Proof.Machine
end

