-- ==== Sys2Proof/Machine/Staging.lean ====
section
/-! DEFINITION. Blocks from plan and master, staging and binding (R72, R112, R175, R200, R284 to R286, R292, R293),
shared by the bed, weight and plan rows. -/

namespace Sys2Proof.Machine

/-! ### Which pan holds which block -/

/-- Pans and blocks of a placed plan: of resident layers or of streamed ones (R175, R284, R296). -/
def planPlaces (p : PlanSlot) (i : PlanImage) (streamed : Bool) : List (Nat × LayerRec × Nat × Nat) :=
  p.place.flatMap (fun e => match i.groups.find? (fun g => g.group == e.group) with
    | none => []
    | some g => match layerOf i g.layer with
      | none => []
      | some l => if p.streamed.contains g.layer == streamed
        then (blocksOf g e.groupCore).map (fun b => ((e.moving.getD e.core) * 16 + b.2, l, g.group, b.1)) else [])

/-- The blocks of the resident layers, each with its pan, under the content of slot `w`. -/
def State.planPans (s : State) (p : PlanSlot) (i : PlanImage) (w : Nat) : List (Nat × Block) :=
  (planPlaces p i false).map (fun e => (e.1, s.mkBlock i (s.contentOf w e.2.1.layer) e.2.1 e.2.2.1 e.2.2.2))

/-- The streamed blocks of a pan, in the order in which a step visits their layers (R176). -/
def planStreams (p : PlanSlot) (i : PlanImage) (pan : Nat) : List StreamKey :=
  let mine := (planPlaces p i true).filter (fun e => e.1 == pan)
  let at_ := fun (n : Nat) => (i.visits.findIdx? (fun v => v == n)).getD i.visits.length
  (sortBy (fun (a b : Nat × LayerRec × Nat × Nat) => decide (at_ a.2.1.layer ≤ at_ b.2.1.layer)) mine).map
    (fun e => ⟨e.2.2.1, e.2.2.2, planBlock i e.2.1 e.2.2.1 e.2.2.2⟩)

/-! ### Staging (R200, R293) -/

/-- A pan holds its staged content READY, or holds no switch because its logical core is DEGRADED (R200). -/
def State.panStaged (s : State) (p : Nat) : Bool :=
  s.hlt.degraded.contains (p / 16) || ((s.pan p).shadow.state == .ready && (s.pan p).shadow.content == .staged)

/-- Every pan concerned holds its staged content READY. -/
def State.allStaged (s : State) (l : List Nat) : Bool := l.all s.panStaged

/-- Slots that are STAGING become STAGED when every pan concerned is ready: weight slots with their plans, and a plan
that stages alone (R200, R293). -/
def State.tryStage (s : State) : State :=
  let s := s.each [0, 1] (fun w s =>
    if (s.wslot w).state == .staging && s.allStaged (s.wslot w).pans then
      let s := (s.updWslot w (fun x => { x with state := .staged })).raise .WGT_INT_STATUS .WGT_INT_ENABLE 4
      s.each [0, 1] (fun k s => s.when ((s.pslot k).state == .staging && (s.pslot k).bound == some w) (fun s =>
        (s.updPslot k (fun x => { x with state := .staged })).raise .BPL_INT_STATUS .BPL_INT_ENABLE 4))
    else s)
  s.each [0, 1] (fun k s =>
    let alone := match (s.pslot k).bound with | none => false | some w => (s.wslot w).state == .active
    s.when ((s.pslot k).state == .staging && alone && s.allStaged (s.pslot k).pans) (fun s =>
      (s.updPslot k (fun x => { x with state := .staged })).raise .BPL_INT_STATUS .BPL_INT_ENABLE 4))

/-- A slot's claims on shadow beds end (R204, R295): a write or rake in progress is aborted, staged content is staged no
more. -/
def State.endStaging (s : State) (l : List Nat) : State :=
  s.each l (fun p s =>
    let x := s.pan p
    let mine := match x.serving with | none => false | some c => c.rank == 3
    let st := x.shadow.state
    let s := s.when (mine && (st == .writing || st == .raking)) (fun s => s.bump .PAN_WRITE_ABORTS 1 p)
    s.updPan p (fun x =>
      let x := { x with staged := none, claims := x.claims.filter (fun c => c.rank != 3), serving := if mine then none else x.serving }
      if mine || x.shadow.content == .staged then
        x.setShadow { x.shadow with content := .none, state := if st == .writing then .empty else if st == .raking then .written else st }
      else x))

/-- Staged content given to pans, with its rank-3 claims (R200). -/
def State.claimStaged (s : State) (l : List (Nat × Block)) : State :=
  s.each l (fun e s => s.updPan e.1 (fun x => { x with staged := some e.2 }.addClaim { rank := 3, what := .staged }))

/-- Weight slot `w` enters STAGING under plan slot `k`; a violation of R72 or R112 fails it, and its plan waits for a
model again (R200, R295). CODE shows no mismatch any more. -/
def State.startStaging (s : State) (w k : Nat) : State :=
  match (s.pslot k).img with
  | none => s
  | some i =>
    let s := s.endStaging (s.wslot w).pans
    if s.weightsFit i w then
      let l := s.planPans (s.pslot k) i w
      let s := (s.updWslot w (fun x => { x with state := .staging, pans := l.map (fun e => e.1) })).setF .WGT_LOAD_STATUS 8 8 0
      let s := s.when ((s.pslot k).state != .active) (fun s =>
        s.updPslot k (fun x => { x with state := .staging, bound := some w, pans := l.map (fun e => e.1) }))
      (s.claimStaged l).tryStage
    else
      let s := (s.updWslot w (fun _ => { state := .failed })).dropContent w
      let s := s.when ((s.pslot k).state != .active) (fun s => s.updPslot k (fun x => { x with state := .waitModel, bound := none, pans := [] }))
      (s.setF .WGT_LOAD_STATUS 8 8 0x24).raise .WGT_INT_STATUS .WGT_INT_ENABLE 2

/-- A pan whose block, row groups, spare map or physical pan would differ under a plan that stages alone (R293). -/
def State.panDiffers (s : State) (e : Nat × Block) : Bool :=
  let p := s.pan e.1
  p.cur != some e.2 || p.active.content != .current || p.withdrawn || (s.fillOf (e.1 / 16)).isSome ||
  s.hlt.mapLater.any (fun m => m.1.val == e.1)

/-- A plan's staging or binding fails with a code (R292, R299). -/
def State.bindFails (s : State) (k code : Nat) : State :=
  ((s.updPslot k (fun _ => { state := .failed })).setF .BPL_STATUS 8 8 code).raise .BPL_INT_STATUS .BPL_INT_ENABLE 2

/-- A plan bound to the ACTIVE weight slot stages alone, on the pans that differ (R293); a violation of R72 or R112 fails
its staging (R112, R285; that it is the plan slot which fails is DEDUCED, log 133). -/
def State.stageAlone (s : State) (w k : Nat) : State :=
  match (s.pslot k).img with
  | none => s
  | some i =>
    if s.weightsFit i w then
      let l := (s.planPans (s.pslot k) i w).filter s.panDiffers
      let s := s.updPslot k (fun x => { x with state := .staging, bound := some w, pans := l.map (fun e => e.1) })
      (s.claimStaged l).tryStage
    else s.bindFails k 0x24

/-! ### Binding (R292) -/

/-- The same numbers, each once, whatever the order. -/
def sameSet (a b : List Nat) : Bool := decide (a.Nodup) && a.length == b.length && a.all (fun x => b.contains x)

/-- The items of `size` bytes that the shards of a role carry of a layer; none where a shard does not hold whole ones. -/
def itemsCarried (sh : List ShardEntry) (layer role size : Nat) : Option (List Nat) :=
  let l := (shardsOf sh layer role).map (·.2)
  if l.all (fun e => e.clearLen % size == 0) then some (l.flatMap (fun e => (List.range (e.clearLen / size)).map (fun k => e.first + k))) else none

/-- The static rows that the shards carry of a layer, by their numbers. -/
def rowsCarried (i : PlanImage) (sh : List ShardEntry) (l : LayerRec) : Option (List Nat) :=
  let z := rowSizes i l
  let r := ((shardsOf sh l.layer 1).map (·.2)).map (fun e =>
    (rowsIn (z.length + 1) (z.drop e.first) e.clearLen).map (fun n => (List.range n).map (fun k => e.first + k)))
  if r.all (·.isSome) then some (r.flatMap (fun x => x.getD [])) else none

/-- The model's shards match the plan exactly (R292). -/
def shardsMatch (i : PlanImage) (sh : List ShardEntry) : Bool :=
  i.layers.all (fun l =>
    if l.wide then (itemsCarried sh l.layer 2 (2 * l.dOut)).any (fun x => sameSet x (List.range l.dIn))
    else (itemsCarried sh l.layer 0 bedBytes).any (fun x => sameSet x (List.range (rowTiles i l.layer * colTiles l))) &&
      (rowsCarried i sh l).any (fun x => sameSet x (List.range (rowSizes i l).length))) &&
  sh.all (fun e => match layerOf i e.layer with
    | none => false
    | some l => if l.wide then e.role == 2 else e.role == 0 || e.role == 1)

/-- A weight slot's MODEL_ID is `m` and its state is one of `l`. -/
def State.slotWith (s : State) (m : BitVec 128) (l : List SlotState) : Option Nat :=
  [0, 1].find? (fun w => (s.wslot w).modelId == m && l.contains (s.wslot w).state)

/-- The weights a placed plan binds to (R292). -/
def State.bindTo (s : State) (m : BitVec 128) : Option Nat :=
  (s.slotWith m [.verified, .staging, .staged]).orElse (fun _ => s.slotWith m [.active])

/-- A placed plan binds to weights, or waits for a model, or fails with ST_BPL_SHAPE (R292). Where its weight slot fails
staging, it binds again (R295): at most as often as there are slots. -/
def State.bindPlan (s : State) (k : Nat) (fuel : Nat := 3) : State :=
  match fuel, (s.pslot k).img with
  | 0, _ | _, none => s
  | fuel + 1, some i => match s.bindTo i.modelId with
    | none => s.updPslot k (fun x => { x with state := .waitModel, bound := none, pans := [] })
    | some w =>
      if !shardsMatch i (s.wslot w).shards then s.bindFails k 0x6C
      else if (s.wslot w).state == .active then s.stageAlone w k
      else
        let s := s.startStaging w k
        if (s.wslot w).state == .failed then s.bindPlan k fuel else s

/-- A slot that is VERIFIED meets the plans: one that waits binds; else the active plan that names its model stages it;
else ST_WGT_PLAN_MISMATCH shows (R200, R292). -/
def State.meetPlans (s : State) (w : Nat) : State :=
  let m := (s.wslot w).modelId
  let names := fun (k : Nat) (st : PlanState) => (s.pslot k).state == st && (match (s.pslot k).img with | none => false | some i => i.modelId == m)
  let mark := fun (s : State) => if (s.wslot w).state == .verified then s.setF .WGT_LOAD_STATUS 8 8 0x2C else s
  match [0, 1].find? (fun k => names k .waitModel) with
  | some k => mark (s.bindPlan k)
  | none => match [0, 1].find? (fun k => names k .active) with
    | some k => s.startStaging w k
    | none => mark s

end Sys2Proof.Machine
end

