-- ==== Sys2Proof/Machine/Beds.lean ====
section
/-! DEFINITION. Beds: writes, rakes and streamed swaps (03_pans R88 to R104, R428, R526): rows BED_WRITE_START to
STREAMED_SWAP, and what PAN_CTRL's requests do. -/

namespace Sys2Proof.Machine

/-- Bed work of a pan can run: READY and Active, inside the work phase, on a fitted core that is carried or filled and
not under test (R32, R526). -/
def State.bedWork (s : State) (pan : Nat) : Bool :=
  s.ready && s.pwrState == 0 && s.workOpen && decide (pan < s.part.pans) &&
  match (s.physOf (pan / 16)).orElse (fun _ => s.fillOf (pan / 16)) with
  | none => false
  | some p => (s.ph p).testing.isNone

/-- A write may begin on a bed in this state (Table 3.5); FAILED only after its columns were mapped (R428). -/
def Bed.writable (b : Bed) : Bool :=
  b.state == .empty || b.state == .written || b.state == .ready || b.state == .stale || (b.state == .failed && b.remapped)

/-- The highest pending claim, where it may have the shadow bed (R100, R101). -/
def Pan.mayTake (p : Pan) : Option Claim :=
  match p.claims with
  | [] => none
  | c :: _ => match p.serving with
    | none => if p.shadow.writable then some c else none
    | some d => if decide (c.rank < d.rank) && (p.shadow.state == .ready || p.shadow.state == .written) then some c else none


/-- Columns of a bed still to be mapped before its next write (R428): the lowest free spares. -/
def mapSpares (m : SpareMap) (cols : List Nat) : SpareMap :=
  match cols with
  | [] => m
  | c :: cs => match (List.range 16).find? (fun k => !(m.any (fun e => e.1 == k))) with
    | none => m
    | some k => mapSpares (m ++ [(k, c)]) cs

/-- The shadow bed as a write of `c` begins (R90, R428, R526): a first failure's mark stays with the same content. -/
def Bed.beginWrite (b : Bed) (c : Content) (later : List Nat) : Bed :=
  { b with
    state := .writing, content := c, firstFail := b.firstFail && b.content == c, beforeEdge := false
    spares := mapSpares b.spares later, remapped := b.remapped || !later.isEmpty }

/-- The layer of a streamed block that lies in the host tier and whose copy for this visit of the pan is not in the bounce
region (R181, R182). -/
def State.tierMissing (s : State) (pan : Nat) (c : Content) : Option Nat :=
  c.layer.filter (fun n => s.tierLayers.contains n && !s.wgt.bounce.any (fun (b : Bounce) => b.layer == n && !b.pans.contains pan))

/-- BED_WRITE_START (R90 to R93, R100, R101, R181): a write of a host-tier layer needs its copy in the bounce region. -/
def execBedWriteStart (t : Stamp) (pan : PanId) (s : State) : Res :=
  answer t s fun s =>
    let p := s.pan pan.val
    match p.mayTake with
    | none => s
    | some c =>
      if !s.bedWork pan.val || (s.tierMissing pan.val c.what).isSome then s
      else
          if p.shadow.state == .ready && p.shadow.content == c.what && !(c.rank == 1 && p.shadow.beforeEdge) then
            let d := p.serving.getD c
            let c := { c with refreshReq := c.refreshReq || d.refreshReq, rakeReq := c.rakeReq || d.rakeReq }
            s.updPan pan.val (fun p => { p with claims := p.claims.tail, serving := some c })
          else
            let s := s.when (p.serving.isSome && p.shadow.state == .ready) (fun s => s.bump .PAN_WRITE_ABORTS 1 pan.val)
            let isB := !p.activeB
            let later := (s.hlt.mapLater.filter (fun e => e.1 == pan && e.2.1 == isB)).flatMap (fun (e : PanId × Bool × List Nat) => e.2.2)
            let s : State := { s with hlt.mapLater := s.hlt.mapLater.filter (fun e => !(e.1 == pan && e.2.1 == isB)) }
            s.updPan pan.val (fun p =>
              let p := { p with claims := p.claims.tail }.returnClaim
              { p.setShadow (p.shadow.beginWrite c.what later) with serving := some c })

/-- A bed just written needs a rake (R103, R104). -/
def Bed.needsRake (b : Bed) (c : Option Claim) (tide : W32) : Bool :=
  (match c with | none => false | some c => c.rake) || !b.raked || b.remapped || b.firstFail || decide (64 ≤ tideDist b.rakeTide tide)

/-- The block that a write puts in the cells: of a streamed block, what its master holds now (R176, R182). -/
def State.blockFor (s : State) (c : Content) : Option Block :=
  match c, s.activePlan.bind (·.img), s.activeSlot with
  | .stream k, some i, some w => (layerOf i k.shape.layer).map (fun l => s.mkBlock i (s.masterOf w k.shape.layer) l k.group k.block)
  | _, _, _ => none

/-- A copy in the bounce region from which a pan's bed has been written (R181, R182). -/
def State.tookCopy (s : State) (pan : Nat) (c : Content) : State :=
  { s with wgt.bounce := s.wgt.bounce.map (fun (b : Bounce) => if c.layer == some b.layer then { b with pans := pan :: b.pans } else b) }

/-- BED_WRITE_COMPLETE (R90, R92, R93, R96, R97, R103): once hoist 1 has staged all of the content, the bed is WRITTEN,
and READY where no rake is due. -/
def execBedWriteComplete (t : Stamp) (pan : PanId) (s : State) : Res :=
  answer t s fun s =>
    let p := s.pan pan.val
    if p.shadow.state != .writing || decide (p.stagedIn < bedBytes) || (p.serving.map (fun c => c.what == .none)).getD false then s
    else
      let rake := p.shadow.needsRake p.serving s.tideIdx
      let b := { p.shadow with state := if rake then .written else .ready, loaded := s.blockFor p.shadow.content, age := 0, mism := [], mismOf := [], reprog := false, beforeEdge := false }
      let s := ((s.updPan pan.val (fun p => { p.setShadow b with stagedIn := 0 })).bump .PAN_BED_WRITES 1 pan.val).bump .CNT_PAN_WRITE_BYTES 262144
      let stream := match p.serving with | none => false | some c => c.rank == 1
      ((s.tookCopy pan.val p.shadow.content).when stream (fun s => s.bump .WGT_STREAM_BYTES bedBytes)).tryStage

/-- A higher claim than the one that holds the shadow bed is pending (R101). -/
def Pan.outranked (p : Pan) : Bool :=
  match p.serving, p.claims with
  | some d, c :: _ => decide (c.rank < d.rank)
  | _, _ => false

/-- A sweep that loses a bed to a higher claim ends without a verdict and stays due (R101, R435). -/
def State.stopSweep (s : State) (core : Nat) : State :=
  match s.physOf core with
  | none => s
  | some p => match (s.ph p).testing with
    | none => s
    | some q => ((s.updPhys p (fun x => { x with testing := none })).updPhys q.val (fun x => { x with partnerOf := none })).testCtx p q.val

/-- BED_WRITE_ABORT (R101): the bed is EMPTY, the claim pending again. -/
def execBedWriteAbort (t : Stamp) (pan : PanId) (s : State) : Res :=
  answer t s fun s =>
    let p := s.pan pan.val
    s.when (p.shadow.state == .writing && p.outranked) (fun s =>
      let s := s.when ((p.serving.map (fun c => c.what == .none)).getD false) (fun s => s.stopSweep (pan.val / 16))
      (s.updPan pan.val (fun p =>
        { (p.setShadow { p.shadow with state := .empty }).returnClaim with stagedIn := 0 })).bump .PAN_WRITE_ABORTS 1 pan.val)

/-- The claim a rake serves: the one that holds the bed, else the highest one where the bed holds its content (R526). -/
def Pan.rakeClaim (p : Pan) : Option Claim :=
  match p.serving, p.claims with
  | some d, _ => some d
  | none, c :: _ => if c.what == p.shadow.content then some c else none
  | none, [] => none

/-- RAKE_START (R102). -/
def execRakeStart (t : Stamp) (pan : PanId) (s : State) : Res :=
  answer t s fun s =>
    let p := s.pan pan.val
    match p.rakeClaim with
    | none => s
    | some c =>
      s.when (p.shadow.state == .written && s.bedWork pan.val && !s.coreRakes (pan.val / 16)) (fun s =>
        (s.updPan pan.val (fun p =>
          { p.setShadow { p.shadow with state := .raking } with
            serving := some c, claims := if p.serving.isSome then p.claims else p.claims.tail })).ctx3 (pan.val / 16))

/-- A rake no longer holds the vector engine of its core (R102, R303). -/
def State.rakeOver (s : State) (pan : Nat) : State := (s.ctx3 (pan / 16)).vectorFree (pan / 16)

/-- RAKE_ABORT (R101): the bed is WRITTEN, the claim pending again. -/
def execRakeAbort (t : Stamp) (pan : PanId) (s : State) : Res :=
  answer t s fun s =>
    let p := s.pan pan.val
    s.when (p.shadow.state == .raking && p.outranked) (fun s =>
      ((s.updPan pan.val (fun p => (p.setShadow { p.shadow with state := .written }).returnClaim)).bump .PAN_WRITE_ABORTS 1 pan.val).rakeOver
        pan.val)

/-! ### The end of a rake (R102 to R104, R428) -/

/-- The columns in use that fail R104; one without a fit has no gain within the limits. -/
def fitBad (fit : Nat → Option ColFit) (m : SpareMap) (used : Nat) : List Nat :=
  (judgedColumns used).filter (fun j => match fit (physColumn m j) with
    | none => true
    | some c => !c.ok)

/-- The coefficients of a fit written over those of a bed (R102); of a column without a fit the spec gives none (log 115). -/
def writeCoefs (c : Cells W32) (fit : Nat → Option ColFit) (key : Nat) : Cells W32 :=
  (List.range 544).foldl (fun c n => Cells.ins n (match fit n with
    | some f => f.entry
    | none => (Config.freeWord (Config.freeKey 1 (key * 1024 + n))).setWidth 32) (Cells.erase n c)) c

/-- A second failure: FAILED; free spares are mapped for the columns at fault, or the core retires (R104, R428). -/
def State.rakeFailed (s : State) (pan : PanId) (bad : List Nat) : State :=
  let p := s.pan pan.val
  let isB := !p.activeB
  let phys := s.physOfPan pan.val
  if bad.length ≤ 16 - p.shadow.spares.length then
    let m := mapSpares p.shadow.spares bad
    let s := s.updPan pan.val (fun p => p.setShadow { p.shadow with state := .failed, spares := m, remapped := true, firstFail := false })
    let s := s.bump .HLT_SPARES_MAPPED bad.length
    let s : State := { s with hlt.mapLater := s.hlt.mapLater ++ [(pan, p.activeB, bad)] }
    s.each bad (fun c s => s.faultRec 0x05 phys (some (pan.val / 16)) (pan.val % 16) 6 0xFFFF 0xFFFF 0xFFFFFFFF 0 0 (if isB then 1 else 0) c)
  else
    let s := s.updPan pan.val (fun p => p.setShadow { p.shadow with state := .failed, firstFail := false })
    let s := s.updPan pan.val (fun p => { p with withdrawn := true })
    match phys with
    | none => s
    | some q => (s.faultRec 0x06 (some q) (some (pan.val / 16)) (pan.val % 16) 8 0xFFFF 0xFFFF 0xFFFFFFFF 0 0 (if isB then 1 else 0)).retire q 0x06

/-- RAKE_COMPLETE (R102 to R104, R107, R109, R428): the patterns are converted and fitted; READY with the new
coefficients, re-programmed once, then FAILED. -/
def execRakeComplete (t : Stamp) (pan : PanId) (d : RakeData) (s : State) : Res :=
  answer t s fun s =>
    let p := s.pan pan.val
    match p.blockIn p.shadow with
    | none => s
    | some blk =>
      if p.shadow.state != .raking then s
      else
        let m := p.shadow.spares
        let (runs, splits, events) := blk.rakeRun m d.patterns 8192 blk.rakePasses d.devs
        let fit := blk.rakeFit m runs
        let bad := fitBad fit m blk.colsUsed
        let resid := bedResid ((judgedColumns blk.colsUsed).filterMap (fun j => fit (physColumn m j)))
        let b := { p.shadow with resid := BitVec.ofNat 16 resid, residOwn := true, rakeTide := s.tideIdx }
        let s := (s.bump .PAN_RAKES 1 pan.val).countPan pan.val blk.layer .PAN_SAT_PASSES .CNT_SAT_PASSES 2 (2 * splits)
        let s := s.countPan pan.val blk.layer .PAN_SAT_EVENTS .CNT_SAT_EVENTS 1 events
        let noReq := fun (p : Pan) => { p with serving := p.serving.map (fun (c : Claim) => { c with rakeReq := false }) }
        let t := if bad.isEmpty then
          (s.updPan pan.val (fun p => noReq (p.setShadow
            { b with state := .ready, coefs := writeCoefs b.coefs fit s.freeCtr, raked := true, remapped := false, firstFail := false }))).tick.tryStage
        else if !p.shadow.firstFail then s.updPan pan.val (fun p => p.setShadow { b with state := .writing, firstFail := true })
        else (s.updPan pan.val (fun p => (p.setShadow b).returnClaim)).rakeFailed pan bad
        t.rakeOver pan.val

/-! ### Swaps (R94, R95) -/

/-- The READY shadow bed becomes ACTIVE, the active bed STALE (Table 3.5); a withdrawal ends (R98). -/
def Pan.swap (p : Pan) (tide : W32) : Pan :=
  let a := p.active
  let b := p.shadow
  let p := (p.setShadow { b with state := .active }).setActive { a with state := .stale }
  { p with activeB := !p.activeB, activeTide := tide, withdrawn := false, serving := none }

/-- The next streamed block of the schedule is claimed (R176, Table 3.7). -/
def Pan.claimStream (p : Pan) : Pan :=
  match p.streams with
  | [] => p
  | b :: rest =>
    { p with streamAt := (p.streamAt + 1) % (rest.length + 1) }.addClaim { rank := 1, what := .stream ((b :: rest).getD p.streamAt b) }

/-- A pan of the streaming set waits at a layer boundary (R178): the set's wait runs from its first pan on, and, where the
layer to come is not in the bounce region, so does the wait for it (R181). -/
def State.streamWait (s : State) (pan : Nat) : State :=
  let s := s.updPan pan (fun p => { p with streamFrom := some (p.streamFrom.getD s.now) })
  let s : State := { s with wgt.stallFrom := some (s.wgt.stallFrom.getD s.now) }
  match ((s.pan pan).claims.find? (fun c => c.rank == 1)).bind (fun c => s.tierMissing pan c.what) with
  | none => s
  | some n => if s.wgt.tierWait.any (fun e => e.1 == n) then s else { s with wgt.tierWait := s.wgt.tierWait ++ [(n, s.now)] }

/-- The wait of the streaming set ends when none of its pans waits any more; it is counted once for the set (R178). -/
def State.endStall (s : State) : State :=
  match s.wgt.stallFrom with
  | none => s
  | some u => if s.pans.any (fun p => p.streamFrom.isSome) then s
    else ({ s with wgt.stallFrom := none } : State).bump .WGT_STREAM_STALL_NS (s.now - u)

/-- The set leaves a layer on a pan: the copy of a host-tier layer goes once nothing of the visit needs it (R182). -/
def State.leaveLayer (s : State) (c : Content) : State :=
  { s with wgt.bounce := s.wgt.bounce.map (fun (b : Bounce) => if c.layer == some b.layer && !b.pans.isEmpty then { b with left := true } else b) }

/-- STREAMED_SWAP (R95, R176, R178, R182): between products, with a READY shadow written in this tide; else the pan waits
and the wait is counted as stall. -/
def execStreamedSwap (t : Stamp) (pan : PanId) (s : State) : Res :=
  answer t s fun s =>
    let p := s.pan pan.val
    if !p.streamed || !p.flights.isEmpty || !s.workOpen || !s.ready then s
    else if p.shadow.state == .ready && p.shadow.content.layer.isSome && !p.shadow.beforeEdge then
      (((s.updPan pan.val (fun p => { p.swap s.tideIdx with streamFrom := none }.claimStream)).leaveLayer p.active.content).releaseBounce).endStall
    else s.streamWait pan.val

/-! ### Requests through PAN_CTRL (Table 3.11, R91) -/

/-- A request of PAN_CTRL becomes a claim. On a pan that the placement gives nothing there is no content to write, and
the request does nothing: the spec is silent (DESIGN CHOICE, log 116). -/
def State.panRequest (s : State) (pan : Nat) (f : Content → Claim) : State :=
  s.when (s.ready && decide (pan < s.part.pans)) (fun s => match (s.pan pan).currentContent s.tierLayers with
    | none => s
    | some c => s.updPan pan (fun p => p.addClaim (f c)))

/-- REFRESH_REQ acts: a rank-4 claim of the current content. -/
def State.refreshReq (s : State) (pan : Nat) : State :=
  s.panRequest pan (fun c => { rank := 4, what := c, refreshReq := true })

/-- RAKE_REQ acts: a rank-5 claim that writes and rakes the current content. -/
def State.rakeReq (s : State) (pan : Nat) : State :=
  s.panRequest pan (fun c => { rank := 5, what := c, rake := true, rakeReq := true })

end Sys2Proof.Machine
end

