-- ==== Sys2Proof/Machine/Fabric.lean ====
section
/-! DEFINITION. The fabric's rows (11_fabric): FABRIC_WRITE to OP_TIMEOUT, PACKET_CRC_FAIL, RESERVED_TYPE_PACKET,
TRANSIT_PACKET. -/

namespace Sys2Proof.Machine

/-! ### Operations of contexts -/

/-- A member sits at an address (R342). -/
def State.memberSits (s : State) (a : BitVec 17) : Bool :=
  if s.fab.mapped then s.fab.map.any (fun e => e.1 == a && e.2 != 0) else s.fab.db.any (fun m => m.addr == a)

/-- Bytes written at an offset of a destination buffer; what lies beyond it is not applied (R350, log 117). -/
def State.bufWrite (s : State) (from_ : Site) (buf off : Nat) (bytes : List Byte) : State :=
  let r := s.buffer buf
  let l := bytes.take (r.len - off)
  (s.memWrite (r.base + off) l).moves from_ r.place l.length

/-- A contribution to a reduction buffer: the tag is set by the tide's first, which starts the buffer from zero; another
generation is not applied (R134, R361). Answers the status. -/
def State.bufAdd (s : State) (from_ : Site) (src : BitVec 17) (gen : W16) (buf off : Nat) (vals : List W64) : State × Nat :=
  let s := s.openBuf buf s.activeGen
  let tag := ((s.fab.red.find? (fun r => r.buf == buf)).map (·.tag)).getD 0
  let r := s.buffer buf
  if gen == tag then (((s.addWords r (off / 8) vals).contributed buf).moves from_ r.place (8 * vals.length), 0)
  else
    let s : State := { s with fab.red := s.fab.red.map (fun r => if r.buf == buf then { r with failed := true } else r) }
    ((((s.bump .FAB_GENMIX_COUNT).raise .FAB_INT_STATUS .FAB_INT_ENABLE 128).event 0x0B04 0 src.toNat gen.toNat tag.toNat).voidAll
      s.running, 0x35)

/-- Packets of an operation with a payload of so many bytes: each carries at most 4,096 bytes, its header among them. -/
def packetsOf (payload : Nat) : Nat := max 1 ((payload + 16 + 4095) / 4096)
/-- LEN of packet `i` of them, in units of 16 bytes. -/
def packetLen (payload i : Nat) : Nat := max 4 ((min 4096 (payload + 16 - i * 4096) + 15) / 16)

/-- Packets of a core routed in turn, each with its bytes, which move from the core's SRAM to the link die of its plane
(R23, R348); none where there is no usable plane. -/
def State.routeAll (s : State) (core : Nat) (dst : BitVec 17) (l : List (Pkt × Nat)) : Option State :=
  match l with
  | [] => some s
  | p :: l => match s.routePkt dst p.1 with
    | none => none
    | some s =>
      let pl := listed (s.fab.nextPlane.map (fun e => (e.1.toNat, e.2))) dst.toNat 1 - 1
      (s.moves (.core core) (.linkDie (pl / 3)) p.2).routeAll core dst l

/-- The packets of an operation, each with the bytes of its payload that it carries. -/
def State.opPackets (s : State) (dst : BitVec 17) (type : Nat) (gen : W16) (payload : Nat) (args : List Nat) : List (Pkt × Nat) :=
  (List.range (packetsOf payload)).map (fun i =>
    (({ type := type, ver := s.fab.sysver, dst := dst, src := s.addr.getD 0, gen := gen, last := i + 1 == packetsOf payload
        len := packetLen payload i, opNum := s.fab.nextOp, args := args } : Pkt), min payload ((i + 1) * 4096) - min payload (i * 4096)))

/-- An operation of a context sets out: its packets go on the usable planes in turn, and it stays outstanding until it
is answered (R348, R350). -/
def State.issueOp (s : State) (core : CoreId) (ctx : CtxId) (kind : OpKind) (dst : BitVec 17) (type : Nat) (gen : W16)
    (payload : Nat) (args : List Nat) : State :=
  match s.routeAll core.val dst (s.opPackets dst type gen payload args) with
  | none => s.opFailed core ctx 0x30
  | some s =>
    { s with
      fab.nextOp := s.fab.nextOp + 1
      fab.ops := s.fab.ops ++ [⟨s.fab.nextOp, kind, core, ctx, dst, s.now, packetsOf payload⟩] }

/-- The destination of an operation is checked: the fabric is fitted, the address valid and a member at it (R8, R342,
R362). -/
def State.opCheck (s : State) (dst : BitVec 17) : Option Nat :=
  if s.part.linkDies == 0 then some 0x0E
  else if !addrValid s.dims dst || !s.memberSits dst then some 0x32 else none

/-- FABRIC_WRITE (R350): bytes into a destination buffer; a destination that is this device takes them here (log 20). -/
def execFabricWrite (t : Stamp) (core : CoreId) (ctx : CtxId) (dst : BitVec 17) (buf : Nat) (off : Nat) (bytes : List Byte)
    (s : State) : Res :=
  answer t s fun s => s.when (s.issuing core.val ctx.val) (fun s =>
    match s.opCheck dst with
    | some c => s.opFailed core ctx c
    | none =>
      if s.addr == some dst then s.bufWrite (.core core.val) buf off bytes
      else s.issueOp core ctx .write dst 7 0 bytes.length (buf :: off :: bytes.map (·.toNat)))

/-- FABRIC_REDUCE_ADD (R134, R350, R361): signed 64-bit adds, tagged with the active model's generation. -/
def execFabricReduceAdd (t : Stamp) (core : CoreId) (ctx : CtxId) (dst : BitVec 17) (buf : Nat) (off : Nat) (vals : List W64)
    (s : State) : Res :=
  answer t s fun s => s.when (s.issuing core.val ctx.val) (fun s =>
    match s.opCheck dst with
    | some c => s.opFailed core ctx c
    | none =>
      if s.addr == some dst then
        let r := s.bufAdd (.core core.val) dst s.activeGen buf off vals
        if r.2 == 0 then r.1 else r.1.opFailed core ctx r.2
      else s.issueOp core ctx .reduceAdd dst 8 s.activeGen (8 * vals.length) (buf :: off :: vals.map (·.toNat)))

/-! ### Sync words, of the device and of others (R312, R314, R317, R350) -/

/-- A remote operation on a pool word (R312, R317, R350): status and value returned. -/
def State.remoteSync (s : State) (src : BitVec 17) (word : Fin 65536) (op : SyncOp) : State × Nat × W64 :=
  let open_ := (List.range 65).any (fun g => (s.share g).fabric && (s.share g).poolBase ≤ word.val &&
    word.val < (s.share g).poolBase + (s.share g).poolCount)
  if !open_ then (s.bump .SYN_POOL_REFUSED, 0x31, 0)
  else
    let v := (s.word (.pool word)).value
    let s := s.bump .SYN_POOL_REMOTE_OPS
    match op with
    | .load => (s.countPool (.pool word), 0, v)
    | .store x => (s.syncStore (.pool word) x (remoteId src), 0, 0)
    | .add x => (s.syncAdd (.pool word) x (remoteId src), 0, v)
    | .cas e x => (s.syncCas (.pool word) e x (remoteId src), 0, v)

/-- The kind of a remote operation, and its code and operands as SYNC_REQ carries them. -/
def spellOp (op : SyncOp) : OpKind × List Nat :=
  match op with
  | .load => (.load, [0])
  | .store v => (.store, [1, v.toNat])
  | .add v => (.modify, [2, v.toNat])
  | .cas e v => (.modify, [3, e.toNat, v.toNat])

/-- What a context does to a pool word of another device (R350); where the address is this device's own, the operation runs
here (log 20). A STORE returns nothing. -/
def State.syncRemote (s : State) (core : CoreId) (ctx : CtxId) (dst : BitVec 17) (i : Fin 65536) (op : SyncOp) : State :=
  match s.opCheck dst with
  | some c => s.opFailed core ctx c
  | none =>
    let k := spellOp op
    if s.addr == some dst then
      let r := s.remoteSync dst i op
      if r.2.1 != 0 then r.1.opFailed core ctx r.2.1
      else r.1.when (k.1 != .store) (fun s => s.returns core.val ctx.val r.2.2)
    else s.issueOp core ctx k.1 dst 5 0 (8 * k.2.length) (i.val :: k.2)

/-- An operation on a word of the device: what it does, and the old value where it is returned (R312). -/
def State.syncHere (s : State) (core : CoreId) (ctx : CtxId) (r : SyncRef) (op : SyncOp) : State :=
  let me := s.unitId 1 core.val ctx.val
  let v := (s.word r).value
  match op with
  | .load => (s.countPool r).returns core.val ctx.val v
  | .store x => s.syncStore r x me
  | .add x => (s.syncAdd r x me).returns core.val ctx.val v
  | .cas e x => (s.syncCas r e x me).returns core.val ctx.val v

/-- A sync operation that a RUNNING context issues. -/
def State.syncOp (s : State) (core : CoreId) (ctx : CtxId) (r : SyncTarget) (op : SyncOp) : State :=
  s.when (s.issuing core.val ctx.val) (fun s => match r with
    | .word r => s.when (s.hasWord r) (fun s => s.syncHere core ctx r op)
    | .remote dst i => s.syncRemote core ctx dst i op)

/-- SYNC_LOAD (R312, R314): the value is returned and nothing changes. -/
def execSyncLoad (t : Stamp) (core : CoreId) (ctx : CtxId) (r : SyncTarget) (s : State) : Res :=
  answer t s fun s => s.syncOp core ctx r .load

/-- SYNC_STORE (R312). -/
def execSyncStore (t : Stamp) (core : CoreId) (ctx : CtxId) (r : SyncTarget) (v : W64) (s : State) : Res :=
  answer t s fun s => s.syncOp core ctx r (.store v)

/-- SYNC_ADD (R312): the old value is returned. -/
def execSyncAdd (t : Stamp) (core : CoreId) (ctx : CtxId) (r : SyncTarget) (v : W64) (s : State) : Res :=
  answer t s fun s => s.syncOp core ctx r (.add v)

/-- SYNC_CAS (R312): the old value is returned. -/
def execSyncCas (t : Stamp) (core : CoreId) (ctx : CtxId) (r : SyncTarget) (e v : W64) (s : State) : Res :=
  answer t s fun s => s.syncOp core ctx r (.cas e v)

/-! ### Bringing a link up (R338 to R345) -/

/-- The two links of a dimension of size 1 stay DOWN (R328). -/
def State.linkIdle (s : State) (n : Nat) : Bool := s.addr.isSome && s.dims.getD (n % 6 / 2) 1 == 1

/-- PRESENCE_PROBE (R338, R520). -/
def execPresenceProbe (t : Stamp) (link : LinkId) (present : Bool) (s : State) : Res :=
  answer t s fun s => s.when (s.linkFitted link.val) (fun s =>
    let l := s.link link.val
    let s := s.setLink link.val { l with present := present }
    if present && l.st == .down && s.powered && s.fabOn && !l.disabled && !s.linkIdle link.val then
      s.updLink link.val (fun l => { l with st := .detect, since := s.now })
    else if !present && l.st == .detect then s.updLink link.val (fun l => { l with st := .down })
    else s)

/-- DETECT_DEBOUNCE_END (R338): presence has held for 10 ms and training begins. -/
def execDetectDebounceEnd (t : Stamp) (link : LinkId) (s : State) : Res :=
  answer t s fun s =>
    let l := s.link link.val
    s.when (l.st == .detect && l.present && decide (l.since + 10000000 ≤ s.now)) (fun s =>
      s.setLink link.val { l with st := .train, since := s.now, trainFails := 0 })

/-- PRESENCE_LOSS (R341, R520): the loss has held through the debounce. -/
def execPresenceLoss (t : Stamp) (link : LinkId) (s : State) : Res :=
  answer t s fun s => s.when (s.linkFitted link.val && (s.link link.val).st != .down) (fun s =>
    (s.updLink link.val (fun l => { l with present := false })).linkDown link.val)

/-- DEVICE_KEY_ID as SEC_KEY_ID holds it. -/
def State.keyId (s : State) : BitVec 128 := BitVec.ofNat 128 (s.num .SEC_KEY_ID + s.num .SEC_KEY_ID 0 1 * 2 ^ 64)

/-- This device's HELLO on a link (R339, Table 11.7), unsigned. -/
def State.ownHello (s : State) (n : Nat) (nonce peerNonce : BitVec 256) : Hello :=
  let root := s.isRoot
  let addr := s.addr
  { verMin := 1, verMax := 2, part := s.part.code, port := n, planes := 2 ^ s.part.planes - 1, mapped := s.mapped, root := root
    assigned := addr.isSome, aligned := root || s.fld .TDE_STATUS 2 2 == 0, coord := addr.getD 0
    rootAddr := BitVec.ofNat 17 (s.num .FAB_ROOT), tide := s.tideIdx, sysver := s.fab.sysver, dims := BitVec.ofNat 17 (s.num .FAB_DIMS)
    systemId := s.reg .FAB_SYSTEM_ID, mapEpoch := if s.mapped then BitVec.ofNat 32 (s.num .FAB_MAP_EPOCH) else 0, keyId := s.keyId
    nonce := nonce, peerNonce := peerNonce, pubN := s.boot.identity.n, pubE := s.boot.identity.e, signature := [] }
/-- It goes out signed with the identity key; the salt of the signature is free. -/
def State.sendHello (s : State) (n : Nat) (nonce peerNonce : BitVec 256) : State :=
  let b := (s.ownHello n nonce peerNonce).bytes
  let salt := leBytes 64 (Config.free512 s.freeCtr).toNat
  s.tick.emit (.hello n (b ++ pssSign s.boot.identity.n s.boot.identity.d salt b))

/-- TRAIN_COMPLETE (R338, R339): the first HELLO goes out with this bring-up's nonce and PEER_NONCE zero. -/
def execTrainComplete (t : Stamp) (link : LinkId) (nonce : BitVec 256) (s : State) : Res :=
  answer t s fun s =>
    let l := s.link link.val
    s.when (l.st == .train || l.st == .retrain) (fun s =>
      (s.setLink link.val { l with st := .hello, since := s.now, nonce := nonce, first := false, trainFails := 0 }).sendHello
        link.val nonce 0)

/-- TRAIN_TIMEOUT (R336, R338): the third failure holds the link, as do three failed retrains within one second. -/
def execTrainTimeout (t : Stamp) (link : LinkId) (s : State) : Res :=
  answer t s fun s =>
    let l := s.link link.val
    if l.st == .train then
      if l.trainFails + 1 ≥ 3 then s.hold link.val 0x39
      else s.setLink link.val { l with trainFails := l.trainFails + 1, since := s.now }
    else if l.st == .retrain then
      let fails := (l.retrains.filter (fun x => decide (s.now < x + 1000000000))) ++ [s.now]
      if fails.length ≥ 3 then s.hold link.val 0x39
      else s.setLink link.val { l with retrains := fails, since := s.now }
    else s

/-- The partner's versions let it join (R358, R360): its range holds the system version, or its VER_MAX is one below and
every member still accepts it; without a system version the ranges meet. -/
def State.versionOk (s : State) (h : Hello) : Bool :=
  let sv := if s.fab.sysver == 0 then h.sysver else s.fab.sysver
  let fits := fun (lo hi : Nat) => (decide (lo ≤ sv) && decide (sv ≤ hi)) ||
    (hi + 1 == sv && s.fab.db.all (fun m => decide (m.verMin ≤ hi)))
  if sv == 0 then decide (h.verMin ≤ 2) && decide (1 ≤ h.verMax) else fits h.verMin h.verMax && fits 1 2

/-- The first failure of the checks of R340, R344 and R345, or none. -/
def State.helloFail (s : State) (n : Nat) (h : Hello) : Option Nat :=
  let l := s.link n
  let sysId := s.reg .FAB_SYSTEM_ID
  let nbr := s.addr.map (fun a => neighbour s.dims a (n % 6))
  let port := n / 6 * 6 + (if n % 2 == 0 then n % 6 + 1 else n % 6 - 1)
  if !h.signed || h.peerNonce != l.nonce || !s.bit .SEC_STATUS 0 then some 0x36
  else if sysId != 0 && h.systemId != 0 && h.systemId != sysId then some 0x3B
  else if !s.versionOk h then some 0x34
  else if s.mapped && s.fab.noAddr then some 0x37
  else if s.mapped && s.fab.mapped && !(s.fab.map.any (fun e => some e.1 == nbr && e.2 == h.keyId)) then some 0x3A
  else if h.assigned && s.addr.isSome && (nbr != some h.coord || h.port != port) then
    some (if s.mapped || s.isRoot then 0x3A else 0x3C)
  else none

/-- An unmapped device without an address takes it, the torus and the system from an ASSIGNED partner (R345). -/
def State.takeAddress (s : State) (h : Hello) : State :=
  if !s.mapped && s.addr.isNone && h.assigned && !s.isRoot then
    let a : BitVec 17 := neighbour (dimsOf h.dims.toNat) h.coord (h.port % 6)
    ((s.setNum .FAB_ADDR (a.toNat + 2 ^ 31)).setNum .FAB_DIMS h.dims.toNat).setReg .FAB_SYSTEM_ID h.systemId
  else s

/-- A second HELLO that passes: ADMIT, with the link version (R358). -/
def State.admitLink (s : State) (n : Nat) (h : Hello) : State :=
  let s := s.takeAddress h
  let s : State := { s with fab.sysver := if s.fab.sysver == 0 then h.sysver else s.fab.sysver }
  ((s.updLink n (fun l => { l with st := .admitSt, since := s.now, peer := some h, ver := min 2 h.verMax, code := 0 })).setNum
    .FAB_ROOT (h.rootAddr.toNat + 2 ^ 31)).fabStatus

/-- HELLO_RECEIVED (R339, R340, R341, R345). -/
def execHelloReceived (t : Stamp) (link : LinkId) (h : Hello) (s : State) : Res :=
  answer t s fun s =>
    let n := link.val
    let l := s.link n
    if l.st == .hello then
      if h.peerNonce == 0 then
        (s.setLink n { l with first := true }).sendHello n l.nonce h.nonce
      else if !l.first then s
      else if (l.peer.map (fun p => p.keyId != h.keyId)).getD false then s.linkDown n
      else match s.helloFail n h with
        | some c => (s.when (c == 0x3C) (fun s => s.raise .FAB_INT_STATUS .FAB_INT_ENABLE 32)).hold n c
        | none => s.admitLink n h
    else if l.st == .admitSt && (l.peer.map (fun p => p.keyId == h.keyId)).getD false && h.signed then
      s.setLink n { l with peer := some h }
    else s

/-- HELLO_TIMEOUT (R338): back to TRAIN. -/
def execHelloTimeout (t : Stamp) (link : LinkId) (s : State) : Res :=
  answer t s fun s =>
    let l := s.link link.val
    s.when (l.st == .hello) (fun s => s.setLink link.val { l with st := .train, since := s.now })

/-! ### Link-level delivery (R334 to R336) -/

/-- `a` acknowledges `q`: `q` lies at or before it, modulo 4,096. -/
def ackCovers (a q : BitVec 12) : Bool := decide ((a - q).toNat < 2048)

/-- Replay from a SEQ on: each replay counts, and the same SEQ replayed 16 times retrains the link (R334, R336). -/
def State.replay (s : State) (n : Nat) (from_ : BitVec 12) : State :=
  let l := s.link n
  let un := l.unacked.map (fun e => if ackCovers e.1.seq from_ then (e.1, e.2 + 1) else e)
  let k := (un.filter (fun e => ackCovers e.1.seq from_)).length
  let s := (s.setLink n { l with unacked := un }).bumpLink .FAB_LINK_REPLAYS n k
  if un.any (fun e => decide (16 ≤ e.2)) then s.enterRetrain n
  else s.each (un.filter (fun e => ackCovers e.1.seq from_)) (fun e s => s.emit (.packet n e.1))

/-- LINK_CTRL_RECEIVED (R334, R335): acknowledgement, NAK and credits. -/
def execLinkCtrlReceived (t : Stamp) (link : LinkId) (ack : BitVec 12) (nak : Option (BitVec 12))
    (credits : List (Fin 16 × Nat)) (s : State) : Res :=
  answer t s fun s =>
    let n := link.val
    let l := s.link n
    s.when (l.st == .up || l.st == .admitSt) (fun s =>
      let spent := credits.foldl (fun a c => (List.range 16).map (fun k => if k == c.1.val then a.getD k 0 - c.2 else a.getD k 0)) l.spent
      let s := s.setLink n { l with unacked := l.unacked.filter (fun e => !ackCovers ack e.1.seq), spent := spent }
      let s := match nak with | none => s | some q => s.replay n q
      s.sendWaiting n)

/-- LINK_SILENCE (R336): no valid packet for 100 µs. -/
def execLinkSilence (t : Stamp) (link : LinkId) (s : State) : Res :=
  answer t s fun s => s.when ((s.link link.val).st == .up) (fun s => s.enterRetrain link.val)

/-- LINK_ACK_TIMER (R334): an acknowledgement at least every 1 µs. -/
def execLinkAckTimer (t : Stamp) (link : LinkId) (s : State) : Res :=
  answer t s fun s =>
    let l := s.link link.val
    s.when (l.st == .up || l.st == .admitSt) (fun s =>
      s.sendLinkCtrl link.val false)

/-! ### Arrivals -/

/-- HBM is in self-refresh: packets of the REQ and DATA classes wait in the link buffers, and in Standby they start the exit
(R461, R462). -/
def State.inStandby (s : State) : Bool := s.pwrState == 2 || s.pwr.selfRefresh

/-- A packet comes in on a link: accepted (R334); one that needs HBM waits in the link buffers of Standby and starts the exit
(R461, R462); else it goes on along the tree where it is a broadcast, acts, and leaves its buffer. -/
def State.arrival (s : State) (i : Instr) (link : Nat) (h : PktHdr) (type : Nat) (tree : Option (List Nat)) (act : State → State) :
    State :=
  let r := s.accept link h type
  if !r.2 then r.1
  else
    let s := match tree with
      | none => r.1
      | some args => r.1.bcastForward link h type args
    if s.inStandby && (classOf type == 1 || classOf type == 2) then
      ({ s with fab.standby := s.fab.standby ++ [i] } : State).exitPower
    else act (s.freeBuf link type h)

/-! ### Link state, versions, delay (R347, R357, R359) -/

/-- The root announces the smallest VER_MAX of its members, 16 tides ahead (R359). -/
def State.rootSysver (s : State) : State :=
  let v := s.fab.db.foldl (fun a m => min a m.verMax) 2
  if s.isRoot && v != s.fab.sysver && s.fab.sysverNext.isNone then
    { s with fab.sysverNext := some (v, s.tideIdx + 16) }
  else s

/-- LSU_RECEIVED (R347): a newer update replaces the one held and is forwarded; a link that leaves UP leaves routes at
once. -/
def execLsuReceived (t : Stamp) (link : LinkId) (h : PktHdr) (u : Lsu) (s : State) : Res :=
  answer t s fun s => s.arrival (.lsuReceived t link h u) link.val h 2 none (fun s =>
    let old := s.memberAt u.addr
    s.when ((old.map (fun m => decide (m.counter < u.counter))).getD true) (fun s =>
      let m : Member := ⟨u.addr, u.counter, u.up, ((old.map (·.routes)).getD []).filter (fun k => u.up.contains k), u.verMin, u.verMax⟩
      let s : State := { s.bump .FAB_LSU_RX with fab.db := m :: s.fab.db.filter (fun x => x.addr != u.addr) }
      let args := [u.addr.toNat, u.counter, (u.up.map (fun k => 2 ^ k.val)).sum, u.verMin, u.verMax]
      ((s.each s.liveLinks (fun n s => s.sendCtrl n 2 args)).rootSysver).fabStatus))

/-- DELAY_EXCHANGE (R357). -/
def execDelayExchange (t : Stamp) (link : LinkId) (s : State) : Res :=
  answer t s fun s =>
    let l := s.link link.val
    s.when (l.st == .up || l.st == .admitSt) (fun s => s.sendCtrl link.val 4 [s.now])

/-- DELAY_RECEIVED (R357): ((t4 − t1) − (t3 − t2)) / 2. -/
def execDelayReceived (t : Stamp) (link : LinkId) (h : PktHdr) (t1 t2 t3 t4 : Nat) (s : State) : Res :=
  answer t s fun s => s.arrival (.delayReceived t link h t1 t2 t3 t4) link.val h 4 none (fun s =>
    s.setNum .FAB_LINK_DELAY (((t4 - t1) - (t3 - t2)) / 2) 0 link.val)

/-! ### Arrivals for this device (R350, R361) -/

/-- The effect of a SYNC_REQ accepted for this device. -/
def State.takeSyncReq (s : State) (h : PktHdr) (opNum : Nat) (word : Fin 65536) (op : SyncOp) : State :=
  let r := s.remoteSync h.src word op
  (r.1.routePkt h.src { type := 13, ver := s.fab.sysver, dst := h.src, src := s.addr.getD 0, opNum := opNum, args := [r.2.1, r.2.2.toNat] }).getD r.1

/-- The link die of a link (R327). -/
def dieOf (link : Nat) : Site := .linkDie (link / 18)

/-- The effect of a WRITE accepted for this device: applied, then acknowledged. -/
def State.takeWrite (s : State) (link : Nat) (h : PktHdr) (opNum buf off : Nat) (bytes : List Byte) : State :=
  (s.bufWrite (dieOf link) buf off bytes).ackTo h.src opNum 0

/-- The effect of a REDUCE_ADD accepted for this device (R361). -/
def State.takeReduceAdd (s : State) (link : Nat) (h : PktHdr) (opNum buf off : Nat) (vals : List W64) : State :=
  let r := s.bufAdd (dieOf link) h.src h.gen buf off vals
  r.1.ackTo h.src opNum r.2

/-- SYNC_REQ_RECEIVED (R312, R317, R350). -/
def execSyncReqReceived (t : Stamp) (link : LinkId) (h : PktHdr) (opNum : Nat) (word : Fin 65536) (op : SyncOp) (s : State) : Res :=
  answer t s fun s => s.arrival (.syncReqReceived t link h opNum word op) link.val h 5 none (fun s => s.takeSyncReq h opNum word op)

/-- SYNC_RESP_RECEIVED (R312, R350): the operation is answered; what it returns goes to its context. -/
def execSyncRespReceived (t : Stamp) (link : LinkId) (h : PktHdr) (opNum : Nat) (status : Byte) (value : W64) (s : State) : Res :=
  answer t s fun s => s.arrival (.syncRespReceived t link h opNum status value) link.val h 13 none (fun s =>
    let u := s.opDone opNum status.toNat
    match s.fab.ops.find? (fun o => o.num == opNum) with
    | none => u
    | some o => u.when (status == 0 && (o.kind == .load || o.kind == .modify)) (fun u => u.returns o.core.val o.ctx.val value))

/-- WRITE_RECEIVED (R350). -/
def execWriteReceived (t : Stamp) (link : LinkId) (h : PktHdr) (opNum : Nat) (buf off : Nat) (bytes : List Byte) (s : State) : Res :=
  answer t s fun s => s.arrival (.writeReceived t link h opNum buf off bytes) link.val h 7 none (fun s =>
    s.takeWrite link.val h opNum buf off bytes)

/-- REDUCE_ADD_RECEIVED (R134, R361). -/
def execReduceAddReceived (t : Stamp) (link : LinkId) (h : PktHdr) (opNum : Nat) (buf off : Nat) (vals : List W64) (s : State) : Res :=
  answer t s fun s => s.arrival (.reduceAddReceived t link h opNum buf off vals) link.val h 8 none (fun s =>
    s.takeReduceAdd link.val h opNum buf off vals)

/-- ACK_RECEIVED (R353). -/
def execAckReceived (t : Stamp) (link : LinkId) (h : PktHdr) (opNum : Nat) (status : Byte) (s : State) : Res :=
  answer t s fun s => s.arrival (.ackReceived t link h opNum status) link.val h 12 none (fun s => s.opDone opNum status.toNat)

/-- OP_TIMEOUT (R353): no answer within FAB_OP_TIMEOUT. -/
def execOpTimeout (t : Stamp) (opNum : Nat) (s : State) : Res :=
  answer t s fun s =>
    match s.fab.ops.find? (fun o => o.num == opNum) with
    | none => s
    | some o => s.when (decide (o.sent + s.num .FAB_OP_TIMEOUT * 1000 ≤ s.now)) (fun s => s.opDone opNum 0x38)

/-! ### The map (R344) -/

/-- The keys of a map (Table 11.8): entry `i` belongs to the `i`-th valid address in ascending order (DEDUCED, log 141). -/
def mapKeys (map : List Byte) (d : List Nat) : List (BitVec 17 × BitVec 128) :=
  let n := fun (k : Nat) => d.getD k 1
  (List.range (n 0 * n 1 * n 2)).map (fun i =>
    (addrOf [i / (n 1 * n 2), i / n 2 % n 1, i % n 2], BitVec.ofNat 128 (field map (64 + 16 * i) 16)))

/-- The map read: address, torus and system from it; a wrong MAGIC or length is refused. -/
def State.mapRead (s : State) (map : List Byte) : State :=
  let dims := field map 8 4 % 2 ^ 17
  let d := dimsOf dims
  let len := 64 + 16 * d.getD 0 1 * d.getD 1 1 * d.getD 2 1
  if field map 0 4 != 0x4D464E4A || s.num .FAB_MAP_LEN != len then s
  else
    let keys := mapKeys map d
    let s : State := { s.setNum .FAB_MAP_EPOCH (field map 4 4) with fab.map := keys, fab.mapped := true }
    match keys.filter (fun e => e.2 == s.keyId && e.2 != 0) with
    | [e] => (({ s with fab.noAddr := false } : State).setNum .FAB_ADDR (e.1.toNat + 2 ^ 31) |>.setNum .FAB_DIMS dims
        |>.setNum .FAB_SYSTEM_ID (field map 16 8)).rootSelf.sendLsu.fabStatus
    | _ => (({ s with fab.noAddr := true } : State).setNum .FAB_ADDR 0).fabStatus

/-! ### Faulty and transit packets (R330, R333, R334, R346, R349, R358) -/

/-- PACKET_CRC_FAIL (R330, R334): counted, and answered with NAK. -/
def execPacketCrcFail (t : Stamp) (link : LinkId) (k : PktFault) (s : State) : Res :=
  answer t s fun s =>
    let n := link.val
    let l := s.link n
    s.when (l.st == .up || l.st == .admitSt) (fun s =>
      let s := match k with
        | .crc => s.bumpLink .FAB_LINK_CRC_ERR n
        | .fec => (s.bumpLink .FAB_LINK_FEC_UNCORR n).bumpLink .FAB_LINK_CRC_ERR n
        | .seq => s
      s.sendLinkCtrl n true)

/-- RESERVED_TYPE_PACKET (R333, R358): dropped and counted. -/
def execReservedTypePacket (t : Stamp) (link : LinkId) (h : PktHdr) (type : Nat) (s : State) : Res :=
  answer t s fun s => s.when (decide (14 ≤ type)) (fun s => s.arrival (.reservedTypePacket t link h type) link.val h type none
    (fun s => s.bump .FAB_VER_DROPS))

/-- A packet for another member goes on; one that detours here starts its second phase (R346, R349). -/
def State.takeTransit (s : State) (link : Nat) (h : PktHdr) (type opNum : Nat) (args : List Nat) (final : Option (BitVec 17)) : State :=
  let p : Pkt := { type := type, ver := h.ver, phase := h.phase, dateline := h.dateline, dst := h.dst, src := h.src, gen := h.gen, last := h.last, len := h.len, opNum := opNum, args := args }
  if s.addr == some h.dst then
    match final with
    | none => s
    | some f => s.forward link { p with phase := true, dateline := false, dst := f, len := h.len - 1 }
  else s.forward link { p with args := (final.map BitVec.toNat).toList ++ args }

/-- TRANSIT_PACKET (R346, R349): `final` is the detour prefix, where the packet has one. -/
def execTransitPacket (t : Stamp) (link : LinkId) (h : PktHdr) (type opNum : Nat) (args : List Nat) (final : Option (BitVec 17))
    (s : State) : Res :=
  answer t s fun s => s.arrival (.transitPacket t link h type opNum args final) link.val h type none (fun s =>
    s.takeTransit link.val h type opNum args final)

end Sys2Proof.Machine
end

