-- ==== Sys2Proof/Machine/Bytes.lean ====
section
/-! DEFINITION. The byte layouts of records as registers and buffers show them: fault records and their CPER export,
the black box, event and graph records (Tables 14.3, 14.6 to 14.8, 16.1, 16.3 to 16.6, 16.10). -/

namespace Sys2Proof.Machine

/-- Fields (byte offset, size in bytes, value) as one little-endian number (R13). -/
def packFields (l : List (Nat × Nat × Nat)) : Nat := (l.map (fun e => e.2.2 % 2 ^ (8 * e.2.1) * 2 ^ (8 * e.1))).sum
/-- The 64-bit word at byte offset 8 × `i` of a number. -/
def wordOf (n i : Nat) : W64 := BitVec.ofNat 64 (n / 2 ^ (64 * i))

/-- An event record (Table 16.1). -/
def Event.bytes (e : Event) : Nat :=
  packFields [(0, 2, e.code), (2, 1, e.src), (3, 1, e.flags), (4, 4, e.tide.toNat), (8, 8, e.time), (16, 4, e.p0),
    (20, 4, e.p1), (24, 4, e.p2), (28, 4, e.p3)]

/-- The records of a graph (R502): header, edges, end. -/
def Wfg.records (g : Wfg) (room : Nat) (tide : W32) (time : Nat) : List Event :=
  let n := min g.edges.length (room - 2)
  let tr := if n < g.edges.length then 1 else 0
  [⟨0x1010, 0, 0, tide, time, g.trigger, g.proc, g.edges.length, 0⟩] ++
  (g.edges.take n).map (fun e => ⟨0x1011, 0, 0, tide, time, e.waiter, e.resource, e.holder, e.since⟩) ++
  [⟨0x1012, 0, 0, tide, time, n, tr, 0, 0⟩]

/-- UNIT_CLASS of a fault record (Table 14.7): the class a record of an uncontained fault names, else PHYS_CORE. -/
def FaultRec.unitClass (f : FaultRec) : Nat :=
  if f.kind == 0x11 then f.p0.toNat else if f.phys.isSome then 7 else 0xFF

/-- DETAIL (Table 14.8). What the hardware read at the fault and no operand names is a free value (log 4). -/
def FaultRec.detail (f : FaultRec) : Nat :=
  let fr := fun (k : Nat) => (Config.freeWord (Config.freeKey 2 ((f.time * 8192 + f.phys.getD 8191) * 64 + k))).toNat
  if f.kind == 0x09 then packFields [(0, 8, fr 0), (8, 8, f.p0.toNat), (16, 8, f.p1.toNat), (24, 4, fr 1)]
  else if f.kind == 0x0A then packFields [(8, 8, f.p0.toNat), (16, 8, f.p1.toNat), (24, 4, fr 1)]
  else if f.kind == 0x0B then packFields [(0, 8, fr 0), (8, 8, fr 1), (16, 8, fr 2), (24, 1, f.p0.toNat)]
  else if f.kind == 0x08 then packFields [(0, 8, fr 0), (8, 8, fr 1), (16, 8, fr 2), (24, 8, fr 3), (32, 8, fr 4), (40, 8, fr 5),
    (48, 2, f.p0.toNat), (50, 2, f.p1.toNat), (52, 4, fr 6)]
  else if f.kind == 0x0C then
    let d := f.p1.toNat
    packFields [(0, 1, f.qid), (4, 4, f.p0.toNat), (8, 1, d % 128), (9, 1, d / 256 % 2), (10, 1, d / 512 % 16), (11, 1, d / 8192 % 4)]
  else 0

/-- The Cernako resilience section (Table 14.7). -/
def FaultRec.section (f : FaultRec) : Nat :=
  let sweep := f.kind == 0x07 || f.kind == 0x08
  packFields [(0, 2, 1), (2, 1, f.kind), (3, 1, f.unitClass), (4, 2, f.phys.getD 0xFFFF), (6, 2, f.core.getD 0xFFFF), (8, 1, f.pan),
    (9, 1, f.bed), (10, 2, f.column), (12, 4, f.tide.toNat), (16, 8, f.time), (24, 2, f.action), (26, 2, f.events), (28, 2, f.rho),
    (30, 2, f.eps), (32, 4, f.placeEpoch.toNat), (36, 4, f.fwVersion.toNat),
    (40, 8, if sweep then (Config.freeWord (Config.freeKey 2 ((f.time * 8192 + f.phys.getD 8191) * 64 + 32))).toNat else 0),
    (48, 4, if sweep then (Config.freeWord (Config.freeKey 2 ((f.time * 8192 + f.phys.getD 8191) * 64 + 33))).toNat else 0), (52, 2, f.gen.toNat),
    (54, 1, if f.kind == 0x11 && f.p0 == 0x10 then f.p1.toNat else 0xFF)] + f.detail * 2 ^ 512

/-- The CPER export of a fault record, 328 bytes (R446, Table 14.6; the standard's own offsets: log 21). -/
def FaultRec.cper (f : FaultRec) (keyId : Nat) : Nat :=
  packFields [(0, 4, 0x52455043), (4, 2, 0x0101), (6, 4, 0xFFFFFFFF), (10, 2, 1), (12, 4, f.severity), (16, 4, 1), (20, 4, 328),
    (32, 16, keyId), (64, 16, 0x184f5d7be0c2159a4b8e7d043f6c2a91), (80, 16, 0x612b7a3c9e5da0b14f690c738e2d5b14),
    (96, 8, f.time), (128, 4, 200), (132, 4, 128), (140, 4, 1), (144, 16, 0x612b7a3c9e5da0b14f690c738e2d5b14),
    (176, 4, f.severity)] + f.section * 2 ^ 1600

/-- A fault record of the black box, 256 bytes (Table 16.5). -/
def FaultRec.boxBytes (f : FaultRec) (i : Nat) : Nat :=
  packFields [(0, 4, i), (4, 1, f.severity), (63, 1, 0x5A)] + f.section * 2 ^ 512

/-- The black-box header (Table 16.4). -/
def BlackBox.header (b : BlackBox) : Nat :=
  packFields [(0, 4, 0x42424E4A), (4, 2, b.faults.length), (6, 1, b.snaps.length), (7, 1, b.shutReason), (8, 4, b.faultsLost.toNat),
    (12, 4, b.snapsLost.toNat), (16, 8, b.clearTime), (24, 8, b.shutTime), (32, 8, b.shutAon), (40, 4, b.shutTide.toNat)]

/-- A session status record's bytes (Table 8.6): its fields are (offset, size, value). -/
def StatusRec.bytes (r : StatusRec) : Nat := packFields (r.fields.map (fun e => (e.1 / 16, e.1 % 16, e.2)))

/-- The 64-bit word at offset 8 × `w` of a snapshot (Table 16.6). -/
def Snapshot.word (x : Snapshot) (w : Nat) : W64 :=
  let o := 8 * w
  if o < 0x1000 then
    wordOf (packFields [(0, 1, x.trigger), (1, 1, x.safeReason), (2, 1, x.devState), (3, 1, 0x5A), (4, 4, x.tide.toNat), (8, 8, x.time),
      (16, 4, x.fwVersion.toNat), (20, 4, x.placeEpoch.toNat), (24, 2, x.gen.toNat), (26, 2, x.detail)]) w
  else if o < 0x41000 then
    match x.tail[(o - 0x1000) / 32]? with | none => 0 | some e => wordOf e.bytes ((o - 0x1000) % 32 / 8)
  else if o < 0x43000 then
    match x.status.find? (fun r => r.slot == (o - 0x41000) / 64) with
    | none => 0
    | some r => wordOf r.bytes ((o - 0x41000) % 64 / 8)
  else if o < 0x53000 then
    BitVec.ofNat 64 ((listed (x.images.map (fun e => (e.1, e.2.toNat))) (o - 0x43000) 0) +
      (listed (x.images.map (fun e => (e.1, e.2.toNat))) (o - 0x43000 + 4) 0) * 2 ^ 32)
  else if o < 0x63000 then
    match x.wfg with
    | none => 0
    | some g => match (g.records 2048 x.tide x.time)[(o - 0x53000) / 32]? with
      | none => 0
      | some e => wordOf e.bytes ((o - 0x53000) % 32 / 8)
  else 0

/-- The 64-bit word at byte offset `o` (a multiple of 8) of the black box (Table 16.3). -/
def BlackBox.word (b : BlackBox) (o : Nat) : W64 :=
  if o < 0x1000 then wordOf b.header (o / 8)
  else if o < 0x41000 then
    match b.faults[(o - 0x1000) / 256]? with
    | none => 0
    | some f => wordOf (f.boxBytes ((o - 0x1000) / 256)) ((o - 0x1000) % 256 / 8)
  else if o < 0x361000 then
    match b.snaps[(o - 0x41000) / 0x64000]? with
    | none => 0
    | some x => x.word ((o - 0x41000) % 0x64000 / 8)
  else 0

/-- A retirement list entry, 16 bytes (Table 14.3). -/
def RetireEntry.bytes (e : RetireEntry) : Nat :=
  packFields [(0, 1, if e.isLink then 2 else 1), (1, 1, e.kind), (2, 2, e.unit), (4, 4, e.tide.toNat), (8, 4, e.fw.toNat)]

end Sys2Proof.Machine
end

