-- ==== Sys2Proof/Machine/Pages.lean ====
section
/-! DEFINITION. The pages of the KV cache as bytes: their layout, and the scale groups in them (05_formats R155 to R157,
07_attention R215 to R218, R226). -/

namespace Sys2Proof

/-- Bytes of a scale group's values: 128 at K8B (format 5), 64 at K4B (R217). -/
def ModelRec.groupBytes (m : ModelRec) : Nat := if m.kvFormat == 5 then 128 else 64
/-- Bytes of a page (R217). -/
def ModelRec.pageBytes (m : ModelRec) : Nat := 512 * m.kvHeads * (m.groupBytes + 2)
/-- The offset in a page of the values of scale group `gi` (Table 7.1). -/
def ModelRec.valueOff (m : ModelRec) (gi : Nat) : Nat := gi * m.groupBytes
/-- The offset in a page of the scale code of scale group `gi` (Table 7.1). -/
def ModelRec.scaleOff (m : ModelRec) (gi : Nat) : Nat := 512 * m.kvHeads * m.groupBytes + 2 * gi
/-- The number of a scale group in its page: of a key or a value, of a head, of a position (Table 7.1). -/
def ModelRec.groupIndex (m : ModelRec) (isValue : Bool) (head : Nat) (pos : W32) : Nat :=
  ((if isValue then m.kvHeads else 0) + head) * 256 + pos.toNat % 256
/-- Bytes of a position's scale groups in one KV layer (R234). -/
def ModelRec.posBytes (m : ModelRec) : Nat := m.pageBytes / 256
/-- A group's codes packed (Table 5.3): a byte each at K8B, two to a byte at K4B, the even one low. -/
def ModelRec.pack (m : ModelRec) (codes : List Int) : List Byte :=
  if m.kvFormat == 5 then codes.map (BitVec.ofInt 8)
  else (List.range 64).map (fun i => BitVec.ofInt 4 (codes.getD (2 * i + 1) 0) ++ BitVec.ofInt 4 (codes.getD (2 * i) 0))
/-- The codes that packed bytes hold (Table 5.3). -/
def ModelRec.unpack (m : ModelRec) (l : List Byte) : List Int :=
  if m.kvFormat == 5 then l.map (fun b => b.toInt)
  else l.flatMap (fun b => [(b.extractLsb' 0 4).toInt, (b.extractLsb' 4 4).toInt])

end Sys2Proof

namespace Sys2Proof.Machine

/-- The MODEL record of the active plan. -/
def State.model (s : State) : Option ModelRec := match s.activePlan with | none => none | some p => p.img.map (·.model)

/-- The page size of the active plan; zero without one (Table 7.7). -/
def State.pageBytes (s : State) : Nat := match s.model with | none => 0 | some m => m.pageBytes

/-- The block of a position. -/
def blockOfPos (p : W32) : Nat := p.toNat / 256

/-! ### The groups in the pages (R155, R217, R226) -/

/-- Where a pool page lies in HBM (the device's choice, R36; log 25). -/
def pageAddr (page : Nat) : Nat := 2 ^ 96 + page * 2 ^ 21
/-- The page that holds a position's groups of a KV layer. -/
def Session.page (x : Session) (layer : Nat) (pos : W32) : Option Nat :=
  (x.blocks.find? (fun e => e.block == blockOfPos pos)).bind (fun e => e.pages[layer]?)

/-- A group of a sequence as its page holds it; a group that no page maps has the zero code. -/
def State.readGroup (s : State) (m : ModelRec) (x : Session) (layer : Nat) (isValue : Bool) (head : Nat) (pos : W32) : KvStored :=
  match x.page layer pos with
  | none => ⟨0, []⟩
  | some k =>
    let gi := m.groupIndex isValue head pos
    ⟨BitVec.ofNat 16 (leNat (s.memRead (pageAddr k + m.scaleOff gi) 2)),
      m.unpack (s.memRead (pageAddr k + m.valueOff gi) m.groupBytes)⟩

/-- A group written into its page, in place of the one its position held (R226). -/
def State.putGroup (s : State) (m : ModelRec) (x : Session) (layer : Nat) (isValue : Bool) (head : Nat) (pos : W32)
    (g : KvStored) : State :=
  match x.page layer pos with
  | none => s
  | some k =>
    let gi := m.groupIndex isValue head pos
    (s.memWrite (pageAddr k + m.valueOff gi) (m.pack g.codes)).memWrite (pageAddr k + m.scaleOff gi) (leBytes 2 g.scale.toNat)

/-- A block of 32 values of a group reads as zero from now on (Table 14.4). -/
def State.zeroBlock (s : State) (m : ModelRec) (x : Session) (layer : Nat) (isValue : Bool) (head : Nat) (pos : W32) (blk : Nat) :
    State :=
  match x.page layer pos with
  | none => s
  | some k =>
    let n := m.groupBytes / 4
    s.memWrite (pageAddr k + m.valueOff (m.groupIndex isValue head pos) + n * blk) (List.replicate n 0)

end Sys2Proof.Machine
end

