-- ==== Sys2Proof/Machine/Weights.lean ====
section
/-! DEFINITION. Weights: loading, broadcast, the host tier, adapters and the trust list (06_weights R180 to R214): rows
SHARD_READ_DONE to HOLD_EXPIRY, and what the writes of WGT_LOAD_CTRL and WGT_TRUST_CTRL do. -/

namespace Sys2Proof.Machine

/-! ### Starting a load (R189, R191) -/

/-- WGT_LOAD_STATUS.CODE shows a refusal; LOAD_FAIL is raised and START reads 0 (R189). -/
def State.refuseLoad (s : State) (code : Nat) : State :=
  ((s.setF .WGT_LOAD_STATUS 8 8 code).setF .WGT_LOAD_CTRL 0 1 0).raise .WGT_INT_STATUS .WGT_INT_ENABLE 2

/-- The code START is refused with, if it is (R189, R194, R207). A VERIFIED slot is refused as in use (log 16). -/
def State.loadRefusal (s : State) : Option Nat :=
  let mode := s.fld .WGT_LOAD_CTRL 2 2
  let slot := s.fld .WGT_LOAD_CTRL 5 1
  let id := s.fld .WGT_LOAD_CTRL 16 12
  if s.part == .jn8s && (mode == 1 || mode == 2) then some 0x0E
  else if s.wgt.load.isSome then some 0x26
  else if s.bit .WGT_LOAD_CTRL 4 then (if s.wgt.adapters.any (fun a => a.id == id) then some 0x26 else none)
  else if (s.wslot slot).state == .empty || (s.wslot slot).state == .failed then none
  else some 0x26

/-- WGT_LOAD_CTRL.START acts (R189): refused, or the slot is LOADING and the load begins. -/
def State.loadStart (s : State) : State :=
  match s.loadRefusal with
  | some c => s.refuseLoad c
  | none =>
    let adapter := s.bit .WGT_LOAD_CTRL 4
    let slot := s.fld .WGT_LOAD_CTRL 5 1
    let l : Load := { mode := s.fld .WGT_LOAD_CTRL 2 2, adapter := if adapter then some (s.fld .WGT_LOAD_CTRL 16 12) else none, slot := slot, start := s.now, lastPkt := s.now }
    let s := if adapter then s else s.updWslot slot (fun _ => { state := .loading })
    let s : State := { s with wgt.load := some l }
    (((s.setF .WGT_LOAD_STATUS 0 4 1).setF .WGT_LOAD_STATUS 8 8 0).setNum .WGT_SHARDS_TOTAL 0).setNum .WGT_SHARDS_OK 0

/-- WGT_LOAD_CTRL.ABORT acts: at the end of the step in progress or at the shard boundary (R193); a RECEIVE load, which
waits for what others send, has no step in progress and ends at once (DEDUCED, log 129). -/
def State.loadAbort (s : State) : State :=
  match s.wgt.load with
  | none => s.setF .WGT_LOAD_CTRL 1 1 0
  | some l =>
    let s := s.setF .WGT_LOAD_CTRL 1 1 0
    if l.mode == 2 then s.failLoad 0x2B else { s with wgt.load := some { l with abort := true } }

/-! ### Validation (Table 6.9) -/

/-- Every region of Table 6.2 but the slot being loaded, at its full size (R174). -/
def State.otherRegions (s : State) (slot : Nat) : Nat :=
  let other := s.wslot (1 - slot)
  4 * 2 ^ 30 + s.num .KVC_RESERVE_BYTES + s.num .WGT_ADAPTER_REGION + (if s.part == .jn8s then 0 else s.num .WGT_HOLD_BYTES) +
  (if s.num .WGT_HOST_TIER_LEN == 0 then 0 else 2 * 2 ^ 30) + (if other.state == .empty then 0 else other.hbmBytes)

/-- HBM left for a model in a slot (R174). -/
def State.capacity (s : State) (slot : Nat) : Nat := s.part.hbmBytes - s.otherRegions slot

/-- A plan slot whose plan names a model. -/
def State.planNaming (s : State) (m : BitVec 128) : Option (PlanSlot × PlanImage) :=
  [0, 1].findSome? (fun k => match (s.pslot k).img with
    | none => none
    | some i => if i.modelId == m then some (s.pslot k, i) else none)

/-- Layers that may go to the host tier, lowest-ranked first: the streamed layers of a plan that names the model; with no
such plan, the layers from the last one down (R180, log 17). -/
def State.tierOrder (s : State) (p : Package) : List Nat :=
  match s.planNaming p.modelId with
  | some (k, i) =>
    (sortBy (fun a b => decide (b.rank ≤ a.rank)) (i.layers.filter (fun l => k.streamed.contains l.layer))).map (fun l => l.layer)
  | none => ((p.shards.filter (fun e => e.role == 0)).map (·.layer)).eraseDups.reverse

/-- Layers to be placed in the host tier so that `need` bytes leave HBM; none when they do not suffice (R180). -/
def layersFor (p : Package) (order : List Nat) (need : Nat) : Option (List Nat) :=
  if need == 0 then some []
  else match order with
    | [] => none
    | n :: rest => (layersFor p rest (need - layerBytes p n)).map (fun l => n :: l)

/-- Step 6 for a model: the host-tier layers that make it fit, if it fits (R174, R180). -/
def State.fitModel (s : State) (l : Load) (p : Package) : Option (List Nat) :=
  let short := contentBytes p - s.capacity l.slot
  if short == 0 then some []
  else if s.num .WGT_HOST_TIER_LEN == 0 then none
  else layersFor p (s.tierOrder p) short

/-- Some slot holds the model structure `m`. -/
def State.hasModel (s : State) (m : BitVec 128) : Bool :=
  [0, 1].any (fun w => (s.wslot w).state != .empty && (s.wslot w).state != .loading && (s.wslot w).state != .failed && (s.wslot w).modelId == m)

/-- The factors of an adapter have the shapes of a plan's layers: for each adapted PAN layer, every row of A and of B once
(R206, R207). -/
def factorsFit (i : PlanImage) (p : Package) : Bool :=
  let adapted := (p.shards.map (·.layer)).eraseDups
  p.shards.all (fun e => e.role == 3 || e.role == 4) &&
  adapted.all (fun n => match layerOf i n with
    | none => false
    | some l => !l.wide && (itemsCarried p.shards n 3 (2 * p.rank)).any (fun x => sameSet x (List.range l.dIn)) &&
      (itemsCarried p.shards n 4 (2 * l.dOut)).any (fun x => sameSet x (List.range p.rank)))

/-- ST_WGT_ADAPTER at a load: the base model is in no slot, or a shape differs from that of its layer, which the plan that
names the model gives; with no such plan no shape is known (R207; log 126). -/
def State.adapterFits (s : State) (p : Package) : Bool :=
  s.hasModel p.base && (match s.planNaming p.base with | none => true | some (_, i) => factorsFit i p)

/-- (MODEL_ID, GEN) of a package is the pair that a RECEIVE load expects (R195). -/
def State.pairExpected (s : State) (modelId : BitVec 128) (gen : W16) : Bool :=
  s.num .WGT_RECV_MODEL_ID + s.num .WGT_RECV_MODEL_ID 0 1 * 2 ^ 64 == modelId.toNat && s.fld .WGT_RECV_GEN 0 16 == gen.toNat

/-- Step 1 of Table 6.9; a receiver skips the check against WGT_LOAD_LEN (R195). -/
def State.stepOne (s : State) (l : Load) (x : PackageFront) : Bool :=
  headerOk x && packageKind x == (if l.adapter.isSome then 2 else 1) && l.mode != 3 && (l.mode == 2 || decide (packageLen x ≤ s.num .WGT_LOAD_LEN))

/-- Steps 2 to 6 of Table 6.9, then ST_WGT_ADAPTER (R186, R195, R207, R211; log 126): the code of the first that fails. -/
def State.frontFault (s : State) (l : Load) (x : PackageFront) (p : Package) : Option Nat :=
  let model := l.adapter.isNone
  let used := [0, 1].any (fun w => (s.wslot w).state != .empty && !(model && w == l.slot) && (s.wslot w).modelId == p.modelId && (s.wslot w).gen == p.gen)
  if !s.mram.trust.contains (some (publisherDigest x)) then some 0x20
  else if !frontSigned x then some 0x20
  else if !manifestOk x || used || (l.mode == 2 && !s.pairExpected p.modelId p.gen) then some 0x22
  else if !p.shards.all shardFormatOk then some 0x24
  else if model && (s.fitModel l p).isNone then some 0x25
  else if !model && (decide (4096 ≤ s.wgt.adapters.length) ||
      decide (s.num .WGT_ADAPTER_REGION < (s.wgt.adapters.map (·.bytes)).sum + contentBytes p)) then some 0x28
  else if !model && !s.adapterFits p then some 0x27
  else none

/-! ### What a broadcaster sends (R194) -/

/-- Part `part` of the package goes out in packets of at most 4,096 bytes (R194, R331; log 134). -/
def State.sendPart (s : State) (part : Nat) (bytes : List Byte) : State :=
  let l := pieces 4096 (bytes.length / 4096 + 1) bytes
  s.each (l.zip (List.range l.length)) (fun e s =>
    s.bcast 9 (part :: e.2 * 4096 :: e.1.map (fun b => b.toNat)) (max 4 ((e.1.length + 15) / 16)) (e.2 + 1 == l.length))

/-- Numbers of the header, the manifest and the key table among the parts of a package, behind its shards (log 134). -/
def frontParts : List Nat := [65536, 65537, 65538]

/-- The number of a part. -/
def partNumber (p : BcastPart) : Nat :=
  match p with | .header => 65536 | .manifest => 65537 | .keytab => 65538 | .shard i => i

/-! ### Requests over the fabric (R192, R196, R197) -/

/-- Links to the one-hop neighbours, in plane order and within a plane in the order of Table 11.1 (R197). -/
def State.neighbourLinks (s : State) : List Nat := (List.range 36).filter (fun n => (s.link n).st == .up)

/-- The `k`-th request for a shard: three to the broadcaster, one to each neighbour, and again (R197). -/
def State.requestShard (s : State) (l : Load) (i k : Nat) : State :=
  let nb := s.neighbourLinks
  let j := k % (3 + nb.length)
  let pkt : Pkt := { type := 6, ver := s.fab.sysver, src := s.addr.getD 0, args := [i] }
  if j < 3 then
    match l.bcaster with
    | none => s
    | some a => (s.routePkt a { pkt with dst := a }).getD s
  else match nb[j - 3]? with
    | none => s
    | some n => match (s.link n).peer with
      | none => s
      | some h => s.sendOn n { pkt with dst := h.coord }

/-- Parts become wanted, each with its first request and its window (R196, R197). -/
def State.want (s : State) (l : Load) (parts : List Nat) : State :=
  let new := parts.filter (fun i => !l.wanted.any (fun w => w.shard == i))
  let l := { l with wanted := l.wanted ++ new.map (fun i => { shard := i, first := s.now, asked := s.now }) }
  ({ s with wgt.load := some l } : State).each new (fun i s => s.requestShard l i 0)

/-- The next request for a wanted shard, after one that did not deliver it (R192, R197). -/
def State.nextRequest (s : State) (l : Load) (i : Nat) : State :=
  match l.wanted.find? (fun w => w.shard == i) with
  | none => s
  | some w =>
    let l := { l with wanted := l.wanted.map (fun v => if v.shard == i then { v with sent := w.sent + 1, asked := s.now } else v) }
    ({ s with wgt.load := some l } : State).requestShard l i w.sent

/-! ### Shards (steps 8 and 9) -/

/-- Where a shard comes from. -/
inductive ShardFrom where
  | host | broadcast | request
deriving DecidableEq, Repr

/-- Every shard has passed: the slot or the adapter is VERIFIED, and a slot meets the plans (R191, R200, R207). -/
def State.loadVerified (s : State) (l : Load) (p : Package) : State :=
  let s : State := ({ s with wgt.load := none } : State).clearParts arriveBase 0 65539
  let s := ((s.setF .WGT_LOAD_STATUS 0 4 4).setF .WGT_LOAD_STATUS 8 8 0).setF .WGT_LOAD_CTRL 0 1 0
  let s := ((s.raise .WGT_INT_STATUS .WGT_INT_ENABLE 1).event 0x0601 0 l.named.1 l.named.2 p.gen.toNat).startHold
  match l.adapter with
  | some a =>
    { s with wgt.adapters := s.wgt.adapters ++ [{ id := a, base := p.base, gen := p.gen, rank := p.rank, bytes := contentBytes p, shards := p.shards }] }
  | none =>
    let host := (l.hostLayers.map (layerBytes p)).sum
    (s.updWslot l.slot (fun _ =>
      { state := .verified, modelId := p.modelId, gen := p.gen, manifestSha := p.manifestSha, hbmBytes := contentBytes p - host
        hostLayers := l.hostLayers, key := l.key, salt := p.salt, shards := p.shards })).meetPlans l.slot

/-- A shard that did not verify (R192, R196): a read from host memory is counted and made again up to three times, of the
broadcaster's own shards too (DEDUCED, log 128); an answer to a request is counted, and the next request goes out; one
that the broadcast brought is wanted at once. -/
def State.shardFailed (s : State) (l : Load) (i : Nat) (from_ : ShardFrom) : State :=
  match from_ with
  | .host =>
    let n := listed l.fails i 0 + 1
    let s : State := { s.bump .WGT_SHARD_RETRIES with wgt.load := some { l with fails := (i, n) :: l.fails.filter (fun e => e.1 != i) } }
    if 4 ≤ n then s.failLoad 0x23 i else s
  | .request => (s.bump .WGT_SHARD_RETRIES).nextRequest l i
  | .broadcast => s.want l [i]

/-- The content of a verified shard is written: to the master, or, of a host-tier layer, nowhere in HBM (R173, R180, R182). -/
def State.storeShard (s : State) (l : Load) (i : Nat) (e : ShardEntry) (c : List Byte) : State :=
  if l.hostLayers.contains e.layer then s.memWrite (shardAddr (hostBase l.slot) i) c
  else (s.memWrite (shardAddr l.base i) c).moves .house (.stack (s.someStack 19 i)) c.length

/-- The ciphertext of a verified shard is kept in the hold area of a receiver, while it has room (R198). -/
def State.holdShard (s : State) (l : Load) (i : Nat) (bytes : List Byte) : State :=
  let held := (l.held.map (·.2)).sum
  if l.mode != 2 || decide (s.num .WGT_HOLD_BYTES < held + bytes.length) then s
  else
    let h := l.held ++ [(i, bytes.length)]
    ({ s with
      wgt.load := some { l with held := h }
      wgt.serving := s.wgt.serving.map (fun (v : Serving) => { v with shards := h }) } : State).memWrite (shardAddr holdBase i) bytes

/-- A verified shard: kept, counted, sent on by a broadcaster, held by a receiver; with the last one the load ends (R190,
R191, R194, R198). -/
def State.shardTaken (s : State) (l : Load) (p : Package) (i : Nat) (e : ShardEntry) (bytes c : List Byte) : State :=
  let l := { l with ok := l.ok ++ [i], wanted := l.wanted.filter (fun w => w.shard != i) }
  let s : State := { (s.storeShard l i e c).bump .WGT_SHARDS_OK with wgt.load := some l }
  let s := (s.holdShard l i bytes).when (l.mode == 1) (fun s => s.sendPart i bytes)
  if l.ok.length == p.shards.length then (s.when (l.mode == 1) (fun s => s.bcast 10 [1])).loadVerified (s.wgt.load.getD l) p else s

/-- One shard as it came (steps 8 and 9): verified, failed for good, or to be had again; ABORT ends the load at the shard
boundary (R190, R192, R193). -/
def State.shard (s : State) (i : Nat) (from_ : ShardFrom) (bytes : List Byte) (dmaError : Bool := false) : State :=
  match s.wgt.load with
  | none => s
  | some l => match l.pkg, l.key with
    | some p, some key => match p.shards[i]? with
      | none => s
      | some e =>
        if l.ok.contains i || (l.mode == 1 && i != l.ok.length) then s
        else
          let s := s.when (from_ == .host) (fun s => (s.bump .CNT_PCIE_DMA_RD (e.clearLen + 48)).bump .CNT_T_DMA_RD (e.clearLen + 48))
          match if dmaError then none else openShard p key i e bytes with
          | none => if l.abort then s.failLoad 0x2B else s.shardFailed l i from_
          | some c =>
            if !contentOk e.format c then s.failLoad 0x24 i
            else if l.abort then s.failLoad 0x2B
            else s.shardTaken l p i e bytes c
    | _, _ => s

/-! ### The front of a package (steps 1 to 7) -/

/-- The front of a package has been read: steps 1 to 7, then the shards are fetched; ABORT ends the load at the end of
step 1, which its reading is part of (R190, R193). A broadcaster sends what it read and serves re-requests; a receiver
begins its hold area (R194, R198). -/
def State.front (s : State) (x : PackageFront) : State :=
  match s.wgt.load with
  | none => s
  | some l =>
    let p := manifestOf x.manifest
    if l.pkg.isSome then s
    else if !s.stepOne l x then s.failLoad 0x22
    else if l.abort then s.failLoad 0x2B
    else match s.frontFault l x p with
      | some c => s.failLoad c
      | none => match contentKey x s.keyId s.boot.identity.n s.boot.identity.d with
        | none => s.failLoad 0x21
        | some key =>
          let l := { l with pkg := some p, key := some key, hostLayers := if l.adapter.isSome then [] else (s.fitModel l p).getD [] }
          let sv : Serving := { modelId := p.modelId, gen := p.gen, broadcaster := l.mode == 1, total := p.shards.length }
          let s : State := { s with wgt.load := some l }
          let s := s.when (l.mode == 1 || l.mode == 2) (fun s => { s.clearShards holdBase with wgt.serving := some sv })
          let n := x.header.length + x.manifest.length + x.keytab.length
          let s := s.when (l.mode != 2) (fun s => (s.bump .CNT_PCIE_DMA_RD n).bump .CNT_T_DMA_RD n)
          let s := s.when (l.mode == 1) (fun s => ((s.sendPart 65536 x.header).sendPart 65537 x.manifest).sendPart 65538 x.keytab)
          (s.setF .WGT_LOAD_STATUS 0 4 3).setNum .WGT_SHARDS_TOTAL p.shards.length

/-- SHARD_READ_DONE (R190 to R193, R200): a part of the package read from host memory. -/
def execShardReadDone (t : Stamp) (part : PackagePart) (s : State) : Res :=
  answer t s fun s =>
    match s.wgt.load with
    | none => s
    | some l =>
      if l.mode == 2 then s
      else match part with
        | .front x => s.front x
        | .shard i x =>
          (s.when x.dmaError (fun s => (s.bump .HIF_DMA_ERRORS).raise .HIF_INT_STATUS .HIF_INT_ENABLE 4)).shard i .host x.bytes x.dmaError

/-! ### Broadcast (R194 to R199) -/

/-- BROADCAST_ANNOUNCE (R194): MODEL_ID, GEN and the own address, while the broadcaster serves re-requests. -/
def execBroadcastAnnounce (t : Stamp) (s : State) : Res :=
  answer t s fun s =>
    match s.wgt.serving with
    | none => s
    | some v => s.when v.broadcaster (fun s => s.bcast 10 [0, v.modelId.toNat, v.gen.toNat, (s.addr.getD 0).toNat])

/-- A receiving load in progress. -/
def State.receiving (s : State) : Option Load :=
  match s.wgt.load with
  | none => none
  | some l => if l.mode == 2 then some l else none

/-- A part of the package is complete. -/
def Load.has (l : Load) (part len : Nat) : Bool := listed l.parts part 0 == len

/-- The front of the package, once all of it has come. -/
def State.arrivedFront (s : State) (l : Load) : Option PackageFront :=
  let get := fun (part n : Nat) => s.memRead (shardAddr arriveBase part) n
  let h := get 65536 4096
  let m := field h 16 4
  let k := 528 * field h 20 4
  if l.has 65536 4096 && l.has 65537 m && l.has 65538 k then some ⟨h, get 65537 m, get 65538 k⟩ else none

/-- Bytes of a part have come over the fabric. -/
def State.arrivePart (s : State) (l : Load) (part off : Nat) (bytes : List Byte) : State :=
  let n := listed l.parts part 0 + bytes.length
  ({ s with wgt.load := some { l with parts := (part, n) :: l.parts.filter (fun e => e.1 != part) } } : State).memWrite
    (shardAddr arriveBase part + off) bytes

/-- Parts that have come are forgotten. -/
def State.dropParts (s : State) (parts : List Nat) : State :=
  let s := s.each parts (fun i s => s.clearParts arriveBase i 1)
  { s with wgt.load := s.wgt.load.map (fun (l : Load) => { l with parts := l.parts.filter (fun e => !parts.contains e.1) }) }

/-- The shards that have come whole are checked. -/
def State.takeShards (s : State) : State :=
  match s.wgt.load with
  | none => s
  | some l => match l.pkg with
    | none => s
    | some p => s.each ((List.range p.shards.length).zip p.shards) (fun e s =>
        s.when (!l.ok.contains e.1 && l.has e.1 (48 + e.2.clearLen)) (fun s =>
          let bytes := s.memRead (shardAddr arriveBase e.1) (48 + e.2.clearLen)
          (s.dropParts [e.1]).shard e.1 .broadcast bytes))

/-- Once the front has come whole it is checked, where it names the pair expected; that of another package is forgotten
(R195). -/
def State.takeFront (s : State) : State :=
  match s.receiving with
  | none => s
  | some l =>
    if l.pkg.isSome then s
    else match s.arrivedFront l with
      | none => s
      | some x =>
        let p := manifestOf x.manifest
        if l.bcaster.isNone && !s.pairExpected p.modelId p.gen then s.dropParts frontParts else s.front x

/-- Shards that have not come, or what has not come of the front, become wanted (R195 to R197; log 134). -/
def State.wantMissing (s : State) (l : Load) : State :=
  match l.pkg with
  | none => s.want l (frontParts.filter (fun i => (listed l.parts i 0 == 0) || (s.arrivedFront l).isNone))
  | some p => s.want l ((List.range p.shards.length).filter (fun i => !l.ok.contains i))

/-- BCAST_ANNOUNCEMENT (R195): one that names the expected pair is accepted. -/
def execBcastAnnouncement (t : Stamp) (link : LinkId) (h : PktHdr) (modelId : BitVec 128) (gen : W16) (s : State) : Res :=
  answer t s fun s =>
    s.arrival (.bcastAnnouncement t link h modelId gen) link.val h 10 (some ([0, modelId.toNat, gen.toNat, h.src.toNat])) (fun s =>
      match s.receiving with
      | none => s
      | some l => if s.pairExpected modelId gen then { s with wgt.load := some { l with bcaster := some h.src } } else s)

/-- Bytes of a broadcast for a receiver: those of the device whose broadcast it has accepted, or, before any announcement,
of one whose front may name the pair (R195). -/
def State.takeBcast (s : State) (h : PktHdr) (part off : Nat) (bytes : List Byte) : State :=
  match s.receiving with
  | none => s
  | some l =>
    if l.bcaster.any (fun a => a != h.src) then s
    else
      let s := s.arrivePart { l with lastPkt := s.now } part off bytes
      let s := s.takeFront
      let s : State := { s with wgt.load := s.wgt.load.map (fun (l : Load) => if l.pkg.isSome then { l with bcaster := some (l.bcaster.getD h.src) } else l) }
      s.takeShards

/-- BCAST_DATA_RECEIVED (R195, R196, R351). -/
def execBcastDataReceived (t : Stamp) (link : LinkId) (h : PktHdr) (part : BcastPart) (off : Nat) (bytes : List Byte) (s : State) : Res :=
  answer t s fun s =>
    s.arrival (.bcastDataReceived t link h part off bytes) link.val h 9 (some ((partNumber part) :: off :: bytes.map (fun b => b.toNat)))
      (fun s => s.takeBcast h (partNumber part) off bytes)

/-- The END marker for a receiver (R196, R197). -/
def State.takeEnd (s : State) (h : PktHdr) : State :=
  match s.receiving with
  | none => s
  | some l => if l.bcaster == some h.src then s.wantMissing { l with ended := true, lastPkt := s.now } else s

/-- BCAST_END (R196, R197). -/
def execBcastEnd (t : Stamp) (link : LinkId) (h : PktHdr) (s : State) : Res :=
  answer t s fun s => s.arrival (.bcastEnd t link h) link.val h 10 (some [1]) (fun s => s.takeEnd h)

/-- ABORT for a receiver (R199). -/
def State.takeAbort (s : State) (h : PktHdr) : State :=
  match s.receiving with
  | none => s
  | some l => if l.bcaster == some h.src then s.failLoad 0x2B else s

/-- BCAST_ABORT (R199). -/
def execBcastAbort (t : Stamp) (link : LinkId) (h : PktHdr) (s : State) : Res :=
  answer t s fun s => s.arrival (.bcastAbort t link h) link.val h 10 (some [2]) (fun s => s.takeAbort h)

/-- BCAST_SILENCE (R195, R196): no packet of the broadcast for 100 ms; announcements are none of its content (DEDUCED,
log 134). -/
def execBcastSilence (t : Stamp) (s : State) : Res :=
  answer t s fun s =>
    match s.receiving with
    | none => s
    | some l => if l.bcaster.isSome && decide (l.lastPkt + 100000000 ≤ s.now) then s.wantMissing l else s

/-- RECV_WAIT_EXPIRY (R195): no matching announcement within the wait. -/
def execRecvWaitExpiry (t : Stamp) (s : State) : Res :=
  answer t s fun s =>
    match s.receiving with
    | none => s
    | some l => if l.bcaster.isNone && l.pkg.isNone && decide (l.start + s.num .WGT_RECV_WAIT * 1000000 ≤ s.now) then s.failLoad 0x23 else s

/-- SHARD_REQUEST_WAIT_EXPIRY (R192, R197): the request has had no reply within WGT_RETRY_WAIT. -/
def execShardRequestWaitExpiry (t : Stamp) (index : Nat) (s : State) : Res :=
  answer t s fun s =>
    match s.receiving with
    | none => s
    | some l =>
      if l.wanted.any (fun w => w.shard == index && decide (w.asked + s.num .WGT_RETRY_WAIT * 1000000 ≤ s.now)) then
        (s.bump .WGT_SHARD_RETRIES).nextRequest l index
      else s

/-- A SHARD_RESP for a receiver (R192, R197; log 134): NOT_HELD ends the wait at once; a shard is checked, a part of the
front is kept. -/
def State.takeResp (s : State) (index : Nat) (x : Option (List Byte)) : State :=
  match s.receiving with
  | none => s
  | some l =>
    if !l.wanted.any (fun w => w.shard == index) then s
    else match x with
      | none => (s.bump .WGT_SHARD_RETRIES).nextRequest l index
      | some bytes =>
        if index < 65536 then s.shard index .request bytes
        else
          let s := (s.dropParts [index]).arrivePart
            { l with wanted := l.wanted.filter (fun w => w.shard != index), parts := l.parts.filter (fun e => e.1 != index) } index 0 bytes
          let s := s.takeFront.takeShards
          match s.receiving with
          | none => s
          | some l => if l.pkg.isSome then s.wantMissing l else s

/-- SHARD_RESP_RECEIVED (R192, R197). -/
def execShardRespReceived (t : Stamp) (link : LinkId) (h : PktHdr) (index : Nat) (x : Option (List Byte)) (s : State) : Res :=
  answer t s fun s => s.arrival (.shardRespReceived t link h index x) link.val h 11 none (fun s => s.takeResp index x)

/-- SHARD_TIMEOUT (R197): a wanted shard not verified within its window fails the load. -/
def execShardTimeout (t : Stamp) (index : Nat) (s : State) : Res :=
  answer t s fun s =>
    match s.receiving with
    | none => s
    | some l => match l.wanted.find? (fun w => w.shard == index) with
      | none => s
      | some w => if w.first + s.num .WGT_SHARD_TIMEOUT * 1000000 ≤ s.now then s.failLoad 0x23 index else s

/-- What the device has of a part that is asked for: the broadcaster re-reads it from host memory; a receiver has its hold
area (R198). -/
def State.heldPart (s : State) (index : Nat) (host : List Byte) : Option (List Byte) :=
  match s.wgt.serving with
  | none => none
  | some v =>
    if v.broadcaster then (if index < v.total || frontParts.contains index then some host else none)
    else (v.shards.find? (fun e => e.1 == index)).map (fun e => s.memRead (shardAddr holdBase index) e.2)

/-- A SHARD_REQ served, or answered with NOT_HELD (R198). -/
def State.takeReq (s : State) (h : PktHdr) (index : Nat) (host : List Byte) : State :=
  let pkt : Pkt := { type := 11, ver := s.fab.sysver, dst := h.src, src := s.addr.getD 0 }
  match s.heldPart index host with
  | none => (s.routePkt h.src { pkt with args := [index, 0] }).getD s
  | some bytes =>
    let own := (s.wgt.serving.map (fun (v : Serving) => v.broadcaster)).getD false
    let s := s.when own (fun s => (s.bump .CNT_PCIE_DMA_RD bytes.length).bump .CNT_T_DMA_RD bytes.length)
    let l := pieces 4096 (bytes.length / 4096 + 1) bytes
    (s.bump .WGT_SHARD_SERVED).each (l.zip (List.range l.length)) (fun e s =>
      (s.routePkt h.src { pkt with
        last := e.2 + 1 == l.length, len := max 4 ((e.1.length + 15) / 16), args := index :: 1 :: e.2 * 4096 :: e.1.map (fun b => b.toNat) }).getD s)

/-- SHARD_REQ_RECEIVED (R198). -/
def execShardReqReceived (t : Stamp) (link : LinkId) (h : PktHdr) (index : Nat) (host : List Byte) (s : State) : Res :=
  answer t s fun s => s.arrival (.shardReqReceived t link h index host) link.val h 6 none (fun s => s.takeReq h index host)

/-- HOLD_EXPIRY (R198): serving ends, the hold area is empty, HOLD_END. -/
def execHoldExpiry (t : Stamp) (s : State) : Res :=
  answer t s fun s =>
    match s.wgt.serving with
    | none => s
    | some v => match v.untilT with
      | none => s
      | some u =>
        if u ≤ s.now then (({ s with wgt.serving := none } : State).clearShards holdBase).raise .WGT_INT_STATUS .WGT_INT_ENABLE 64 else s

/-- Packets that waited in Standby are taken in order (R462). -/
def State.takeStandby (s : State) : State :=
  let l := s.fab.standby
  ({ s with fab.standby := [] } : State).each l (fun i s => match i with
    | .syncReqReceived _ k h n w op => (s.freeBuf k 5 h).takeSyncReq h n w op
    | .writeReceived _ k h n b o x => (s.freeBuf k 7 h).takeWrite k.val h n b o x
    | .reduceAddReceived _ k h n b o x => (s.freeBuf k 8 h).takeReduceAdd k.val h n b o x
    | .transitPacket _ k h y n a f => (s.freeBuf k y h).takeTransit k h y n a f
    | .bcastAnnouncement _ k h m g =>
      let s := s.freeBuf k 10 h
      match s.receiving with
      | none => s
      | some l => if s.pairExpected m g then { s with wgt.load := some { l with bcaster := some h.src } } else s
    | .bcastDataReceived _ k h p o x => (s.freeBuf k 9 h).takeBcast h (partNumber p) o x
    | .bcastEnd _ k h => (s.freeBuf k 10 h).takeEnd h
    | .bcastAbort _ k h => (s.freeBuf k 10 h).takeAbort h
    | .shardReqReceived _ k h n x => (s.freeBuf k 6 h).takeReq h n x
    | .shardRespReceived _ k h n x => (s.freeBuf k 11 h).takeResp n x
    | _ => s)

/-! ### The host tier (R180 to R183) -/

/-- Every step of the tide that has not completed ends with a status, delivers nothing and does not advance its commit
index (R183). -/
def State.failSteps (s : State) (code : Nat) : State :=
  s.each s.running (fun e s => s.updSess e.1 (fun x =>
    { x.endWork code 0 with steps := x.steps.map (fun t => if t.complete then t else { t with void := true }) }))

/-- Four failed reads of a layer: TIER_FAULT, its event, and the steps that need the layer end (R183). -/
def State.tierFailed (s : State) (layer : Nat) : State :=
  ((({ s with wgt.tierFault := true } : State).raise .WGT_INT_STATUS .WGT_INT_ENABLE 32).event 0x0604 0 layer).failSteps 0x2A

/-- The sealed shards of a layer decrypted, with their numbers; none where a tag is wrong or a shard is missing (R181, R187). -/
def openLayer (w : Slot) (key : List Byte) (ix : List (Nat × ShardEntry)) (sealed : List (List Byte)) : Option (List (Nat × List Byte)) :=
  match ix, sealed with
  | [], [] => some []
  | e :: ix, b :: sealed =>
    match decryptShard { modelId := w.modelId, salt := w.salt } key e.1 e.2 b, openLayer w key ix sealed with
    | some c, some l => some ((e.1, c) :: l)
    | _, _ => none
  | _, _ => none

/-- A read of a host-tier layer that is right: its copy is in the bounce region, for the next visit of each pan (R181,
R182); the count of failed reads and the wait end. -/
def State.tierRead (s : State) (layer : Nat) (shards : List (Nat × List Byte)) : State :=
  let wait := (s.wgt.tierWait.find? (fun e => e.1 == layer)).map (fun e => s.now - e.2)
  let s : State := { s with
    wgt.bounce := s.wgt.bounce.filter (fun (b : Bounce) => b.layer != layer) ++ [{ layer := layer }]
    wgt.tierWait := s.wgt.tierWait.filter (fun e => e.1 != layer)
    wgt.tierFails := s.wgt.tierFails.filter (fun e => e.1 != layer) }
  let s := s.each shards (fun e s => (s.memWrite (shardAddr bounceBase e.1) e.2).moves .house (.stack (s.someStack 19 e.1)) e.2.length)
  s.bump .WGT_HOST_TIER_WAIT_NS (wait.getD 0)

/-- HOST_TIER_READ_DONE (R181 to R183): the sealed shards of a layer, in the order of their numbers. Each set of four failed
reads of a tide is a fault. -/
def execHostTierReadDone (t : Stamp) (layer : Nat) (shards : List (List Byte)) (s : State) : Res :=
  answer t s fun s =>
    if !s.tierLayers.contains layer || s.num .WGT_HOST_TIER_LEN == 0 then s
    else
      let w := s.wslot (s.activeSlot.getD 0)
      let ix := ((List.range w.shards.length).zip w.shards).filter (fun e => e.2.layer == layer)
      let n := (shards.map (·.length)).sum
      let s := (s.bump .CNT_PCIE_DMA_RD n).bump .CNT_T_DMA_RD n
      match w.key.bind (fun k => openLayer w k ix shards) with
      | some l => s.tierRead layer l
      | none =>
        let n := listed s.wgt.tierFails layer 0 + 1
        let s : State := { s.bump .WGT_TIER_READ_FAULTS with
          wgt.tierFails := (if n == 4 then [] else [(layer, n)]) ++ s.wgt.tierFails.filter (fun e => e.1 != layer) }
        if n == 4 then s.tierFailed layer else s

/-! ### WGT_LOAD_CTRL, the trust list (R186, R204, R209, R214) -/

/-- RESTAGE acts: a RETIRED slot meets the plans again (R204). What becomes of one that no plan names the rule does not say:
it is VERIFIED and shows ST_WGT_PLAN_MISMATCH, as R200 has it of such a slot (DEDUCED, log 127). -/
def State.restage (s : State) : State :=
  let w := s.fld .WGT_LOAD_CTRL 5 1
  let s := s.setF .WGT_LOAD_CTRL 6 1 0
  if (s.wslot w).state == .retired then (s.updWslot w (fun x => { x with state := .verified })).meetPlans w else s

/-- Plans bound to a weight slot that is gone wait for a model again, and bind where another slot serves (R295). -/
def State.unbind (s : State) (w : Nat) : State :=
  s.each [0, 1] (fun k s =>
    if (s.pslot k).bound == some w && ((s.pslot k).state == .staging || (s.pslot k).state == .staged) then s.bindPlan k else s)

/-- RELEASE acts on the slot by its state (R204). -/
def State.wgtRelease (s : State) : State :=
  let w := s.fld .WGT_LOAD_CTRL 5 1
  let s := s.setF .WGT_LOAD_CTRL 7 1 0
  match (s.wslot w).state with
  | .retired | .verified | .failed => (s.updWslot w (fun _ => {})).dropContent w
  | .staged | .staging =>
    let s := s.endStaging (s.wslot w).pans
    ((({ s with wgt.heldFrom := none } : State).updWslot w (fun _ => {})).dropContent w).unbind w
  | .loading | .active | .empty => s

/-- ADAPTER_UNLOAD acts (R209). -/
def State.adapterUnload (s : State) : State :=
  let id := s.fld .WGT_LOAD_CTRL 16 12
  let s := s.setF .WGT_LOAD_CTRL 9 1 0
  { s with wgt.adapters := s.wgt.adapters.map (fun (a : Adapter) => if a.id == id then { a with retiring := true } else a) }

/-- WGT_TRUST_DIGEST as written. -/
def State.trustDigest (s : State) : BitVec 512 :=
  BitVec.ofNat 512 (((List.range 8).map (fun i => s.num .WGT_TRUST_DIGEST 0 i * 2 ^ (64 * i))).sum)

/-- WRITE or ERASE acts on the selected entry, not while a load reads its header (R186, R214). -/
def State.trustSet (s : State) (x : Option (BitVec 512)) : State :=
  if s.fld .WGT_LOAD_STATUS 0 4 == 1 then s
  else { s with mram.trust := s.mram.trust.set (s.fld .WGT_TRUST_CTRL 0 4) x }

/-- A write of WGT_HOST_TIER_ADDR ends a host-tier fault: TIER_FAULT is clear and reads count anew (R183, Table 6.12). -/
def State.tierWritten (s : State) : State :=
  ({ s with wgt.tierFault := false, wgt.tierFails := [] } : State).setF .WGT_INT_STATUS 5 1 0

end Sys2Proof.Machine
end

