-- ==== Sys2Proof/Machine/KvOps.lean ====
section
/-! DEFINITION. The KV cache: shape, pages, windows, charges, slides (07_attention R215 to R245) and attention over the
stored groups (R225 to R231). -/

namespace Sys2Proof.Machine

/-! ### Shape and budget (R215, R217, R233, R234) -/

/-- KV layers of the active plan. -/
def State.kvLayers (s : State) : Nat := match s.model with | none => 0 | some m => m.kvLayers

/-- HBM rate in bytes a nanosecond: 2.4 TB/s a stack (Table 1.1). -/
def stackRate : Nat := 2400
/-- The work-phase capacity: the HBM rate of the fitted stacks × (P − 0.7 ms) (R233). -/
def State.kvCapacity (s : State) : Nat := s.part.stacks * stackRate * (s.tide.len - 700000)
/-- The budget in effect at an edge, and BUDGET_CLAMPED (R233). -/
def State.judgeBudget (s : State) : State :=
  (s.setNum .KVC_BUDGET_EFF (min (s.num .KVC_BUDGET_BYTES) s.kvCapacity)).setF .KVC_STATUS 4 1
    (if s.kvCapacity < s.num .KVC_BUDGET_BYTES then 1 else 0)

/-! ### Positions, blocks and windows (R216, R223, R224) -/

/-- Blocks from block `a` forward to block `b`. -/
def blockDist (a b : Nat) : Nat := (b + 2 ^ 24 - a) % 2 ^ 24
/-- The position after the completed ones (R223). -/
def Session.next (x : Session) : W32 := x.commit + 1 + BitVec.ofNat 32 (x.done.filter (fun d => !d.prime)).length
/-- Blocks of a window whose newest position is `p`, the head block included (R224). -/
def Session.span (x : Session) (p : W32) : Nat :=
  blockDist (blockOfPos x.base) (blockOfPos p) + 1 + (if x.head.isSome then 1 else 0)
/-- Positions that a query at `p` sees (R225, R232). -/
def Session.seen (x : Session) (p : W32) : Nat :=
  (p - x.base).toNat + 1 + (match x.head with | none => 0 | some h => 256 - h.toNat % 256)
/-- The bucket of a step whose last query is at `p` (Table 7.4). -/
def Session.bucketAt (x : Session) (p : W32) : Nat :=
  ([4096, 8192, 32768, 131072, 524288, 1048576, 2097152].filter (fun n => decide (n < x.seen p))).length
/-- Pages a step reads up to position `p`: every block of the window, one page a KV layer (R231, R234). -/
def State.pagesTo (s : State) (x : Session) (p : W32) : Nat := x.span p * s.kvLayers
/-- The charge of a step of `count` positions from `first` (R234). -/
def State.charge' (s : State) (x : Session) (first : W32) (count : Nat) : Nat :=
  match s.model with
  | none => 0
  | some m => s.pagesTo x (first + BitVec.ofNat 32 (count - 1)) * m.pageBytes + count * m.kvLayers * m.posBytes
/-- The charge of one step at a window of `w` blocks (R235). -/
def State.chargeAt (s : State) (w : Nat) : Nat :=
  match s.model with
  | none => 0
  | some m => w * m.kvLayers * m.pageBytes + m.kvLayers * m.posBytes
/-- Blocks that positions enter and the sequence does not hold (R221). -/
def Session.newBlocks (x : Session) (first : W32) (count : Nat) : List Nat :=
  let b := blockOfPos first
  let n := blockDist b (blockOfPos (first + BitVec.ofNat 32 (count - 1))) + 1
  ((List.range n).map (fun i => (b + i) % 2 ^ 24)).filter (fun k => !x.blocks.any (fun e => e.block == k))

/-! ### The page pool (R219 to R222) -/

/-- Pages in use: those of every sequence, and those freed at the next edge. -/
def State.pagesUsed (s : State) : List Nat := s.withSess.flatMap (fun e => e.2.blocks.flatMap (·.pages)) ++ s.srv.limbo
/-- Free pages. -/
def State.pagesFree (s : State) : Nat := s.srv.poolPages - s.pagesUsed.length
/-- The lowest-numbered free pages (the device's choice, R221; log 25). -/
def State.pickPages (s : State) (n : Nat) : List Nat :=
  ((List.range (s.pagesUsed.length + n)).filter (fun k => !s.pagesUsed.contains k)).take n
/-- Pages of the blocks are allocated, one a KV layer each (R221). -/
def State.allocate (s : State) (q : Nat) (blocks : List Nat) : State :=
  s.each blocks (fun b s => s.updSess q (fun x => { x with blocks := x.blocks ++ [⟨b, s.pickPages s.kvLayers⟩] }))
/-- The pool is carved to the reservation and the page size in effect (R220). -/
def State.carve (s : State) : State :=
  { s with srv.poolPages := if s.pageBytes == 0 then 0 else s.num .KVC_RESERVE_BYTES / s.pageBytes }
/-- Open sequences (R257). -/
def State.sequences (s : State) : List (Nat × Session) :=
  s.withSess.filter (fun e => e.2.state == .opened || e.2.state == .closing)
/-- The reserve R of R242. -/
def State.genReserve (s : State) : Nat := s.openAll * s.kvLayers
/-- An exclusive sequence is open (R236). -/
def State.anyExclusive (s : State) : Bool := s.sequences.any (fun e => e.2.exclusive)

/-- A write of KVC_RESERVE_BYTES (R219, R220): it reads back at once, or is ignored with RESERVE_ERR. -/
def State.kvcReserve (s : State) (v : W64) : State :=
  let n := v.toNat
  let bounce := if s.num .WGT_HOST_TIER_LEN == 0 then 0 else 2 ^ 31
  let fixed := 2 ^ 32 + s.num .WGT_ADAPTER_REGION + (if s.part == .jn8s then 0 else s.num .WGT_HOLD_BYTES)
  let masters := s.wgt.slot0.hbmBytes + s.wgt.slot1.hbmBytes
  let ok := s.openAll == 0 && s.wgt.load.isNone && n != 0 && n % 2 ^ 30 == 0 && decide (n + fixed ≤ s.part.hbmBytes) &&
    decide (n + fixed + bounce + masters ≤ s.part.hbmBytes)
  if ok then s.setReg .KVC_RESERVE_BYTES v else s.raise .KVC_INT_STATUS .KVC_INT_ENABLE 16

/-! ### Slides (R239, Table 7.6) -/

/-- The oldest block that a slide may release, and whether it first makes a head: not one at or after `keep`. -/
def Session.canSlide (x : Session) (keep : Nat) : Bool :=
  let d := blockDist (blockOfPos x.base) keep
  let makesHead := x.policy == 1 && x.head.isNone && decide (1 < x.limit)
  x.policy != 2 && decide (d < 2 ^ 23) && decide ((if makesHead then 1 else 0) < d)

/-- One slide of a session: a block released, `s` and the head moved (Table 7.6). -/
def Session.slide (x : Session) : Session :=
  let b := blockOfPos x.base
  let makesHead := x.policy == 1 && x.head.isNone && decide (1 < x.limit)
  let gone := if makesHead then (b + 1) % 2 ^ 24 else b
  let base : W32 := BitVec.ofNat 32 ((gone + 1) % 2 ^ 24 * 256)
  { x with
    head := if makesHead then some x.base else x.head
    base := base
    blocks := x.blocks.filter (fun e => e.block != gone)
    events := x.events ||| 1 }

/-- A slide of queue pair `q`'s sequence, counted (R239). -/
def State.slideOne (s : State) (q : Nat) : State :=
  (((s.updSess q Session.slide).bump .KVC_SLIDES).bump .CNT_T_SLIDES 1 (s.fnOf q)).raise .KVC_INT_STATUS .KVC_INT_ENABLE 1

/-- The window is slid until it stays within W with the newest position at `last`, never past the block of `first`
(R239). -/
def State.slideTo (s : State) (q : Nat) (first last : W32) (fuel : Nat) : State :=
  match fuel with
  | 0 => s
  | fuel + 1 => match (s.qp q).session with
    | none => s
    | some x =>
      if decide (x.limit < x.span last) && x.canSlide (blockOfPos first) then (s.slideOne q).slideTo q first last fuel else s

/-- The sequence that holds the most blocks among those that can slide, the lowest slot at a tie (R239). -/
def State.mostBlocks (s : State) : Option Nat :=
  let can := s.sequences.filter (fun e => decide (0 < (e.2.next - e.2.base).toInt) && e.2.canSlide (blockOfPos (e.2.next - 1)))
  match can with
  | [] => none
  | e :: l => some (l.foldl (fun (b : Nat × Session) (f : Nat × Session) =>
      if b.2.blocks.length < f.2.blocks.length || (b.2.blocks.length == f.2.blocks.length && f.2.slot < b.2.slot) then f else b) e).1

/-- Windows are slid one block at a time until `n` pages are free; POOL_SHORT (R239, Table 7.8). -/
def State.slideFor (s : State) (n fuel : Nat) : State :=
  match fuel with
  | 0 => s
  | fuel + 1 =>
    if n ≤ s.pagesFree then s
    else match s.mostBlocks with
      | none => s
      | some q => ((s.slideOne q).setF .KVC_STATUS 3 1 1).slideFor n fuel

/-- A KV reset: pages of the sequence go to the next edge's free list, `s` becomes the next position, no head (R245,
R268). -/
def Session.kvReset (x : Session) : Session :=
  { x with blocks := [], segs := [], base := x.next, head := none, events := x.events ||| 2 }

/-! ### Attention (R225 to R231) -/

/-- Position `j` lies in the head (R224). -/
def Session.inHead (x : Session) (j : W32) : Bool :=
  match x.head with
  | none => false
  | some h => blockOfPos j == blockOfPos h && decide (h.toNat ≤ j.toNat)
/-- The causal mask (R225). -/
def Session.sees (x : Session) (p j : W32) : Bool :=
  decide (0 ≤ (p - j).toInt) && (decide (0 ≤ (j - x.base).toInt) || x.inHead j)
/-- The rotation index (Table 7.3). -/
def Session.rho (x : Session) (j : W32) : Nat :=
  match x.head with
  | none => (j - x.base).toNat
  | some h => if x.inHead j then (j - h).toNat else (j - x.base).toNat + 256

/-- The rotation of a vector of 128 (R228). -/
def rot (theta : List W32) (x : List W32) (rho : Nat) : List W32 :=
  let r := f32OfInt rho
  let cs := theta.map (fun th => (f32Cos (f32Mul r th), f32Sin (f32Mul r th)))
  let lo := x.take 64
  let hi := (x.drop 64).take 64
  let y := (lo.zip hi).zip cs
  y.map (fun e => f32Sub (f32Mul e.1.1 e.2.1) (f32Mul e.1.2 e.2.2)) ++
  y.map (fun e => f32Add (f32Mul e.1.1 e.2.2) (f32Mul e.1.2 e.2.1))

/-- A stored group read as binary32 (R149, R156). -/
def KvStored.values (g : KvStored) : List W32 := g.codes.map (scaledValue g.scale)

/-- The larger of two binary32 values. -/
def f32Max (a b : W32) : W32 := if f32Lt a b then b else a

/-- A partial result of attention: maximum, weight, weighted sum (R229). -/
abbrev Part' := W32 × W32 × List W32

/-- The merge of two partial results (R229). -/
def mergePart (a b : Part') : Part' :=
  let m := f32Max a.1 b.1
  let ca := f32Exp (f32Sub a.1 m)
  let cb := f32Exp (f32Sub b.1 m)
  (m, f32Add (f32Mul a.2.1 ca) (f32Mul b.2.1 cb),
    (a.2.2.zip b.2.2).map (fun e => f32Add (f32Mul e.1 ca) (f32Mul e.2 cb)))

/-- The logit of one key (R229, R230). -/
def keyLogit (theta q : List W32) (rho : Nat) (g : KvStored) : W32 :=
  if g.scale == 0 then 0
  else f32Mul (f32Sum ((q.zip (rot theta g.values rho)).map (fun e => f32Mul e.1 e.2))) 0x3DB504F3

/-- The part of one block: keys and values of its seen positions, ascending (R229, R230). -/
def blockPart (theta q : List W32) (l : List (Nat × KvStored × KvStored)) : Part' :=
  let xs := l.map (fun e => keyLogit theta q e.1 e.2.1)
  let m := match xs with | [] => 0 | x :: t => t.foldl f32Max x
  let es := xs.map (fun x => f32Exp (f32Sub x m))
  let vs := l.map (fun e => if e.2.2.scale == 0 then [] else e.2.2.values)
  (m, f32Sum es, (List.range 128).map (fun i =>
    f32Sum ((es.zip vs).map (fun e => if e.2.isEmpty then 0 else f32Mul e.1 (e.2.getD i 0)))))

/-- The blocks that a query at `p` may see, in window order: the head block first (R229). -/
def Session.windowBlocks (x : Session) (p : W32) : List Nat :=
  let b := blockOfPos x.base
  (x.head.map blockOfPos).toList ++ (List.range (blockDist b (blockOfPos p) + 1)).map (fun i => (b + i) % 2 ^ 24)
/-- The positions of a block that a query at `p` sees, ascending (R225, R229). -/
def Session.seenIn (x : Session) (p : W32) (b : Nat) : List W32 :=
  ((List.range 256).map (fun t => BitVec.ofNat 32 (b * 256 + t))).filter (x.sees p)

/-- The attention of one query head at position `p` over the stored groups of a layer and KV head (R229). -/
def State.attend (s : State) (m : ModelRec) (x : Session) (layer head : Nat) (qb : List W16) (p : W32) : List W32 :=
  let q := rot m.theta (qb.map f32OfBf16) (x.rho p)
  let groups := fun (b : Nat) => (x.seenIn p b).map (fun j =>
    (x.rho j, s.readGroup m x layer false head j, s.readGroup m x layer true head j))
  let parts := (((x.windowBlocks p).map groups).filter (fun l => !l.isEmpty)).map (blockPart m.theta q)
  match parts with
  | [] => []
  | pt :: _ =>
    let r : Part' := treeSum mergePart pt (parts.length + 1) parts
    r.2.2.map (fun o => f32Div o r.2.1)

/-- The scale codes of the groups that a step's queries up to `p` see in some layers, which it reads (R150, R230). -/
def State.scalesSeen (s : State) (m : ModelRec) (x : Session) (layers : List Nat) (p : W32) : List W16 :=
  (x.windowBlocks p).flatMap (fun b => (x.seenIn p b).flatMap (fun j => layers.flatMap (fun l =>
    (List.range m.kvHeads).flatMap (fun h => [false, true].map (fun v => (s.readGroup m x l v h j).scale)))))
/-- Held blocks in which no query up to `p` sees a position (R231). -/
def Session.masked (x : Session) (p : W32) : Nat :=
  (x.blocks.filter (fun e => decide (0 < blockDist (blockOfPos p) e.block) && decide (blockDist (blockOfPos p) e.block < 2 ^ 23))).length

end Sys2Proof.Machine
end

