-- ==== Sys2Proof/Machine/Queue.lean ====
section
/-! DEFINITION. Queue pairs, doorbells, admission and the checks of commands (08_serving R248 to R255, R259). -/

namespace Sys2Proof

/-- Bytes `off` to `off + n − 1` of ARGS. -/
def SrvCmd.arg (c : SrvCmd) (off n : Nat) : Nat := c.args.toNat / 2 ^ (8 * off) % 2 ^ (8 * n)
/-- ARGS is zero from byte `off` on. -/
def SrvCmd.argsEnd (c : SrvCmd) (off : Nat) : Bool := c.args.toNat / 2 ^ (8 * off) == 0
/-- A field of PARAM. -/
def SrvCmd.par (c : SrvCmd) (lo w : Nat) : Nat := c.param.toNat / 2 ^ lo % 2 ^ w
/-- Fields every command has (Table 8.2): offset, and whether it is good. -/
def SrvCmd.common (c : SrvCmd) : List (Nat × Bool) := [(1, decide (c.flags.toNat < 4)), (2, c.cid != 0xFFFF)]
/-- DATA_ADDR and DATA_LEN unused. -/
def SrvCmd.noData (c : SrvCmd) : List (Nat × Bool) := [(8, c.dataAddr == 0), (16, c.dataLen == 0)]
/-- PARAM unused. -/
def SrvCmd.noParam (c : SrvCmd) : List (Nat × Bool) := [(20, c.param == 0)]
/-- ARGS unused. -/
def SrvCmd.noArgs (c : SrvCmd) : List (Nat × Bool) := [(24, c.args == 0)]
/-- IRQ (Table 8.2). -/
def SrvCmd.irq (c : SrvCmd) : Bool := c.flags.getLsbD 1

/-- The pair that CREATE_QP describes (Table 8.3). -/
def SrvCmd.newQp (c : SrvCmd) : Machine.Qp :=
  { state := .ready, sqBase := BitVec.ofNat 64 (c.arg 0 8), cqBase := BitVec.ofNat 64 (c.arg 8 8), sqLog := c.arg 16 1
    cqLog := c.arg 17 1, vector := c.arg 18 2, mem := c.arg 20 1 % 2 == 1, lateDrop := c.arg 20 1 / 2 % 2 == 1 }

end Sys2Proof

namespace Sys2Proof.Machine

/-! ### Traffic counters (R496, R500) -/

/-- Bytes written to host memory for a function. -/
def State.dmaWr (s : State) (fn n : Nat) : State := (s.bump .CNT_PCIE_DMA_WR n).bump .CNT_T_DMA_WR n fn
/-- Bytes read from host memory for a function. -/
def State.dmaRd (s : State) (fn n : Nat) : State := (s.bump .CNT_PCIE_DMA_RD n).bump .CNT_T_DMA_RD n fn

/-! ### Rings (R249, R252, R253) -/

/-- Entries of the submission ring. -/
def Qp.sqSize (x : Qp) : Nat := 2 ^ x.sqLog
/-- Entries of the completion ring. -/
def Qp.cqSize (x : Qp) : Nat := 2 ^ x.cqLog
/-- Free completion entries. -/
def Qp.cqFree (x : Qp) : Nat := x.cqSize - (x.cqTail - x.cqHead)
/-- Records that are sure to come (R253): those made, those of commands that have ended, that of CLOSE, and that of the
command whose steps are planned. -/
def Qp.owed (x : Qp) : Nat :=
  x.recs.length + (match x.session with
    | none => 0
    | some y => (y.work.filter (fun w => w.done.isSome)).length + (if y.closing.isSome then 1 else 0) +
      (if y.openFirst.isSome then 1 else 0))
/-- Its work in this tide: it is READY, had a free entry at the edge, and one more record finds room (R250, R253). -/
def Qp.takesWork (x : Qp) : Bool := x.state == .ready && !x.cqFull && decide (x.owed < x.cqFree)
/-- The queue pair is its function's admin queue pair (R248). -/
def State.isAdmin (s : State) (q : Nat) : Bool := q == (s.share (s.fnOf q)).qpFirst
/-- Two byte ranges overlap: start and length. -/
def spansMeet (a b : Nat × Nat) : Bool := decide (a.1 < b.1 + b.2) && decide (b.1 < a.1 + a.2)
/-- The rings of a queue pair: start and length in bytes. -/
def Qp.spans (x : Qp) : List (Nat × Nat) := [(x.sqBase.toNat, 64 * x.sqSize), (x.cqBase.toNat, 32 * x.cqSize)]
/-- Rings asked for in device memory fit the ring area (R249, R384). -/
def State.ringsFit (s : State) (x : Qp) : Bool :=
  let taken := (s.qps.cells.filter (fun e => e.2.state != .free && e.2.mem)).flatMap (fun e => e.2.spans)
  x.spans.all (fun a => decide (a.1 + a.2 ≤ 0x10000000) && !taken.any (spansMeet a)) &&
  !spansMeet (x.sqBase.toNat, 64 * x.sqSize) (x.cqBase.toNat, 32 * x.cqSize)
/-- Vectors of a function (Table 12.3). -/
def vectorsOf (fn : Nat) : Nat := if fn == 0 then 2048 else 256

/-- A record for the next edge (R253, R255). -/
def State.post (s : State) (q : Nat) (c : Cpl) : State := s.updQp q (fun x => { x with recs := x.recs ++ [c] })

/-- A queue pair enters ERROR (R250, R252): nothing more is admitted; its session fails at the next edge (R257). -/
def State.queueError (s : State) (q value : Nat) : State :=
  let x := s.qp q
  let room := decide (x.recs.length < x.cqFree)
  let s := s.updQp q (fun x => { x with state := .error, rung := [], recs := if room then x.recs ++ [{ cid := 0xFFFF, status := 0x17, opcode := 0 }] else x.recs })
  let s : State := { s with srv.admitted := s.srv.admitted.filter (fun e => e.qid != q) }
  (s.event 0x0801 0x80 q (s.fnOf q) value).raise .SRV_INT_STATUS .SRV_INT_ENABLE 1 (s.fnOf q)

/-- A doorbell that is ignored (R251, R252). -/
def State.dbIgnored (s : State) (fn : Nat) : State := (s.bumpSrv .SRV_DB_IGNORED 1 fn).raise .SRV_INT_STATUS .SRV_INT_ENABLE 2 fn

/-- A submission tail (R252). -/
def State.sqRing (s : State) (q v : Nat) : State :=
  let x := s.qp q
  let d := (v + x.sqSize - x.sqTail % x.sqSize) % x.sqSize
  if x.sqSize ≤ v || decide (x.sqSize < x.sqTail - x.sqHead + d) then s.queueError q v
  else s.updQp q (fun x => { x with sqTail := x.sqTail + d, lastTail := v, rung := if d == 0 then x.rung else x.rung ++ [(s.now, d)] })

/-- A completion head (R253): entries up to it are free. -/
def State.cqRing (s : State) (q v : Nat) : State :=
  let x := s.qp q
  let d := (v + x.cqSize - x.cqHead % x.cqSize) % x.cqSize
  if x.cqSize ≤ v then s.queueError q v
  else s.updQp q (fun x => { x with cqHead := min x.cqTail (x.cqHead + d), lastHead := v })

/-- A doorbell write of both words acts (R251, R252); in Standby it wakes the device (R461). -/
def State.doorbell (s : State) (fn : Nat) (w : W64) : State :=
  let q := fldOf w 0 20
  let v := fldOf w 32 16
  let sh := s.share fn
  let own := decide (sh.qpFirst ≤ q) && decide (q < sh.qpFirst + sh.qpCount) && (s.qp q).state != .free
  let served := !s.safe || (fn == 0 && s.isAdmin q)
  let s := s.when (s.pwrState == 2) State.exitPower
  if !own || !served then s.dbIgnored fn
  else if (s.qp q).state == .error then s
  else if fldOf w 31 1 == 1 then s.cqRing q v else s.sqRing q v

/-- The doorbell latch of a function. -/
def State.latchOf (s : State) (fn : Nat) : Option W32 := Cells.get (fun _ => none) s.srv.latch fn
/-- It set. -/
def State.setLatch (s : State) (fn : Nat) (v : Option W32) : State :=
  { s with srv.latch := Cells.set (fun _ => none) s.srv.latch fn v }

/-- How an upper word, or both at once, act (R251). -/
def State.doorbellWrite (s : State) (fn : Nat) (d : DoorbellWrite) : State :=
  match d with
  | .whole w => s.doorbell fn w
  | .upper w => match s.latchOf fn with
    | none => s.dbIgnored fn
    | some l => (s.setLatch fn none).doorbell fn (BitVec.ofNat 64 (l.toNat + w.toNat * 2 ^ 32))

/-- DOORBELL_LOWER_WRITE (R251). -/
def execDoorbellLowerWrite (t : Stamp) (fn : FnId) (w : W32) (s : State) : Res :=
  answer t s fun s => s.when (s.fnLive fn.val) (fun s => s.setLatch fn.val (some w))

/-- SQ_DOORBELL (R251, R252): bit 31 of the word decides which ring the write names. -/
def execSqDoorbell (t : Stamp) (fn : FnId) (d : DoorbellWrite) (s : State) : Res :=
  answer t s fun s => s.when (s.fnLive fn.val) (fun s => s.doorbellWrite fn.val d)

/-- CQ_DOORBELL (R251, R253): bit 31 of the word decides which ring the write names. -/
def execCqDoorbell (t : Stamp) (fn : FnId) (d : DoorbellWrite) (s : State) : Res :=
  answer t s fun s => s.when (s.fnLive fn.val) (fun s => s.doorbellWrite fn.val d)

/-! ### The admin queue pair (R249, R376, R384) -/

/-- The admin pair that SRV_ADMQ_CTRL and the bases describe. -/
def State.adminQp (s : State) (fn : Nat) (w : W32) : Qp :=
  { state := .ready, sqBase := s.reg .SRV_ADMQ_SQ_BASE fn, cqBase := s.reg .SRV_ADMQ_CQ_BASE fn
    sqLog := w.toNat % 32, cqLog := w.toNat / 32 % 32, vector := w.toNat / 4096 % 2048, mem := w.getLsbD 11 }

/-- Every field of a value of SRV_ADMQ_CTRL lies in its range: ring sizes, vector, MEM (R249, R376, R384, R527). -/
def admqFits (fn : Nat) (x : Qp) : Bool :=
  decide (4 ≤ x.sqLog) && decide (x.sqLog ≤ 16) && decide (4 ≤ x.cqLog) && decide (x.cqLog ≤ 16) && decide (x.vector < vectorsOf fn) &&
  !(x.mem && fn != 0)

/-- The pair can be made: its fields and its bases (R249). -/
def State.adminOk (s : State) (fn : Nat) (x : Qp) : Bool :=
  admqFits fn x && x.sqBase.toNat % 4096 == 0 && x.cqBase.toNat % 4096 == 0 && (!x.mem || s.ringsFit x)

/-- A write of SRV_ADMQ_CTRL acts (Table 8.12): while ENABLE is 1 only a write that clears it counts, which frees the
pair; its other fields are then stored where they lie in their ranges (log 110). Else a value out of range is ignored
(R527). -/
def State.admqWrite (s : State) (fn : Nat) (w : W32) : State :=
  let q := (s.share fn).qpFirst
  let v := (w &&& 0x7FFFFF).toNat
  let x := s.adminQp fn w
  if s.bit .SRV_ADMQ_CTRL 10 fn then
    if w.getLsbD 10 then s
    else
      let v := if admqFits fn x then v else s.num .SRV_ADMQ_CTRL fn - 1024
      let s := (s.setNum .SRV_ADMQ_CTRL v fn).updQp q (fun _ => {})
      { s with srv.admitted := s.srv.admitted.filter (fun e => e.qid != q) }
  else if !admqFits fn x then s
  else if w.getLsbD 10 then
    if s.adminOk fn x then (s.setNum .SRV_ADMQ_CTRL v fn).updQp q (fun _ => x) else s
  else s.setNum .SRV_ADMQ_CTRL v fn

/-! ### Admission (R49, R51, R259) -/

/-- A stamp and function order (R259). -/
def Admitted.before (a b : Admitted) : Bool :=
  decide (a.stamp < b.stamp) || (a.stamp == b.stamp && (decide (a.fn < b.fn) || (a.fn == b.fn && decide (a.qid ≤ b.qid))))

/-- The entries whose stamps lie before the intake close are admitted at this edge: heads advance, and they are taken in
the order of R259. -/
def State.admitAll (s : State) (close : Nat) : State :=
  let mine := s.qps.cells.filter (fun e => e.2.state == .ready && e.2.rung.any (fun r => decide (r.1 < close)))
  s.each mine (fun e s =>
    let now := e.2.rung.filter (fun r => decide (r.1 < close))
    let n := (now.map (·.2)).sum
    let fn := s.fnOf e.1
    let new := now.flatMap (fun r => List.replicate r.2 (⟨r.1, fn, e.1⟩ : Admitted))
    let s := (s.updQp e.1 (fun x => { x with rung := x.rung.filter (fun r => !decide (r.1 < close)), sqHead := x.sqHead + n })).bumpSrv .SRV_CMDS n fn
    { s with srv.admitted := sortBy Admitted.before (s.srv.admitted ++ new) })

/-! ### The checks of Table 8.4 (R254, R255) -/

/-- The first bad field's offset (R254). -/
def firstBad (l : List (Nat × Bool)) : Option Nat :=
  match (l.filter (fun e => !e.2)).map (·.1) with
  | [] => none
  | x :: xs => some (xs.foldl min x)

/-- Opcodes of each queue (Tables 8.3 and 13.6). -/
def sessionOps : List Nat := [1, 2, 3, 4, 5, 6, 7, 8, 9]
/-- Maintenance commands. -/
def adminOps : List Nat := [0x40, 0x41, 0x42, 0x43]
/-- Firmware commands. -/
def fwOps : List Nat := [0x48, 0x49, 0x4A, 0x4B]

/-- The states of the device in which a firmware command is allowed (Table 13.6): HIF_DEV_STATE values. -/
def fwStates (op : Nat) : List Nat := if op == 0x48 then [1, 2] else if op == 0x4B then [0, 1, 2] else [2]

/-- What the state of the device alone answers (R399, R414, R471). -/
def State.stateCode (s : State) (op : Nat) : Option Nat :=
  if s.starting && op != 0x4B then some 0x03
  else if s.stopping then some 0x03
  else if s.safe && !fwOps.contains op then some 0x02
  else none

/-- Steps 1 to 3 of Table 8.4 after the state of the device. -/
def State.checkFront (s : State) (q op : Nat) : Option Nat :=
  let fn := s.fnOf q
  let st := (s.qp q).session.map (·.state)
  match s.stateCode op with
  | some c => some c
  | none =>
    if !(if s.isAdmin q then adminOps.contains op || fwOps.contains op else sessionOps.contains op) then some 0x10
    else if (op == 0x42 || fwOps.contains op) && fn != 0 then some 0x1A
    else if fwOps.contains op && !(fwStates op).contains s.devState then some 0x10
    else if op == 1 then (if st == some .closing || st == some .closed then some 0x12 else if st.isSome then some 0x13 else none)
    else if sessionOps.contains op then (if st == some .opened then none else some 0x12)
    else none

/-- A command's outcome: done with a record, or joined to the session's work without one. -/
inductive Served where
  | record (s : State) (status : Nat) (detail : Nat := 0)
  | quiet (s : State)

/-- Admission runs: in [T0, T0 + 0.2 ms) of a tide (R51), and before edge 0 at any time (R399). -/
def State.admitting (s : State) : Bool :=
  !s.tide.running || s.tide.first || (!s.tide.work && decide (s.now < s.num .TDE_EDGE_TIME + 200000))

/-- The admitted entry that the device takes next: the first in the order of R259 whose queue pair takes work (R253). -/
def State.nextAdmitted (s : State) : Option Admitted := s.srv.admitted.find? (fun e => (s.qp e.qid).takesWork)

/-- The device takes the next admitted entry, which holds command `c` of queue pair `q`: the state checks, the field checks
`bad`, and then `f`; a failed command has no effect but its record (R255). An entry whose queue pair takes no work, and every
one outside the admission window, waits for a later edge with its order and stamp (R51, R253). -/
def State.take (s : State) (q op : Nat) (c : SrvCmd) (bad : State → List (Nat × Bool)) (f : State → Served) : State :=
  match s.nextAdmitted with
  | none => s
  | some e =>
    if !s.admitting || e.qid != q || c.opcode.toNat != op then s
    else
      let s : State := { s with srv.admitted := s.srv.admitted.erase e }
      let s := s.when (!(s.qp q).mem) (fun s => s.dmaRd (s.fnOf q) 64)
      let out := match s.checkFront q op with
        | some code => Served.record s code
        | none => match firstBad (c.common ++ bad s) with
          | some off => .record s 0x11 off
          | none => f s
      match out with
      | .record s st d => s.post q { cid := c.cid, status := st, opcode := op, irq := c.irq, detail := d }
      | .quiet s => s

/-! ### Maintenance commands (R248 to R250, R277, R280) -/

/-- The QID of PARAM names a queue pair of the function other than its admin pair. -/
def State.qidOk (s : State) (q : Nat) (c : SrvCmd) : Bool :=
  let sh := s.share (s.fnOf q)
  decide (sh.qpFirst < c.par 0 20) && decide (c.par 0 20 < sh.qpFirst + sh.qpCount) && c.par 20 12 == 0

/-- CREATE_QP (R249, R376, R384). -/
def execCreateQp (t : Stamp) (qid : Qid) (c : SrvCmd) (s : State) : Res :=
  answer t s fun s => s.take qid.val 0x40 c
    (fun s => c.noData ++ [(20, s.qidOk qid.val c && (s.qp (c.par 0 20)).state == .free), (24, c.arg 0 8 % 4096 == 0),
      (32, c.arg 8 8 % 4096 == 0), (40, decide (4 ≤ c.arg 16 1) && decide (c.arg 16 1 ≤ 16)),
      (41, decide (4 ≤ c.arg 17 1) && decide (c.arg 17 1 ≤ 16)), (42, decide (c.arg 18 2 < vectorsOf (s.fnOf qid.val))),
      (44, decide (c.arg 20 1 < 4) && !(c.arg 20 1 % 2 == 1 && s.fnOf qid.val != 0)), (45, c.argsEnd 21)])
    (fun s => if c.newQp.mem && !s.ringsFit c.newQp then .record s 0x16 else .record (s.updQp (c.par 0 20) (fun _ => c.newQp)) 0)

/-- The pages of a sequence join those freed at the next edge (R45 step 5). -/
def State.dropPages (s : State) (x : Session) : State := { s with srv.limbo := s.srv.limbo ++ x.blocks.flatMap (·.pages) }

/-- DELETE_QP (R250, R257). -/
def execDeleteQp (t : Stamp) (qid : Qid) (c : SrvCmd) (s : State) : Res :=
  answer t s fun s => s.take qid.val 0x41 c
    (fun s => c.noData ++ [(20, s.qidOk qid.val c && (s.qp (c.par 0 20)).state != .free)] ++ c.noArgs)
    (fun s =>
      let x := s.qp (c.par 0 20)
      let busy := x.state == .ready && (x.session.map (fun y => y.state == .opened || y.state == .closing)).getD false
      if busy then .record s 0x13
      else
        let s := match x.session with | none => s | some y => s.dropPages y
        let s : State := { s with srv.admitted := s.srv.admitted.filter (fun e => e.qid != c.par 0 20) }
        .record (s.updQp (c.par 0 20) (fun _ => {})) 0)

/-- SET_REF_MODE (R166, R280): the mode of the device changes at the edge that admits the command. -/
def execSetRefMode (t : Stamp) (qid : Qid) (c : SrvCmd) (s : State) : Res :=
  answer t s fun s => s.take qid.val 0x42 c (fun _ => c.noData ++ [(20, c.par 1 31 == 0)] ++ c.noArgs)
    (fun s =>
      if s.fld .SRV_STATUS 7 1 == c.par 0 1 then .record s 0
      else .record ((s.setF .SRV_STATUS 7 1 (c.par 0 1)).each s.fns (fun fn s => s.raise .SRV_INT_STATUS .SRV_INT_ENABLE 4 fn)) 0)

/-- QUERY_SESSION (R277): the record is written at the edge after it. -/
def execQuerySession (t : Stamp) (qid : Qid) (c : SrvCmd) (s : State) : Res :=
  answer t s fun s => s.take qid.val 0x43 c (fun s => [(16, c.dataLen == 64), (20, s.qidOk qid.val c)] ++ c.noArgs)
    (fun s => .record (s.updQp qid.val (fun x => { x with queries := x.queries ++ [(c.dataAddr, c.par 0 20)] })) 0)

/-- UNKNOWN_OPCODE (R255): an opcode that no table gives. -/
def execUnknownOpcode (t : Stamp) (qid : Qid) (c : SrvCmd) (s : State) : Res :=
  answer t s fun s => s.when (!(sessionOps ++ adminOps ++ fwOps).contains c.opcode.toNat)
    (fun s => s.take qid.val c.opcode.toNat c (fun _ => []) (fun s => .record s 0x10))

end Sys2Proof.Machine
end

