-- ==== Sys2Proof/Machine/Sessions.lean ====
section
/-! DEFINITION. The commands of a session (08_serving R254 to R269, R528; rows OPEN_SESSION to SET_SAMPLING). -/

namespace Sys2Proof.Machine

/-! ### OPEN_SESSION (R208, R235, R236, R242, R257, R375) -/

/-- An ADAPTER_ID field in range (R208). -/
def adapterIdOk (a : Nat) : Bool := decide (a < 4096) || a == 0xFFFF
/-- An adapter a session may name now (R208). -/
def State.adapterUsable (s : State) (a : Nat) : Bool :=
  a == 0xFFFF || (match s.activeSlot with
    | none => false
    | some w => s.wgt.adapters.any (fun e => e.id == a && e.usable && !e.retiring && e.base == (s.wslot w).modelId))
/-- The shares let a function open another session (R375). -/
def State.shareOpen (s : State) (fn : Nat) : Bool :=
  let owed := ((s.fns.filter (fun g => g != fn)).map (fun g => (s.share g).sessRes - s.openOf g)).sum
  decide (s.openOf fn < (s.share fn).sessMax) && decide (s.openAll < 96) && decide (owed ≤ 96 - (s.openAll + 1))
/-- A window of `w` blocks opens as an ordinary sequence, as an exclusive one, or not (R235, R236, R242). -/
def State.kvAdmits (s : State) (w : Nat) : Option Bool :=
  let own := s.chargeAt w
  let eff := s.num .KVC_BUDGET_EFF
  let sum := (s.sequences.map (fun e => s.chargeAt e.2.limit)).sum
  if s.anyExclusive || decide (s.pagesFree < (s.openAll + 1) * s.kvLayers) then none
  else if eff < own then (if s.openAll == 0 && own ≤ s.kvCapacity then some true else none)
  else if sum + own ≤ eff then some false else none
/-- The lowest sequence slot that is free; a FAILED session keeps its slot until DELETE_QP (R257; log 82). -/
def State.freeSlot (s : State) : Option Nat := (List.range 96).find? (fun k => !s.withSess.any (fun e => e.2.slot == k))
/-- The session that OPEN_SESSION opens (R257, Table 8.3). -/
def newSession (slot : Nat) (c : SrvCmd) (excl : Bool) : Session :=
  { slot := slot, limit := c.par 0 15, policy := c.par 15 2, pinned := c.par 17 1 == 1, textOut := c.par 18 1 == 1
    audioOut := c.par 19 1 == 1, in24 := c.par 20 1 == 1, out24 := c.par 21 1 == 1, specMax := c.par 22 4
    draftLen := c.par 22 4, adapter := c.arg 0 2, statusAddr := c.dataAddr, exclusive := excl }
/-- An opening refused for capacity (R235). -/
def State.refused (s : State) (fn : Nat) (byKv : Bool) : State :=
  let s := s.bump .CNT_T_REFUSALS 1 fn
  s.when byKv (fun s => (s.bump .KVC_REFUSALS).raise .KVC_INT_STATUS .KVC_INT_ENABLE 2)

/-- OPEN_SESSION after its checks. -/
def State.openSession (s : State) (q : Nat) (c : SrvCmd) : Served :=
  let fn := s.fnOf q
  if !s.adapterUsable (c.arg 0 2) then .record s 0x27
  else if s.model.isNone || !s.shareOpen fn then .record (s.refused fn false) 0x16
  else match s.kvAdmits (c.par 0 15), s.freeSlot with
    | none, _ => .record (s.refused fn true) 0x16
    | some _, none => .record (s.refused fn false) 0x16
    | some e, some slot => .record (s.exitPower.updQp q (fun x => { x with session := some (newSession slot c e) })) 0

/-- OPEN_SESSION (R257). -/
def execOpenSession (t : Stamp) (qid : Qid) (c : SrvCmd) (s : State) : Res :=
  answer t s fun s => s.take qid.val 1 c
    (fun _ => [(8, c.dataAddr.toNat % 64 == 0), (16, c.dataLen == 64), (20, decide (1 ≤ c.par 0 15) && decide (c.par 0 15 ≤ 16384) &&
      decide (c.par 15 2 ≤ 2) && decide (c.par 22 4 ≤ 8) && (c.par 18 2 != 0) && c.par 26 6 == 0), (24, adapterIdOk (c.arg 0 2)), (26, c.argsEnd 2)])
    (fun s => s.openSession qid.val c)

/-! ### Work commands (R258, R261, R262) -/

/-- Bytes of a frame (R262). -/
def frameBytes (r24 : Bool) : Nat := if r24 then 960 else 640
/-- A work command joins its session's work (R259). -/
def State.enqueue (s : State) (q : Nat) (w : Work) : Served := .quiet (s.updSess q (fun x => { x with work := x.work ++ [w] }))
/-- The work record of a command. -/
def workOf (c : SrvCmd) : Work := { opcode := c.opcode.toNat, flags := c.flags.toNat, cid := c.cid, deadline := c.deadline }
/-- A field of the session of a queue pair. -/
def State.sess? (s : State) (q : Nat) : Option Session := (s.qp q).session
/-- Input frames in DATA_LEN are whole, 1 to 16 (R262). -/
def State.framesOk (s : State) (q : Nat) (c : SrvCmd) : Bool :=
  let f := frameBytes ((s.sess? q).map (·.in24) |>.getD false)
  c.dataLen.toNat % f == 0 && decide (1 ≤ c.dataLen.toNat / f) && decide (c.dataLen.toNat / f ≤ 16)

/-- AUDIO_IN (R261, R262). -/
def execAudioIn (t : Stamp) (qid : Qid) (c : SrvCmd) (positions : List W32) (s : State) : Res :=
  answer t s fun s => s.take qid.val 2 c (fun s => [(16, s.framesOk qid.val c)] ++ c.noParam ++ c.noArgs)
    (fun s =>
      if !((s.model.map (·.audioFrontEnd)).getD false) then .record s 0x0E 1
      else (s.exitPower.dmaRd (s.fnOf qid.val) c.dataLen.toNat).enqueue qid.val
        { workOf c with input := positions, frames := c.dataLen.toNat / frameBytes ((s.sess? qid.val).map (·.in24) |>.getD false) })

/-- TEXT_IN (R261). -/
def execTextIn (t : Stamp) (qid : Qid) (c : SrvCmd) (tokens : List W32) (s : State) : Res :=
  answer t s fun s => s.take qid.val 3 c
    (fun _ => [(16, c.dataLen.toNat % 4 == 0 && decide (4 ≤ c.dataLen.toNat) && decide (c.dataLen.toNat ≤ 1048576))] ++ c.noParam ++ c.noArgs)
    (fun s => (s.exitPower.dmaRd (s.fnOf qid.val) c.dataLen.toNat).enqueue qid.val { workOf c with input := tokens })

/-- PROMPT (R261). -/
def execPrompt (t : Stamp) (qid : Qid) (c : SrvCmd) (s : State) : Res :=
  answer t s fun s => s.take qid.val 4 c (fun _ => c.noData ++ c.noParam ++ c.noArgs) (fun s => s.enqueue qid.val (workOf c))

/-- GENERATE (R258, R263, R264). -/
def execGenerate (t : Stamp) (qid : Qid) (c : SrvCmd) (s : State) : Res :=
  answer t s fun s => s.take qid.val 5 c
    (fun s => [(16, c.dataLen.toNat % 4 == 0), (20, c.par 16 16 == 0),
      (32, c.arg 8 4 % frameBytes ((s.sess? qid.val).map (·.out24) |>.getD false) == 0), (36, c.argsEnd 12)])
    (fun s => s.enqueue qid.val { workOf c with
      dataAddr := c.dataAddr, dataLen := c.dataLen.toNat, maxTokens := c.par 0 16
      audioAddr := BitVec.ofNat 64 (c.arg 0 8), audioLen := c.arg 8 4 })

/-! ### Control commands (R257, R268, R269) -/

/-- A command that CANCEL acts on (R268). -/
def cancelHits (scope : Nat) (target : Nat) (w : Work) : Bool := w.done.isNone && (scope != 0 || w.cid.toNat == target)
/-- A session after CANCEL of its scope (R268): commands end, a running step's output is dropped. -/
def Session.cancel (x : Session) (scope target : Nat) : Session :=
  let headHit := (x.work.head?.map (cancelHits scope target)).getD false
  let x : Session :=
    { x with
      work := x.work.map (fun w => if cancelHits scope target w then { w with done := some (0x14, 0) } else w)
      steps := if headHit then x.steps.map (fun t => { t with cancelled := true }) else x.steps }
  if scope == 2 then x.kvReset else x

/-- CANCEL (R268). -/
def execCancel (t : Stamp) (qid : Qid) (c : SrvCmd) (s : State) : Res :=
  answer t s fun s => s.take qid.val 6 c
    (fun _ => c.noData ++ [(20, decide (c.par 0 2 ≤ 2) && c.par 2 30 == 0), (24, c.par 0 2 == 0 || c.arg 0 2 == 0), (26, c.argsEnd 2)])
    (fun s => match s.sess? qid.val with
      | none => .record s 0x12
      | some x =>
        let n := (x.work.filter (cancelHits (c.par 0 2) (c.arg 0 2))).length
        let s := s.when (c.par 0 2 == 2) (fun s => s.dropPages x)
        .record ((s.updSess qid.val (fun x => x.cancel (c.par 0 2) (c.arg 0 2))).bumpSrv .SRV_CANCELLED n (s.fnOf qid.val)) 0 n)

/-- CLOSE (R257): its record comes when the session is CLOSED. -/
def execClose (t : Stamp) (qid : Qid) (c : SrvCmd) (s : State) : Res :=
  answer t s fun s => s.take qid.val 7 c (fun _ => c.noData ++ c.noParam ++ c.noArgs)
    (fun s => .quiet (s.updSess qid.val (fun x =>
      { x with state := if x.work.isEmpty then .closed else .closing, closing := some (c.cid, c.irq) })))

/-- SET_ADAPTER (R208). -/
def execSetAdapter (t : Stamp) (qid : Qid) (c : SrvCmd) (s : State) : Res :=
  answer t s fun s => s.take qid.val 8 c (fun _ => c.noData ++ c.noParam ++ [(24, adapterIdOk (c.arg 0 2)), (26, c.argsEnd 2)])
    (fun s => if s.adapterUsable (c.arg 0 2) then .record (s.updSess qid.val (fun x => { x with adapter := c.arg 0 2 })) 0 else .record s 0x27)

/-- Sampling settings as SET_SAMPLING carries them (Table 8.9). -/
def samplingOf (c : SrvCmd) : Sampling :=
  { temp := BitVec.ofNat 32 (c.arg 0 4), topP := BitVec.ofNat 32 (c.arg 4 4), rep := BitVec.ofNat 32 (c.arg 8 4)
    pres := BitVec.ofNat 32 (c.arg 12 4), freq := BitVec.ofNat 32 (c.arg 16 4), topK := c.arg 20 2, history := c.arg 22 2
    seed := BitVec.ofNat 64 (c.arg 24 8), stop0 := BitVec.ofNat 32 (c.arg 32 4), stop1 := BitVec.ofNat 32 (c.arg 36 4)
    includeInput := c.par 0 1 == 1 }

/-- The ranges of Table 8.9; positive binary32 numbers are ordered as their patterns. -/
def samplingFields (c : SrvCmd) : List (Nat × Bool) :=
  let inR := fun (v lo hi : Nat) => decide (lo ≤ v) && decide (v ≤ hi)
  [(24, c.arg 0 4 % 2 ^ 31 == 0 || inR (c.arg 0 4) 0x37800000 0x47800000), (28, inR (c.arg 4 4) 1 0x3F800000),
    (32, inR (c.arg 8 4) 0x3D800000 0x41800000), (36, decide (c.arg 12 4 % 2 ^ 31 ≤ 0x42800000)),
    (40, decide (c.arg 16 4 % 2 ^ 31 ≤ 0x42800000)), (44, inR (c.arg 20 2) 1 256)]

/-- SPEC_MAX is restored (R274). -/
def Session.restoreSpec (x : Session) : Session := { x with draftLen := x.specMax, specOff := false, rejectRun := 0 }

/-- SET_SAMPLING (R269, R274). -/
def execSetSampling (t : Stamp) (qid : Qid) (c : SrvCmd) (s : State) : Res :=
  answer t s fun s => s.take qid.val 9 c (fun _ => c.noData ++ [(20, c.par 1 31 == 0)] ++ samplingFields c)
    (fun s => .record (s.updSess qid.val (fun x => { x with sampling := samplingOf c }.restoreSpec)) 0)

end Sys2Proof.Machine
end

