-- ==== Sys2Proof/Machine/Vector.lean ====
section
/-! DEFINITION. The operations of the vector engine on a core's SRAM: dequantisation, adapters, the A8S quantiser, wide
layers, the stored scale groups and attention (04_correction R135; 05_formats R143, R148 to R161; 06_weights R206;
07_attention R226, R229). -/

namespace Sys2Proof.Machine

/-! ### Arrays in core SRAM -/

/-- `n` binary32 elements of a core's SRAM from offset `off` on. -/
def State.floats (s : State) (core off n : Nat) : List W32 :=
  (leSplit 4 n (s.memRead (sramAddr core off) (4 * n))).map (BitVec.ofNat 32)

/-- Binary32 elements written. -/
def State.putFloats (s : State) (core off : Nat) (l : List W32) : State :=
  s.memWrite (sramAddr core off) (leFields 4 (l.map (·.toNat)))

/-- A scale code in a core's SRAM. -/
def State.scaleAt (s : State) (core off : Nat) : W16 := BitVec.ofNat 16 (leNat (s.memRead (sramAddr core off) 2))

/-- int8 elements of a core's SRAM. -/
def State.int8s (s : State) (core off n : Nat) : List Int := (s.memRead (sramAddr core off) n).map (fun b => b.toInt)

/-- A word rounded to bfloat16, as binary32 (R158). -/
def f32ToBf16 (a : W32) : W32 := f32OfBf16 (Fp.toBf16 (.ofF32 a))

/-- A scale code as it is used: one that is never written reads as the zero code, and is recorded with its format (R150). -/
def State.useScale (s : State) (core : Nat) (format : Nat) (c : W16) : State × W16 :=
  if scaleCodeOk c then (s, c) else (s.event 0x0501 0x80 core c.toNat format, 0)

/-! ### Matrix products of the wide arithmetic (R158, R159) -/

/-- Σ x·w in the fixed tree, of bfloat16 operands. -/
def dotBf16 (x w : List W32) : W32 := f32Sum ((x.zip w).map (fun e => f32Mul e.1 e.2))

/-- The elements of a list that are all there. -/
def allSome {α : Type} (l : List (Option α)) : Option (List α) :=
  match l with
  | [] => some []
  | none :: _ => none
  | some x :: l => (allSome l).map (fun r => x :: r)

/-- Columns `first` to `first + n - 1` of the `rows` rows of a layer's BF16 weights in a role, as rows of binary32. -/
def State.weightRows (s : State) (m : Master) (layer role width rows first n : Nat) : Option (List (List W32)) :=
  allSome ((List.range rows).map (fun k => (s.weightRow m layer role width k).map (fun r => ((r.drop first).take n).map f32OfBf16)))

/-- x·W for the columns of some rows. -/
def timesRows (x : List W32) (rows : List (List W32)) (n : Nat) : List W32 :=
  (List.range n).map (fun j => dotBf16 x (rows.map (fun r => r.getD j 0)))

/-- The contribution of an adapter (R206): u from the A8S vector `x` under `sx`; none where its shards do not carry the
layer's factors. -/
def State.adapterOut (s : State) (a : Adapter) (l : LayerRec) (x : List Int) (sx : W16) : Option (List W32) :=
  let m : Master := ⟨a.shards, adapterBase a.id⟩
  match s.weightRows m l.layer 3 a.rank l.dIn 0 a.rank, s.weightRows m l.layer 4 l.dOut a.rank 0 l.dOut with
  | some A, some B =>
    let h := timesRows (x.map (fun q => f32ToBf16 (scaledValue sx q))) A a.rank
    some (timesRows (h.map f32ToBf16) B l.dOut)
  | _, _ => none

/-! ### Functions of elements (R160) -/

/-- A function of one argument. -/
def vecFun (f : VecFun) (a : W32) : W32 :=
  match f with
  | .exp => f32Exp a
  | .recip => f32Recip a
  | .rsqrt => f32Rsqrt a
  | .sigmoid => f32Sigmoid a
  | .sin => f32Sin a
  | .cos => f32Cos a
  | .neg => (Fp.negate (.ofF32 a)).toF32
  | .bf16 => f32ToBf16 a

/-- A function of two arguments. -/
def vecBin (f : VecBin) (a b : W32) : W32 :=
  match f with
  | .add => f32Add a b
  | .sub => f32Sub a b
  | .mul => f32Mul a b
  | .div => f32Div a b
  | .max => f32Max a b

/-! ### Scale groups (R151, R155, R226) -/

/-- A group as it is stored: its scale code and codes. -/
def storeGroup (m : ModelRec) (elems : List W32) : KvStored :=
  let q := quantise elems (if m.kvFormat == 5 then 127 else 7)
  ⟨q.1, q.2⟩

/-- Saturation codes written: element 0 A8S, 1 K8B, 2 K4B (R152). -/
def State.satCodes (s : State) (ix n fn : Nat) : State := (s.bump .CNT_QSAT n 0 ix).bump .CNT_T_QSAT n fn ix

/-- A scale group of a position, layer and head of a step is written (R226). -/
def State.writeGroup (s : State) (q : Nat) (m : ModelRec) (x : Session) (p : Step) (layer : Nat) (isValue : Bool) (head : Nat) (pos : W32)
    (elems : List W32) : State :=
  if layer < m.kvLayers && head < m.kvHeads && decide ((pos - p.first).toNat < p.count) then
    let g := storeGroup m elems
    (s.putGroup m x layer isValue head pos g).when (g.scale == 0xFF7F) (fun s => s.satCodes (if m.kvFormat.toNat == 5 then 1 else 2) 1 (s.fnOf q))
  else s

/-! ### The operations -/

/-- What the operations of a step leave for its outcome: the positions whose A8S vectors carried the saturation code
(R154), and the logits with their positions and first tokens. -/
structure VecOut where
  sats : List W32 := []
  logits : List (W32 × Nat × List W32) := []
deriving DecidableEq, Repr

/-- The arrays of an operation on a layer lie in core SRAM. -/
def layerFits (l : LayerRec) (o : VecOp) : Bool :=
  match o with
  | .adapter _ x _ dst => inSram x l.dIn && inSram dst (4 * l.dOut)
  | .wide _ _ n src dst => inSram src (4 * l.dIn) && inSram dst (4 * n)
  | .embed _ _ dst => inSram dst (4 * l.dOut)
  | _ => true

/-- The dequantised values of a tile: those of its used columns, from the sums in a destination buffer (R134, R135). -/
def State.dequantTile (s : State) (c : Nat) (l : LayerRec) (tile buf sx dst : Nat) : State :=
  let r := s.buffer buf
  let (s, k) := s.useScale c 4 (s.scaleAt c sx)
  let n := min 512 (l.dOut - 512 * tile)
  let z := (leSplit 8 n (s.memRead r.base (8 * n))).map (fun v => (BitVec.ofNat 64 v).toInt)
  (s.putFloats c dst ((z.zip (List.range n)).map (fun e => dequant e.1 (eaccAt l (512 * tile + e.2)) k))).moves r.place (.core c) (8 * rowWords)

/-- The bytes of `n` BF16 weights have come to a core from a stack. -/
def State.weightsIn (s : State) (c n : Nat) : State := s.moves (.stack (s.masterStack c)) (.core c) (2 * n)

/-- The layer that an operation names, where it is there and the operation fits it. -/
def fitLayer (i : PlanImage) (n : Nat) (o : VecOp) : Option LayerRec := (layerOf i n).filter (fun l => layerFits l o)

/-- An adapter's contribution added to `l.dOut` values (R206). -/
def State.adapterOp (s : State) (c : Nat) (p : Step) (l : LayerRec) (xa sx dst : Nat) : State :=
  match s.wgt.adapters.find? (fun a => a.id == p.adapter) with
  | none => s
  | some a =>
    let (s, k) := s.useScale c 4 (s.scaleAt c sx)
    match s.adapterOut a l (s.int8s c xa l.dIn) k with
    | none => s
    | some u => (s.putFloats c dst (((s.floats c dst l.dOut).zip u).map (fun e => f32Add e.1 e.2))).weightsIn c ((l.dIn + l.dOut) * a.rank)

/-- Products of `n` rows of a WIDE layer from row `first` on with BF16 inputs (R158, R161). -/
def State.wideOp (s : State) (c : Nat) (layer : Nat) (l : LayerRec) (first n src dst : Nat) : State :=
  match s.weightRows (s.masterOf (s.activeSlot.getD 0) layer) layer 2 l.dOut l.dIn first n with
  | none => s
  | some rows => (s.putFloats c dst (timesRows ((s.floats c src l.dIn).map f32ToBf16) rows n)).weightsIn c (l.dIn * n)

/-- A row of the embedding (R161). -/
def State.embedOp (s : State) (c : Nat) (layer : Nat) (l : LayerRec) (token : W32) (dst : Nat) : State :=
  match s.weightRow (s.masterOf (s.activeSlot.getD 0) layer) layer 2 l.dOut token.toNat with
  | none => s
  | some r => (s.putFloats c dst (r.map f32OfBf16)).weightsIn c l.dOut

/-- `n` weights of a WIDE layer as binary32 values. -/
def State.weightsOp (s : State) (c : Nat) (layer : Nat) (l : LayerRec) (first n dst : Nat) : State :=
  let at_ := fun (k : Nat) => (s.weightRow (s.masterOf (s.activeSlot.getD 0) layer) layer 2 l.dOut ((first + k) / l.dOut)).map
    (fun r => f32OfBf16 (r.getD ((first + k) % l.dOut) 0))
  match allSome ((List.range n).map at_) with
  | none => s
  | some v => (s.putFloats c dst v).weightsIn c n

/-- One operation on a core's vector engine for a step of queue pair `q`. One that names a layer or an array that is not
there does nothing: no program of a validated plan has such an operation. -/
def State.vecOp (s : State) (q : Nat) (m : ModelRec) (x : Session) (p : Step) (i : PlanImage) (c : Nat) (o : VecOp) (out : VecOut) :
    State × VecOut :=
  match o with
  | .dequant layer tile buf sx dst => match fitLayer i layer o with
    | none => (s, out)
    | some l => (s.dequantTile c l tile buf sx dst, out)
  | .adapter layer xa sx dst => match fitLayer i layer o with
    | none => (s, out)
    | some l => (s.adapterOp c p l xa sx dst, out)
  | .quant n src xa sx pos =>
    let v := quantise (s.floats c src n) 127
    let s := (s.memWrite (sramAddr c xa) (v.2.map (BitVec.ofInt 8))).memWrite (sramAddr c sx) (leBytes 2 v.1.toNat)
    if v.1 == 0xFF7F then (s.satCodes 0 1 (s.fnOf q), { out with sats := pos :: out.sats }) else (s, out)
  | .wide layer first n src dst => match fitLayer i layer o with
    | none => (s, out)
    | some l => (s.wideOp c layer l first n src dst, out)
  | .embed layer token dst => match fitLayer i layer o with
    | none => (s, out)
    | some l => (s.embedOp c layer l token dst, out)
  | .weights layer first n dst => match fitLayer i layer o with
    | none => (s, out)
    | some l => (s.weightsOp c layer l first n dst, out)
  | .map f n src dst => (s.putFloats c dst ((s.floats c src n).map (vecFun f)), out)
  | .zip f n a b dst => (s.putFloats c dst (((s.floats c a n).zip (s.floats c b n)).map (fun e => vecBin f e.1 e.2)), out)
  | .sum n src dst => (s.putFloats c dst [f32Sum (s.floats c src n)], out)
  | .fill n src dst => (s.putFloats c dst (List.replicate n ((s.floats c src 1).headD 0)), out)
  | .kvWrite layer isValue head pos src => (s.writeGroup q m x p layer isValue head pos (s.floats c src 128), out)
  | .attend layer head pos query dst =>
    let qb := (s.floats c query 128).map (fun a => Fp.toBf16 (.ofF32 a))
    (s.putFloats c dst (s.attend m x layer (head / max m.gqa 1) qb pos), out)
  | .logits pos first n src => (s, { out with logits := out.logits ++ [(pos, first, s.floats c src n)] })

/-- The operations of a step in their order. -/
def State.runOps (s : State) (q : Nat) (m : ModelRec) (x : Session) (p : Step) (i : PlanImage) (l : List (CoreId × VecOp)) (out : VecOut) :
    State × VecOut :=
  match l with
  | [] => (s, out)
  | e :: l =>
    let r := s.vecOp q m x p i e.1.val e.2 out
    r.1.runOps q m x p i l r.2

/-- The logits of a position, in the order of tokens (R269). -/
def VecOut.at_ (o : VecOut) (pos : W32) : List W32 :=
  (sortBy (fun (a b : W32 × Nat × List W32) => decide (a.2.1 ≤ b.2.1)) (o.logits.filter (fun e => e.1 == pos))).flatMap (fun e => e.2.2)

/-- What a step's operations give its outcome. -/
structure StepResult where
  drafts : List W32 := []
  logits : List (List W32) := []
  sats : List W32 := []
deriving DecidableEq, Repr

/-- The outcome of a step of `n` positions from `first` on. -/
def stepResult (r : StepRun) (o : VecOut) (first : W32) (n : Nat) : StepResult :=
  { drafts := r.drafts, logits := (List.range n).map (fun k => o.at_ (first + BitVec.ofNat 32 k)), sats := o.sats }

/-- A step writes every scale group of its positions: each KV layer, keys and values, each head (R218, R226, R275). -/
def groupsAll (m : ModelRec) (p : Step) (l : List (CoreId × VecOp)) : Bool :=
  (List.range p.count).all (fun i => (List.range m.kvLayers).all (fun k => (List.range m.kvHeads).all (fun h =>
    [false, true].all (fun v => l.any (fun e => match e.2 with
      | .kvWrite layer isValue head pos _ => pos == p.first + BitVec.ofNat 32 i && layer == k && head == h && isValue == v
      | _ => false)))))

end Sys2Proof.Machine
end

