-- ==== Sys2Proof/Machine/Steps.lean ====
section
/-! DEFINITION. Planning a tide's work, steps and their results (07_attention R234 to R242, 08_serving R260 to R273, R528,
10_cores R304 to R306): rows STEP_START and STEP_COMPLETE. -/

namespace Sys2Proof.Machine

/-! ### Sampling (R269 to R271) -/

/-- The entry of the count table (R270). -/
def hix (t : W32) : Nat := (t * 0x9E3779B1).toNat / 2 ^ 20

/-- The count of a token: `trail` is the sequence up to the position sampled from, newest first, each with whether it
is an input token (R270). -/
def countOf (sp : Sampling) (trail : List (W32 × Bool)) (t : W32) : Nat :=
  min 65535 ((trail.take sp.history).filter (fun e => hix e.1 == hix t && (!e.2 || sp.includeInput))).length

/-- A logit after its penalties (R271). -/
def penalised (sp : Sampling) (c : Nat) (lg : W32) : W32 :=
  if c == 0 then lg
  else
    let l := if f32Lt 0 lg then f32Div lg sp.rep else f32Mul lg sp.rep
    f32Sub (f32Sub l sp.pres) (f32Mul sp.freq (f32OfInt c))

/-- The order of K: descending, equal logits and NaNs by ascending identifier, NaNs last (R271). -/
def rankBefore (a b : Nat × W32) : Bool :=
  match f32IsNan a.2, f32IsNan b.2 with
  | true, true => decide (a.1 < b.1)
  | true, false => false
  | false, true => true
  | false, false => f32Lt b.2 a.2 || (!f32Lt a.2 b.2 && decide (a.1 < b.1))

/-- A draw in [0, 1) of a seed and a position (R271). -/
def draw (seed : W64) (p : W32) : W32 :=
  let z0 : W64 := seed + BitVec.ofNat 64 p.toNat * 0x9E3779B97F4A7C15
  let z1 := (z0 ^^^ (z0 >>> 30)) * 0xBF58476D1CE4E5B9
  let z2 := (z1 ^^^ (z1 >>> 27)) * 0x94D049BB133111EB
  let z3 := z2 ^^^ (z2 >>> 31)
  f32Scale (f32OfInt ((z3 >>> 40).toNat : Int)) (-24)

/-- a ≥ b; false when either is a NaN. -/
def f32Ge (a b : W32) : Bool := !f32IsNan a && !f32IsNan b && !f32Lt a b

/-- Running sums of a list. -/
def runningSums (acc : Option W32) (l : List W32) : List W32 :=
  match l with
  | [] => []
  | e :: es =>
    let v := match acc with | none => e | some a => f32Add a e
    v :: runningSums (some v) es

/-- The token that follows position `p` (R271); of no logits at all, token 0. -/
def sample (sp : Sampling) (trail : List (W32 × Bool)) (lg : List W32) (p : W32) : W32 :=
  let pen := (List.range lg.length).zip lg |>.map (fun e => (e.1, penalised sp (countOf sp trail (BitVec.ofNat 32 e.1)) e.2))
  let ks := (sortBy rankBefore pen).take (min sp.topK lg.length)
  match ks with
  | [] => 0
  | best :: _ =>
    if sp.temp.toNat % 2 ^ 31 == 0 then BitVec.ofNat 32 best.1
    else
      let es := ks.map (fun e => f32Exp (f32Div (f32Sub e.2 best.2) sp.temp))
      let cum := runningSums none es
      let last := cum.length - 1
      let bound := f32Mul sp.topP (cum.getD last 0)
      let n := ((List.range cum.length).find? (fun i => f32Ge (cum.getD i 0) bound)).getD last
      let target := f32Mul (draw sp.seed p) (cum.getD n 0)
      let i := ((List.range (n + 1)).find? (fun i => f32Lt target (cum.getD i 0))).getD n
      BitVec.ofNat 32 (ks.getD i best).1

/-! ### What a session runs next (R237, R258, R264, R273, R528; log 24) -/

/-- The current command of a session: the first one, unless it has its status already. -/
def Session.cur (x : Session) : Option Work :=
  match x.work.head? with
  | none => none
  | some w => if w.done.isNone then some w else none
/-- Tokens of the current command delivered and not committed. -/
def Session.newTokens (x : Session) : Nat := (x.done.filter (fun d => d.delivered.isSome)).length
/-- Input positions of the current command completed and not committed. -/
def Session.newInput (x : Session) : Nat := (x.done.filter (fun d => d.isInput)).length
/-- The last delivered token, which the next position holds (R273). -/
def Session.nextTok (x : Session) : Option W32 :=
  match x.done.getLast? with | none => x.nextToken | some d => d.delivered
/-- The sequence up to its newest completed position, newest first. -/
def Session.trail (x : Session) : List (W32 × Bool) :=
  ((x.done.filter (fun d => !d.prime)).map (fun d => (d.token, d.isInput))).reverse ++ x.hist
/-- A stop token or MAX_TOKENS has ended generation in this tide (R272). -/
def Session.stopped (x : Session) : Bool := x.done.any (fun d => d.flags / 64 % 2 == 1)

/-- A step to plan. -/
structure NextStep where
  gen : Bool
  first : W32
  count : Nat
  draft : Nat := 0
  prime : Bool := false
  probe : Bool := false
deriving DecidableEq, Repr

/-- Its last position. -/
def NextStep.last (n : NextStep) : W32 := n.first + BitVec.ofNat 32 (n.count - 1)

/-- A session slid as far as a newest position at `last` needs, never past the block of `keep` (R239). -/
def Session.slid (x : Session) (keep last : W32) (fuel : Nat) : Session :=
  match fuel with
  | 0 => x
  | fuel + 1 => if decide (x.limit < x.span last) && x.canSlide (blockOfPos keep) then x.slide.slid keep last fuel else x

/-- The first position that steps of the tide still write: a window is not slid past its block (R239). -/
def Session.keep (x : Session) (first : W32) : W32 := x.openFirst.getD first

/-- A step from `first` to `last` stays within W, its window slid where its policy lets it (R239, R241). -/
def Session.fits (x : Session) (first last : W32) : Bool := decide ((x.slid (x.keep first) last 64).span last ≤ x.limit)

/-- A probing step is due in this tide (R274). -/
def Session.probeDue (x : Session) (now : W32) : Bool :=
  let d := tideDist x.offTide now
  x.specOff && !x.probed && decide (64 ≤ d) && decide (d % 64 = 0)

/-- The buffers of a GENERATE take the largest output of a step (R264). -/
def Session.roomFor (x : Session) (m : ModelRec) (w : Work) : Bool :=
  let n := x.specMax + 1
  let frames := w.frmTotal + (x.frameTokens + x.newTokens + n) / max m.frameTokens 1
  (!x.textOut || decide (w.tokTotal + x.newTokens + n ≤ w.dataLen / 4)) &&
  (!x.audioOut || m.frameTokens == 0 || decide (frames ≤ w.audioLen / frameBytes x.out24))

/-- The generation step of a GENERATE: with drafts where they fit (R273), the priming step, or the position that takes
END_TOKEN (R528). -/
def Session.genStep (x : Session) (m : ModelRec) (now : W32) (w : Work) : NextStep :=
  match x.nextTok with
  | none =>
    let again := x.hist.isEmpty && x.done.isEmpty
    let out := decide (0 < ((x.next - x.base).toInt))
    if again || !out then { gen := true, first := x.next, count := 1 }
    else { gen := true, first := x.next - 1, count := 1, prime := true }
  | some _ =>
    let probe := m.draft && x.probeDue now
    let d0 := if !m.draft then 0 else if probe then x.specMax else x.draftLen
    let d1 := if w.maxTokens == 0 then d0 else min d0 (w.maxTokens - (w.delivered + x.newTokens) - 1)
    let d := ((List.range (d1 + 1)).reverse.find? (fun d => x.fits x.next (x.next + BitVec.ofNat 32 d))).getD 0
    { gen := true, first := x.next, count := d + 1, draft := d, probe := probe && d != 0 }

/-- Where the frames of an AUDIO_IN end among its input positions (R262). -/
def frameEnds (w : Work) : List Nat := (List.range w.frames).map (fun i => (i + 1) * w.input.length / w.frames)

/-- The input positions a chunk takes of at most `n`: audio frames are not split (R262). -/
def wholeFrames (w : Work) (had n : Nat) : Nat :=
  if w.opcode != 2 then n
  else match (frameEnds w).filter (fun e => decide (had < e)) with
    | [] => n
    | e :: es => ((e :: es).filter (fun k => decide (k ≤ had + n))).foldl max e - had

/-- The lengths that a chunk of at most `n` positions may be shortened to: it ends with a block (R239). -/
def chunkLengths (first : W32) (n : Nat) : List Nat :=
  n :: ((List.range 34).map (fun k => 256 * k + (256 - first.toNat % 256))).reverse.filter (fun c => decide (c < n))

/-- The prompt chunk of an input command: the position of the last delivered token first, where there is one (log 24);
a chunk past W is shortened but for a STOP sequence (R239, R241). -/
def Session.chunkStep (x : Session) (m : ModelRec) (w : Work) : Option NextStep :=
  let had := w.inputCommitted + x.newInput
  let lead := if x.nextTok.isSome then 1 else 0
  let left := w.input.length - had
  if left == 0 then none
  else
    let take := fun n => lead + wholeFrames w had (n - lead)
    let n0 := min (lead + left) m.chunkTokens
    let n := if x.policy == 2 then n0 else ((chunkLengths x.next n0).find? (fun n =>
      decide (lead < n) && x.fits x.next (x.next + BitVec.ofNat 32 (n - 1)))).getD n0
    some { gen := false, first := x.next, count := take n }

/-- What the session offers in a class: 1 generation, 2 prompt chunks (R237). -/
def Session.offer (x : Session) (m : ModelRec) (now : W32) (cls : Nat) : Option NextStep :=
  match x.cur with
  | none => none
  | some w =>
    if cls == 1 then (if w.opcode == 5 && !x.stopped && x.roomFor m w then some (x.genStep m now w) else none)
    else if w.opcode == 2 || w.opcode == 3 then x.chunkStep m w else none

/-- The steps of a session that have not ended, in order. -/
def Session.openSteps (x : Session) : List Step := x.steps.filter (fun t => !t.complete && !t.void)

/-- A session with a planned step taken as complete: every draft accepted, the tokens themselves not known (R237; log 26). -/
def Session.expect (x : Session) (t : Step) : Session :=
  if t.cancelled then x
  else
    let limit := match x.cur with | none => 0 | some w => if w.maxTokens == 0 then 0 else w.maxTokens - w.delivered
    let stop := t.gen && limit != 0 && decide (limit ≤ x.newTokens + t.count)
    { x with
      probed := x.probed || t.probe
      done := x.done ++ (List.range t.count).map (fun i =>
        { pos := t.first + BitVec.ofNat 32 i, token := 0, isInput := !t.gen && !(i == 0 && x.nextTok.isSome), prime := t.prime
          delivered := if t.gen then some 0 else none, flags := if stop then 64 else 0 }) }

/-- A session as it stands once its planned steps have completed (log 26). -/
def Session.ahead (x : Session) : Session := x.openSteps.foldl Session.expect x

/-- Steps that a session has taken or been given in the tide (R237). -/
def Session.taken (x : Session) : Nat := (x.steps.filter (fun t => !t.rolled)).length

/-- A session may be given a step now (R250, R253, R257). -/
def Qp.mayStep (q : Qp) (x : Session) : Bool :=
  q.state == .ready && !q.cqFull && (x.openFirst.isSome || decide (q.owed < q.cqFree)) &&
  (x.state == .opened || x.state == .closing) && !x.barred

/-! ### Charges and budget (R233 to R238, R470) -/

/-- The throttle level (R470). -/
def State.level (s : State) : Nat := max s.pwr.level s.pwr.thermLevel
/-- A die's budget is reduced: a placed pan is withdrawn (R98), or the work of a placed core runs on other cores (R38,
R439). -/
def State.reduced (s : State) : Bool :=
  match s.activePlan with
  | none => false
  | some p => p.place.any (fun e => (s.physOf e.core).isNone || s.hlt.degraded.contains e.core ||
      (List.range 16).any (fun i => (s.pan (e.core * 16 + i)).withdrawn))
/-- The budget of a tide at the throttle level (R233, R236, Table 15.7), less an amount that the spec does not give while a
die's budget is reduced (R38, R98, R439; log 26). -/
def State.tideBudget (s : State) : Nat :=
  let b := if s.anyExclusive then s.kvCapacity else s.num .KVC_BUDGET_EFF
  let b := if s.level ≤ 1 then b else b * (9 - s.level) / 8
  if s.reduced then b - Config.freeNat s.freeCtr % (b + 1) else b
/-- The rounds after the first that fit the work phase (R59): its time less the stall measured in the tide before (R178), at
the throttle level's share (R470) and at 1/64 of the rate in reference mode (R167), by the time of a round, which the spec
does not give (log 26). -/
def State.moreRounds (s : State) : Nat :=
  let stall := s.num .WGT_STREAM_STALL_NS - s.srv.stallMark
  let w := s.tide.len - 700000 - stall
  let w := if s.level ≤ 1 then w else w * (9 - s.level) / 8
  (if s.bit .SRV_STATUS 7 then w / 64 else w) / (Config.freeNat s.freeCtr + 1)
/-- The bytes that one visit of the streamed layers reads (R146, R179). -/
def State.streamBytes (s : State) : Nat :=
  match s.activePlan with
  | none => 0
  | some p => match p.img with
    | none => 0
    | some i => ((i.groups.filter (fun g => p.streamed.contains g.layer)).map (fun g => 278528 * g.blocks.length)).sum
/-- A charge of `n` bytes in round `r` fits the budget left, and with the streamed weights the HBM time of the work phase
(R179, R237). -/
def State.affords (s : State) (n r : Nat) : Bool :=
  decide (n ≤ s.srv.left) && decide (s.srv.spentGen + s.srv.spentPrompt + n + max s.srv.rounds r * s.streamBytes ≤ s.kvCapacity)

/-- A charge to the tide (R234, R500). -/
def State.spend (s : State) (q n : Nat) (gen : Bool) : State :=
  let s : State := if gen then { s with srv.spentGen := s.srv.spentGen + n } else { s with srv.spentPrompt := s.srv.spentPrompt + n }
  (({ s with srv.left := s.srv.left - n } : State).bump .CNT_KV_CHARGED n).bump .CNT_T_KV_CHARGED n (s.fnOf q)

/-- The charge for reading `n` layers of a step (R234). -/
def State.stepReads (s : State) (p : Step) (n : Nat) : Nat := n * p.pages * s.pageBytes
/-- Bytes of the scale groups written in `n` layers. -/
def State.stepWrites (s : State) (p : Step) (n : Nat) : Nat := n * p.count * (s.pageBytes / 256)

/-- The core at which the work on a page is done: one that the plan places, of the device's choice (R36, log 4). -/
def State.pageCore (s : State) (page : Nat) : Nat :=
  let l := match s.activePlan with | none => [] | some p => p.place.map (fun (e : Placed) => e.core)
  l.getD (Config.freeNat (Config.freeKey 18 page) % max l.length 1) 0

/-- The scale groups of a step's positions go to their pages in HBM, layer by layer (R24, R496). -/
def State.groupsOut (s : State) (x : Session) (m : ModelRec) (p : Step) (layers : List Nat) : State :=
  let blocks := ((List.range p.count).map (fun i => blockOfPos (p.first + BitVec.ofNat 32 i))).eraseDups
  s.each layers (fun l s => s.each blocks (fun b s =>
    let n := ((List.range p.count).filter (fun i => blockOfPos (p.first + BitVec.ofNat 32 i) == b)).length
    match x.page l (BitVec.ofNat 32 (b * 256)) with
    | none => s
    | some k => s.moves (.core (s.pageCore k)) (.stack (s.someStack 6 k)) (n * m.posBytes)))

/-- Bytes of `n` layers of a step counted as they move (R234, R500): zero groups are not read (R230). -/
def State.moved (s : State) (q : Nat) (p : Step) (n : Nat) : State :=
  match s.model, s.sess? q with
  | some m, some x =>
    let fn := s.fnOf q
    let layers := (List.range n).map (fun i => p.layersDone + i)
    let zeros := ((s.scalesSeen m x layers (p.first + BitVec.ofNat 32 (p.count - 1))).filter (fun c => c == 0)).length
    let r := s.stepReads p n - zeros * m.groupBytes
    let s := (s.bump .KVC_READ_BYTES r).bump .KVC_WRITE_BYTES (s.stepWrites p n)
    let s := (s.bump .CNT_T_KV_READ r fn).bump .CNT_T_KV_WRITE (s.stepWrites p n) fn
    (s.bump .KVC_ZERO_GROUPS zeros).groupsOut x m p layers
  | _, _ => s

/-! ### Planning (R237 to R242) -/

/-- The current command ends with a status (R241, R266, R267). -/
def State.endCur (s : State) (q code : Nat) : State :=
  s.updSess q (fun x => { x with work := match x.work with
    | [] => []
    | w :: l => (if w.done.isNone then { w with done := some (code, 0) } else w) :: l })

/-- The first PROMPT that waits behind a chunk ends with a status (R241). -/
def State.endPrompt (s : State) (q code : Nat) : State :=
  s.updSess q (fun x =>
    match x.work.findIdx? (fun w => w.opcode == 4 && w.done.isNone) with
    | none => x
    | some i => { x with work := x.work.modify i (fun w => { w with done := some (code, 0) }) })

/-- A step is planned (R221, R234, R239): its window slid, its pages allocated, its charge made. -/
def State.planStep (s : State) (q : Nat) (x : Session) (n : NextStep) : State :=
  let s := s.slideTo q (x.keep n.first) n.last 64
  let y := x.slid (x.keep n.first) n.last 64
  let s := (s.allocate q (y.newBlocks n.first n.count)).spend q (s.charge' y n.first n.count) n.gen
  let gen := match s.activeSlot with | none => 0 | some w => (s.wslot w).gen
  let t : Step :=
    { gen := n.gen, first := n.first, count := n.count, draft := n.draft, prime := n.prime, probe := n.probe,
      layers := s.kvLayers, reference := s.bit .SRV_STATUS 7, tag := gen, turn := s.srv.turn + 1, sampling := x.sampling
      adapter := x.adapter }
  let s : State := { s with srv.turn := s.srv.turn + 1 }
  s.updSess q (fun x => { x with
    steps := (x.steps ++ [t]).map (fun t => { t with pages := y.span (t.first + BitVec.ofNat 32 (t.count - 1)) })
    work := match x.work with | [] => [] | w :: l => { w with started := true } :: l })

/-- A first-round step finds no pages and is held (R240). -/
def State.holdStep (s : State) (q : Nat) : State :=
  let s := ((s.bump .KVC_GEN_SHORT).raise .KVC_INT_STATUS .KVC_INT_ENABLE 32).setF .KVC_STATUS 3 1 1
  { s.updSess q (fun x => { x with barred := true }) with srv.short := s.srv.short ++ [q] }

/-- A chunk waits for pages (R242). -/
def State.pausePrompt (s : State) (q : Nat) : State :=
  let s := s.updSess q (fun x => { x with barred := true })
  if s.bit .KVC_STATUS 2 then s
  else ((s.setF .KVC_STATUS 2 1 1).bump .KVC_PROMPT_PAUSE_TIDES).raise .KVC_INT_STATUS .KVC_INT_ENABLE 4

/-- The sessions that offer a step of a class in a round, in the order of R237; in the first, those held at the latest edge
go first (R240). Each offer is of the session as its planned steps leave it. -/
def State.offers (s : State) (m : ModelRec) (cls round : Nat) : List (Nat × NextStep) :=
  let l := s.withSess.filterMap (fun e =>
    if (s.qp e.1).mayStep e.2 && e.2.taken + 1 == round then (e.2.ahead.offer m s.tideIdx cls).map (fun n =>
      let late := if round == 1 && s.srv.first.contains e.1 then 0 else 1
      ([late, e.2.bucketAt n.last, e.2.genPrev, e.2.slot], e.1, n)) else none)
  (sortBy (fun (a b : List Nat × Nat × NextStep) => decide (a.1 ≤ b.1)) l).map (fun e => e.2)

/-- A host-tier read has failed for good and the active model has layers there (R183). -/
def State.tierDown (s : State) : Bool :=
  s.wgt.tierFault && (match s.activeSlot with | none => false | some w => !(s.wslot w).hostLayers.isEmpty)

/-- A STOP sequence's step that is not run (R241): its GENERATE, or the PROMPT of its chunk, ends; where steps of the tide
still run, the session takes no more in it. -/
def State.stopStep (s : State) (q : Nat) (x : Session) (n : NextStep) : State :=
  if x.openFirst.isSome then s.updSess q (fun x => { x with barred := true })
  else if n.gen then s.endCur q 0x16
  else (s.endPrompt q 0x16).updSess q (fun x => { x with barred := true })

/-- One offered step is planned, or not: whether the class goes on (R183, R237, R240 to R242). -/
def State.planOne (s : State) (q : Nat) (n : NextStep) (round : Nat) : State × Bool :=
  match s.sess? q with
  | none => (s, true)
  | some x =>
    let y := x.slid (x.keep n.first) n.last 64
    let pages := (y.newBlocks n.first n.count).length * s.kvLayers
    let free := s.pagesFree + (x.blocks.length - y.blocks.length) * s.kvLayers
    let bar := fun (s : State) => s.updSess q (fun x => { x with barred := true })
    if s.tierDown then (s.endCur q 0x2A, true)
    else if x.limit < y.span n.last then (if x.policy == 2 then s.stopStep q x n else bar s, true)
    else if free < pages then
      (if x.policy == 2 then s.stopStep q x n else if !n.gen then s.pausePrompt q else if round == 1 then s.holdStep q else bar s, true)
    else if !n.gen && decide (free < pages + s.genReserve) then (s.pausePrompt q, true)
    else if !s.affords (s.charge' y n.first n.count) round then (s, false)
    else (s.planStep q x n, true)

/-- The offers of a round, in order, until one does not fit; the rest are the steps not admitted. -/
def State.planList (s : State) (round : Nat) (l : List (Nat × NextStep)) : State × Nat :=
  match l with
  | [] => (s, 0)
  | (q, n) :: rest => match s.planOne q n round with
    | (s', true) => s'.planList round rest
    | (s', false) => (s', rest.length + 1)

/-- The rounds of a class from one on, until a step does not fit or none is offered, at most `fuel` (R237). First-round
generation steps not admitted count. -/
def State.planRounds (s : State) (m : ModelRec) (cls round : Nat) (fuel : Nat) : State :=
  match fuel with
  | 0 => s
  | fuel + 1 =>
    let (s', cut) := s.planList round (s.offers m cls round)
    let s' := s'.when (cls == 1 && round == 1 && decide (0 < cut)) (fun s => (s.bump .KVC_GEN_SHORT cut).raise .KVC_INT_STATUS .KVC_INT_ENABLE 32)
    let s' : State := { s' with srv.rounds := max s'.srv.rounds round }
    if cut != 0 || (s'.offers m cls (round + 1)).isEmpty then s' else s'.planRounds m cls (round + 1) fuel

/-- Sessions with a step that has not ended, in the order in which those steps run: roll-overs first (R59), then as they
were planned. -/
def State.owners (s : State) : List Nat :=
  let l := s.withSess.filterMap (fun e => e.2.openSteps.head?.map (fun t => ((if t.rolled then 0 else t.turn), e.1)))
  (sortBy (fun (a b : Nat × Nat) => decide (a.1 ≤ b.1)) l).map (·.2)

/-- A queue identifier as the contexts hold it. -/
def qidOf (q : Nat) : Qid := ⟨q % 1048576, Nat.mod_lt _ (by decide)⟩

/-- Contexts 0 to 2 of the placed cores take up the first step that runs (R301, R305). -/
def State.takeUp (s : State) : State :=
  match s.activePlan, s.owners with
  | some p, q :: _ =>
    s.each ((p.place.map (fun e => e.core)).eraseDups) (fun c s => match s.schedOf c with
      | none => s
      | some d => s.each [0, 1, 2] (fun x s =>
        let k := (s.core c).ctx x
        if (ctxSteps d x).isEmpty || k.state != .idle || k.void then s
        else s.updCtx c x (fun k => { k with state := .ready, owner := some (qidOf q), step := if k.rolled then k.step else 0 })))
  | _, _ => s

/-- Commands whose deadline passed before any work of them started complete with ST_LATE (R266). -/
def State.expire (s : State) : State :=
  s.each s.withSess (fun e s => s.updSess e.1 (fun x => { x with
    work := x.work.map (fun w => if w.done.isNone && !w.started && w.flags % 2 == 0 && tideBefore w.deadline s.tideIdx then { w with done := some (0x15, 0) } else w) }))

/-- Steps that rolled over as the tide that opens finds them (R59, R203, R245): their pages, where a KV reset freed them, and
the layers that the active plan has. A step whose pages are not free is planned anew. -/
def State.refitRolled (s : State) : State :=
  s.each s.withSess (fun e s => s.each e.2.openSteps (fun t s => match s.sess? e.1 with
    | none => s
    | some x =>
      let need := x.newBlocks t.first t.count
      if s.pagesFree < need.length * s.kvLayers then s.updSess e.1 (fun x => { x with steps := x.steps.filter (fun u => u != t) })
      else (s.allocate e.1 need).updSess e.1 (fun x => { x with steps := x.steps.map (fun u => if u == t then
        { t with pages := x.span (t.first + BitVec.ofNat 32 (t.count - 1)), layers := s.kvLayers, layersDone := min t.layersDone s.kvLayers }
        else u) })))

/-- Rolled-over steps are charged again, for the reads of the layers they have not completed (R238). -/
def State.chargeRolled (s : State) : State :=
  s.each s.withSess (fun e s => s.each (e.2.steps.filter (fun t => t.rolled && !t.complete && !t.void)) (fun t s =>
    s.spend e.1 (s.stepReads t (t.layers - t.layersDone)) true))

/-- Pages that some steps need (R239). -/
def State.pagesNeeded (s : State) (l : List (Nat × NextStep)) : Nat :=
  (l.map (fun e => match s.sess? e.1 with
    | none => 0
    | some x => (x.newBlocks e.2.first e.2.count).length * s.kvLayers)).sum

/-- The tide's work is planned at the end of admission (R237 to R242, R259, R260): roll-overs, the rounds of generation, then
prompt chunks in the budget left, none of these at a throttle level (Table 15.7). -/
def State.planTide (s : State) : State :=
  let s : State := { s with
    srv.turn := 0, srv.rounds := 0, srv.spentGen := 0, srv.spentPrompt := 0, srv.left := s.tideBudget, srv.first := s.srv.short, srv.short := [] }
  let s := (((s.tick.setF .KVC_STATUS 2 2 0).expire).refitRolled).chargeRolled
  match s.model with
  | none => s
  | some m =>
    let n := s.pagesNeeded (s.offers m 1 1)
    let more := s.moreRounds
    let s : State := { s.slideFor n n with srv.stallMark := s.num .WGT_STREAM_STALL_NS }
    let s := s.planRounds m 1 1 (more + 1)
    (if s.level == 0 then s.planRounds m 2 1 (more + 1) else s).tick.takeUp

/-! ### STEP_START (R301 to R306, R441) -/

/-- The schedule step of a RUNNING context is complete: the next one, that of the next sequence's step, or IDLE (R302). -/
def State.endSched (s : State) (c x : Nat) : State :=
  let k := (s.core c).ctx x
  let s := s.updCore c (fun y => { y with hoists := y.hoists.map (fun h =>
    { h with ahead := h.ahead.filter (fun f => f.ctx.val != x || decide (k.step < f.step)) }) })
  let n := match s.schedOf c with | none => 0 | some d => (ctxSteps d x).length
  let more := decide (k.step + 1 < n)
  let next := match k.owner with
    | none => none
    | some q => (((s.owners.dropWhile (fun r => r != q.val)).drop 1).head?)
  match more, next with
  | true, _ => s.updCtx c x (fun k => { k with state := .ready, step := k.step + 1, mid := false, rolled := false })
  | false, some q => s.updCtx c x (fun k => { k with state := .ready, step := 0, mid := false, rolled := false, owner := some (qidOf q) })
  | false, none => s.updCtx c x (fun k => { k with state := .idle, mid := false, rolled := false, owner := none })

/-- The step of a context is voided by a double-bit error of a configuration read: void from its first position, and a
fault event of kind CFG_UE (R441). -/
def State.cfgUe (s : State) (c x : Nat) (read expected : W64) : State :=
  let own := match ((s.core c).ctx x).owner with
    | none => []
    | some q => match (s.sess? q.val).bind Session.openFirst with | none => [] | some p => [(q.val, p)]
  let s := (s.voidAll own).faultRec 0x09 (s.physOf c) (some c) 0xFF 1 0xFFFF 0xFFFF 0xFFFFFFFF read expected
  match s.physOf c with
  | none => s
  | some p => s.charge p 0x09

/-- What a configuration read meets (R441): corrected words are only counted. -/
def State.cfgRead (s : State) (c x : Nat) (r : CfgRead) : State :=
  match r with
  | .clean => s
  | .corrected n => s.bump .HLT_CFG_CORRECTED n
  | .double a b => s.cfgUe c x a b

/-- The step a context is at runs programs of the vector engine, which a rake on context 3 occupies from its start to its end
(R102, R288, R303; log 139). -/
def State.needsVector (s : State) (c x : Nat) : Bool :=
  s.coreRakes c && (match (s.schedOf c).bind (fun d => (ctxSteps d x)[((s.core c).ctx x).step]?) with
    | none => false
    | some t => !t.programs.isEmpty)

/-- STEP_START (R304): the RUNNING context's step is complete; the sequencer starts the one R304 chooses, which waits
where a buffer of it is not filled yet (R309). -/
def execStepStart (t : Stamp) (core : CoreId) (cfg : CfgRead) (s : State) : Res :=
  answer t s fun s =>
    s.when (s.ready && s.fitted core.val && s.workOpen && !s.restarting .scheduler) (fun s =>
      let c := core.val
      let ran := (List.range 4).find? (fun x => ((s.core c).ctx x).state == .running)
      let s := match ran with
        | none => s
        | some x => if x == 3 then s.updCtx c 3 (fun k => { k with state := .ready }) else s.endSched c x
      match s.choose c with
      | none => s
      | some x =>
        let s := (s.updCtx c x (fun k => { k with state := .running, mid := true })).updCore c (fun k => { k with last := x })
        let s := s.when (ran != some x) (fun s => s.bump .CRE_SWITCHES 1 c)
        if x == 3 then s
        else
          let s := s.cfgRead c x cfg
          let s := s.when ((s.core c).unfilled x && ((s.core c).ctx x).state == .running) (fun s => s.deschedule c x .hoist)
          s.when (s.needsVector c x && ((s.core c).ctx x).state == .running) (fun s => s.deschedule c x .vector))

/-! ### STEP_COMPLETE (R150 to R157, R203, R225 to R231, R263 to R275) -/

/-- The active generation. -/
def State.genTag (s : State) : W16 := match s.activeSlot with | none => 0 | some w => (s.wslot w).gen

/-- The window of a session holds KV written under another generation than `g` (R203). -/
def Session.mixed (x : Session) (g : W16) : Bool :=
  x.segs.any (fun e => e.2.2 != g && (decide (0 ≤ (e.1 + BitVec.ofNat 32 (e.2.1 - 1) - x.base).toInt) || x.inHead e.1 ||
    x.inHead (e.1 + BitVec.ofNat 32 (e.2.1 - 1))))

/-- A BAD_SCALE event for each scale code that is never written among those a step's queries see (R150); which core the
event names is open (DESIGN CHOICE, log 123: the first that the plan places). -/
def State.attention (s : State) (m : ModelRec) (x : Session) (p : Step) : State :=
  let last := p.first + BitVec.ofNat 32 (p.count - 1)
  let bad := (s.scalesSeen m x (List.range m.kvLayers) last).filter (fun c => !scaleCodeOk c)
  let core := ((s.activePlan.bind (fun a => a.place.head?)).map (fun (e : Placed) => e.core)).getD 0
  let s := s.each bad (fun c s => s.event 0x0501 0x80 core c.toNat m.kvFormat.toNat)
  s.bump .KVC_BLOCKS_SKIPPED (x.masked last * m.kvLayers)

/-- The positions of a verification: each with its input token, whether that is an input position, and its sample;
acceptance stops at the first mismatch and at a stop token (R272, R273). -/
def verify (sp : Sampling) (stops : W32 → Bool) (pos tok : W32) (inp : Bool) (trail : List (W32 × Bool)) (drafts : List W32)
    (logits : List (List W32)) : List (W32 × W32 × Bool × W32) :=
  let tr := (tok, inp) :: trail
  let smp := sample sp tr (logits.headD []) pos
  match drafts with
  | [] => [(pos, tok, inp, smp)]
  | d :: ds =>
    if d == smp && !stops smp then (pos, tok, inp, smp) :: verify sp stops (pos + 1) d false tr ds logits.tail
    else [(pos, tok, inp, smp)]

/-- Tokens that end generation (R272). -/
def stopsAt (sp : Sampling) (m : ModelRec) (t : W32) : Bool := t == sp.stop0 || t == sp.stop1 || t == m.endToken

/-- The input token of the first position of a generation step, and whether it counts as an input position: the last
delivered token; END_TOKEN where nothing precedes it (R528); else the newest token of the sequence again (log 24). -/
def Session.firstTok (x : Session) (m : ModelRec) : W32 × Bool :=
  match x.nextTok with
  | some k => (k, false)
  | none => ((x.trail.head?.map (·.1)).getD m.endToken, true)

/-- The positions of a generation step as they complete (R273, R275): `fl` is what each carries for the record. -/
def Session.genDone (x : Session) (m : ModelRec) (w : Work) (p : Step) (r : StepResult) (fl : Nat) : List DonePos :=
  if p.prime then
    let smp := sample p.sampling x.trail (r.logits.headD []) p.first
    let stop := stopsAt p.sampling m smp || (w.maxTokens != 0 && decide (w.maxTokens ≤ w.delivered + x.newTokens + 1))
    [{ pos := p.first, token := 0, isInput := false, prime := true, delivered := some smp, flags := fl + (if stop then 64 else 0) }]
  else
    let ft := x.firstTok m
    let ds := r.drafts.take p.draft
    let l := verify p.sampling (stopsAt p.sampling m) p.first ft.1 ft.2 x.trail ds r.logits
    let n := l.length
    let full := w.maxTokens != 0 && decide (w.maxTokens ≤ w.delivered + x.newTokens + n)
    (List.range n).zip l |>.map (fun e =>
      let stop := e.1 + 1 == n && (full || stopsAt p.sampling m e.2.2.2.2)
      { pos := e.2.1, token := e.2.2.1, isInput := e.2.2.2.1, delivered := some e.2.2.2.2, flags := fl + (if stop then 64 else 0)
        specAcc := if e.1 == 0 then n - 1 else 0, specProp := if e.1 == 0 then ds.length else 0 })

/-- The positions of a prompt chunk as they complete. -/
def Session.chunkDone (x : Session) (w : Work) (p : Step) (fl : Nat) : List DonePos :=
  let lead := match x.nextTok with | none => [] | some t => [(t, false)]
  let toks := lead ++ (w.input.drop (w.inputCommitted + x.newInput)).map (fun t => (t, true))
  (List.range p.count).zip toks |>.map (fun e => { pos := p.first + BitVec.ofNat 32 e.1, token := e.2.1, isInput := e.2.2, flags := fl })

/-- The first step of a session that runs. -/
def Session.running (x : Session) : Option Step := x.steps.find? (fun t => !t.complete && !t.void)

/-- A step ended. -/
def Session.endStep (x : Session) : Session :=
  let rec go (l : List Step) : List Step :=
    match l with
    | [] => []
    | t :: l => if !t.complete && !t.void then { t with complete := true, layersDone := t.layers } :: l else t :: go l
  { x with steps := go x.steps }

/-- What a step's outcome adds to its session: positions, generations of KV, what R274 counts. -/
def Session.accept (x : Session) (p : Step) (l : List DonePos) (g : W16) (mixed : Bool) : Session :=
  let a := (l.map (·.specAcc)).sum
  let ver := decide (0 < (l.map (·.specProp)).sum)
  let keep := x.segs.filter (fun e => decide (0 ≤ (e.1 + BitVec.ofNat 32 (e.2.1 - 1) - x.base).toInt) || x.inHead e.1)
  { x with
    done := x.done ++ l
    segs := keep ++ (if l.isEmpty then [] else (p.first, l.length, g) :: (if p.tag == g then [] else [(p.first, l.length, p.tag)]))
    verified := x.verified + (if ver then 1 else 0), accepted := x.accepted + a
    probed := x.probed || p.probe, probeWon := x.probeWon || (p.probe && decide (0 < a))
    events := if mixed then x.events ||| 16 else x.events }

/-- A finished step's output, where it is kept (R267, R273, R275). -/
def State.deliverStep (s : State) (q : Nat) (m : ModelRec) (x : Session) (w : Work) (p : Step) (r : StepResult) : State :=
  let fn := s.fnOf q
  let late := w.flags % 2 == 0 && tideBefore w.deadline s.tideIdx
  if late && (s.qp q).lateDrop then (s.endCur q 0x15).bumpSrv .SRV_LATE_DROPPED 1 fn
  else
    let mixed := x.mixed s.genTag || p.tag != s.genTag
    let fl := (if late then 1 else 0) + (if p.rolled then 2 else 0) + (if mixed then 4 else 0) + (if p.reference then 8 else 0) +
      (if w.fault then 256 else 0)
    let l := (if p.gen then x.genDone m w p r fl else x.chunkDone w p fl).map (fun d =>
      if r.sats.contains d.pos then { d with flags := d.flags + 16 } else d)
    let toks := l.filterMap (·.delivered)
    let s := s.updSess q (fun x => x.accept p l s.genTag mixed)
    let s := (s.bumpSrv .SRV_SPEC_PROPOSED ((l.map (·.specProp)).sum) fn).bumpSrv .SRV_SPEC_ACCEPTED ((l.map (·.specAcc)).sum) fn
    s.when (x.textOut && !toks.isEmpty) (fun s =>
      (s.emit (.tokens (w.dataAddr + BitVec.ofNat 64 (4 * (w.tokTotal + x.newTokens))) toks)).dmaWr fn (4 * toks.length))

/-- The planned steps behind one that has completed (R272, R273): from the position that follows, fewer where drafts were
not accepted; none once generation has stopped or the command has its status. -/
def Session.refit (x : Session) : Session :=
  let rec go (y : Session) (l : List Step) : List Step :=
    match l with
    | [] => []
    | t :: l =>
      if t.complete || t.void then t :: go y l
      else if y.cur.isNone || (t.gen && y.stopped) then go y l
      else
        let u := { t with first := y.next, pages := y.span (y.next + BitVec.ofNat 32 (t.count - 1)) }
        u :: go (y.expect u) l
  { x with steps := go x x.steps }

/-- STEP_COMPLETE (R275): the running step of the queue pair's session has finished its layers, with every scale group of
its positions; the operations of its programs act, its output counts unless it was cancelled, and the steps planned behind
it follow. -/
def execStepComplete (t : Stamp) (qid : Qid) (r : StepRun) (s : State) : Res :=
  if !r.wellFormed then .refused .illFormed
  else answer t s fun s =>
    s.when (s.ready && s.tide.work) (fun s =>
      match s.activePlan.bind (·.img), s.sess? qid.val with
      | some i, some x => match x.running with
        | none => s
        | some p => s.when (groupsAll i.model p r.ops) (fun s =>
          let q := qid.val
          let (s, o) := s.runOps q i.model x p i r.ops {}
          let s := (s.moved q p (p.layers - p.layersDone)).attention i.model x p
          let s := s.updSess q Session.endStep
          let l := s.ctxsOf q
          let s := s.each l (fun e s => s.idleCtx e.1 e.2 false)
          let s := match p.cancelled, x.cur with
            | false, some w => s.deliverStep q i.model x w p (stepResult r o p.first p.count)
            | _, _ => s
          (s.updSess q Session.refit).takeUp)
      | _, _ => s)

end Sys2Proof.Machine
end

