-- ==== Sys2Proof/Machine/Publish.lean ====
section
/-! DEFINITION. What an edge does for the sessions: the commit index advances, records are published and signalled
(R45 step 1, R59, R253 to R266, R272 to R277, R366, R377, R409, R445). -/

namespace Sys2Proof.Machine

/-! ### The end of a tide (R59, R237, R274, R276) -/

/-- How a step that has not completed goes on: it rolls over with the layers it has completed; a voided one is dropped.
How many layers a step has completed by the end of the drain is a free value (log 4). -/
def rollStep (free : Nat) (p : Step) : Step :=
  { p with rolled := true, layersDone := p.layersDone + free % max (p.layers - p.layersDone) 1 }

/-- What R274 makes of the closed tide; `e` is the index of the edge. -/
def Session.specEdge (x : Session) (e : W32) : Session :=
  let run := if x.specOff || x.verified == 0 then x.rejectRun else if x.accepted == 0 then x.rejectRun + 1 else 0
  let y := { x with verified := 0, accepted := 0, probed := false, probeWon := false, rejectRun := run }
  if x.specOff && x.probeWon then y.restoreSpec
  else if !x.specOff && decide (8 ≤ run) then { y with draftLen := 0, specOff := true, offTide := e }
  else y

/-- The step of queue pair `q` that ran in the closed tide and did not complete: its bytes count as they moved, and where it
stands it rolls over (R59, R234). Steps planned behind it have not started, and their work is pending again (log 26). -/
def State.rollOver (s : State) (q : Nat) (x : Session) : State :=
  match x.steps.find? (fun t => !t.complete) with
  | none => s.updSess q (fun x => { x with steps := [] })
  | some t =>
    let t' := rollStep (Config.freeNat s.freeCtr) t
    let n := if t.void then 0 else 1
    let s := (s.tick).moved q t (t'.layersDone - t.layersDone)
    let s := (s.bump .TDE_OVERRUN_COUNT n).bump .CNT_T_OVERRUNS n (s.fnOf q)
    s.updSess q (fun x => { x with steps := if t.void then [] else [t'] })

/-- The sessions' side of the end of a tide. -/
def State.endTide (s : State) (e : W32) : State :=
  let n := (s.withSess.filter (fun (x : Nat × Session) => match x.2.steps.find? (fun t => !t.complete) with
    | none => false
    | some t => !t.void)).length
  let s := (s.each s.withSess (fun x s => s.rollOver x.1 x.2)).setNum .TDE_OVERRUN_LAST n
  let s := s.when (decide (0 < n)) (fun s => s.raise .TDE_INT_STATUS .TDE_INT_ENABLE 16)
  s.each s.withSess (fun x s => s.updSess x.1 (fun y => { y.specEdge e with barred := false, genPrev := y.newTokens }))

/-! ### The commit index (R256, R261 to R263, R275) -/

/-- Input frames whose positions all lie among the first `n` (R262). -/
def framesWithin (w : Work) (n : Nat) : Nat := ((frameEnds w).filter (fun e => decide (e ≤ n))).length

/-- Bitwise or of the record flags of the committed positions (Table 8.6). -/
def allFlags (l : List DonePos) : Nat := l.foldl (fun f d => f ||| d.flags) 0

/-- What the current command gains at the commit: the command and its report. -/
def Session.commitWork (x : Session) (m : Option ModelRec) (w : Work) : Work × Report :=
  let nin := x.newInput
  let ndel := x.newTokens
  let fin := if w.opcode == 2 then framesWithin w (w.inputCommitted + nin) - framesWithin w w.inputCommitted else 0
  let ft := match m with | none => 0 | some m => if x.audioOut then m.frameTokens else 0
  let fout := if w.opcode == 5 && ft != 0 then (x.frameTokens + ndel) / ft else 0
  let fl := allFlags x.done
  let isIn := w.opcode == 2 || w.opcode == 3
  let w' := { w with
    inputCommitted := if isIn then w.inputCommitted + nin else w.inputCommitted
    delivered := w.delivered + ndel
    tokTotal := if x.textOut then w.tokTotal + ndel else w.tokTotal
    frmTotal := w.frmTotal + fout
    fault := w.fault && fl / 256 % 2 == 0 }
  let w' := if w'.done.isSome then w'
    else if fl / 64 % 2 == 1 || (isIn && decide (w.input.length ≤ w'.inputCommitted)) then { w' with done := some (0, 0) } else w'
  (w', { flags := fl, tokens := if isIn then nin else ndel, frames := fin + fout
         specAcc := (x.done.map (·.specAcc)).sum, specProp := (x.done.map (·.specProp)).sum })

/-- The session after the commit: its index, history and frames (R263, R270, R275, R277). -/
def Session.commitState (x : Session) (m : Option ModelRec) (rep : Report) (opcode : Nat) : Session :=
  let ft := match m with | none => 0 | some m => if x.audioOut && opcode == 5 then m.frameTokens else 0
  { x with
    commit := x.commit + BitVec.ofNat 32 ((x.done.filter (fun d => !d.prime)).length)
    hist := x.trail.take 65535, nextToken := x.nextTok, done := []
    tokensOut := x.tokensOut + BitVec.ofNat 64 x.newTokens
    framesIn := if opcode == 2 then x.framesIn + BitVec.ofNat 64 rep.frames else x.framesIn
    framesOut := if opcode == 5 then x.framesOut + BitVec.ofNat 64 rep.frames else x.framesOut
    frameTokens := if ft == 0 then x.frameTokens else (x.frameTokens + x.newTokens) % ft }

/-- What a command ends with once every earlier one has ended: PROMPT, input with nothing left, a GENERATE whose buffers
take no further step (R261, R264). -/
def Session.atFront (x : Session) (m : Option ModelRec) (w : Work) : Work :=
  if w.done.isSome then w
  else if w.opcode == 4 || ((w.opcode == 2 || w.opcode == 3) && decide (w.input.length ≤ w.inputCommitted)) then { w with done := some (0, 0) }
  else if w.opcode == 5 && !((m.map (fun m => x.roomFor m w)).getD true) then { w with done := some (0, 0), endFlags := 128 }
  else w

/-- The commands that end at this edge leave the list, with their records; `front` says that none before stays, and `room`
how many more records than those sure to come find a free entry (R253). -/
def Session.sweepWork (x : Session) (m : Option ModelRec) (front : Bool) (room : Nat) (rep : Report) (l : List Work) : List Work × List Cpl :=
  match l with
  | [] => ([], [])
  | w :: l =>
    let w' := if front && room != 0 then x.atFront m w else w
    if w'.done.isSome then
      let r := x.sweepWork m front (if w.done.isSome then room else room - 1) {} l
      (r.1, cplOf w' rep :: r.2)
    else
      let r := x.sweepWork m false room {} l
      let now := rep.tokens != 0 || rep.frames != 0
      (w :: r.1, if now then cplOf w rep :: r.2 else r.2)

/-- A step of the session was voided by faults in so many consecutive tides as HLT_VOID_LIMIT says (R445). -/
def State.voidLimit (s : State) (q : Nat) : Bool :=
  s.hlt.voids.any (fun e => e.1 == q && e.2.2 == s.tideIdx && decide (s.num .HLT_VOID_LIMIT ≤ e.2.1))

/-- The records and the new state of a session at an edge: it may become CLOSED, or FAILED where its queue pair has entered
ERROR (R257). -/
def State.commitSession (s : State) (q : Nat) (x : Session) : State :=
  let m := s.model
  let fn := s.fnOf q
  let limit := s.voidLimit q
  let x := if limit then x.endWork 0x40 0 else x
  let (wk, rep, op) := match x.work with
    | [] => ([], ({} : Report), 0)
    | w :: l => let r := x.commitWork m w; (r.1 :: l, r.2, w.opcode)
  let y := x.commitState m rep op
  let k := s.qp q
  let sure := k.recs.length + (wk.filter (fun w => w.done.isSome)).length + (if y.closing.isSome then 1 else 0) +
    (if (rep.tokens != 0 || rep.frames != 0) && (wk.head?.map (fun w => w.done.isNone)).getD false then 1 else 0)
  let z := y.sweepWork m true (k.cqFree - sure) rep wk
  let drop := if x.faultFlag then y.blocks.filter (fun b => decide ((y.commit - BitVec.ofNat 32 (b.block * 256)).toInt < 0)) else []
  let closed := y.state == .closed || (y.state == .closing && z.1.isEmpty)
  let fails := k.state == .error && !closed
  let y := { y with
    work := z.1, state := if closed then .closed else if fails then .failed else y.state, steps := if fails then [] else y.steps
    blocks := if x.faultFlag then y.blocks.filter (fun b => decide (0 ≤ (y.commit - BitVec.ofNat 32 (b.block * 256)).toInt)) else y.blocks }
  let fin := match y.closing with
    | some (cid, irq) => if closed then [({ cid := cid, status := 0, opcode := 7, irq := irq } : Cpl)] else []
    | none => []
  let s := (s.updQp q (fun k => { k with session := some y, recs := k.recs ++ z.2 ++ fin }))
  let s := s.when fails (fun s => s.raise .SRV_INT_STATUS .SRV_INT_ENABLE 8 fn)
  let s : State := { s with srv.limbo := s.srv.limbo ++ drop.flatMap (·.pages) }
  let s := (s.bumpSrv .SRV_TOKENS_OUT x.newTokens fn).bumpSrv .SRV_LATE ((z.2.filter (fun c => c.report.flags % 2 == 1)).length) fn
  let s := if op == 2 then s.bumpSrv .SRV_FRAMES_IN rep.frames fn else s.bumpSrv .SRV_FRAMES_OUT rep.frames fn
  let s := s.when limit (fun s => { s with hlt := { s.hlt with voids := s.hlt.voids.filter (fun e => e.1 != q) } })
  match x.work.head? with
  | none => s
  | some w =>
    s.when (op == 5 && rep.frames != 0) (fun s =>
      (s.emit (.audio (w.audioAddr + BitVec.ofNat 64 (w.frmTotal * frameBytes x.out24)) (rep.frames * frameBytes x.out24))).dmaWr fn
        (rep.frames * frameBytes x.out24))

/-! ### Session status records (Table 8.10) -/

/-- Code of a session state (Table 8.7). -/
def SessionState.code : SessionState → Nat
  | .opened => 1 | .closing => 2 | .closed => 3 | .failed => 4

/-- The record of a session as of edge `e`: each field's offset × 16 + size, and value. -/
def State.statusOf (s : State) (q : Nat) (x : Session) (e : W32) : StatusRec :=
  let b := fun (v : Bool) (n : Nat) => if v then n else 0
  let pend := (x.work.map (fun w => w.input.length - w.inputCommitted)).sum
  { slot := x.slot, qid := q
    fields := [(1, x.state.code), (17, b x.pinned 1 + b x.exclusive 2 + b x.head.isSome 4 + b x.specOff 8 + b (s.bit .SRV_STATUS 7) 16),
      (34, x.events ||| b x.faultFlag 8), (65, x.slot), (81, if x.specOff then 0 else x.draftLen), (98, x.adapter), (132, x.commit.toNat),
      (196, (x.commit + 1).toNat), (260, x.base.toNat), (324, (x.head.getD 0).toNat), (388, e.toNat), (450, s.genTag.toNat),
      (482, x.faultEpoch.toNat), (516, pend), (577, x.rejectRun), (648, x.tokensOut.toNat), (776, x.framesIn.toNat), (904, x.framesOut.toNat)] }

/-- A record without TIDE, which changes with every edge. -/
def StatusRec.body (r : StatusRec) : List (Nat × Nat) := r.fields.filter (fun e => e.1 != 388)

/-- The record is written where a field changed (R277). -/
def State.writeStatus (s : State) (q : Nat) (e : W32) : State :=
  match s.sess? q with
  | none => s
  | some x =>
    let r := s.statusOf q x e
    if (x.written.map StatusRec.body) == some r.body then s
    else
      let r0 := { r with fields := r.fields.map (fun f => if f.1 == 34 then (34, 0) else f) }
      ((s.emit (.status x.statusAddr r)).dmaWr (s.fnOf q) 64).updSess q (fun x => { x with written := some r0, events := 0, faultFlag := false })

/-- Records asked for by QUERY_SESSION (R277); a queue pair without a session answers FREE. -/
def State.answerQueries (s : State) (q : Nat) (e : W32) : State :=
  let s' := s.each (s.qp q).queries (fun a s =>
    let r : StatusRec := match s.sess? a.2 with | none => { slot := 0, qid := a.2 } | some x => s.statusOf a.2 x e
    (s.emit (.status a.1 r)).dmaWr (s.fnOf q) 64)
  s'.updQp q (fun x => { x with queries := [] })

/-! ### Completion records (R253, R256) -/

/-- A record's 32 bytes (Table 8.5). -/
def Cpl.bytes (c : Cpl) (phase : Bool) (sqHead : Nat) (commit tide : W32) : Nat :=
  packFields [(0, 2, c.cid.toNat), (2, 1, c.status), (3, 1, c.opcode),
    (4, 2, c.report.flags % 512 + (if c.more then 32 else 0) + (if phase then 32768 else 0)), (6, 2, sqHead), (8, 4, commit.toNat),
    (12, 4, tide.toNat), (16, 2, c.report.tokens), (18, 2, c.report.frames), (20, 4, c.tokTotal), (24, 4, c.frmTotal),
    (28, 1, c.report.specAcc), (29, 1, c.report.specProp), (30, 2, c.detail)]

/-- Entries that this edge's admission takes. -/
def Qp.admitting (x : Qp) (close : Nat) : Nat :=
  if x.state == .ready then ((x.rung.filter (fun r => decide (r.1 < close))).map (·.2)).sum else 0

/-- One record into the completion ring (R253). PHASE is 1 on the first pass of a ring: R253 inverts it at each wrap and
gives no first value (DESIGN CHOICE, log 143). -/
def State.writeCpl (s : State) (q : Nat) (c : Cpl) (e : W32) (head : Nat) : State :=
  let x := s.qp q
  let phase := x.cqTail / x.cqSize % 2 == 0
  let commit := match x.session with | none => (Config.freeWord s.freeCtr).setWidth 32 | some y => y.commit
  let s := if x.session.isNone then s.tick else s
  let s := if x.mem then s.ringWrite (x.cqBase.toNat + 32 * (x.cqTail % x.cqSize)) 32 (c.bytes phase head commit e)
    else s.dmaWr (s.fnOf q) 32
  (s.emit (.completion q c phase head commit e)).updQp q (fun x =>
    { x with cqTail := x.cqTail + 1, unsignalled := if c.irq then x.unsignalled ++ [s.tide.count] else x.unsignalled })

/-- The records of a queue pair that find a free entry are published (R253). -/
def State.publishQp (s : State) (q : Nat) (e : W32) (close : Nat) : State :=
  let x := s.qp q
  let n := min x.recs.length x.cqFree
  let head := (x.sqHead + x.admitting close) % x.sqSize
  let s := s.each (x.recs.take n) (fun c s => s.writeCpl q c e head)
  let s := s.updQp q (fun x => { x with recs := x.recs.drop n })
  let full := x.state == .ready && (s.qp q).cqFree == 0
  let s := s.updQp q (fun x => { x with cqFull := full, cqFullFrom := if full && !x.cqFull then e else x.cqFullFrom })
  s.when full (fun s => s.bumpSrv .SRV_CQ_FULL_TIDES 1 (s.fnOf q))

/-- A CLOSED session whose record is written becomes FREE; its pages are freed in step 5 (R257). -/
def State.freeClosed (s : State) (q : Nat) : State :=
  match s.sess? q with
  | none => s
  | some x => if x.state == .closed then (s.dropPages x).updQp q (fun k => { k with session := none }) else s

/-- Completion messages of one vector: the unsignalled records of its queue pairs reach COAL_COUNT, or the oldest is
COAL_TIDES edges old (R377). -/
def State.coalesce (s : State) (fn v : Nat) : State :=
  let mine := (s.qps.cells.filter (fun e => e.2.state != .free && e.2.vector == v && s.fnOf e.1 == fn)).map (fun (e : Nat × Qp) => e.1)
  let l := mine.flatMap (fun q => (s.qp q).unsignalled)
  let old := l.any (fun k => decide (k + s.fld .HIF_COAL 8 4 fn ≤ s.tide.count))
  if l.isEmpty || !(decide (s.fld .HIF_COAL 0 8 fn ≤ l.length) || old) then s
  else (s.each mine (fun q s => s.updQp q (fun x => { x with unsignalled := [] }))).sendMsix fn v

/-- Completion messages at an edge. -/
def State.signalAll (s : State) : State :=
  let vs := ((s.qps.cells.filter (fun e => !e.2.unsignalled.isEmpty)).map (fun (e : Nat × Qp) => (s.fnOf e.1, e.2.vector))).eraseDups
  s.each vs (fun e s => s.coalesce e.1 e.2)

/-- Step 1 of R45, at the edge of index `e` with the intake close `close`: nothing while the scheduler processor
restarts (R409). -/
def State.publish (s : State) (e : W32) (close : Nat) : State :=
  if s.restarting .scheduler then s
  else
    let s := s.each (s.withSess.filter (fun x => x.2.state != .failed)) (fun x s => s.commitSession x.1 x.2)
    let qs := s.qps.cells.map (fun (x : Nat × Qp) => x.1)
    let s := s.each qs (fun q s => (s.writeStatus q e).answerQueries q e)
    let s := s.each qs (fun q s => s.when ((s.qp q).state != .free) (fun s => s.publishQp q e close))
    (s.each qs (fun q s => s.freeClosed q)).signalAll

end Sys2Proof.Machine
end

