-- ==== Sys2Proof/Machine/Plan.lean ====
section
/-! DEFINITION. The bench plan: validation, placement, release (09_bench_plan R281 to R298): row PLAN_LOAD_DONE and what
the writes of BPL_CTRL do. -/

namespace Sys2Proof.Machine

/-! ### Starting and releasing (R291, R295, R298) -/

/-- BPL_CTRL.START acts: refused with ST_BPL_BUSY, or the slot is LOADING (R291). -/
def State.planStart (s : State) : State :=
  let k := s.fld .BPL_CTRL 2 1
  let st := (s.pslot k).state
  let other := (s.pslot (1 - k)).state
  let busy := s.plans.loading.isSome || !(st == .empty || st == .failed) ||
    (other == .loading || other == .waitModel || other == .staging || other == .staged)
  if busy then ((s.setF .BPL_STATUS 8 8 0x6A).setF .BPL_CTRL 0 1 0).raise .BPL_INT_STATUS .BPL_INT_ENABLE 2
  else
    let s := (s.updPslot k (fun _ => { state := .loading })).setNum .BPL_STATUS 1
    { s with plans.loading := some (k, false) }

/-- ABORT acts at the next validation step (R291). -/
def State.planAbort (s : State) : State :=
  match s.plans.loading with
  | none => s.setF .BPL_CTRL 1 1 0
  | some (k, _) => { s.setF .BPL_CTRL 1 1 0 with plans.loading := some (k, true) }

/-- A weight slot bound only to a released plan is VERIFIED again (R295). -/
def State.releaseBound (s : State) (b : Option Nat) : State :=
  match b with
  | none => s
  | some w =>
    if (s.wslot w).state == .staging || (s.wslot w).state == .staged then
      ((s.endStaging (s.wslot w).pans).updWslot w (fun x => { x with state := .verified, pans := [] })).meetPlans w
    else s

/-- RELEASE acts on SLOT (R295): ignored on the ACTIVE one; any other is EMPTY, and a load into it is over. -/
def State.planRelease (s : State) : State :=
  let k := s.fld .BPL_CTRL 2 1
  let s := s.setF .BPL_CTRL 3 1 0
  let p := s.pslot k
  if p.state == .active then s
  else if p.state == .loading then
    ((({ s with plans.loading := none } : State).updPslot k (fun _ => {})).setF .BPL_CTRL 0 1 0).setF .BPL_STATUS 0 4 0
  else ((s.endStaging p.pans).updPslot k (fun _ => {})).releaseBound p.bound

/-- DUMP acts: the table is written at the next edge (R298). -/
def State.planDump (s : State) : State := { s with plans.dump := true }

/-! ### Placement (R175, R176, R296) -/

/-- A core's entry changes when the move it is in takes effect (Table 9.11). -/
def State.isMoving (s : State) (c : Nat) : Bool :=
  (s.fillOf c).isSome || (match s.activePlan with | none => false | some p => p.place.any (fun e => (e.core == c && e.moving.isSome) || e.moving == some c))

/-- A logical core is available to placement: UNUSED or PLACED, carried by a physical core (R296). -/
def State.available (s : State) (c : Nat) : Bool :=
  s.fitted c && (s.physOf c).isSome && !s.hlt.degraded.contains c && !s.isMoving c

/-- What a cluster has for placement: its available logical cores, ascending, and slots of its reduction unit. -/
structure Bin where
  cluster : Nat
  cores : List Nat
  slots : Nat := 64
deriving DecidableEq, Repr

/-- The clusters as placement finds them. -/
def State.bins (s : State) : List Bin :=
  (List.range s.part.clusters).map (fun k => { cluster := k, cores := ((List.range 64).map (fun c => k * 64 + c)).filter s.available })

/-- A cluster gives cores and slots to a group. -/
def Bin.take (l : List Bin) (k n slots : Nat) : List Bin :=
  l.map (fun b => if b.cluster == k then { b with cores := b.cores.drop n, slots := b.slots - slots } else b)

/-- A cluster can take `n` group cores that use `slots` slots (R284, R287). -/
def Bin.fits (b : Bin) (n slots : Nat) : Bool := decide (n ≤ b.cores.length) && decide (slots ≤ b.slots)

/-- Each CLUSTER_LOCAL group in one cluster, the lowest for which the rest works out too: a search through all
choices. `fin` goes on with what is left. -/
def placeLocal (groups : List GroupRec) (bins : List Bin) (got : List (Nat × List Nat))
    (fin : List (Nat × List Nat) → List Bin → Option (List Placed)) : Option (List Placed) :=
  match groups with
  | [] => fin got bins
  | g :: rest => bins.findSome? (fun b =>
      if b.fits g.groupCores g.slots then
        placeLocal rest (Bin.take bins b.cluster g.groupCores g.slots) (got ++ [(g.group, b.cores.take g.groupCores)]) fin
      else none)

/-- The group cores of a group on cores in order. -/
def placeOn (group : Nat) (cores : List Nat) : List Placed :=
  (cores.zip (List.range cores.length)).map (fun e => { group := group, groupCore := e.2, core := e.1 })

/-- Groups on a list of cores, one after another. -/
def placeRest (groups : List GroupRec) (cores : List Nat) : List Placed :=
  match groups with
  | [] => []
  | g :: rest => placeOn g.group (cores.take g.groupCores) ++ placeRest rest (cores.drop g.groupCores)

/-- The largest of a list. -/
def largest (l : List Nat) : Nat := l.foldl max 0

/-- The plan on the clusters with some layers streamed (R176, R296): CLUSTER_LOCAL groups each in one cluster, the
streaming set with as many cores as its largest layer, its lowest ones in one cluster where a streamed layer is
CLUSTER_LOCAL, and the other groups on what is left. Which of the assignments that meet R296 the scheduler takes is open
(DESIGN CHOICE, log 18): here the lowest cores, and for the streaming set the highest. -/
def placeWith (i : PlanImage) (bins : List Bin) (streamed : List Nat) : Option (List Placed) :=
  let str := i.groups.filter (fun g => streamed.contains g.layer)
  let res := i.groups.filter (fun g => !streamed.contains g.layer)
  let others := res.filter (fun g => !g.clusterLocal)
  let n := largest (str.map (·.groupCores))
  let inOne := str.filter (·.clusterLocal)
  let m := largest (inOne.map (·.groupCores))
  let fin := fun (low : List Nat) (got : List (Nat × List Nat)) (bins : List Bin) =>
    let free := bins.flatMap (·.cores)
    let high := free.filter (fun c => low.all (fun x => decide (x < c)))
    let need := (others.map (·.groupCores)).sum
    if n - m ≤ high.length && need + (n - m) ≤ free.length then
      let top := high.drop (high.length - (n - m))
      some (str.flatMap (fun g => placeOn g.group ((low ++ top).take g.groupCores)) ++ got.flatMap (fun e => placeOn e.1 e.2) ++
        placeRest others (free.filter (fun c => !top.contains c)))
    else none
  let locals := res.filter (·.clusterLocal)
  if m == 0 then placeLocal locals bins [] (fin [])
  else bins.findSome? (fun b =>
    let k := largest (inOne.map (·.slots))
    if b.fits m k then placeLocal locals (Bin.take bins b.cluster m k) [] (fin (b.cores.take m)) else none)

/-- The layers of a weight slot that holds the model which lie in the host tier: they are always streamed (R182). -/
def State.hostOf (s : State) (m : BitVec 128) : List Nat :=
  match s.slotWith m [.verified, .staging, .staged, .active] with
  | none => []
  | some w => (s.wslot w).hostLayers

/-- Residency and placement (R175, R296): layers are resident in rank order as far as the plan can be carried with the
streaming set for the rest. -/
def State.placePlan (s : State) (i : PlanImage) : Option (List Nat × List Placed) :=
  let host := s.hostOf i.modelId
  let pan := i.layers.filter (fun l => !l.wide)
  let ranked := (sortBy (fun a b => decide (a.rank ≤ b.rank)) (pan.filter (fun l => !host.contains l.layer))).map (·.layer)
  let tier := (pan.filter (fun l => host.contains l.layer)).map (·.layer)
  let bins := s.bins
  (List.range (ranked.length + 1)).reverse.findSome? (fun n =>
    (placeWith i bins (ranked.drop n ++ tier)).map (fun p => (ranked.drop n ++ tier, p)))

/-- The first GROUPS record that placement cannot carry together with those before it, even with every layer streamed
(R289). -/
def State.placeFault (s : State) (i : PlanImage) : Nat :=
  let bins := s.bins
  let all := i.layers.map (·.layer)
  match (List.range i.groups.length).find? (fun j => (placeWith { i with groups := i.groups.take (j + 1) } bins all).isNone) with
  | none => 0
  | some j => ((i.groups[j]?).map (·.off)).getD 0

/-- A plan load ends at a check (R289). -/
def State.planFails (s : State) (f : PlanFault) : State :=
  let s := ((s.failPlan f.code).setNum .BPL_FAIL_SECTION f.sec).setNum .BPL_FAIL_OFFSET f.off
  s.setF .BPL_STATUS 0 4 f.step

/-- PLAN_LOAD_DONE (R281 to R296, R368): the plan as read is checked in order, placed, bound; ABORT ends it (R291), as a
read that ended in an error does. -/
def execPlanLoadDone (t : Stamp) (p : PlanFile) (s : State) : Res :=
  answer t s fun s =>
    match s.plans.loading with
    | none => s
    | some (k, abort) =>
      let s := s.when p.dmaError (fun s => (s.bump .HIF_DMA_ERRORS).raise .HIF_INT_STATUS .HIF_INT_ENABLE 4)
      if abort || p.dmaError then (s.failPlan 0x6B).setF .BPL_STATUS 0 4 1
      else match planFault p (s.num .BPL_LOAD_LEN) with
        | some f => s.planFails f
        | none =>
          let i := planOf p
          match s.placePlan i with
          | none => s.planFails ⟨11, 0x69, sectionIndex p 3, s.placeFault i⟩
          | some (st, place) =>
            let s := ({ s with plans.loading := none } : State).updPslot k (fun _ => { state := .waitModel, img := some i, place := place, streamed := st })
            let s := (s.bump .CNT_PCIE_DMA_RD i.planLen).bump .CNT_T_DMA_RD i.planLen
            (((s.setNum .BPL_STATUS 0).setF .BPL_CTRL 0 1 0).raise .BPL_INT_STATUS .BPL_INT_ENABLE 1).bindPlan k

end Sys2Proof.Machine
end

