-- ==== Sys2Proof/Machine/View.lean ====
section
/-! DEFINITION. What the registers show that are not held in the register file but follow from the rest of the state
(Tables 10.8 to 10.11, 11.11, 12.8, 13.9, 13.10, 14.11, 14.14, 15.14, 16.7, 16.11). -/

namespace Sys2Proof.Machine

/-- One bit as a number. -/
def bit01 (b : Bool) : Nat := if b then 1 else 0

/-! ### Host interface -/

/-- HIF_EMU_STATUS of a function: BUSY of the three house-die processors, BUSY_SEEN as held (Table 12.10). -/
def State.viewEmu (s : State) (fn : Nat) : Nat :=
  bit01 (s.restarting .security) + 2 * bit01 (s.restarting .power) + 4 * bit01 (s.restarting .scheduler) +
  s.fld .HIF_EMU_STATUS 8 3 fn * 256

/-- A window selection names a class of Table 12.7 and a unit inside its range (R391). -/
def selOk (v : Nat) : Bool :=
  let c := v % 256
  let u := v / 256 % 65536
  if c == 1 then true else if 2 ≤ c && c ≤ 5 then decide (u < 4096) else if c == 6 then decide (u < 1024)
  else if c == 7 then decide (u < 4352) else false

/-- HIF_WIN_STATUS (R391): BAD of each window; a window never selected is not BAD (log 22). -/
def State.viewWin (s : State) : Nat :=
  let bad := fun (r : Reg) => bit01 (s.num r != 0 && !selOk (s.num r))
  bad .HIF_WIN0_SEL + 2 * bad .HIF_WIN1_SEL

/-! ### Cores and sync words -/

/-- Code of a context's state (Table 10.1). -/
def CtxState.code : CtxState → Nat
  | .idle => 0 | .ready => 1 | .running => 2 | .waiting => 3
/-- Code of a wait reason (Table 10.2). -/
def WaitReason.code : WaitReason → Nat
  | .sync => 1 | .hoist => 2 | .lane => 3 | .save => 4 | .fence => 5 | .vector => 6
/-- CRE_CTX_STATE (Table 10.10). -/
def Core.viewCtx (c : Core) : Nat :=
  ((List.range 4).map (fun i => let x := c.ctx i
    (x.state.code + ((x.reason.map WaitReason.code).getD 0) * 8 + bit01 x.rolled * 64) * 2 ^ (8 * i))).sum
/-- The steps not started for which a hoist has started transfers. -/
def Core.aheadOf (k : Core) (h : Nat) : Nat :=
  min 15 ((k.hoist h).ahead.filter (fun f =>
    decide ((k.ctx f.ctx.val).step < f.step) || (f.step == (k.ctx f.ctx.val).step && !(k.ctx f.ctx.val).mid))).length
/-- CRE_HOIST_STATE (Table 10.10). -/
def State.viewHoist (s : State) (c : Nat) : Nat :=
  let k := s.core c
  let w := ((s.schedOf c).map (·.window)).getD 0
  k.aheadOf 0 + w % 16 * 16 + bit01 (k.hoist 0).busy.isSome * 256 +
  k.aheadOf 1 * 65536 + bit01 (k.hoist 1).busy.isSome * 2 ^ 24
/-- Identity of a waiter (Table 10.9). -/
def State.waiterId (s : State) (w : Waiter) : Nat :=
  match w with
  | .ctx c x _ _ => s.unitId 1 c.val x.val
  | .hoist c h _ _ => s.unitId 2 c.val h.val
/-- Code of a WAIT condition (Table 10.5). -/
def condCode : WaitCond → Nat
  | .eq => 0 | .ne => 1 | .ge => 2
/-- The sync word of a debug unit: a pool word, or 64 places for the 48 words of each core after them (R322). -/
def wordRef (u : Nat) : Option SyncRef :=
  if u < 65536 then some (poolRef u)
  else
    let c := (u - 65536) / 64
    let i := (u - 65536) % 64
    if h : c < 4096 ∧ i < 48 then some (.core ⟨c, h.1⟩ ⟨i, h.2⟩) else none
/-- The debug record of a sync word (Table 10.8). -/
def State.viewWord (s : State) (w : SyncWord) (r : Reg) : Nat :=
  let ctxs := (w.waiters.filter (fun x => match x with | .ctx .. => true | _ => false)).length
  let hoists := w.waiters.length - ctxs
  let id := fun (i : Nat) => (w.waiters[i]?.map s.waiterId).getD 0
  let cond := fun (i : Nat) => (w.waiters[i]?.map (fun (x : Waiter) => condCode x.cond.cond)).getD 0
  let tgt := fun (i : Nat) => (w.waiters[i]?.map (fun (x : Waiter) => x.cond.target.toNat)).getD 0
  match r with
  | .SYN_DBG_VALUE => w.value.toNat
  | .SYN_DBG_LAST_SRC => w.lastSrc
  | .SYN_DBG_LAST_OP => if w.lastSrc == 0 then 0 else w.lastOp
  | .SYN_DBG_LAST_TIDE => w.lastTide.toNat
  | .SYN_DBG_WAITERS => min ctxs 32767 + min hoists 2 * 32768
  | .SYN_DBG_LAST_TIME => w.lastTime
  | .SYN_DBG_WAITER0 => id 0
  | .SYN_DBG_COND0 => cond 0
  | .SYN_DBG_TARGET0 => tgt 0
  | .SYN_DBG_WAITER1 => id 1
  | .SYN_DBG_COND1 => cond 1
  | .SYN_DBG_TARGET1 => tgt 1
  | _ => 0

/-! ### Fabric -/

/-- The selected link. -/
def State.selLink (s : State) : Nat := s.fld .FAB_LINK_SEL 0 6
/-- Code of a link state (Table 11.5). -/
def LinkSt.code : LinkSt → Nat
  | .down => 0 | .detect => 1 | .train => 2 | .hello => 3 | .admitSt => 4 | .up => 5 | .retrain => 6 | .held => 7
/-- FAB_LINK_STATE (Table 11.15). -/
def Link.viewState (l : Link) : Nat := l.st.code + l.code % 256 * 16 + l.ver % 16 * 4096 + bit01 l.present * 65536
/-- FAB_LINK_PEER (Table 11.11). -/
def Link.viewPeer (l : Link) : Nat :=
  match l.peer with | none => 0 | some h => (if h.assigned then h.coord.toNat else 0) + h.port % 64 * 2 ^ 17 + 2 ^ 31

/-! ### Resilience -/

/-- Physical cores that are retired (Table 14.12). -/
def State.retiredListed (s : State) : List Nat := (s.phys.cells.filter (fun e => e.2.role == .retired)).map (·.1)
/-- HLT_STATUS (Table 14.12). -/
def State.viewHlt (s : State) : Nat :=
  s.retiredListed.length + bit01 (!s.hlt.degraded.isEmpty) * 8192 +
  bit01 (s.phys.cells.any (fun e => (List.range 16).any (fun i => e.2.isSuspect i s.tideIdx))) * 16384
/-- HLT_CLUSTER_STATE (Table 14.13). -/
def State.viewCluster (s : State) (c : Nat) : Nat :=
  let free := ((physOfCluster c).filter (fun p => s.freeReserve p)).length
  let deg := (s.hlt.degraded.filter (fun k => clusterOfCore k == c)).length
  let k := s.clusters.get c
  if c ≥ s.part.clusters then 0
  else (s.retiredListed.filter (fun p => clusterOfPhys p == c)).length + min 4 free * 128 + min 64 deg * 1024 +
    bit01 k.ccpStopped * 2 ^ 17 + bit01 k.unitFailed * 2 ^ 18
/-- HLT_DIE_CAPACITY of a die (R439). -/
def State.viewDie (s : State) (d : Nat) : Nat :=
  if d ≥ s.part.dies then 0
  else
    let pl : List Nat := match s.activePlan with
      | none => []
      | some p => (p.place.filter (fun (e : Placed) => e.core / 1024 == d)).map Placed.core
    let own := pl.filter (fun c => (s.physOf c).isSome && !s.hlt.degraded.contains c)
    if pl.isEmpty then 1024 else 1024 * own.length / pl.length
/-- HLT_PC_STATE (Table 14.14). -/
def State.viewPhys (s : State) (p : Nat) : Nat :=
  let x := s.ph p
  let role := match x.role with
    | .home => if p % 1088 % 68 < 64 then 1 else 0
    | .reserve => 0 | .carrying => 1 | .filling => 2 | .retired => 3
  role + bit01 x.testing.isSome * 4 + bit01 x.listed * 8 + x.kind % 256 * 16
/-- HLT_PC_EVENTS: fault events in the current window, at most 3 (R425). -/
def State.viewEvents (s : State) (p : Nat) : Nat :=
  min 3 ((s.ph p).events.filter (fun e => decide (tideDist e s.tideIdx < 64))).length
/-- HLT_LINK_FAIL: links retired or HELD (Table 14.11). -/
def State.viewLinkFail (s : State) : Nat :=
  ((List.range 36).map (fun n => if (s.link n).st == .held || s.mram.retired.any (fun e => e.isLink && e.unit == n) then 2 ^ n else 0)).sum

/-! ### Security -/

/-- The content of a measurement block (Table 13.8, log 40), for a block whose bytes the spec gives: the trust list as 16
digests, the retirement list as its entries of 16 bytes, the other fields one after another. -/
def State.measContent (s : State) (i : Nat) : Option (List Byte) :=
  if i == 7 then some (leFields 2 [s.fld .FWP_SVN 0 16, s.mram.minSvn.toNat])
  else if i == 9 then some (s.mram.trust.flatMap (fun (d : Option (BitVec 512)) => leBytes 64 ((d.map BitVec.toNat).getD 0)))
  else if i == 10 then some (match s.activePlan.bind PlanSlot.img with
    | none => List.replicate 80 0 | some m => leBytes 16 m.planId.toNat ++ leBytes 64 m.digest.toNat)
  else if i == 11 then (
    let f := fun (w : Slot) => some (leBytes 16 w.modelId.toNat ++ leBytes 2 w.gen.toNat ++ leBytes 64 w.manifestSha.toNat)
    if s.wgt.slot0.state == .active then f s.wgt.slot0 else if s.wgt.slot1.state == .active then f s.wgt.slot1 else some (List.replicate 82 0))
  else if i == 12 then some (s.mram.retired.flatMap (fun e => leBytes 16 e.bytes))
  else none
/-- Block 8, whose fields have no stated widths, as numbers: part code, presence masks and HIF_DEV_STATE. -/
def State.measPart (s : State) : List Nat := [s.part.code, s.num .HIF_PRESENCE, s.devState]
/-- SHA-512 of a measurement block's content (R421); of blocks 2 to 6, the digests of the image that runs. The digests of ROM
and of block 8 are free values (log 40). -/
def State.measDigest (s : State) (i : Nat) : BitVec 512 :=
  if 2 ≤ i && i ≤ 6 then s.boot.image.getD (i - 2) 0
  else match s.measContent i with
    | some b => digestOf b
    | none => if 1 ≤ i && i ≤ 12 then Config.digest i (if i == 8 then s.measPart else []) else 0

/-! ### The view -/

/-- A register of function, unit or link `u` that follows from other state; none where the register file holds it. -/
def State.viewBase (s : State) (r : Reg) (u i : Nat) : Option Nat :=
  match r with
  | .TDE_TIME => some s.now
  | .AON_TIME => some (s.now * 32768 / 1000000000)
  | .HIF_EMU_STATUS => some (s.viewEmu u)
  | .HIF_WIN_STATUS => some s.viewWin
  | .HIF_FN_QP_FIRST => some (s.share (s.fld .HIF_FN_SEL 0 7)).qpFirst
  | .HIF_FN_QP_COUNT => some (s.share (s.fld .HIF_FN_SEL 0 7)).qpCount
  | .HIF_FN_SESSIONS => some ((s.share (s.fld .HIF_FN_SEL 0 7)).sessMax + (s.share (s.fld .HIF_FN_SEL 0 7)).sessRes * 256)
  | .HIF_FN_OPEN => some (s.openOf (s.fld .HIF_FN_SEL 0 7))
  | .SYN_SHARE_BASE => some (s.share u).poolBase
  | .SYN_SHARE_COUNT => some ((s.share u).poolCount + bit01 (s.share u).fabric * 2 ^ 17)
  | .SYN_DBG_VALUE | .SYN_DBG_LAST_SRC | .SYN_DBG_LAST_OP | .SYN_DBG_LAST_TIDE | .SYN_DBG_WAITERS | .SYN_DBG_LAST_TIME
  | .SYN_DBG_WAITER0 | .SYN_DBG_COND0 | .SYN_DBG_TARGET0 | .SYN_DBG_WAITER1 | .SYN_DBG_COND1 | .SYN_DBG_TARGET1 =>
    some (s.viewWord (match wordRef u with | none => {} | some w => s.shownWord w) r)
  | .CRE_ID => some (u + (match s.physOf u with | none => 0 | some p => p % 1088 % 68) * 4096)
  | .CRE_CTX_STATE => some (s.core u).viewCtx
  | .CRE_HOIST_STATE => some (s.viewHoist u)
  | .CRE_CTX_STEP => some (((s.core u).ctx i).step % 65536)
  | .EVT_STATUS => some (s.evt.recs.length + bit01 (decide (65536 ≤ s.evt.recs.length)) * 2 ^ 17 + s.fld .EVT_CTRL 0 1 * 2 ^ 18 +
      bit01 (s.evt.wfgAsked.isSome || s.evt.wfgWriting.isSome) * 2 ^ 19)
  | .BBX_STATUS => some (s.mram.bbx.faults.length + s.mram.bbx.snaps.length * 2048 + bit01 (!s.snaps.isEmpty) * 2 ^ 15 +
      s.mram.bbx.shutReason * 2 ^ 16)
  | .BBX_FAULTS_LOST => some s.mram.bbx.faultsLost.toNat
  | .BBX_SNAPS_LOST => some s.mram.bbx.snapsLost.toNat
  | .BBX_CLEAR_TIME => some s.mram.bbx.clearTime
  | .BBX_SHUT_TIME => some s.mram.bbx.shutTime
  | .BBX_SHUT_TIDE => some s.mram.bbx.shutTide.toNat
  | .BBX_DATA => some (s.mram.bbx.word (s.num .BBX_READ_OFF + 8 * i)).toNat
  | .FWP_SVN => some (s.fld .FWP_SVN 0 16 + s.mram.minSvn.toNat * 65536)
  | .SEC_STATUS => some (s.fld .SEC_STATUS 0 2 + s.sec.sessions.length * 4 + bit01 s.sec.ide.isSome * 64)
  | .SEC_PUB_N => some (if s.bit .SEC_STATUS 0 then (leNat (((beBytes 512 s.boot.identity.n).drop (8 * i)).take 8)) else 0)
  | .SEC_CERT_DATA => some (if s.num .SEC_CERT_OFF + 8 * i < s.num .SEC_CERT_LEN then
      (Config.freeWord (Config.freeKey 3 (s.num .SEC_CERT_OFF / 8 + i))).toNat else 0)
  | .SEC_MEAS_DIGEST => some (wordOf (s.measDigest (s.fld .SEC_MEAS_SEL 0 8)).toNat i).toNat
  | .HLT_STATUS => some s.viewHlt
  | .HLT_LIST_COUNT => some s.mram.retired.length
  | .HLT_LIST_ENTRY => some (match s.mram.retired[s.fld .HLT_LIST_SEL 0 10]? with | none => 0 | some e => (wordOf e.bytes i).toNat)
  | .HLT_CPER_LEN => some (if s.fld .HLT_CPER_SEL 0 10 < s.mram.bbx.faults.length then 328 else 0)
  | .HLT_CPER_DATA => some (match s.mram.bbx.faults[s.fld .HLT_CPER_SEL 0 10]? with
    | none => 0
    | some f => (wordOf (f.cper (s.num .SEC_KEY_ID + s.num .SEC_KEY_ID 0 1 * 2 ^ 64)) i).toNat)
  | .HLT_DIE_CAPACITY => some (s.viewDie i)
  | .HLT_CLUSTER_STATE => some (s.viewCluster i)
  | .HLT_LINK_FAIL => some s.viewLinkFail
  | .HLT_PC_STATE => some (s.viewPhys u)
  | .HLT_PC_LOGICAL => some (match s.carried u with | none => 0 | some c => c + 2 ^ 31)
  | .HLT_PC_PAN_SUSPECT => some (((List.range 16).map (fun k => if (s.ph u).isSuspect k s.tideIdx then 2 ^ k else 0)).sum)
  | .HLT_PC_EVENTS => some (s.viewEvents u)
  | .HLT_PC_LAST_FAULT => some (s.ph u).lastFault
  | .HLT_PC_LAST_TIDE => some (s.ph u).lastTide.toNat
  | .HLT_PC_SWEEP_TIDE => some (s.ph u).sweepTide.toNat
  | .HLT_PC_DEFER => some (min 64 (s.ph u).defer)
  | .HLT_PC_GRADED => some (s.ph u).graded
  | .HLT_PC_GRADE_FAILS => some (s.ph u).gradeFails
  | .HLT_PC_SWEEPS => some (s.ph u).sweeps
  | .HLT_PC_CE => some (s.ph u).ce
  | .HLT_PC_UE => some (s.ph u).ue
  | .FAB_LINK_STATE => some (s.link s.selLink).viewState
  | .FAB_LINK_PEER => some (s.link s.selLink).viewPeer
  | .FAB_LINK_PEER_KEY => some (match (s.link s.selLink).peer with | none => 0 | some h => (wordOf h.keyId.toNat i).toNat)
  | .FAB_LINK_CTRL => some (bit01 (s.link s.selLink).disabled * 4)
  | .FAB_LINK_DELAY | .FAB_LINK_FEC_CORR | .FAB_LINK_FEC_UNCORR | .FAB_LINK_CRC_ERR | .FAB_LINK_REPLAYS | .FAB_LINK_RETRAINS
  | .FAB_LINK_INDET => some (s.num r 0 s.selLink)
  | _ => none

end Sys2Proof.Machine
end

