-- ==== Sys2Proof/Machine/Views.lean ====
section
/-! DEFINITION. More registers that follow from the rest of the state (Tables 3.9 to 3.14, 4.6 to 4.9, 6.12 to 6.17,
7.7 to 7.10, 8.12, 9.11, 9.13 to 9.16, 16.8, 16.9), and the whole view. -/

namespace Sys2Proof.Machine

/-! ### Pans (Tables 3.9 to 3.14) -/

/-- Code of a bed state (Table 3.4). -/
def BedState.code : BedState → Nat
  | .empty => 0 | .writing => 1 | .written => 2 | .raking => 3 | .ready => 4 | .active => 5 | .stale => 6 | .failed => 7
/-- The bed's age as PAN_AGE shows it (R97). -/
def Bed.viewAge (b : Bed) : Nat := if b.state == .empty || b.state == .writing then 0xFF else min 0xFE b.age
/-- A request of PAN_CTRL stands (Table 3.11). -/
def Pan.asked (p : Pan) (f : Claim → Bool) : Bool := p.claims.any f || (match p.serving with | none => false | some c => f c)
/-- PAN_STATE (Table 3.10). -/
def Pan.viewState (p : Pan) : Nat :=
  p.a.state.code + p.b.state.code * 8 + bit01 p.activeB * 64 + bit01 p.withdrawn * 128 + bit01 p.streamed * 256 +
  bit01 (p.shadow.content == .staged && p.shadow.state != .empty) * 512
/-- The block of the placement in effect on a pan: none on a core to which a group core is moving, whose placement takes
effect at a later edge (R37, R141). -/
def State.shownBlock (s : State) (pan : Nat) : Option Block :=
  if (s.activePlan.map (fun p => p.place.any (fun e => e.moving == some (pan / 16) && e.core != pan / 16))).getD false then none
  else (s.pan pan).placedBlock
/-- PAN_CONFIG (Table 3.12) of the block a pan shows. -/
def viewConfig (b : Option Block) : Nat :=
  match b with
  | none => 0
  | some b => b.groups + b.rowsUsed * 8 + b.colsUsed * 2 ^ 14 + b.statics.length * 2 ^ 24
/-- A spare map entry (Table 3.13). -/
def Bed.viewSpare (b : Bed) (i : Nat) : Nat :=
  match b.spares.find? (fun e => e.1 == i) with | none => 0 | some e => e.2 + 2 ^ 31
/-- A bed's residual: free after a start or an exit rake (log 8). -/
def Bed.viewResid (b : Bed) (pan isB : Nat) : Nat :=
  if b.rakeId == 0 || b.residOwn then b.resid.toNat else Config.freeNat (Config.freeKey 5 ((b.rakeId * 65536 + pan) * 2 + isB)) % 65536
/-- Registers of a pan. -/
def State.viewPan (s : State) (r : Reg) (u i : Nat) : Option Nat :=
  let p := s.pan u
  match r with
  | .PAN_ID => some u
  | .PAN_STATE => some p.viewState
  | .PAN_CTRL => some (bit01 (p.asked (fun (c : Claim) => c.refreshReq)) + 2 * bit01 (p.asked (fun (c : Claim) => c.rakeReq)))
  | .PAN_CONFIG => some (viewConfig (s.shownBlock u))
  | .PAN_AGE => some (p.a.viewAge + p.b.viewAge * 256)
  | .PAN_RAKE_RESID => some (p.a.viewResid u 0 + p.b.viewResid u 1 * 65536)
  | .PAN_GRADE_RESID => some (gradeResid p.grades)
  | .PAN_SPARE_USED => some (p.a.spares.length + p.b.spares.length * 256)
  | .PAN_RAKE_TIDE_A => some p.a.rakeTide.toNat
  | .PAN_RAKE_TIDE_B => some p.b.rakeTide.toNat
  | .PAN_ACTIVE_TIDE => some p.activeTide.toNat
  | .PAN_SPARE_MAP_A => some (p.a.viewSpare i)
  | .PAN_SPARE_MAP_B => some (p.b.viewSpare i)
  | .PAN_BED_WRITES => some ((s.num r u + p.baseWrites) % 2 ^ 64)
  | .PAN_RAKES => some ((s.num r u + p.baseRakes) % 2 ^ 64)
  | .PAN_COEF_A => some (Cells.get (p.a.coefDefault u false) p.a.coefs i).toNat
  | .PAN_COEF_B => some (Cells.get (p.b.coefDefault u true) p.b.coefs i).toNat
  | _ => none

/-! ### Lanes and sluices (Tables 4.6 to 4.9) -/

/-- Byte `k` of a number. -/
def byteAt (n k : Nat) : Nat := n / 2 ^ (8 * k) % 256
/-- A signed value in `n` bytes. -/
def signedNat (v : Int) (n : Nat) : Nat := (BitVec.ofInt (8 * n) v).toNat
/-- Header of the capture buffer (Table 4.8). -/
def Capture.header (c : Capture) : Nat :=
  packFields [(0, 1, c.recs.length), (1, 1, c.level), (2, 1, c.spillShift), (3, 1, bit01 c.add + 2 * bit01 c.last + 4 * bit01 c.sat),
    (4, 2, c.cols), (8, 4, c.tide.toNat)]
/-- A pass descriptor of the capture buffer. -/
def passDescriptor (r : PassRec) : Nat :=
  packFields [(0, 1, bit01 r.desc.low + 2 * bit01 r.desc.spill), (2, 2, r.desc.first), (4, 2, r.desc.rows), (6, 2, signedNat r.p 2)]
/-- A byte of the capture buffer (Table 4.8). -/
def Capture.byte (c : Capture) (o : Nat) : Nat :=
  if o < 0x40 then byteAt c.header o
  else if o < 0xE0 then (match c.recs[(o - 0x40) / 8]? with | none => 0 | some r => byteAt (passDescriptor r) ((o - 0x40) % 8))
  else if o < 0x2B60 then
    (match c.recs[(o - 0xE0) / 544]? with | none => 0 | some r => (r.codes.getD ((o - 0xE0) % 544) 0).toNat)
  else if o < 0x3360 then byteAt (signedNat (c.q.getD ((o - 0x2B60) / 4) 0) 4) ((o - 0x2B60) % 4)
  else if o < 0x3B60 then byteAt (signedNat (c.acc.getD ((o - 0x3360) / 4) 0) 4) ((o - 0x3360) % 4)
  else 0
/-- A 64-bit word of it. -/
def Capture.word (c : Capture) (i : Nat) : Nat := ((List.range 8).map (fun k => c.byte (8 * i + k) * 2 ^ (8 * k))).sum
/-- One bit for each pan of a core. -/
def State.panBits (s : State) (core : Nat) (f : Pan → Bool) : Nat :=
  ((List.range 16).map (fun k => bit01 (f (s.pan (core * 16 + k))) * 2 ^ k)).sum
/-- Outlier threshold of a pan; 0x80 disables (R141). -/
def State.threshold (s : State) (pan : Nat) : Nat := match s.shownBlock pan with | none => 0x80 | some b => b.threshold
/-- Bytes of the sluice weight store that a core's placed group core uses; on a core of the streaming set, the group core
whose blocks its pans show (R118, R141). -/
def State.storeUsed (s : State) (core : Nat) : Nat :=
  match s.groupsAt core, (pansOf core).findSome? (fun p => s.shownBlock p) with
  | (some i, l), some b =>
    (l.findSome? (fun e => (i.groups.find? (fun g => g.group == e.group && g.layer == b.layer)).map (fun g => storeBytes i g e.groupCore))).getD 0
  | _, _ => 0
/-- Registers of a core's lanes and sluice. -/
def State.viewCore (s : State) (r : Reg) (u i : Nat) : Option Nat :=
  match r with
  | .COR_ID => some u
  | .COR_STATUS => some (s.panBits u (fun p => p.set0.sat || p.set1.sat) + s.panBits u (fun p => decide (0 < p.workSet.shift)) * 65536)
  | .COR_CRU_ADDS => some (s.num .COR_CRU_ADDS (u / 64 * 64))
  | .COR_CRU_SAT => some (s.num .COR_CRU_SAT (u / 64 * 64))
  | .COR_CRU_SLOTS => some (((s.clusters.get (u / 64)).slots.filter (fun e => e.2.used)).length)
  | .COR_CAPTURE => some ((s.core u).capture.word i)
  | .SLC_STORE_USED => some (s.storeUsed u)
  | .SLC_SPILL_SHIFT => some (((List.range 16).map (fun k =>
      (match s.shownBlock (u * 16 + k) with | none => 0 | some b => b.spillShift % 4) * 4 ^ k)).sum)
  | .SLC_THRESH => some (((List.range 4).map (fun k => s.threshold (u * 16 + 4 * i + k) * 256 ^ k)).sum)
  | _ => none

/-! ### Weights (Tables 6.12 to 6.17) -/

/-- Code of a model slot state (Table 6.10). -/
def SlotState.code : SlotState → Nat
  | .empty => 0 | .loading => 1 | .verified => 2 | .staging => 3 | .staged => 4 | .active => 5 | .retired => 6 | .failed => 7
/-- The MODEL_ID registers: zero when EMPTY. -/
def Slot.viewId (x : Slot) (i : Nat) : Nat := if x.state == .empty then 0 else (wordOf x.modelId.toNat i).toNat
/-- WGT_SLOT_STATE (Table 6.15). -/
def State.viewSlots (s : State) : Nat :=
  s.wgt.slot0.state.code + s.wgt.slot1.state.code * 16 + bit01 (s.wgt.slot1.state == .active) * 256 + bit01 s.wgt.heldFrom.isSome * 512
/-- Registers of the WGT block. -/
def State.viewWgt (s : State) (r : Reg) (i : Nat) : Option Nat :=
  match r with
  | .WGT_LOAD_STATUS => some (s.fld .WGT_LOAD_STATUS 0 16 + bit01 s.wgt.serving.isSome * 65536)
  | .WGT_SLOT_STATE => some s.viewSlots
  | .WGT_MODEL_ID_0 => some (s.wgt.slot0.viewId i)
  | .WGT_MODEL_ID_1 => some (s.wgt.slot1.viewId i)
  | .WGT_GEN => some (s.wgt.slot0.gen.toNat + s.wgt.slot1.gen.toNat * 65536)
  | .WGT_ADAPTERS => some s.wgt.adapters.length
  | .WGT_TRUST_CTRL => some (s.fld .WGT_TRUST_CTRL 0 4 + bit01 (s.mram.trust.getD (s.fld .WGT_TRUST_CTRL 0 4) none).isSome * 16)
  | .WGT_TRUST_DIGEST => some (match s.mram.trust.getD (s.fld .WGT_TRUST_CTRL 0 4) none with
    | none => 0 | some d => (wordOf d.toNat i).toNat)
  | _ => none

/-! ### KV cache (Tables 7.2, 7.7 to 7.10) -/

/-- The open sequence that KVC_PT_SEL names (R247). -/
def State.selSeq (s : State) : Option Session :=
  (s.sequences.find? (fun e => e.2.slot == s.fld .KVC_PT_SEL 0 7)).map (·.2)
/-- A page table entry of the selected sequence (Table 7.2); the stack of a page is free (log 25). -/
def State.ptEntry (s : State) (x : Session) : Nat :=
  let head := s.bit .KVC_PT_SEL 15
  let layer := s.fld .KVC_PT_SEL 8 7
  let hb := x.head.map blockOfPos
  let b := if head then x.blocks.find? (fun e => some e.block == hb)
    else x.blocks.find? (fun e => e.block % 16384 == s.fld .KVC_PT_SEL 16 14 && some e.block != hb)
  match b with
  | none => 0
  | some e => match e.pages[layer]? with
    | none => 0
    | some p => p + s.someStack 6 p * 2 ^ 25 + bit01 head * 2 ^ 30 + 2 ^ 31
/-- KVC_SEQ_INFO (Table 7.10). -/
def Session.viewInfo (x : Session) : Nat :=
  x.limit + x.policy * 2 ^ 15 + bit01 x.head.isSome * 2 ^ 17 + x.bucket * 2 ^ 18 + bit01 x.exclusive * 2 ^ 21 + 2 ^ 22
/-- Open sequences in a bucket at the latest edge (R232). -/
def State.bucketCount (s : State) (b : Nat) : Nat := (s.sequences.filter (fun e => e.2.bucket == b)).length
/-- Registers of the KVC block. -/
def State.viewKvc (s : State) (r : Reg) (i : Nat) : Option Nat :=
  let sel := if s.fld .KVC_PT_SEL 8 7 < s.kvLayers then s.selSeq else none
  match r with
  | .KVC_STATUS => some (bit01 (match s.model with | none => false | some m => m.kvFormat == 5) + bit01 s.anyExclusive * 2 +
      s.fld .KVC_STATUS 2 3 * 4)
  | .KVC_PAGE_BYTES => some s.pageBytes
  | .KVC_SEQ_OPEN => some s.openAll
  | .KVC_POOL_PAGES => some s.srv.poolPages
  | .KVC_GEN_RESERVE => some s.genReserve
  | .KVC_BUCKET_SEQ => some (s.bucketCount (2 * i) + s.bucketCount (2 * i + 1) * 65536)
  | .KVC_PT_ENTRY => some (match sel with | none => 0 | some x => s.ptEntry x)
  | .KVC_SEQ_BASE => some (match sel with | none => 0 | some x => x.base.toNat)
  | .KVC_SEQ_NEXT => some (match sel with | none => 0 | some x => x.next.toNat)
  | .KVC_SEQ_INFO => some (match sel with | none => 0 | some x => x.viewInfo)
  | _ => none

/-! ### Serving (Table 8.12) -/

/-- SRV_QP_STATE of a queue pair. -/
def Qp.viewState (x : Qp) : Nat :=
  let st := match x.state with | .free => 0 | .ready => 1 | .error => 2
  let opn := match x.session with | none => false | some y => y.state == .opened || y.state == .closing
  st + bit01 opn * 4 + (match x.session with | none => 0 | some y => y.slot) * 8 + bit01 x.cqFull * 1024 +
  x.sqHead % 2 ^ x.sqLog % 65536 * 65536
/-- Registers of a function's SRV block. -/
def State.viewSrv (s : State) (r : Reg) (fn : Nat) : Option Nat :=
  let q := s.fld .SRV_QP_SEL 0 20 fn
  let own := decide ((s.share fn).qpFirst ≤ q) && decide (q < (s.share fn).qpFirst + (s.share fn).qpCount)
  match r with
  | .SRV_STATUS => some ((if fn == 0 then s.openAll else s.openOf fn) + s.fld .SRV_STATUS 7 1 * 128)
  | .SRV_QP_FIRST => some (s.share fn).qpFirst
  | .SRV_QP_COUNT => some (s.share fn).qpCount
  | .SRV_QP_STATE => some (if own then (s.qp q).viewState else 0)
  | .SRV_QP_RUNG => some (if own then (s.qp q).lastTail % 65536 + (s.qp q).lastHead % 65536 * 65536 else 0)
  | _ => none

/-! ### The bench plan (Tables 9.11, 9.13 to 9.16) -/

/-- Code of a plan slot state (Table 9.10). -/
def PlanState.code : PlanState → Nat
  | .empty => 0 | .loading => 1 | .waitModel => 2 | .staging => 3 | .staged => 4 | .active => 5 | .failed => 6
/-- Bits of a list of pan indexes. -/
def maskOf (l : List Nat) : Nat := ((List.range 16).map (fun k => bit01 (l.contains k) * 2 ^ k)).sum
/-- Physical core number in its cluster; 0xFF for none. -/
def localPhys (p : Option Nat) : Nat := match p with | none => 0xFF | some p => p % 1088 % 68
/-- Placement entry of a logical core in a plan slot, 16 bytes (Table 9.11). A core that a group core is leaving, or whose
fill is under way, is MOVING, be it DEGRADED or not; one of the streaming set shows the pans of every group core it visits,
and the first of them as its GROUP. -/
def State.placeEntry (s : State) (x : PlanSlot) (c : Nat) : Nat :=
  let es := x.place.filter (fun e => e.core == c)
  let e := es.head?
  let next := match e.bind Placed.moving with | none => s.fillOf c | some t => (s.physOf t).orElse (fun _ => s.fillOf t)
  let here : List (GroupRec × Nat) := match x.img with
    | none => []
    | some i => es.filterMap (fun e => (i.groups.find? (fun (g : GroupRec) => g.group == e.group)).map (fun g => (g, e.groupCore)))
  let pans := fun (l : List (GroupRec × Nat)) => (l.flatMap (fun g => (g.1.blocks.filter (fun b => b.1 == g.2)).map (fun (b : Nat × Nat) => b.2)))
  let moving := next.isSome || (e.bind Placed.moving).isSome
  let st := if moving then 2 else if s.hlt.degraded.contains c then 3 else if e.isSome then 1 else 0
  packFields [(0, 4, match e with | none => 0xFFFFFFFF | some e => e.group), (4, 2, match e with | none => 0 | some e => e.groupCore),
    (6, 1, st), (7, 1, localPhys (s.physOf c)), (8, 1, localPhys next),
    (9, 1, if e.isSome then s.masterStack c else 0), (10, 2, maskOf (pans here)),
    (12, 2, maskOf (pans (here.filter (fun g => x.streamed.contains g.1.layer))))]
/-- Logical cores PLACED or MOVING of the active plan. -/
def State.coresPlaced (s : State) : Nat :=
  match s.activePlan with
  | none => 0
  | some p => ((p.place.filter (fun e => e.moving.isSome || !s.hlt.degraded.contains e.core)).map (fun (e : Placed) => e.core)).eraseDups.length
/-- PLAN_ID of a slot; zero when EMPTY or none. -/
def PlanSlot.viewPlan (x : PlanSlot) (i : Nat) : Nat :=
  match x.img with | none => 0 | some m => (wordOf m.planId.toNat i).toNat
/-- MODEL_ID of a slot. -/
def PlanSlot.viewModel (x : PlanSlot) (i : Nat) : Nat :=
  match x.img with | none => 0 | some m => (wordOf m.modelId.toNat i).toNat
/-- BPL_SLOT_STATE (Table 9.16). -/
def State.viewPlans (s : State) : Nat :=
  let other := if s.plans.s0.state == .active then s.plans.s1 else s.plans.s0
  let other := if s.plans.s0.state != .active && s.plans.s1.state != .active && s.plans.s0.bound.isNone then s.plans.s1 else other
  s.plans.s0.state.code + s.plans.s1.state.code * 16 + bit01 (s.plans.s1.state == .active) * 256 + other.bound.getD 0 * 512
/-- Registers of the BPL block. -/
def State.viewBpl (s : State) (r : Reg) (i : Nat) : Option Nat :=
  match r with
  | .BPL_SLOT_STATE => some s.viewPlans
  | .BPL_PLAN_ID_0 => some (s.plans.s0.viewPlan i)
  | .BPL_PLAN_ID_1 => some (s.plans.s1.viewPlan i)
  | .BPL_MODEL_ID_0 => some (s.plans.s0.viewModel i)
  | .BPL_MODEL_ID_1 => some (s.plans.s1.viewModel i)
  | .BPL_PL_ENTRY => some (if s.fld .BPL_PL_SEL 0 12 < s.part.cores then
      (wordOf (s.placeEntry (s.pslot (s.fld .BPL_PL_SEL 12 1)) (s.fld .BPL_PL_SEL 0 12)) i).toNat else 0)
  | .BPL_CORES_PLACED => some s.coresPlaced
  | .BPL_CORES_DEGRADED => some s.hlt.degraded.length
  | _ => none

/-! ### Counters (Tables 16.8, 16.9) -/

/-- The tenant counters from 0x008 of Table 16.9, register and element; the word after them is RSV. -/
def tenantWords : List (Reg × Nat) :=
  [(.CNT_T_DMA_RD, 0), (.CNT_T_DMA_WR, 0), (.CNT_T_KV_CHARGED, 0), (.CNT_T_KV_READ, 0), (.CNT_T_KV_WRITE, 0), (.CNT_T_PRODUCTS, 0),
   (.CNT_T_OVERRUNS, 0), (.CNT_T_QSAT, 0), (.CNT_T_QSAT, 1), (.CNT_T_QSAT, 2), (.CNT_T_SLIDES, 0), (.CNT_T_REFUSALS, 0)]
/-- Layers of the active plan. -/
def State.planLayers (s : State) : Nat :=
  match s.activePlan with | none => 0 | some p => match p.img with | none => 0 | some i => i.layers.length
/-- A byte counter of a path inside the package: what the model moved on it, and a free number of bytes more, for control
traffic and vector programs whose paths the spec does not give (log 45). -/
def State.moreBytes (s : State) (r : Reg) (kind i : Nat) : Nat :=
  (s.num r 0 i + Config.freeNat (Config.freeKey kind (8 * s.now + i))) % 2 ^ 64

/-- Registers of the CNT block in the running view (Table 16.8). -/
def State.viewCnt (s : State) (r : Reg) (i : Nat) : Option Nat :=
  match r with
  | .CNT_OVERRUNS => some (s.num .TDE_OVERRUN_COUNT)
  | .CNT_GRADED => some (s.num .HLT_GRADED)
  | .CNT_GRADE_FAILS => some (s.num .HLT_GRADE_FAILS)
  | .CNT_LAYER => some (if s.fld .CNT_LAYER_SEL 0 12 < s.planLayers then s.num .CNT_LAYER (s.fld .CNT_LAYER_SEL 0 12) i else 0)
  | .CNT_FN_VIEW => some (match tenantWords[i]? with
    | none => 0
    | some e => if s.fld .CNT_FN_SEL 0 7 < 65 then s.num e.1 (s.fld .CNT_FN_SEL 0 7) e.2 else 0)
  | .CNT_SRAM_BYTES => some (s.moreBytes .CNT_SRAM_BYTES 8 0)
  | .CNT_CLUSTER_BYTES => some (s.moreBytes .CNT_CLUSTER_BYTES 9 0)
  | .CNT_DIE_NET_BYTES => some (s.moreBytes .CNT_DIE_NET_BYTES 10 0)
  | .CNT_D2D_CC => some (if i < s.part.dies * (s.part.dies - 1) / 2 then s.moreBytes .CNT_D2D_CC 11 i else 0)
  | .CNT_D2D_HOUSE => some (if i < s.part.dies then s.moreBytes .CNT_D2D_HOUSE 12 i else 0)
  | .CNT_D2D_LINK => some (if i / 2 < s.part.dies && i % 2 < s.part.linkDies then s.moreBytes .CNT_D2D_LINK 13 i else 0)
  | _ => none

/-! ### The view -/

/-- A register that follows from other state; none where the register file holds it. -/
def State.viewMore (s : State) (r : Reg) (u i : Nat) : Option Nat :=
  match r.info.block with
  | .pan => s.viewPan r u i
  | .cor | .slc => s.viewCore r u i
  | .wgt => s.viewWgt r i
  | .kvc => s.viewKvc r i
  | .srv => s.viewSrv r u
  | .bpl => s.viewBpl r i
  | .hka => if r == .HKA_RAW then some (s.num .HKA_RAW 0 i + bit01 (s.chanAbsent i) * 4096) else none
  | .thm => if r == .THM_SENSOR then some (s.num .THM_SENSOR 0 i + bit01 (s.chanAbsent i) * 65536) else none
  | .cnt => s.viewCnt r i
  | .cntT => if r == .CNT_T_FUNCTION then some (u % 256) else none
  | _ => none

/-- What element `i` of register `r` of function, unit or link `u` reads as. -/
def State.view (s : State) (r : Reg) (u i : Nat) : Nat :=
  match s.viewBase r u i with
  | some v => v
  | none => match s.viewMore r u i with
    | some v => v
    | none => s.num r u i

end Sys2Proof.Machine
end

