-- ==== Sys2Proof/Machine/Records.lean ====
section
/-! DEFINITION. Event recorder, wait-for graph, black box (16_records): rows EVENT_RECORD_ARRIVAL, WFG_WRITE_DONE,
SNAPSHOT_DONE, and what the writes of EVT_CTRL and BBX_CTRL do. -/

namespace Sys2Proof.Machine

/-! ### The recorder (R487 to R489) -/

/-- EVT_CTRL.FREEZE. -/
def State.frozen (s : State) : Bool := s.bit .EVT_CTRL 0
/-- A record reaches the recorder: stored while FREEZE is 0 and there is room, else counted in EVT_LOST. A record of the
instant at which FREEZE was set is stored (R488). FULL is raised once, at the first record that finds no room. -/
def State.storeRec (s : State) (e : Event) : State :=
  let lost := s.frozen && s.evt.freezeT != s.now
  if lost then s.bump .EVT_LOST
  else if s.evt.recs.length < 65536 then { s with evt.recs := s.evt.recs ++ [e] }
  else
    let first := s.fld .EVT_STATUS 17 1 == 0
    ((s.bump .EVT_LOST).setF .EVT_STATUS 17 1 1).when first (fun s => s.raise .EVT_INT_STATUS .EVT_INT_ENABLE 1)
/-- The tail ring with one record more: it holds the latest 8,192. -/
def tailAdd (l : List Event) (e : Event) : List Event :=
  match l with
  | [] => [e]
  | x :: r => if r.length < 8191 then x :: r ++ [e] else r ++ [e]

/-- The newest 8,192 records, whatever FREEZE and COUNT are (R489). -/
def State.tailRec (s : State) (e : Event) : State :=
  { s with evt.tail := tailAdd s.evt.tail e }
/-- EVENT_RECORD_ARRIVAL (R485, R487 to R489): the oldest record of the source still on its way reaches the recorder. -/
def State.arrive (s : State) (src : Nat) : State :=
  match s.evt.inFlight.find? (fun e => e.src == src) with
  | none => s
  | some e =>
    let lost := s.frozen && s.evt.freezeT != s.now
    let same := if s.evt.arrT == s.now then s.evt.arrived else []
    let v := { s.evt with inFlight := s.evt.inFlight.erase e, arrT := s.now, arrived := same ++ [(e, lost)] }
    ((({ s with evt := v } : State).bump .EVT_OFFERED).storeRec e).tailRec e

/-- EVENT_RECORD_ARRIVAL. -/
def execEventRecordArrival (t : Stamp) (src : Byte) (s : State) : Res := answer t s fun s => s.arrive src.toNat

/-- The EVT_CLEARED record, stored by the recorder at the next index once FREEZE is 0 (R488). -/
def State.clearedRec (s : State) : State :=
  match s.evt.cleared with
  | none => s
  | some (held, lost) =>
    if s.frozen then s
    else
      let e : Event := ⟨0x1001, 0x80, 0, s.tideIdx, s.now, held, lost, 0, 0⟩
      let s : State := { s with evt := { s.evt with recs := s.evt.recs ++ [e], cleared := none } }
      (s.bump .EVT_OFFERED).tailRec e
/-- EVT_CTRL.FREEZE as written (R488). -/
def State.evtFreeze (s : State) (on : Bool) : State :=
  let s : State := if on && !s.frozen then { s with evt.freezeT := s.now } else s
  (s.setF .EVT_CTRL 0 1 (bit01 on)).clearedRec
/-- EVT_CTRL.CLEAR (R488): records of this very instant are kept or counted after the clear. -/
def State.evtClear (s : State) : State :=
  let same := if s.evt.arrT == s.now then s.evt.arrived else []
  let kept := (same.filter (fun e => !e.2)).map (·.1)
  let lostNow := (same.filter (fun e => e.2)).length
  let p := s.evt.cleared.getD (0, 0)
  let held := s.evt.recs.length - kept.length
  let lost := s.num .EVT_LOST - lostNow
  let v := { s.evt with recs := kept, cleared := some (p.1 + held, p.2 + lost) }
  ((({ s with evt := v } : State).setNum .EVT_LOST lostNow).setF .EVT_STATUS 17 1 0).clearedRec

/-! ### The wait-for graph (R501) -/

/-- A trigger: merged into a graph that is asked for or in progress (R501). -/
def State.wfgTrigger (s : State) (trigger proc : Nat) : State :=
  if s.evt.wfgAsked.isSome || s.evt.wfgWriting.isSome then s else { s with evt.wfgAsked := some (trigger, proc) }
/-- EVT_CTRL.WFG_REQ. -/
def State.wfgReq (s : State) : State := (s.setF .EVT_CTRL 2 1 1).wfgTrigger 0 0
/-- At a seal: the waits for budget as they stand (R51), and the graph where one was asked for (R501); the scheduler
processor takes it once it runs. -/
def State.wfgAtSeal (s : State) : State :=
  let waits := fun (q : Nat) (x : Qp) (y : Session) =>
    y.state == .opened && y.cur.isSome && y.steps.isEmpty && !y.barred && !s.srv.short.contains q && x.mayStep y
  let upd := fun (q : Nat) (x : Qp) => match x.session with
    | none => x
    | some y => { x with session := some { y with waitFrom := if waits q x y then some (y.waitFrom.getD s.tideIdx) else none } }
  let s : State := { s with qps.cells := Cells.mapAll (fun _ => s.qps.dflt) upd s.qps.cells }
  match s.evt.wfgAsked with
  | none => s
  | some (t, p) =>
    if s.restarting .scheduler then s
    else { s with evt := { s.evt with wfgAsked := none, wfgWriting := some ⟨t, p, s.waitEdges⟩ } }
/-- WFG_WRITE_DONE (R501, R502): the records go to the host buffer, as many as it holds; WFG_DONE. -/
def execWfgWriteDone (t : Stamp) (s : State) : Res :=
  answer t s fun s => match s.evt.wfgWriting with
    | none => s
    | some g =>
      let room := s.num .EVT_WFG_LEN / 32
      let l := (g.records room s.tideIdx s.now).take room
      let cut := room != 0 && decide (room < g.edges.length + 2)
      let s : State := { s with evt := { s.evt with wfgWriting := none, wfgLatest := some g } }
      let s := (s.setNum .EVT_WFG_EDGES g.edges.length).setF .EVT_CTRL 2 1 0
      let s := s.when (room != 0) (fun s => (s.emit (.dma (s.reg .EVT_WFG_ADDR) (l.map Event.bytes))).dmaWr 0 (32 * l.length))
      (s.raise .EVT_INT_STATUS .EVT_INT_ENABLE (if cut then 6 else 2)).event 0x1004 0 g.edges.length (bit01 cut) g.trigger

/-! ### The black box (R490 to R495) -/

/-- The black box is cleared (R494): records, snapshots and both lost counts; the shutdown fields stay. -/
def State.bbxEmpty (s : State) : State :=
  let b := s.mram.bbx
  let s : State := { s with mram.bbx := { b with faults := [], snaps := [], faultsLost := 0, snapsLost := 0, clearTime := s.now } }
  (s.setF .BBX_CTRL 0 1 0).event 0x1002 0 b.faults.length b.snaps.length
/-- BBX_CTRL.CLEAR, in READY and SAFE (R494); while a snapshot is being written it takes effect after that write. -/
def State.bbxClear (s : State) : State :=
  if !(s.ready || s.safe) then s
  else if s.snaps.isEmpty then s.bbxEmpty
  else s.setF .BBX_CTRL 0 1 1
/-- BBX_CTRL.SNAP (R492). -/
def State.bbxSnap (s : State) : State :=
  let n := s.snaps.length
  let s := s.snapTrigger 3 0
  if s.snaps.length == n then s else s.setF .BBX_CTRL 1 1 1

/-- The nonzero 32-bit words of a block image (Table 16.6). -/
def State.blockImage (s : State) (b : RegBlock) (base : Nat) : List (Nat × W32) :=
  let word := fun (o n : Nat) => if n % 2 ^ 32 == 0 then [] else [(base + o, BitVec.ofNat 32 n)]
  (b.regs.filter (fun r => decide (r.info.off < 0x1000))).flatMap (fun r =>
    (List.range r.info.count).flatMap (fun i =>
      let v := s.view r 0 i
      let o := r.info.off + r.info.size * i
      if r.info.size == 8 then word o v ++ word (o + 4) (v / 2 ^ 32) else word o v))
/-- The block images of a snapshot, in the order of Table 16.6. -/
def State.blockImages (s : State) : List (Nat × W32) :=
  (([RegBlock.tde, .hif, .pwr, .thm, .hka, .hlt, .fab, .kvc, .srv, .bpl, .wgt, .fwp, .sec]).zip (List.range 13)).flatMap
    (fun e => s.blockImage e.1 (4096 * e.2))
/-- SNAPSHOT_DONE (R492): the snapshot that is being written is complete, in the first free slot; a clear that came
meanwhile follows (R494). -/
def execSnapshotDone (t : Stamp) (s : State) : Res :=
  answer t s fun s => match s.snaps with
    | [] => s
    | q :: rest =>
      let x : Snapshot :=
        { trigger := q.trigger, safeReason := q.safeReason, devState := q.devState, tide := q.tide, time := q.time
          fwVersion := BitVec.ofNat 32 (s.num .FWP_FW_VERSION), placeEpoch := BitVec.ofNat 32 (s.num .BPL_PLACE_EPOCH)
          gen := s.activeGen, detail := q.detail, tail := s.evt.tail
          status := s.withSess.map (fun e => s.statusOf e.1 e.2 s.tideIdx)
          images := s.blockImages, wfg := if q.trigger == 3 then s.evt.wfgLatest else q.wfg }
      let b := s.mram.bbx
      let s : State := { s with snaps := rest, mram.bbx := { b with snaps := b.snaps ++ [x] } }
      let s := s.when (q.trigger == 3 && rest.all (fun r => r.trigger != 3)) (fun s => s.setF .BBX_CTRL 1 1 0)
      let s := (s.raise .BBX_INT_STATUS .BBX_INT_ENABLE 1).event 0x1003 0 b.snaps.length q.trigger
      let s := s.when (s.bit .BBX_CTRL 0) (fun s => s.bbxEmpty)
      s.when (q.trigger == 2) (fun s => s.stopOff)

end Sys2Proof.Machine
end

