-- ==== Sys2Proof/Machine/SealOps.lean ====
section
/-! DEFINITION. What stops where no new work starts: at seal and at an orderly stop (R47, R471, R526). -/

namespace Sys2Proof.Machine

/-- A write or rake that has not ended stops as an abort (R526): EMPTY or WRITTEN, the claim pending again. -/
def Pan.stopBed (p : Pan) : Pan :=
  match p.shadow.state with
  | .writing => { (p.setShadow { p.shadow with state := .empty }).returnClaim with stagedIn := 0 }
  | .raking => (p.setShadow { p.shadow with state := .written }).returnClaim
  | _ => p

/-- Every write and rake stops (R526). -/
def State.stopPans (s : State) : State :=
  s.each s.pans.cells (fun e s =>
    let st := e.2.shadow.state
    s.when (st == .writing || st == .raking) (fun s => (s.updPan e.1 Pan.stopBed).bump .PAN_WRITE_ABORTS 1 e.1))

/-- No product, layer, step, write or rake starts from now on (R47). -/
def State.sealWork (s : State) : State :=
  if s.tide.sealed then s else ({ s with tide.sealed := true } : State).stopPans

end Sys2Proof.Machine
end

