-- ==== Sys2Proof/Machine/Power.lean ====
section
/-! DEFINITION. Power, thermal protection and the housekeeping converter (15_power R452 to R482, R509): rows PMB_ALERT,
POWER_EXIT_COMPLETE to REF_CAL_DONE, what the writes of PWR_CTRL, PWR_VCORE_TARGET, PWR_LIMIT and HKA_CTRL do, and the
edge's share. -/

namespace Sys2Proof.Machine

/-- The power processor runs: powered, past its first start, not restarting (R474). -/
def State.pwrLive (s : State) : Bool := s.powered && s.boot.pwrRan && !s.restarting .power

/-- A refused write's code in PWR_STATUS.CODE (R482). -/
def State.pwrCode (s : State) (code : Nat) : State := s.setF .PWR_STATUS 8 8 code

/-! ### Requests (R453, R458, R460, R461, R477, R478) -/

/-- POWER_REQ: TARGET is requested. A request for Active is a waking event and has no effect in Active (R460, R461). -/
def State.powerRequest (s : State) : State :=
  if s.fld .PWR_CTRL 0 2 == 0 then (s.setF .PWR_CTRL 2 1 0).exitPower else s.setF .PWR_CTRL 2 1 1

/-- PWR_VCORE_TARGET: 136 to 160 (R453, R527). -/
def State.vcoreTarget (s : State) (v : Nat) : State :=
  if decide (136 ≤ v % 256) && decide (v % 256 ≤ 160) then s.setNum .PWR_VCORE_TARGET (v % 256) else s.pwrCode 0x50

/-- PWR_LIMIT: 100 W to the TDP (R458, R527). -/
def State.pwrLimit (s : State) (v : Nat) : State :=
  if decide (100 ≤ v % 4096) && decide (v % 4096 ≤ s.part.tdp) then s.setNum .PWR_LIMIT (v % 4096) else s.pwrCode 0x50

/-- A calibration starts: 0 self-calibration, 1 reference calibration; one written while BUSY is ignored (R477). -/
def State.startCal (s : State) (which : Nat) : State :=
  if s.bit .HKA_STATUS 0 then s.setF .HKA_STATUS 8 8 0x54
  else { (s.setF .HKA_CTRL which 1 1).setF .HKA_STATUS 0 1 1 with pwr.calibrating := some which }

/-! ### The converter (R475, R476) -/

/-- One LSB of a channel in µV or mA (Table 15.8): full scale over 4,096. -/
def chanLsb (c : Nat) : Int := if c == 52 || c == 63 then 1000 else if 40 ≤ c && c < 48 then 250 else 500

/-- w of a raw code (R476), in 1/16 LSB. -/
def hkaW (coef : W32) (code : Nat) : Int := rheDiv ((16 * (code : Int) - coefOffset coef) * coefGain coef) 15

/-- The value of a raw code on a channel (R476); thermal channels by the sensor transfer (log 41). -/
def State.hkaValue (s : State) (c code : Nat) : Int :=
  let w := hkaW ((s.reg .HKA_COEF 0 c).setWidth 32) code
  if c < 32 then Config.sensor c w else rheDiv (w * (chanLsb c * 65536) * (s.num .HKA_REF_SCALE : Int)) 50

/-- A signed number as a register of 32 bits holds it. -/
def int32Nat (v : Int) : Nat := (BitVec.ofInt 32 v).toNat

/-- A thermal sensor's new conversion: the mean of the last four (R468). -/
def State.sensorRead (s : State) (c : Nat) (v : Int) : State :=
  let old := ((s.pwr.readings.find? (fun e => e.1 == c)).map (fun (e : Nat × List Int) => e.2)).getD []
  let l := (v :: old).take 4
  let s : State := { s with pwr.readings := (c, l) :: s.pwr.readings.filter (fun e => e.1 != c) }
  s.when (l.length == 4) (fun s => s.setNum .THM_SENSOR (int32Nat (rheDiv l.sum 2) % 65536) 0 c)

/-- HKA_CONVERSION (R475, R476): the next channel in order; the scan pauses while self-calibration runs (R477). -/
def execHkaConversion (t : Stamp) (code : BitVec 12) (s : State) : Res :=
  answer t s fun s =>
    if !s.powered || s.pwr.calibrating == some 0 then s
    else
      let c := s.pwr.channel
      let gone := s.chanAbsent c
      let v := if gone then 0 else s.hkaValue c code.toNat
      let s := (s.setNum .HKA_RAW (if gone then 0 else code.toNat) 0 c).setNum .HKA_VALUE (int32Nat v) 0 c
      let s := s.when (decide (c < 32) && !gone) (fun s => s.sensorRead c v)
      { s with pwr := { s.pwr with channel := (c + 1) % 64, scanDue := s.pwr.scanDue || c == 63 } }

/-! ### Thermal conditions (R469, R471) -/

/-- The highest sensor mean and the lowest sensor that has it. -/
def State.hottest (s : State) : Option (Int × Nat) :=
  let l := (List.range 32).filterMap (fun c => match s.pwr.readings.find? (fun e => e.1 == c) with
    | none => none
    | some (_, l) => if l.length == 4 then some (rheDiv l.sum 2, c) else none)
  match l with
  | [] => none
  | x :: xs => some (xs.foldl (fun (b : Int × Nat) (e : Int × Nat) => if b.1 < e.1 then e else b) x)

/-- How a condition with a dwell stands after a reading: it holds, its dwell's start, whether it was set and cleared. -/
structure Dwell where
  hold : Bool
  since : Option Nat
  set : Bool := false
  clear : Bool := false
deriving DecidableEq, Repr

/-- A dwell has ended (R469, R52). -/
def dwellOver (hold : Bool) (since : Option Nat) (now : Nat) : Bool :=
  hold && (match since with | none => false | some u => decide (u + 100000000 ≤ now))

/-- A reading judged (R469): set at or above `on`; cleared by 100 ms below `off`. -/
def judgeDwell (hold : Bool) (since : Option Nat) (now : Nat) (v on off : Int) : Dwell :=
  let done := dwellOver hold since now
  let hold := hold && !done
  if on ≤ v then ⟨true, none, !hold, done⟩
  else if hold then ⟨true, if off ≤ v then none else some (since.getD now), false, false⟩
  else ⟨false, none, false, done⟩

/-- An orderly stop begins (R471 steps 1 and 2). -/
def State.orderlyStop (s : State) (v : Int) (sensor : Nat) : State :=
  if s.devState == 3 then s
  else
    let s := ((s.setF .THM_STATUS 2 1 1).setDevState 3).raise .THM_INT_STATUS .THM_INT_ENABLE 32
    ({ s.event 0x0F02 2 (int32Nat v) sensor with pwr.stopping := some s.now } : State).sealWork

/-- WARN (R469). -/
def State.judgeWarn (s : State) (v : Int) (c : Nat) : State :=
  let d := judgeDwell s.pwr.warn s.pwr.warnFrom s.now v 1520 1440
  let s : State := { s.setF .THM_STATUS 0 1 (if d.hold then 1 else 0) with pwr.warn := d.hold, pwr.warnFrom := d.since }
  let s := s.when d.clear (fun s => s.raise .THM_INT_STATUS .THM_INT_ENABLE 2)
  s.when d.set (fun s => ((s.raise .THM_INT_STATUS .THM_INT_ENABLE 1).bump .THM_WARN_EVENTS).event 0x0F01 2 (int32Nat v) c)

/-- THROTTLE (R469). -/
def State.judgeThrottle (s : State) (v : Int) : State :=
  let d := judgeDwell s.pwr.throttle s.pwr.throttleFrom s.now v 1680 1600
  let s : State := { s.setF .THM_STATUS 1 1 (if d.hold then 1 else 0) with pwr.throttle := d.hold, pwr.throttleFrom := d.since }
  (s.when d.clear (fun s => s.raise .THM_INT_STATUS .THM_INT_ENABLE 8)).when d.set (fun s => s.raise .THM_INT_STATUS .THM_INT_ENABLE 4)

/-- The three conditions judged on THM_HOTTEST (R469). -/
def State.judgeThermal (s : State) : State :=
  match s.hottest with
  | none => s
  | some (v, c) =>
    let s := ((s.setNum .THM_HOTTEST (int32Nat v % 65536 + c * 65536 + 2 ^ 31)).judgeWarn v c).judgeThrottle v
    s.when (decide (1840 ≤ v)) (fun s => s.orderlyStop v c)

/-! ### Rails and REFIN (R479, R509) -/

/-- The range of a fixed rail's channel in µV (Table 17.3). -/
def railRange (c : Nat) : Option (Int × Int) :=
  if 36 ≤ c && c < 40 then some (1067000, 1133000)
  else if 53 ≤ c && c < 63 then some (727500, 772500)
  else if c == 52 || c == 63 then some (1710000, 1890000)
  else none

/-- A rail channel's value lies outside its range, widened by 1.5 % while uncalibrated. -/
def State.railOut (s : State) (c : Nat) : Bool :=
  match railRange c with
  | none => false
  | some (lo, hi) =>
    let v := (BitVec.ofNat 32 (s.num .HKA_VALUE 0 c)).toInt
    let w : Int := if s.bit .HKA_STATUS 1 then 0 else 15
    !s.chanAbsent c && (decide (1000 * v < lo * (1000 - w)) || decide (hi * (1000 + w) < 1000 * v))

/-- The fixed rails checked in a scan; the 16th bad scan in a row is uncontained (R509). -/
def State.judgeRails (s : State) : State :=
  let n := fun (c : Nat) => if s.railOut c then listed s.pwr.railScans c 0 + 1 else 0
  let l := ((List.range 64).map (fun c => (c, n c))).filter (fun e => e.2 != 0)
  let s : State := { s with pwr.railScans := l }
  s.when (l.any (fun e => e.2 == 16)) (fun s => s.uncontained 0x12 none 0x53)

/-- CALIBRATED in its three places. -/
def State.setCalibrated (s : State) (b : Nat) : State :=
  ((s.setF .HKA_STATUS 1 1 b).setF .PWR_STATUS 16 1 b).setF .THM_STATUS 11 1 b

/-- Channel 48 checked while CALIBRATED is 1; 256 scans outside 0.5 % (R479). -/
def State.judgeRefin (s : State) : State :=
  if !s.bit .HKA_STATUS 1 then { s with pwr.refScans := 0 }
  else
    let v := (BitVec.ofNat 32 (s.num .HKA_VALUE 0 48)).toInt
    let n := if decide (6250 < (v - 1250000).natAbs) then s.pwr.refScans + 1 else 0
    if n < 256 then { s with pwr.refScans := n }
    else
      let s : State := { s with pwr.refScans := 0 }
      (((s.setCalibrated 0).setF .HKA_STATUS 3 1 1).raise .HKA_INT_STATUS .HKA_INT_ENABLE 4).event 0x0F05 2 (int32Nat v) 1

/-- A channel's value as HKA_VALUE shows it. -/
def State.hkaRead (s : State) (c : Nat) : Int := (BitVec.ofNat 32 (s.num .HKA_VALUE 0 c)).toInt
/-- The voltage of a rail in µV: the mean over its channels of fitted units (log 138). -/
def State.railUv (s : State) (chans : List Nat) : Int :=
  let l := chans.filter (fun c => !s.chanAbsent c)
  rheQuot ((l.map s.hkaRead).sum) (max 1 l.length : Nat)
/-- VCORE current in mA: the sum of the current-sense channels (Table 15.8). -/
def State.coreMa (s : State) : Int := (((List.range 8).map (fun k => 40 + k)).filter (fun c => !s.chanAbsent c)).map s.hkaRead |>.sum
/-- VCORE power in mW. -/
def State.coreMw (s : State) : Int := rheQuot (s.railUv [32, 33, 34, 35] * s.coreMa) 1000000
/-- A scan's VCORE readings join those of the millisecond (R457). -/
def State.sampleCore (s : State) : State :=
  let i := s.coreMa
  let w := s.coreMw
  { s with pwr := { s.pwr with scanMa := s.pwr.scanMa + i, scanMw := s.pwr.scanMw + w, scans := s.pwr.scans + 1 } }

/-- HKA_SCAN_COMPLETE (R469, R474, R479, R509): what a scan's readings decide. -/
def execHkaScanComplete (t : Stamp) (s : State) : Res :=
  answer t s fun s =>
    if !s.pwr.scanDue then s
    else
      let s := ({ s with pwr.scanDue := false } : State).bump .HKA_SCANS
      if !s.pwrLive then s
      else
        let s := s.sampleCore.judgeThermal
        (s.when (s.ready || s.safe) State.judgeRails).judgeRefin

/-- THERMAL_DWELL_END (R469): the condition clears. -/
def execThermalDwellEnd (t : Stamp) (throttle : Bool) (s : State) : Res :=
  answer t s fun s =>
    if !s.pwrLive then s
    else if throttle then
      s.when (dwellOver s.pwr.throttle s.pwr.throttleFrom s.now) (fun s =>
        ({ s.setF .THM_STATUS 1 1 0 with pwr.throttle := false, pwr.throttleFrom := none } : State).raise .THM_INT_STATUS .THM_INT_ENABLE 8)
    else
      s.when (dwellOver s.pwr.warn s.pwr.warnFrom s.now) (fun s =>
        ({ s.setF .THM_STATUS 0 1 0 with pwr.warn := false, pwr.warnFrom := none } : State).raise .THM_INT_STATUS .THM_INT_ENABLE 2)

/-! ### The end of an orderly stop (R471) -/

/-- Step 4: the shutdown record and the snapshot; the rails go once it is written. -/
def State.stopNow (s : State) : State :=
  if s.snaps.any (fun q => q.trigger == 2) then s
  else
    let s := (s.shutRecord 2).snapTrigger 2 0
    if s.snaps.any (fun q => q.trigger == 2) then s else s.stopOff

/-- ORDERLY_STOP_DEADLINE (R471): step 4 at t0 + 2 × P. -/
def execOrderlyStopDeadline (t : Stamp) (s : State) : Res :=
  answer t s fun s => match s.pwr.stopping with
    | none => s
    | some u => s.when (s.powered && decide (u + 2 * s.num .TDE_PERIOD_ACT * 1000000 ≤ s.now)) State.stopNow

/-! ### The brake and the regulator stage (R455, R457, R475, R514) -/

/-- The housekeeping channels of the monitored rails, in that order (Table 15.8). -/
def railChannels : List (List Nat) := [[36, 37, 38, 39], (List.range 8).map (fun k => 55 + k), [63], [53, 54], [52]]
/-- A fixed rail's power in mW at a current in mA, by its housekeeping voltage. -/
def State.railMw (s : State) (chans : List Nat) (ma : Nat) : Int := rheQuot (s.railUv chans * ma) 1000000

/-- The current in mA of monitored rail `k`: what its monitor reads, or the rail's maximum where it did not answer at step 7;
VLINK is zero where no link die is fitted (R514). -/
def State.monitorMa (s : State) (k ma : Nat) : Nat :=
  if k == 3 && s.part.linkDies == 0 then 0 else if s.pwr.monitors.getLsbD k then ma else s.part.railMax k

/-- The power of every rail but VCORE in mW: the five monitored rails, and VAON at 50 mA (R475, R514). -/
def State.boardMw (s : State) (ma : List Nat) : Int :=
  ((List.range 5).map (fun k => s.railMw (railChannels.getD k []) (s.monitorMa k (ma.getD k 0)))).sum + s.railMw [51] 50

/-- The mean over the latest ten milliseconds of what `f` takes from each. -/
def State.mean10 (s : State) (f : Int × Int → Int) : Int := rheQuot ((s.pwr.means.map f).sum) (max 1 s.pwr.means.length : Nat)

/-- The latest millisecond closes (R457): its means of VCORE current and package power, the registers that show them, the
energy. Where no scan ended in it, the readings that stand count. -/
def State.closeMs (s : State) (ma : List Nat) : State :=
  let p := s.pwr
  let n : Nat := if p.scans == 0 then 1 else p.scans
  let i := rheQuot (if p.scans == 0 then s.coreMa else p.scanMa) n
  let w := rheQuot (if p.scans == 0 then s.coreMw else p.scanMw) n + s.boardMw ma
  let s : State := { s with pwr := { p with scanMa := 0, scanMw := 0, scans := 0, means := ((i, w) :: p.means).take 10 } }
  ((s.setNum .PWR_PKG_MW w.toNat).setNum .PWR_ICORE_MA i.toNat).bump .PWR_ENERGY_UJ w.toNat

/-- The first brake condition that holds, in the order of R457. -/
def State.brakeCond (s : State) : Option Nat :=
  if (s.part.iCont : Int) < s.mean10 Prod.fst then some 0
  else if s.part.iMax10 < s.num .PWR_ICORE_MA then some 1
  else if ((s.part.limit10 * 1000 : Nat) : Int) < s.mean10 Prod.snd then some 2 else none

/-- BRAKE_EVALUATION (R457): the currents in mA that the five monitors answer; the brake until the next edge, counted once a
tide. -/
def execBrakeEvaluation (t : Stamp) (ma : List Nat) (s : State) : Res :=
  answer t s fun s =>
    if !s.pwrLive then s
    else
      let s := s.closeMs ma
      match s.brakeCond with
      | none => s
      | some c =>
        if s.pwr.brakeTide then s
        else
          let s : State := { s.setF .PWR_STATUS 7 1 1 with pwr.brakeTide := true }
          ((s.bump .PWR_BRAKES).raise .PWR_INT_STATUS .PWR_INT_ENABLE 4).event 0x0F03 2 c

/-- PMB_ALERT (R455). -/
def execPmbAlert (t : Stamp) (a : RegAlert) (s : State) : Res :=
  answer t s fun s =>
    if !s.pwrLive then s
    else match a with
      | .warning => { (s.bump .PWR_REG_WARNINGS).raise .PWR_INT_STATUS .PWR_INT_ENABLE 8 with pwr.vrWarn := true }
      | _ => s.uncontained 0x12 none 0x53

/-! ### Calibration (R477, R478) -/

/-- A calibration has ended. -/
def State.calEnd (s : State) (which : Nat) : State :=
  ({ (s.setF .HKA_CTRL which 1 0).setF .HKA_STATUS 0 1 0 with pwr.calibrating := none } : State).raise .HKA_INT_STATUS .HKA_INT_ENABLE 1

/-- A channel's fit (R477, R480): its conversions of internal ground and of the reference at 7/8 of full scale, 3,584 LSB, by
the least-squares line of R102 (log 115). -/
def State.calChannel (s : State) (c : Nat) (ground ref : List (BitVec 12)) : State :=
  match fitColumn (ground.map (fun v => ((v.toNat : Int), 0)) ++ ref.map (fun v => ((v.toNat : Int), 3584 * 64))) with
  | none => s
  | some f => (s.setNum .HKA_COEF f.entry.toNat 0 c).setNum .HKA_RESID (residQ88 f.num f.den) 0 c

/-- SELF_CAL_DONE (R477, R397 step 8): the conversions of each channel. -/
def execSelfCalDone (t : Stamp) (conv : List (List (BitVec 12) × List (BitVec 12))) (s : State) : Res :=
  answer t s fun s =>
    if s.pwr.calibrating != some 0 then s
    else
      let s := s.each (conv.zip (List.range 64)) (fun e s => s.calChannel e.2 e.1.1 e.1.2)
      let s := s.calEnd 0
      if s.starting && s.bootStep == 8 then (s.setF .FWP_STATUS 0 4 9).startCal 1 else s

/-- The mean of conversions of channel 48 in µV on the internal scale, that is with REF_SCALE 2^30 (R476, R478). -/
def State.refinUv (s : State) (codes : List (BitVec 12)) : Nat :=
  let w := (codes.map (fun c => hkaW ((s.reg .HKA_COEF 0 48).setWidth 32) c.toNat)).sum
  (rheQuot (w * chanLsb 48) (16 * (max 1 codes.length : Nat))).toNat

/-- REF_CAL_DONE (R478, R397 step 9): the conversions of channel 48. -/
def execRefCalDone (t : Stamp) (codes : List (BitVec 12)) (s : State) : Res :=
  answer t s fun s =>
    if s.pwr.calibrating != some 1 then s
    else
      let microvolts := s.refinUv codes
      let s := s.setNum .HKA_REFIN_UV microvolts
      let s :=
        if decide (1225000 ≤ microvolts) && decide (microvolts ≤ 1275000) then
          ((s.setNum .HKA_REF_SCALE (rheQuot (2 ^ 30 * 1250000) microvolts).toNat).setCalibrated 1).setF .HKA_STATUS 2 2 0
        else
          ((((s.setNum .HKA_REF_SCALE (2 ^ 30)).setCalibrated 0).setF .HKA_STATUS 2 1 1).raise .HKA_INT_STATUS .HKA_INT_ENABLE 2).event
            0x0F05 2 microvolts 0
      let s := s.calEnd 1
      if s.starting && s.bootStep == 9 then s.setF .FWP_STATUS 0 4 10 else s

/-! ### Leaving Idle and Standby (R461, R462) -/

/-- A bed that an exit or a start rake wrote and raked: its fit is open (log 8). -/
def Bed.fresh (b : Bed) (st : BedState) (c : Content) (id : Nat) (tide : W32) : Bed :=
  { state := st, content := c, raked := true, rakeTide := tide, rakeId := id, spares := b.spares }

/-- A pan after an exit: the active bed holds its current content at age 0, the shadow its staged content READY, or
current content STALE. -/
def Pan.rewritten (id : Nat) (tide : W32) (p : Pan) : Pan :=
  let c : Content := if p.cur.isSome then .current else .start
  let sh := if p.staged.isSome then p.shadow.fresh .ready .staged id tide else p.shadow.fresh .stale c id tide
  { (p.setShadow sh).setActive (p.active.fresh .active c id tide) with
    activeTide := tide, withdrawn := false, claims := [], serving := none, baseWrites := p.baseWrites + 2, baseRakes := p.baseRakes + 2 }

/-- POWER_EXIT_COMPLETE (R461): every pan's beds are written and raked; work starts at the first edge after it. -/
def execPowerExitComplete (t : Stamp) (s : State) : Res :=
  answer t s fun s => match s.pwr.exitDue with
    | none => s
    | some u =>
      if !(s.powered && s.pwrState == 3 && decide (u ≤ s.now)) then s
      else
        let id := s.freeCtr + 1
        let p := s.tick.setPwrState 0
        let s : State := { p with pans := p.pans.map (fun x => x.rewritten id p.tideIdx), pwr.exitDue := none, pwr.waitEdge := true, pwr.selfRefresh := false }
        let s := s.each (s.hlt.degraded.flatMap pansOf) (fun p s => s.updPan p (fun x => { x with withdrawn := x.cur.isSome }))
        s.raise .PWR_INT_STATUS .PWR_INT_ENABLE 1

/-- HBM_SELF_REFRESH_EXIT (R462): 5 ms into the exit from Standby. -/
def execHbmSelfRefreshExit (t : Stamp) (s : State) : Res :=
  answer t s fun s => s.when (s.powered && s.pwrState == 3 && decide (s.pwr.exitFrom + 5000000 ≤ s.now)) (fun s =>
    { s with pwr.selfRefresh := false })

/-! ### The edge's share (R453, R457, R458, R460, R463, R470) -/

/-- The power level at the edge that closes a tide of `len` nanoseconds (R458): µJ × 1,000 over nanoseconds is watts. -/
def State.powerLevelEdge (s : State) (len : Nat) : State :=
  let p := s.pwr
  let w := 1000 * (s.num .PWR_ENERGY_UJ - p.edgeUj)
  let lim := s.num .PWR_LIMIT * len
  let bad := decide (lim < w) || p.brakeTide || p.vrWarn
  let calm := if !bad && decide (100 * w < 95 * lim) then p.calm + 1 else 0
  let lvl := if bad then min 8 (p.level + 1) else if calm == 16 then p.level - 1 else p.level
  let s' : State := { s.setF .PWR_STATUS 3 4 lvl with pwr := { p with level := lvl, calm := calm % 16 } }
  if lvl == p.level then s' else s'.raise .PWR_INT_STATUS .PWR_INT_ENABLE 16

/-- The thermal level at an edge (R470). -/
def State.thermLevelEdge (s : State) : State :=
  let p := s.pwr
  let n := p.thermRise + 1
  let up := p.throttle && (p.thermLevel == 0 || (decide (16 ≤ n) && decide (p.thermLevel < 8)))
  let lvl := if up then p.thermLevel + 1 else if p.throttle then p.thermLevel else p.thermLevel - 1
  { s with pwr := { p with thermLevel := lvl, thermRise := if up then 0 else n } }

/-- The levels as THM_STATUS shows them; LEVEL_CHANGE (Table 15.12). -/
def State.showLevels (s : State) : State :=
  let v := s.pwr.thermLevel + s.level * 16
  let s' := s.setF .THM_STATUS 3 8 v
  if s.fld .THM_STATUS 3 8 == v then s' else s'.raise .THM_INT_STATUS .THM_INT_ENABLE 16

/-- What an edge does to power and levels; `first` has no closed tide. -/
def State.powerEdge (s : State) (len : Nat) (first : Bool) : State :=
  let s := s.when (s.pwrLive && !first) (fun s => (s.powerLevelEdge len).thermLevelEdge.showLevels)
  let s : State := { s.setF .PWR_STATUS 7 1 0 with pwr := { s.pwr with edgeUj := s.num .PWR_ENERGY_UJ, brakeTide := false, vrWarn := s.pwr.vrWarn && !s.pwrLive } }
  let s := s.when (s.pwrLive && s.pwrState != 2) (fun s => s.setNum .PWR_VCORE_ACT (s.num .PWR_VCORE_TARGET))
  s.when (s.level != 0) (fun s => s.bump .THM_THROTTLE_TIDES)

/-- None of the conditions of R460 holds. -/
def State.mayRest (s : State) : Bool :=
  let busyW := fun (w : Nat) => (s.wslot w).state == .staging
  let busyP := fun (k : Nat) => (s.pslot k).state == .staging
  s.openAll == 0 && s.wgt.load.isNone && s.plans.loading.isNone && !busyW 0 && !busyW 1 && !busyP 0 && !busyP 1 &&
  !(s.withSess.any (fun e => e.2.steps.any (fun t => t.rolled))) && !s.bit .SRV_STATUS 7 && s.boot.flashing.isNone

/-- A bed that lost its content with its supply (Table 15.3). -/
def Bed.off (b : Bed) : Bed :=
  { b with state := .empty, content := .none, mism := [], mismOf := [], reprog := false, firstFail := false, beforeEdge := false }

/-- Idle (1) or Standby (2) is entered (Table 15.3). -/
def State.rest (s : State) (target : Nat) : State :=
  let off := fun (p : Pan) => { p with a := p.a.off, b := p.b.off, claims := [], serving := none, kept := [], toDraw := 0 }
  let s : State := { s with pans := s.pans.map (fun p => off p), pwr := { s.pwr with idle := 0, selfRefresh := target == 2 } }
  ((s.setPwrState target).setNum .PWR_VCORE_ACT (if target == 2 then 124 else s.num .PWR_VCORE_TARGET)).raise .PWR_INT_STATUS .PWR_INT_ENABLE 1

/-- Deep sleep is granted (R463 step 1). -/
def State.sleepGrant (s : State) : State :=
  let s := (s.shutRecord 1).each s.upLinks (fun n s => s.linkDown n)
  let s := ((s.setF .AON_STATUS 0 3 0).event 0x0F04 2 s.pwrState 3).raise .PWR_INT_STATUS .PWR_INT_ENABLE 1
  { s with aon.phase := .sleepGranted }

/-- The state asked for is judged, or Idle entered by itself (R460). -/
def State.judgePower (s : State) : State :=
  if !(s.ready && s.pwrLive) || s.pwrState == 3 then s
  else if s.bit .PWR_CTRL 2 then
    let s := s.setF .PWR_CTRL 2 1 0
    let t := s.fld .PWR_CTRL 0 2
    if !s.mayRest then (s.pwrCode 0x51).raise .PWR_INT_STATUS .PWR_INT_ENABLE 2
    else if t == 3 then s.sleepGrant
    else if t == 0 then s
    else s.rest t
  else if s.pwrState == 0 && s.mayRest then
    let n := s.pwr.idle + 1
    if s.bit .PWR_CTRL 3 && decide (s.num .PWR_IDLE_TIDES ≤ n) then s.rest 1 else { s with pwr.idle := n }
  else { s with pwr.idle := 0 }

end Sys2Proof.Machine
end

