-- ==== Sys2Proof/Machine/PowerUp.lean ====
section
/-! DEFINITION. Power-up, wake, start-up (13_startup R397 to R406, R415 to R417; 15_power R463 to R473; 17_package R506,
R510, R511): rows COLD_START to START_RAKE_DONE, HARDWARE_TRIP to WAKE_IN, DEEP_SLEEP_POWER_OFF, STARTUP_PUBLISH. -/

namespace Sys2Proof

/-- The findings of two phases together. -/
def SelfTest.join (x y : SelfTest) : SelfTest :=
  { cores := x.cores ++ y.cores, links := x.links ++ y.links, hbm := x.hbm ++ y.hbm, ccps := x.ccps ++ y.ccps
    reductions := x.reductions ++ y.reductions, routers := x.routers ++ y.routers, house := x.house || y.house
    supply := x.supply || y.supply, repaired := x.repaired ++ y.repaired }

/-- Nothing failed. -/
def SelfTest.passes (x : SelfTest) : Bool :=
  x.cores.isEmpty && x.links.isEmpty && x.hbm.isEmpty && x.ccps.isEmpty && x.reductions.isEmpty && x.routers.isEmpty && !x.house && !x.supply

/-- FWP_ST_RESULT (Table 13.10). -/
def SelfTest.result (x : SelfTest) : Nat :=
  let has := fun (k : CoreTest) => x.cores.any (fun e => e.2 == k)
  Machine.bit01 x.passes + 2 * Machine.bit01 (has .sram || x.house) + 4 * Machine.bit01 (has .pan) + 8 * Machine.bit01 (has .conv) + 16 * Machine.bit01 (!x.links.isEmpty) +
  32 * Machine.bit01 (!x.hbm.isEmpty) + 64 * Machine.bit01 (!x.ccps.isEmpty) + 128 * Machine.bit01 x.supply + 256 * Machine.bit01 (has .sweep)

end Sys2Proof

namespace Sys2Proof.Machine

/-! ### The power-up sequence (R510, R511, Table 17.4) -/

/-- VAON is applied: everything but MRAM is as after reset (R17). -/
def State.cold (s : State) : State :=
  { State.reset with pending := s.pending, part := s.part, mram := s.mram, freeCtr := s.freeCtr, boot := { signers := s.boot.signers } }

/-- COLD_START (R17, R397 step 1, R465). -/
def execColdStart (s : State) : Res := .next s.cold

/-- A comparator's code lies inside its window [LO, HI) (R466). -/
def State.inWindow (s : State) (i code : Nat) : Bool :=
  decide (s.fld .AON_CMP 0 10 0 i ≤ code) && decide (code < s.fld .AON_CMP 10 10 0 i)

/-- A comparator's output in AON_STATUS. -/
def State.cmpOut (s : State) (i : Nat) (b : Bool) : State := s.setF .AON_STATUS (5 + i) 1 (bit01 b)

/-- A failed check (R511): both enables low; held low after the third in a row. -/
def State.seqFail (s : State) : State :=
  let n := s.aon.fails + 1
  { s with aon := { s.aon with fails := n, pwrEn := false, vrEn := false, phase := if n ≥ 3 then .heldLow else .retryWait } }

/-- VIO_CHECK (R510, R511): comparator 1 at t0 + 25 ms; VR_EN goes high. -/
def execVioCheck (t : Stamp) (vio : BitVec 10) (s : State) : Res :=
  answer t s fun s =>
    if s.aon.phase != .seqVio then s
    else
      let ok := s.inWindow 1 vio.toNat
      let s := s.cmpOut 1 ok
      if ok then { s with aon := { s.aon with phase := .seqVcore, vrEn := true } } else s.seqFail

/-- VCORE_CHECK (R510, R511): comparator 7 at t0 + 38 ms. -/
def execVcoreCheck (t : Stamp) (vcore : BitVec 10) (s : State) : Res :=
  answer t s fun s =>
    if s.aon.phase != .seqVcore then s
    else
      let ok := s.inWindow 7 vcore.toNat
      let s := s.cmpOut 7 ok
      if ok then { s with aon.phase := .seqHouse } else s.seqFail

/-- POWER_SEQUENCE_RETRY (R511): the sequence restarts at a new t0, 1 s after a failed check. -/
def execPowerSequenceRetry (t : Stamp) (s : State) : Res :=
  answer t s fun s => s.when (s.aon.phase == .retryWait) (fun s => { s with aon := { s.aon with phase := .seqVio, pwrEn := true } })

/-- BROWN_OUT (R511): comparator 0 reads 0; the domain holds the device in reset until VAON returns, which is a cold
start (R17). -/
def execBrownOut (t : Stamp) (s : State) : Res :=
  answer t s fun s => { s.cold with now := s.now, out := s.out, aon := { phase := .vaonOff, pwrEn := false } }

/-! ### Step 3: the house die leaves reset (R397, R506) -/

/-- What ROM sets at step 3 (R4, R5, Tables 12.9, 13.9); the port's link is as it came up (log 42). -/
def State.romRegs (s : State) : State :=
  let link := Config.freeNat s.freeCtr
  (((((s.setNum .HIF_ID s.part.deviceId).setNum .HIF_CAPS s.part.caps).setNum .HIF_PRESENCE s.part.presence).setNum .SEC_CAPS
    (0x13 + 256 + 8 * 512)).setNum .HIF_LINK_STATUS (link % 256 + link / 256 % 2 * 512)).tick

/-- HOUSE_DIE_RESET_RELEASE (R397 step 3, R506): straps sampled, presence set, STARTING. -/
def execHouseDieResetRelease (t : Stamp) (bootSel : Bool) (smbAddr : BitVec 3) (s : State) : Res :=
  answer t s fun s =>
    if s.aon.phase != .seqHouse then s
    else
      let s : State := { s with aon := { s.aon with phase := .on, fails := 0, thermtrip := false, wakeOut := false }, boot := { bootSel := bootSel, smbAddr := smbAddr, signers := s.boot.signers } }
      (s.romRegs.setF .FWP_STATUS 0 4 3).setF .FWP_STATUS 4 1 (bit01 bootSel)

/-! ### Step 4: identity (R415 to R417) -/

/-- A derived identity becomes the device's (R416, R417): its key pair, DEVICE_KEY_ID and serial number. -/
def State.setIdentity (s : State) (n d : Nat) : State :=
  let id := (keyIdOf n 65537).toNat
  let s : State := { s with boot := { s.boot with identity := ⟨n, 65537, d⟩, serial := BitVec.ofNat 64 id } }
  (((s.setNum .SEC_KEY_ID (id % 2 ^ 64)).setNum .SEC_KEY_ID (id / 2 ^ 64) 0 1).setNum .SEC_PUB_E 65537).setF .SEC_STATUS 0 2 3

/-- IDENTITY_DERIVED (R415 to R417): the primes, whether the helper data corrected the response, the chain's length. -/
def execIdentityDerived (t : Stamp) (p q : Nat) (helperOk : Bool) (certLen : Nat) (s : State) : Res :=
  answer t s fun s =>
    if !(s.starting && s.bootStep == 3) then s
    else
      let s := (s.setF .FWP_STATUS 0 4 4).setNum .SEC_CERT_LEN (min 65536 certLen)
      if helperOk && keyIdOf (p * q) 65537 == s.mram.refKeyId then (s.setIdentity (p * q) (privateExp p q)).setF .FWP_STATUS 0 4 5
      else s.enterSafe 3 0

/-! ### Steps 5 and 7: self-test (R400, R401) -/

/-- A unit is named in the retirement list. -/
def State.inList (s : State) (link : Bool) (u : Nat) : Bool := s.mram.retired.any (fun e => e.isLink == link && e.unit == u)

/-- The failures that count: listed cores and links are not tested (R401). -/
def State.tested (s : State) (x : SelfTest) : SelfTest :=
  { x with
    cores := x.cores.filter (fun e => !s.inList false e.1.val && decide (e.1.val < s.part.physCores))
    links := x.links.filter (fun n => !s.inList true n.val && decide (n.val < s.part.links))
    hbm := x.hbm.filter (fun n => decide (n.val < s.part.stacks))
    ccps := x.ccps.filter (fun n => decide (n.val < s.part.clusters))
    reductions := x.reductions.filter (fun n => decide (n.val < s.part.clusters))
    routers := x.routers.filter (fun n => decide (n.val < s.part.clusters)) }

/-- FWP_ST_CLUSTER_FAIL of a cluster (Table 13.10). -/
def State.stCluster (s : State) (x : SelfTest) (c : Nat) : Nat :=
  let here := ((x.cores.map (fun e => e.1.val)).filter (fun p => clusterOfPhys p == c)).eraseDups
  let skipped := (s.mram.retired.filter (fun e => !e.isLink && clusterOfPhys e.unit == c)).length
  here.length + 128 * bit01 (x.ccps.any (fun k => k.val == c)) + 256 * bit01 (x.reductions.any (fun k => k.val == c)) +
  512 * bit01 (x.routers.any (fun k => k.val == c)) + 2 ^ 10 * (skipped % 128)

/-- The failure registers (R401). -/
def State.stRegs (s : State) (x : SelfTest) : State :=
  let s : State := { s with boot.failed := x }
  let s := (s.setNum .FWP_ST_RESULT x.result).setNum .FWP_ST_HBM_FAIL ((x.hbm.map (fun k => 2 ^ k.val)).eraseDups.sum)
  let s := s.setNum .FWP_ST_LINK_FAIL ((x.links.map (fun k => 2 ^ k.val)).eraseDups.sum)
  s.each (List.range s.part.clusters) (fun c s => s.setNum .FWP_ST_CLUSTER_FAIL (s.stCluster x c) 0 c)

/-- Columns that self-test repairs by a spare (R88, R400). -/
def State.repair (s : State) (l : List (PanId × Bool × Nat)) : State :=
  s.each l (fun e s => s.updPan e.1.val (fun p =>
    let f := fun (b : Bed) => { b with spares := if b.spares.any (fun m => m.2 == e.2.2) then b.spares else mapSpares b.spares [e.2.2], remapped := true }
    if e.2.1 then { p with b := f p.b } else { p with a := f p.a }))

/-- ROM_SELF_TEST_DONE (R397 step 5, R400, R401, R405). -/
def execRomSelfTestDone (t : Stamp) (st : SelfTest) (s : State) : Res :=
  answer t s fun s =>
    if !(s.starting && s.bootStep == 5) then s
    else
      let x := s.tested st
      let s := (s.stRegs x).repair x.repaired
      if !x.passes then s.enterSafe 1 0
      else
        let s := s.setF .FWP_STATUS 0 4 6
        if s.boot.bootSel && s.boot.ownImage.isNone then (s.setF .FWP_STATUS 5 1 1).raise .FWP_INT_STATUS .FWP_INT_ENABLE 32 else s

/-! ### Step 6: the firmware image (R404, R405) -/

/-- The result of verifying an image from a source of `src` bytes (R404). -/
def State.verifyImage (s : State) (src : Nat) (x : Image) : Nat :=
  x.result src s.boot.signers (match s.part with | .jn8 => 0 | .jn4 => 1 | .jn8s => 2) s.mram.minSvn.toNat

/-- Length of the source that the start reads (R405, Table 13.6): the image of RESTART_DEVICE, of the host, or the 64 MiB of
the flash. -/
def State.imageSource (s : State) : Nat :=
  s.boot.ownImage.getD (if s.boot.bootSel then s.num .FWP_IMG_LEN else 2 ^ 26)

/-- FWP_CTRL.LOAD: accepted only while WAIT_HOST (R405, R423); the bit reads 1 until the image is verified. -/
def State.fwpLoad (s : State) : State :=
  s.when (s.bit .FWP_STATUS 5) (fun s => (s.setF .FWP_STATUS 5 1 0).setF .FWP_CTRL 0 1 1)

/-- FIRMWARE_VERIFIED (R404, R405): success goes on to step 7. -/
def execFirmwareVerified (t : Stamp) (img : Image) (s : State) : Res :=
  answer t s fun s =>
    if !(s.starting && s.bootStep == 6) || s.bit .FWP_STATUS 5 then s
    else
      let r := s.verifyImage s.imageSource img
      let s := ({ s with boot := { s.boot with ownImage := none, image := if r == 0 then img.digests else s.boot.image } } : State).setF .FWP_STATUS 8 8 r
      let s := s.setF .FWP_CTRL 0 1 0
      if r == 0 then ((s.setNum .FWP_FW_VERSION (img.field 8 4)).setF .FWP_SVN 0 16 (img.field 12 4)).setF .FWP_STATUS 0 4 7
      else s.enterSafe 2 0

/-! ### Step 7: firmware start (R68, R397, R440, R473) -/

/-- Capability registers and defaults that firmware sets (the registers whose reset the tables mark FW). -/
def State.fwRegs (s : State) (controllers : Nat) : State :=
  let p := s.part
  let caps : List (Reg × Nat) := [(.WGT_CAPS, 4096 + 64 * 2 ^ 13 + 2 ^ 20 + bit01 (p.linkDies != 0) * 2 ^ 21), (.KVC_CAPS, 16 + 128 * 32 + 3 * 2 ^ 13),
    (.SRV_CAPS, 96 + 8 * 128 + 256 * 2048), (.BPL_CAPS, 2 + 64 * 4), (.FAB_CAPS, 2 ^ p.planes - 1 + p.links * 64 + 2 ^ 12 + 2 * 2 ^ 16),
    (.HLT_CAPS, 4 + 64 * 8 + 256 * 1024), (.CNT_CAPS, 36 + 8 * 64)]
  let s := s.each caps (fun e s => s.setNum e.1 e.2)
  let s := (s.setNum .PWR_CAPS (p.tdp + p.limit10 * 4096 + controllers * 2 ^ 24)).setNum .PWR_LIMIT p.tdp
  let s := s.setNum .KVC_RESERVE_BYTES (if p == .jn4 then 256 * 2 ^ 30 else 512 * 2 ^ 30)
  s.setNum .KVC_BUDGET_BYTES (if p == .jn4 then 165000000000 else 330000000000)

/-- Physical cores of the retirement list are retired, and reserves carry their logical cores (R401, R438 to R440); a
logical core that none can carry is DEGRADED. -/
def State.applyList (s : State) : State :=
  let l := ((s.mram.retired.filter (fun e => !e.isLink)).map (fun (e : RetireEntry) => (e.unit, e.kind))).filter (fun e => decide (e.1 < s.part.physCores))
  let full := decide (1024 ≤ s.mram.retired.length)
  let clear := fun (x : Phys) => if full && x.role == .retired then x else
    { x with role := .home, logical := none, testing := none, partnerOf := none, listed := false, kind := 0, asked := none, suspect := [], events := [] }
  let s : State := { s with phys := s.phys.map (fun x => clear x), hlt.degraded := [] }
  let s := s.each l (fun e s => s.updPhys e.1 (fun x => { x with role := .retired, kind := e.2, listed := true }))
  let lost := sortBy (fun a b => decide (a ≤ b)) ((l.map (fun e => e.1)).eraseDups)
  s.each (lost.filterMap homeCore) (fun c s => match s.takeReserve (clusterOfCore c) with
    | some r => s.updPhys r (fun x => { x with role := .carrying, logical := some c })
    | none => { s with hlt.degraded := s.hlt.degraded ++ [c] })

/-- The tide timer starts (R68): edge 0 at a cold start; after a warm start the index counts the whole tides gone by. -/
def State.startTimer (s : State) : State :=
  if s.tide.running then s
  else
    let k := (s.now - s.aon.keptTime) / s.aon.keptLen
    let lead := s.num .TDE_LEAD_ACT * 100000
    let t : TideTimer := { running := true, first := !s.aon.warm, len := s.num .TDE_PERIOD_ACT * 1000000, nextEdge := s.now, close := s.now - lead, sealed := true, latched := true }
    let s : State := { s with tide := t }
    if s.aon.warm then s.setNum .TDE_TIDE (s.aon.keptTide.toNat + k) else s

/-- The trip record of a start after TRIP_LATCH (R472, R493). -/
def State.tripRecord (s : State) : State :=
  match s.aon.tripAon with
  | none => s
  | some k =>
    let b := { s.mram.bbx with shutReason := 3, shutTime := s.now, shutAon := k, shutTide := s.aon.keptTide }
    { s with mram.bbx := b, aon.tripAon := none }

/-- FIRMWARE_STARTED (R397 step 7, R400, R454). -/
def execFirmwareStarted (t : Stamp) (st : SelfTest) (controllers : Fin 5) (monitors : BitVec 5) (s : State) : Res :=
  answer t s fun s =>
    if !(s.starting && s.bootStep == 7) then s
    else
      let s : State := { s with boot := { s.boot with fwRuns := true, pwrRan := true, schRan := true }, pwr.monitors := monitors }
      let s := ((s.fwRegs controllers.val).applyList).startTimer.tripRecord
      let x := s.boot.failed.join (s.tested st)
      let s := s.stRegs x
      let s : State := if s.aon.fromSleep then { s with phys := s.phys.map (fun p => { p with due := true }) } else s
      let s : State := { s with aon := { s.aon with warm := false, fromSleep := false } }
      if !x.passes then s.enterSafe 1 0 else (s.setF .FWP_STATUS 0 4 8).startCal 0

/-! ### Step 10: the start rake (R402) -/

/-- A pan after the start rake: bed A ACTIVE, bed B STALE, both with the start pattern. -/
def Pan.startRaked (id : Nat) (tide : W32) (p : Pan) : Pan :=
  { a := p.a.fresh .active .start id tide, b := p.b.fresh .stale .start id tide, activeTide := tide
    baseWrites := p.baseWrites + 2, baseRakes := p.baseRakes + 2 }

/-- START_RAKE_DONE (R397 step 10, R402): a bed that fails fails self-test for its physical core. -/
def execStartRakeDone (t : Stamp) (failed : List PhysId) (s : State) : Res :=
  answer t s fun s =>
    if !(s.starting && s.bootStep == 10) then s
    else
      let id := s.freeCtr + 1
      let s := s.tick
      let p := s
      let s : State := { s with pans := p.pans.map (fun x => x.startRaked id p.tideIdx) }
      let x := s.boot.failed.join (s.tested { cores := failed.map (fun q => (q, CoreTest.pan)) })
      if x.passes then s.setF .FWP_STATUS 0 4 11 else (s.stRegs x).enterSafe 1 0

/-- STARTUP_PUBLISH (R399): before edge 0, commands are admitted and completions published every 20 ms. -/
def execStartupPublish (t : Stamp) (s : State) : Res :=
  answer t s fun s => s.when (s.starting && !s.tide.running) (fun s =>
    let qs := (s.qps.cells.filter (fun e => e.2.state != .free)).map (fun (e : Nat × Qp) => e.1)
    ((s.each qs (fun q s => s.publishQp q s.tideIdx s.now)).signalAll).admitAll s.now)

/-! ### Trip, wake, Deep sleep (R463, R467, R472, R473, R483) -/

/-- Ticks of the timekeeper at this instant (R465). -/
def State.aonTick (s : State) : Nat := s.now * 32768 / 1000000000

/-- HARDWARE_TRIP (R472): in whatever state, every rail but VAON goes. -/
def execHardwareTrip (t : Stamp) (s : State) : Res :=
  answer t s fun s => s.when (s.aon.phase != .vaonOff) (fun s =>
    let s := ((s.cmpOut 2 false).setF .AON_STATUS 13 1 0).setF .AON_STATUS 4 1 1
    let k := s.aonTick
    let s := s.powerDown .stopped
    { s with aon := { s.aon with thermtrip := true, tripAon := some k } })

/-- Rank of a wake source: its bit in AON_WAKE_EN (R467), by the code of AON_STATUS.WAKE_REASON. -/
def wakeRank (code : Nat) : Nat := if code == 1 then 8 else code + 1

/-- A wake source fires (R467): the start from Deep sleep begins; of sources in one tick the lowest-ranked is reported. -/
def State.wakeUp (s : State) (code : Nat) : State :=
  if s.aon.phase == .asleep then
    let s := s.setF .AON_STATUS 0 3 code
    { s with aon := { s.aon with phase := .seqVio, pwrEn := true, warm := true, fromSleep := true, fails := 0, wakeOut := code != 3, wakeTick := some s.aonTick } }
  else if s.aon.fromSleep && s.aon.phase == .seqVio && s.aon.wakeTick == some s.aonTick && decide (wakeRank code < wakeRank (s.fld .AON_STATUS 0 3)) then
    { s.setF .AON_STATUS 0 3 code with aon.wakeOut := code != 3 }
  else s

/-- TIMER_WAKE (R467): AON_TIME reaches AON_WAKE_TIME. -/
def execTimerWake (t : Stamp) (s : State) : Res :=
  answer t s fun s => s.when (s.bit .AON_WAKE_EN 8 && decide (s.num .AON_WAKE_TIME ≤ s.aonTick)) (fun s => s.wakeUp 1)

/-- LINK_PRESENCE_WAKE (R467): comparator 3 changes to 1. -/
def execLinkPresenceWake (t : Stamp) (s : State) : Res :=
  answer t s fun s => s.when (s.part.linkDies != 0) (fun s =>
    (s.cmpOut 3 true).when (s.bit .AON_WAKE_EN 3) (fun s => s.wakeUp 2))

/-- WAKE_IN (R467): comparator 5 or 6 changes to 0. -/
def execWakeIn (t : Stamp) (which : Fin 2) (s : State) : Res :=
  answer t s fun s => (s.cmpOut (5 + which.val) false).when (s.bit .AON_WAKE_EN (5 + which.val)) (fun s => s.wakeUp (4 + which.val))

/-- DEEP_SLEEP_POWER_OFF (R463 step 2). -/
def execDeepSleepPowerOff (t : Stamp) (s : State) : Res :=
  answer t s fun s => s.when (s.aon.phase == .sleepGranted) (fun s => (s.bump .AON_DEEP_SLEEPS).powerDown .asleep)

/-- AON_CTRL.CLEAR_LATCHES (Table 15.14). -/
def State.clearLatches (s : State) : State := { s.setF .AON_STATUS 3 2 0 with aon.thermtrip := false }

end Sys2Proof.Machine
end

