-- ==== Sys2Proof/Machine/Resets.lean ====
section
/-! DEFINITION. Resets of functions and of the port (12_host R370 to R372, 13_startup R399, 15_power R473): rows
PERST_ASSERT to VF_ENABLE. -/

namespace Sys2Proof.Machine

/-- A register that a reset of its function returns to its reset value: RW and W1C ones, but for those of what R371 keeps
(the tide, the fabric, the recorder, loaded weights and adapters, pending device work; log 47). -/
def Reg.resets (r : Reg) : Bool :=
  let acc := r.info.access == .rw || r.info.access == .w1c
  let int := r == .TDE_INT_STATUS || r == .TDE_INT_ENABLE || r == .FAB_INT_STATUS || r == .FAB_INT_ENABLE
  let kept := r.info.block == .tde || r.info.block == .fab || r.info.block == .aon || r == .HKA_COEF || r == .HKA_CTRL || r == .EVT_CTRL ||
    r == .BBX_CTRL || r == .FWP_CTRL || r == .WGT_ADAPTER_REGION || r == .WGT_HOLD_BYTES || r == .WGT_HOST_TIER_ADDR ||
    r == .WGT_HOST_TIER_LEN || r == .KVC_RESERVE_BYTES
  acc && (int || !kept)

/-- The blocks a function has registers in. -/
def blocksOfFn (fn : Nat) : List RegBlock :=
  if fn == 0 then [.hif, .tde, .syn, .evt, .wgt, .kvc, .srv, .bpl, .fab, .sec, .fwp, .hlt, .pwr, .thm, .hka, .bbx, .cnt]
  else [.hif, .syn, .srv]

/-- What a register returns to: its reset value, and what firmware sets where the tables say FW. -/
def State.resetValue (s : State) (r : Reg) (i : Nat) : Nat :=
  if r == .PWR_LIMIT then s.part.tdp
  else if r == .KVC_BUDGET_BYTES then (if s.part == .jn4 then 165000000000 else 330000000000)
  else (Reg.resetAt r i).toNat

/-- The RW and W1C registers of a function return to their reset values. -/
def State.resetRegs (s : State) (fn : Nat) : State :=
  let l := (blocksOfFn fn).flatMap (fun b => b.regs.filter Reg.resets)
  s.each l (fun r s => s.each (List.range r.info.count) (fun i s => s.setNum r (s.resetValue r i) fn i))

/-- The counters of a virtual function return to zero with its reset (R370). -/
def State.resetCounters (s : State) (fn : Nat) : State :=
  let srv : List Reg := [.SRV_CMDS, .SRV_LATE, .SRV_LATE_DROPPED, .SRV_CANCELLED, .SRV_SPEC_PROPOSED, .SRV_SPEC_ACCEPTED, .SRV_VOIDED,
    .SRV_DB_IGNORED, .SRV_CQ_FULL_TIDES, .SRV_TOKENS_OUT, .SRV_FRAMES_IN, .SRV_FRAMES_OUT, .HIF_DMA_ERRORS, .HIF_BAD_ACCESS]
  let s := s.each srv (fun r s => s.setNum r 0 fn)
  s.each tenantWords (fun e s => s.setNum e.1 0 fn e.2)

/-- The words of a function's pool share become zero (R370). -/
def State.zeroShare (s : State) (fn : Nat) : State :=
  let x := s.share fn
  let l := (s.pool.map (fun (e : Nat × SyncWord) => e.1)).filter (fun k => decide (x.poolBase ≤ k) && decide (k < x.poolBase + x.poolCount))
  s.each l (fun k s => s.when ((s.word (poolRef k)).value != 0) (fun s => s.writeWord (poolRef k) 0 resetId 3))

/-- A queue pair becomes FREE; its session closes without a record, its pages free at the next edge (R370). -/
def State.freeQp (s : State) (q : Nat) : State :=
  let s := match (s.qp q).session with | none => s | some y => s.dropPages y
  let s := s.updQp q (fun _ => {})
  { s with srv.admitted := s.srv.admitted.filter (fun e => e.qid != q) }

/-- The reset of a function (R370). -/
def State.fnReset (s : State) (fn : Nat) : State :=
  let qs := (s.qps.cells.map (fun (e : Nat × Qp) => e.1)).filter (fun q => s.fnOf q == fn)
  let s := (s.each qs (fun q s => s.freeQp q)).zeroShare fn
  let mine := fun (e : Nat × Nat × W32) => e.1 == fn
  let h := { s.hif with
    msix := s.hif.msix.filter (fun e => e.1 / 2048 != fn), rdLatch := s.hif.rdLatch.filter (fun e => !mine e)
    wrLatch := s.hif.wrLatch.filter (fun e => !mine e), held := s.hif.held.filter (fun w => w.fn.val != fn) }
  let b := if fn == 0 then { s.boot with waitFw := [] } else s.boot
  (({ s with hif := h, boot := b } : State).setLatch fn none).resetRegs fn

/-- The resets of R371: every function, SR-IOV disabled, loads in progress fail. -/
def State.resetAll (s : State) : State :=
  if s.ready || s.safe then
    let s : State := s.each s.fns (fun fn s => s.fnReset fn)
    (({ s with hif.numVfs := 0 } : State).failLoad 0x2B).failPlan 0x6B
  else s

/-- PERST_ASSERT (R371, R399, R473). -/
def execPerstAssert (t : Stamp) (s : State) : Res :=
  answer t s fun s =>
    let s := s.cmpOut 4 false
    ({ s with aon := { s.aon with perst := true, perstCycle := s.aon.phase == .stopped } } : State).resetAll

/-- PERST_DEASSERT (R467, R473): it wakes from Deep sleep; after a stop or a trip it starts the device once the trip
sensor reads below 110 °C, else it is ignored and counted. -/
def execPerstDeassert (t : Stamp) (trip : BitVec 10) (s : State) : Res :=
  answer t s fun s =>
    let was := s.aon.perst
    let cyc := s.aon.perstCycle
    let s := s.cmpOut 4 true
    let s : State := { s with aon := { s.aon with perst := false, perstCycle := false } }
    if !was then s
    else if s.aon.phase == .asleep then s.wakeUp 3
    else if s.aon.phase == .stopped && cyc then
      let cool := decide (trip.toNat * 150 < 110 * 1024)
      let s := s.setF .AON_STATUS 13 1 (bit01 cool)
      if cool then
        let s := s.setF .AON_STATUS 0 3 3
        { s with aon := { s.aon with phase := .seqVio, pwrEn := true, warm := true, fromSleep := false, fails := 0 } }
      else s.bump .AON_WAKE_IGNORED
    else s

/-- HOT_RESET (R371, R399). -/
def execHotReset (t : Stamp) (s : State) : Res := answer t s fun s => s.resetAll
/-- PCIE_LINK_DISABLE (R371). -/
def execPcieLinkDisable (t : Stamp) (s : State) : Res := answer t s fun s => s.resetAll
/-- PCIE_LINK_DOWN (R371). -/
def execPcieLinkDown (t : Stamp) (s : State) : Res := answer t s fun s => s.resetAll
/-- PF_FLR (R371). -/
def execPfFlr (t : Stamp) (s : State) : Res := answer t s fun s => s.resetAll

/-- VF_FLR (R370). -/
def execVfFlr (t : Stamp) (fn : FnId) (s : State) : Res :=
  answer t s fun s => s.when (s.fnLive fn.val && fn.val != 0) (fun s => (s.fnReset fn.val).resetCounters fn.val)

/-- VF_ENABLE (R372): NumVFs above 64 enables 64; functions that go are reset. -/
def execVfEnable (t : Stamp) (numVfs : W16) (s : State) : Res :=
  answer t s fun s => s.when s.powered (fun s =>
    let n := min 64 numVfs.toNat
    let s := s.each ((List.range (s.hif.numVfs + 1)).filter (fun f => decide (n < f))) (fun f s => (s.fnReset f).resetCounters f)
    { s with hif.numVfs := n })

end Sys2Proof.Machine
end

