-- ==== Sys2Proof/Machine/Firmware.lean ====
section
/-! DEFINITION. Firmware commands, processors and their restarts (13_startup R406 to R411, R414, R423): rows WATCHDOG_EXPIRY,
FW_FLASH to RESTART_DEVICE, and what the writes of FWP_CTRL do. -/

namespace Sys2Proof

/-- Code of a processor (event PROC_RESTART, Table 16.2). -/
def Proc.code : Proc → Nat
  | .security => 0 | .power => 1 | .scheduler => 2 | .cluster _ => 3
/-- Cluster of a cluster control processor; 0 for others. -/
def Proc.clusterNo : Proc → Nat
  | .cluster c => c.val | _ => 0
/-- Its counter. -/
def Proc.counter : Proc → Reg
  | .security => .FWP_RESTARTS_SEC | .power => .FWP_RESTARTS_PWR | .scheduler => .FWP_RESTARTS_SCH | .cluster _ => .FWP_RESTARTS_CCP
end Sys2Proof

namespace Sys2Proof.Machine

/-! ### Restarts of one processor (R408 to R411) -/

/-- The processor runs firmware and can be restarted: fitted, started, not restarting, not stopped for good (R410). -/
def State.procRuns (s : State) (p : Proc) : Bool :=
  s.powered && s.boot.fwRuns && !s.restarting p &&
  match p with | .cluster c => decide (c.val < s.part.clusters) && !(s.clusters.get c.val).ccpStopped | _ => true

/-- Restarts of a processor in the window of 60 s that this one closes, itself included (R410, R52). -/
def State.restartsNear (s : State) (p : Proc) : Nat :=
  (s.hif.history.filter (fun e => e.1 == p && decide (s.now < e.2 + 60000000000))).length

/-- A cluster control processor stays stopped: its cluster's logical cores become DEGRADED (R410). -/
def State.stopCluster (s : State) (c : Nat) : State :=
  let s : State := { s with clusters := s.clusters.upd c (fun k => { k with ccpStopped := true }) }
  let s := s.setF .FWP_ST_CLUSTER_FAIL 7 1 1 0 c
  s.each ((List.range 64).map (fun k => c * 64 + k)) (fun k s => s.degrade k (s.physOf k))

/-- What the restart of one processor does besides (Table 13.5). -/
def State.restartEffect (s : State) (p : Proc) : State :=
  match p with
  | .security =>
    let open_ := !s.sec.sessions.isEmpty
    let s : State := { s with sec := { s.sec with sessions := [], stage := [] } }
    (s.when open_ (fun s => s.raise .SEC_INT_STATUS .SEC_INT_ENABLE 2)).failLoad 0x2B
  | _ => s

/-- A processor restarts; `why` is 0 for its watchdog, 1 for a request (R408, R410, R411). -/
def State.restartProc (s : State) (p : Proc) (why : Nat) : State :=
  if !s.procRuns p then s
  else
    let s : State := { s with hif.history := (p, s.now) :: s.hif.history.filter (fun e => decide (s.now < e.2 + 60000000000)) }
    let third := decide (3 ≤ s.restartsNear p)
    let s := ((s.bump p.counter).raise .FWP_INT_STATUS .FWP_INT_ENABLE 2).event 0x0D01 1 p.code p.clusterNo why
    let s := s.restartEffect p
    match p with
    | .cluster c =>
      if third then (s.stopCluster c.val).setF .FWP_CTRL 2 1 0 else { s with hif.restarting := s.hif.restarting ++ [p] }
    | _ =>
      let s : State := { s with hif.restarting := s.hif.restarting ++ [p] }
      let s := s.each s.fns (fun fn s => s.raise .HIF_INT_STATUS .HIF_INT_ENABLE 1 fn)
      if third then s.enterSafe 4 0 else s

/-- WATCHDOG_EXPIRY (R408, R501 trigger 1). -/
def execWatchdogExpiry (t : Stamp) (p : Proc) (s : State) : Res :=
  answer t s fun s => s.when (s.procRuns p) (fun s => (s.wfgTrigger 1 p.code).restartProc p 0)

/-- The processor that FWP_CTRL selects (Table 13.11). -/
def State.selProc (s : State) : Proc :=
  match s.fld .FWP_CTRL 3 2 with
  | 0 => .security | 1 => .power | 2 => .scheduler
  | _ => .cluster ⟨s.fld .FWP_CTRL 5 6 % 64, Nat.mod_lt _ (by decide)⟩

/-- FWP_CTRL.RESTART (R411): the bit reads 1 until the processor has restarted. -/
def State.restartRequest (s : State) : State :=
  let p := s.selProc
  if s.procRuns p then (s.setF .FWP_CTRL 2 1 1).restartProc p 1 else s

/-- FWP_CTRL.COMMIT_SVN (R406): the minimum SVN becomes the running one, in READY. -/
def State.commitSvn (s : State) : State :=
  s.when s.ready (fun s =>
    ({ s with mram.minSvn := BitVec.ofNat 16 (max s.mram.minSvn.toNat (s.fld .FWP_SVN 0 16)) } : State).raise .FWP_INT_STATUS .FWP_INT_ENABLE 16)

/-! ### Firmware commands (R407, R414, Table 13.6) -/

/-- Everything closes and start-up resumes at step 5 (RESTART_DEVICE, Table 13.6). -/
def State.restartDevice (s : State) (ownImage : Option Nat) : State :=
  let t := (s.closeAll false).keepAdmin s
  let b := { t.boot with ownImage := ownImage, fwRuns := false, pwrRan := false, schRan := false, failed := {} }
  let p := { t.pwr with calibrating := none, exitDue := none, waitEdge := false, selfRefresh := false, idle := 0 }
  let t : State := { t with boot := b, pwr := p, hif := { t.hif with restarting := [], held := [] } }
  let t := ((t.setF .FWP_STATUS 0 4 5).setF .FWP_STATUS 5 1 0).setF .FWP_STATUS 16 8 0
  ((((t.setF .HKA_STATUS 0 1 0).setF .HKA_CTRL 0 2 0).setF .PWR_STATUS 0 3 0).setF .FWP_CTRL 2 1 0).setDevState 0

/-- Failed physical cores and links join the retirement list (RETIRE_FAILED); the reason that their entries carry is a
free value: the kinds of R437 name none (log 48). -/
def State.retireFailed (s : State) : State :=
  let f := s.boot.failed
  let e := fun (link : Bool) (u : Nat) (s : State) => if s.inList link u then s else
    s.tick.listRetired ⟨link, u, Config.freeNat s.freeCtr % 256, s.now, s.tideIdx, BitVec.ofNat 32 (s.num .FWP_FW_VERSION)⟩
  let s := s.each (((f.cores.map (fun x => x.1.val)).eraseDups)) (fun u s => e false u s)
  s.each f.links (fun u s => e true u.val s)

/-- ST_INTERNAL with its event (R396). -/
def State.internal (s : State) (q : Qid) (c : SrvCmd) : State :=
  (s.event 0x0C01 1 c.opcode.toNat (s.fnOf q.val) q.val).post q.val { cid := c.cid, status := 1, opcode := c.opcode.toNat, irq := c.irq }

/-- A firmware command's record. -/
def State.fwRecord (s : State) (q : Qid) (c : SrvCmd) (status detail : Nat) : State :=
  s.when ((s.qp q.val).state == .ready) (fun s => s.post q.val { cid := c.cid, status := status, opcode := c.opcode.toNat, irq := c.irq, detail := detail })

/-- A firmware command runs (R407, Table 13.6). -/
def State.runFw (s : State) (q : Qid) (c : SrvCmd) (w : FwWork) : State :=
  match w with
  | .flash img =>
    let r := s.verifyImage c.dataLen.toNat img
    let s := (s.dmaRd (s.fnOf q.val) c.dataLen.toNat).setF .FWP_STATUS 8 8 r
    if r != 0 then s.fwRecord q c 0x11 8
    else { s.setF .FWP_STATUS 6 1 1 with boot.flashing := some (q, c.cid, c.irq) }
  | .selfTest st => if s.boot.fwRuns then (s.stRegs (s.tested st)).fwRecord q c 0 0 else s.internal q c
  | .retire => ((s.retireFailed).restartDevice none).fwRecord q c 0 0
  | .restart => (s.restartDevice (if c.dataLen == 0 then none else some c.dataLen.toNat)).fwRecord q c 0 0

/-- A firmware command is taken: it runs, or waits for the one that does (R414). -/
def State.takeFw (s : State) (q : Qid) (op : Nat) (c : SrvCmd) (w : FwWork) : State :=
  s.take q.val op c (fun _ => (if op == 0x49 || op == 0x4A then c.noData else []) ++ c.noParam ++ c.noArgs)
    (fun s => if s.boot.flashing.isSome then .quiet { s with boot.waitFw := s.boot.waitFw ++ [(q, c, w)] } else .quiet (s.runFw q c w))

/-- FW_FLASH (R407): verified before anything is erased. -/
def execFwFlash (t : Stamp) (qid : Qid) (c : SrvCmd) (img : Image) (s : State) : Res :=
  answer t s fun s => s.takeFw qid 0x48 c (.flash img)
/-- SELF_TEST (Table 13.6): in SAFE, with firmware that runs. -/
def execSelfTest (t : Stamp) (qid : Qid) (c : SrvCmd) (st : SelfTest) (s : State) : Res :=
  answer t s fun s => s.takeFw qid 0x49 c (.selfTest st)
/-- RETIRE_FAILED (Table 13.6, R440). -/
def execRetireFailed (t : Stamp) (qid : Qid) (c : SrvCmd) (s : State) : Res :=
  answer t s fun s => s.takeFw qid 0x4A c .retire
/-- RESTART_DEVICE (Table 13.6, R398). -/
def execRestartDevice (t : Stamp) (qid : Qid) (c : SrvCmd) (s : State) : Res :=
  answer t s fun s => s.takeFw qid 0x4B c .restart

/-- The firmware commands that wait run in order until one takes time (R414); each is checked against the state of the
device as it then is. -/
def State.runWaiting (s : State) (l : List (Qid × SrvCmd × FwWork)) : State :=
  match l with
  | [] => { s with boot.waitFw := [] }
  | (q, c, w) :: rest =>
    let s := match s.checkFront q.val c.opcode.toNat with
      | some code => s.fwRecord q c code 0
      | none => s.runFw q c w
    if s.boot.flashing.isSome then { s with boot.waitFw := rest } else s.runWaiting rest

/-- FLASH_WRITE_DONE (R407, Table 13.4): read back and verified, or failed. -/
def execFlashWriteDone (t : Stamp) (ok : Bool) (s : State) : Res :=
  answer t s fun s => match s.boot.flashing with
    | none => s
    | some (q, cid, irq) =>
      let s := ({ s with boot.flashing := none } : State).setF .FWP_STATUS 6 1 0
      let c : SrvCmd := { opcode := 0x48, flags := if irq then 2 else 0, cid := cid }
      let s := if ok then (s.fwRecord q c 0 0).raise .FWP_INT_STATUS .FWP_INT_ENABLE 4
        else ((s.setF .FWP_STATUS 8 8 8).internal q c).raise .FWP_INT_STATUS .FWP_INT_ENABLE 8
      s.runWaiting s.boot.waitFw

end Sys2Proof.Machine
end

