-- ==== Sys2Proof/Machine/Host.lean ====
section
/-! DEFINITION. Host memory errors, IDE, SPDM over DOE and the management port (12_host R368, R379, R393 to R395,
13_startup R418, R420, R421): rows DMA_ERROR to HOR_LIMITS, DOE_DISCOVERY and HOR_UNKNOWN. The SPDM response codes are
DMTF's (PRESUMED, log 49). -/

namespace Sys2Proof.Machine

/-! ### Host memory (R368) -/

/-- A DMA read that ended in an error is counted (R368). -/
def State.dmaErr (s : State) (fn : Nat) : State := (s.bump .HIF_DMA_ERRORS 1 fn).raise .HIF_INT_STATUS .HIF_INT_ENABLE 4 fn

/-- A serving command whose read failed: the one being taken, or one in its session's work. -/
def State.commandDma (s : State) (q : Qid) (c : SrvCmd) : State :=
  let held := (match s.sess? q.val with | none => [] | some x => x.work).any (fun w => w.cid == c.cid && w.opcode == c.opcode.toNat && w.done.isNone)
  if held then s.updSess q.val (fun x => { x with work := x.work.map (fun w =>
    if w.cid == c.cid && w.opcode == c.opcode.toNat && w.done.isNone then { w with done := some (0x19, 0) } else w) })
  else s.take q.val c.opcode.toNat c (fun _ => []) (fun s => .record s 0x19)

/-- DMA_ERROR (R368): by what the read was for. -/
def execDmaError (t : Stamp) (fn : FnId) (what : DmaFor) (s : State) : Res :=
  answer t s fun s => s.when (s.fnLive fn.val) (fun s =>
    let s := s.dmaErr fn.val
    match what with
    | .command q c => s.commandDma q c
    | .shard i => s.when ((s.wgt.load.map (fun l => l.mode != 2)).getD false) (fun s => s.shard i .host [] true)
    | .plan => s.when s.plans.loading.isSome (fun s => (s.failPlan 0x6B).setF .BPL_STATUS 0 4 1)
    | .image =>
      if s.starting && s.bootStep == 6 && !s.bit .FWP_STATUS 5 then ((s.setF .FWP_STATUS 8 8 7).setF .FWP_CTRL 0 1 0).enterSafe 2 0
      else s
    | .mapRead => s)

/-- An error in a function's AER log, which holds each kind once. -/
def State.logAer (s : State) (fn : Nat) (e : AerError) : State :=
  if s.hif.aer.contains (fn, e) then s else { s with hif.aer := s.hif.aer ++ [(fn, e)] }

/-- POISONED_WRITE (R368): discarded, and logged. -/
def execPoisonedWrite (t : Stamp) (fn : FnId) (s : State) : Res :=
  answer t s fun s => s.when (s.fnLive fn.val) (fun s => s.logAer fn.val .poisonedWrite)

/-! ### IDE (R379) -/

/-- IDE_CHECK_FAIL: the TLP is discarded and the stream is in the Insecure state. -/
def execIdeCheckFail (t : Stamp) (s : State) : Res :=
  answer t s fun s => s.when (s.powered && s.sec.ide.isSome) (fun s =>
    ({ s.setF .HIF_LINK_STATUS 8 1 0 with sec.ideFailed := true } : State).logAer 0 .ideCheck)

/-! ### SPDM (R420, R421) -/

/-- The negotiation stage of a function's connection. -/
def State.spdmStage (s : State) (fn : Nat) : Nat := Cells.get (fun _ => 0) s.sec.stage fn
/-- It set. -/
def State.setStage (s : State) (fn n : Nat) : State :=
  { s with sec.stage := Cells.set (fun _ => 0) s.sec.stage fn n }

/-- An ERROR response, counted (Table 13.9). -/
def State.spdmError (s : State) (code : Nat) : State :=
  ((s.bump .SEC_SPDM_ERRORS).raise .SEC_INT_STATUS .SEC_INT_ENABLE 4).emit (.spdm 0x7F [code])

/-- The security processor, or its ROM, answers a function's mailbox. -/
def State.spdmLive (s : State) (fn : Nat) : Bool := s.fnLive fn && !s.restarting .security

/-- A request of function `fn` that needs stage `need`: ERROR without a valid key (R417), or before its stage. -/
def State.spdm (s : State) (fn need : Nat) (f : State → State) : State :=
  if !s.spdmLive fn then s
  else if !s.bit .SEC_STATUS 0 then s.spdmError 4
  else if s.spdmStage fn < need then s.spdmError 4
  else f s

/-- GET_VERSION: version 1.3; it begins the connection anew. -/
def execGetVersion (t : Stamp) (fn : FnId) (s : State) : Res :=
  answer t s fun s => s.spdm fn.val 0 (fun s => (s.setStage fn.val 1).emit (.spdm 0x04 [0x13]))

/-- GET_CAPABILITIES. -/
def execGetCapabilities (t : Stamp) (fn : FnId) (s : State) : Res :=
  answer t s fun s => s.spdm fn.val 1 (fun s => (s.setStage fn.val (max 2 (s.spdmStage fn.val))).emit (.spdm 0x61 []))

/-- NEGOTIATE_ALGORITHMS: RSASSA-PSS 4,096, SHA-512, secp384r1, AES-256. -/
def execNegotiateAlgorithms (t : Stamp) (fn : FnId) (s : State) : Res :=
  answer t s fun s => s.spdm fn.val 2 (fun s => (s.setStage fn.val 3).emit (.spdm 0x63 [4096, 512, 384, 256]))

/-- A byte of the certificate chain (R418). -/
def certByte (o : Nat) : Nat := (Config.freeWord (Config.freeKey 3 (o / 8))).toNat / 256 ^ (o % 8) % 256

/-- GET_DIGESTS: SHA-512 of the chain in slot 0. -/
def execGetDigests (t : Stamp) (fn : FnId) (s : State) : Res :=
  answer t s fun s => s.spdm fn.val 3 (fun s =>
    s.emit (.spdm 0x01 ((sha512 ((List.range (s.num .SEC_CERT_LEN)).map (fun k => BitVec.ofNat 8 (certByte k)))).map BitVec.toNat)))

/-- GET_CERTIFICATE: a portion of slot 0's chain, the length that remains after it, and its bytes. -/
def execGetCertificate (t : Stamp) (fn : FnId) (slot off len : Nat) (s : State) : Res :=
  answer t s fun s => s.spdm fn.val 3 (fun s =>
    let total := s.num .SEC_CERT_LEN
    if slot != 0 || decide (total ≤ off) then s.spdmError 1
    else
      let n := min len (total - off)
      s.emit (.spdm 0x02 ([n, total - off - n] ++ (List.range n).map (fun k => certByte (off + k)))))

/-- CHALLENGE: signed with the identity key; the signature is free. -/
def execChallenge (t : Stamp) (fn : FnId) (nonce : BitVec 256) (s : State) : Res :=
  answer t s fun s => s.spdm fn.val 3 (fun s =>
    s.tick.emit (.spdm 0x03 [nonce.toNat, (Config.free512 s.freeCtr).toNat]))

/-- A measurement block as it is answered (Table 13.8): raw content, or its digest. -/
def State.measBlock (s : State) (i : Nat) : List Nat :=
  if i == 8 then i :: s.measPart
  else if i == 7 || i == 10 || i == 11 then i :: ((s.measContent i).getD []).map BitVec.toNat
  else [i, (s.measDigest i).toNat]

/-- GET_MEASUREMENTS (R421): index 0 asks for the number of blocks, 0xFF for all of them. -/
def execGetMeasurements (t : Stamp) (fn : FnId) (index : Nat) (s : State) : Res :=
  answer t s fun s => s.spdm fn.val 3 (fun s =>
    if index == 0 then s.emit (.spdm 0x60 [12])
    else if index == 0xFF then s.emit (.spdm 0x60 ((List.range 12).flatMap (fun k => s.measBlock (k + 1))))
    else if index ≤ 12 then s.emit (.spdm 0x60 (s.measBlock index))
    else s.spdmError 1)

/-- The lowest session identifier not in use. -/
def State.nextSession (s : State) : Nat := ((List.range 9).find? (fun k => !s.sec.sessions.any (fun x => x.id == k))).getD 8

/-- KEY_EXCHANGE (R420): at most 8 sessions; a further one is answered Busy. -/
def execKeyExchange (t : Stamp) (fn : FnId) (s : State) : Res :=
  answer t s fun s => s.spdm fn.val 3 (fun s =>
    if 8 ≤ s.sec.sessions.length then s.spdmError 3
    else
      let id := s.nextSession
      ({ s with sec.sessions := s.sec.sessions ++ [{ id := id, fn := fn.val, last := s.now }] } : State).emit (.spdm 0x64 [id]))

/-- A session of a function. -/
def State.spdmSession (s : State) (fn id : Nat) : Option SpdmSession := s.sec.sessions.find? (fun x => x.id == id && x.fn == fn)
/-- Sessions without one. -/
def State.dropSession (s : State) (id : Nat) : State := { s with sec.sessions := s.sec.sessions.filter (fun x => x.id != id) }
/-- A session changed. -/
def State.updSession (s : State) (id : Nat) (f : SpdmSession → SpdmSession) : State :=
  { s with sec.sessions := s.sec.sessions.map (fun x => if x.id == id then f x else x) }

/-- FINISH: the session is open, or its verification failed and it is gone. -/
def execFinish (t : Stamp) (fn : FnId) (session : Nat) (ok : Bool) (s : State) : Res :=
  answer t s fun s => s.spdm fn.val 3 (fun s => match s.spdmSession fn.val session with
    | none => s.spdmError 2
    | some x =>
      if x.ready then s.spdmError 4
      else if ok then ((s.updSession session (fun x => { x with ready := true, last := s.now })).raise .SEC_INT_STATUS .SEC_INT_ENABLE 1).emit (.spdm 0x65 [session])
      else (s.dropSession session).spdmError 1)

/-- A message inside an open session. -/
def State.inSession (s : State) (fn session : Nat) (f : State → State) : State :=
  s.spdm fn 3 (fun s => match s.spdmSession fn session with
    | none => s.spdmError 2
    | some x => if x.ready then f s else s.spdmError 4)

/-- HEARTBEAT. -/
def execHeartbeat (t : Stamp) (fn : FnId) (session : Nat) (s : State) : Res :=
  answer t s fun s => s.inSession fn.val session (fun s => (s.updSession session (fun x => { x with last := s.now })).emit (.spdm 0x68 [session]))

/-- KEY_UPDATE: new session keys. -/
def execKeyUpdate (t : Stamp) (fn : FnId) (session : Nat) (s : State) : Res :=
  answer t s fun s => s.inSession fn.val session (fun s =>
    (s.updSession session (fun x => { x with keys := x.keys + 1, last := s.now })).emit (.spdm 0x69 [session]))

/-- END_SESSION. -/
def execEndSession (t : Stamp) (fn : FnId) (session : Nat) (s : State) : Res :=
  answer t s fun s => s.inSession fn.val session (fun s =>
    ((s.dropSession session).raise .SEC_INT_STATUS .SEC_INT_ENABLE 2).emit (.spdm 0x6C [session]))

/-- IDE_KM (R379): only in an open session of the physical function's mailbox; new keys take the stream out of the
Insecure state. -/
def execIdeKm (t : Stamp) (fn : FnId) (session : Nat) (s : State) : Res :=
  answer t s fun s => s.inSession fn.val session (fun s =>
    if fn.val != 0 then s.spdmError 1
    else { s.setF .HIF_LINK_STATUS 8 1 1 with sec := { s.sec with ide := some session, ideFailed := false } })

/-- DOE_DISCOVERY (R379): the three protocols of the mailbox, vendor 1 (PCI-SIG), and the index that comes next. -/
def execDoeDiscovery (t : Stamp) (fn : FnId) (index : Nat) (s : State) : Res :=
  answer t s fun s => s.when (s.fnLive fn.val) (fun s =>
    if index == 0 then s.emit (.doe 1 0 1) else if index == 1 then s.emit (.doe 1 1 2) else if index == 2 then s.emit (.doe 1 2 0)
    else s.emit (.doe 0xFFFF 0 0))

/-! ### The management port (R393 to R395) -/

/-- `n` bytes of a number, little-endian. -/
def natBytes (v n : Nat) : List Nat := (List.range n).map (fun k => v / 256 ^ k % 256)

/-- The house die is off, and VAON is on: the always-on domain alone answers. -/
def State.aonOnly (s : State) : Bool := !s.powered && s.aon.phase != .vaonOff

/-- The power processor cannot answer (R395). -/
def State.pwrBusy (s : State) : Bool := !s.boot.pwrRan || s.restarting .power
/-- The scheduler processor cannot answer (R395); in SAFE the security processor does. -/
def State.schBusy (s : State) : Bool := !s.safe && (!s.boot.schRan || s.restarting .scheduler)

/-- One transaction (R394, R395): PEC, argument length, what the state of the device serves; then the response `f`. -/
def State.horeno (s : State) (pecOk : Bool) (args : List Byte) (n : Nat) (asleep busy : Bool) (f : State → State) : State :=
  if s.aon.phase == .vaonOff then s
  else if !pecOk then s.emit (.hor [3])
  else if args.length != n then s.emit (.hor [2])
  else if s.aonOnly && !asleep then s.emit (.hor [4])
  else if s.powered && busy then s.emit (.hor [5])
  else f s

/-- HOR_ID. With the house die off, DEVICE_KEY_ID and the firmware version are free (log 50). -/
def execHorId (t : Stamp) (pecOk : Bool) (args : List Byte) (s : State) : Res :=
  answer t s fun s => s.horeno pecOk args 0 true false (fun s =>
    let key := if s.powered then s.keyId.toNat else (Config.free128 s.freeCtr).toNat
    let ver := if s.powered then s.num .FWP_FW_VERSION else Config.freeNat s.freeCtr
    s.tick.emit (.hor (0 :: (natBytes s.part.deviceId 4 ++ natBytes s.part.caps 4 ++ natBytes s.part.presence 4 ++ natBytes key 16 ++ natBytes ver 4))))

/-- Held links and withdrawn pans (HOR_STATE). -/
def State.heldLinks (s : State) : Nat := (s.fab.links.filter (fun e => e.2.st == .held)).length
/-- Withdrawn pans. -/
def State.withdrawnPans (s : State) : Nat := (s.pans.cells.filter (fun e => e.2.withdrawn)).length

/-- HOR_STATE. With the house die off, the device state, the power state and the counts are free (log 50). -/
def execHorState (t : Stamp) (pecOk : Bool) (args : List Byte) (s : State) : Res :=
  answer t s fun s => s.horeno pecOk args 0 true false (fun s =>
    let r := if s.powered then natBytes s.devState 1 ++ natBytes s.pwrState 1 ++ natBytes s.retiredListed.length 2 ++ natBytes s.heldLinks 2 ++
        natBytes s.withdrawnPans 2 ++ natBytes s.tideIdx.toNat 4
      else natBytes (Config.freeNat s.freeCtr) 8 ++ natBytes s.aon.keptTide.toNat 4
    s.tick.emit (.hor (0 :: r)))

/-- HOR_TEMP: THM_HOTTEST; free with the house die off and before the first reading (log 50). -/
def execHorTemp (t : Stamp) (pecOk : Bool) (args : List Byte) (s : State) : Res :=
  answer t s fun s => s.horeno pecOk args 0 true s.pwrBusy (fun s =>
    let v := if s.powered && s.hottest.isSome then s.num .THM_HOTTEST else Config.freeNat s.freeCtr
    s.tick.emit (.hor (0 :: (natBytes v 2 ++ natBytes (v / 65536 % 32) 1))))

/-- HOR_POWER: the core-rail voltage in mV is PWR_VCORE_ACT in steps of 5 mV (R453). -/
def execHorPower (t : Stamp) (pecOk : Bool) (args : List Byte) (s : State) : Res :=
  answer t s fun s => s.horeno pecOk args 0 false s.pwrBusy (fun s =>
    s.emit (.hor (0 :: (natBytes (s.num .PWR_PKG_MW) 4 ++ natBytes (5 * s.num .PWR_VCORE_ACT) 2 ++ natBytes (s.num .PWR_ICORE_MA) 4 ++
      natBytes (s.fld .PWR_STATUS 16 1) 1))))

/-- HOR_FAULTS: with no record held, the newest index is free (log 50). -/
def execHorFaults (t : Stamp) (pecOk : Bool) (args : List Byte) (s : State) : Res :=
  answer t s fun s => s.horeno pecOk args 0 false s.schBusy (fun s =>
    let n := s.mram.bbx.faults.length
    s.tick.emit (.hor (0 :: (natBytes n 2 ++ natBytes (if n == 0 then Config.freeNat s.freeCtr else n - 1) 2))))

/-- HOR_CPER_READ: bytes of the CPER export of a fault record, after the length that remains (log 51). -/
def execHorCperRead (t : Stamp) (pecOk : Bool) (args : List Byte) (s : State) : Res :=
  answer t s fun s => s.horeno pecOk args 6 false s.schBusy (fun s =>
    let b := fun (i : Nat) => (args.getD i 0).toNat
    let i := b 0 + 256 * b 1
    let o := b 2 + 256 * b 3 + 65536 * b 4 + 2 ^ 24 * b 5
    match s.mram.bbx.faults[i]? with
    | none => s.emit (.hor [6])
    | some f =>
      if 328 ≤ o then s.emit (.hor [6])
      else
        let n := min 240 (328 - o)
        let v := f.cper s.keyId.toNat / 256 ^ o
        s.emit (.hor (0 :: (natBytes (328 - o - n) 2 ++ natBytes v n))))

/-- HOR_LIMITS: warning, throttle, shutdown and trip in 0.0625 °C, then PWR_LIMIT and the 10 ms limit in mW (log 51). -/
def execHorLimits (t : Stamp) (pecOk : Bool) (args : List Byte) (s : State) : Res :=
  answer t s fun s => s.horeno pecOk args 0 false s.pwrBusy (fun s =>
    let th := (List.range 4).flatMap (fun k => natBytes (16 * s.fld .THM_THRESH (8 * k) 8) 2)
    s.emit (.hor (0 :: (th ++ natBytes (1000 * s.num .PWR_LIMIT) 4 ++ natBytes (1000 * s.part.limit10) 4))))

/-- HOR_UNKNOWN: a code that Table 12.11 does not give. -/
def execHorUnknown (t : Stamp) (code : Byte) (pecOk : Bool) (args : List Byte) (s : State) : Res :=
  answer t s fun s => s.when (code == 0 || decide (7 < code.toNat)) (fun s =>
    s.horeno pecOk args args.length true false (fun s => s.emit (.hor [1])))

end Sys2Proof.Machine
end

