-- ==== Sys2Proof/Machine/RegRead.lean ====
section
/-! DEFINITION. The address map and register reads (00_scope R14, 12_host R380 to R392): row REGISTER_READ. -/

namespace Sys2Proof.Machine

/-! ### The address map (Tables 12.4 to 12.7, R383) -/

/-- What a 32-bit word of a function's register space is. -/
inductive Place where
  /-- half `h` of element `i` of a register of unit `u`; `latched` in the latched counter view (R497) -/
  | reg (r : Reg) (u i h : Nat) (latched : Bool)
  | msix (vector word : Nat)
  | pba (word : Nat)
  | pool (off : Nat) (add : Bool)
  | evtRec (off : Nat)
  | doorbell (h : Nat)
  | zero
deriving DecidableEq, Repr

/-- A word at an offset of a block, as a register of unit `u`. -/
def placeIn (b : RegBlock) (u off : Nat) (latched : Bool := false) : Place :=
  match RegBlock.find b off with
  | none => .zero
  | some (r, i, o) => .reg r u i (o / 4) latched

/-- The HIF registers that every function has (Table 12.8). -/
def hifAll (r : Reg) : Bool :=
  !(r == .HIF_EMU_DROPS || r == .HIF_WIN0_SEL || r == .HIF_WIN1_SEL || r == .HIF_WIN_STATUS || r == .HIF_FN_SEL ||
    r == .HIF_FN_QP_FIRST || r == .HIF_FN_QP_COUNT || r == .HIF_FN_SESSIONS || r == .HIF_FN_CTRL || r == .HIF_FN_OPEN)

/-- The registers of the copy blocks of a virtual function, and of its SYN block (R70, R213, R246, R300, R326, R364). -/
def vfHas (r : Reg) : Bool :=
  match r with
  | .TDE_STATUS | .TDE_PERIOD_ACT | .TDE_LEAD_ACT | .TDE_SEAL_LEAD | .TDE_TIDE | .TDE_TIME | .TDE_EDGE_TIME
  | .WGT_SLOT_STATE | .WGT_GEN | .WGT_MODEL_ID_0 | .WGT_MODEL_ID_1 | .WGT_SWITCH_TIDE
  | .KVC_STATUS | .KVC_PAGE_BYTES | .KVC_BUDGET_EFF | .BPL_SLOT_STATE | .BPL_SWITCH_TIDE | .BPL_PLACE_EPOCH
  | .FAB_STATUS | .FAB_ADDR | .FAB_DIMS | .SYN_CAPS | .SYN_SHARE_BASE | .SYN_SHARE_COUNT => true
  | _ => false

/-- A word of a virtual function's block, where the function has it. -/
def Place.onlyIf (p : Place) (f : Reg → Bool) : Place :=
  match p with
  | .reg r _ _ _ _ => if f r then p else .zero
  | _ => p

/-- The unit of a window's selection is on an absent compute stack (R7, R391). -/
def State.unitAbsent (s : State) (cls u : Nat) : Bool :=
  if cls == 1 then decide (s.part.pans ≤ u) else if cls == 7 then decide (s.part.physCores ≤ u)
  else if cls == 6 then false else decide (s.part.cores ≤ u)

/-- A word of an indirect window (R391, Table 12.7, R322). -/
def State.window (s : State) (sel off : Nat) : Place :=
  let c := sel % 256
  let u := sel / 256 % 65536
  if !selOk sel || s.unitAbsent c u then .zero
  else match c with
    | 1 => placeIn .pan u off
    | 2 => placeIn .cor u off
    | 3 => placeIn .slc u off
    | 4 => placeIn .cre u off
    | 5 => if off / 64 < 48 then placeIn .synDbg (65536 + u * 64 + off / 64) (off % 64) else .zero
    | 6 => if off / 64 < 64 then placeIn .synDbg (u * 64 + off / 64) (off % 64) else .zero
    | _ => placeIn .phys u off

/-- BAR0 of the physical function (Table 12.4). -/
def State.pfBar0 (s : State) (off : Nat) : Place :=
  if off < 0x1000 then placeIn .hif 0 off
  else if off < 0x2000 then placeIn .tde 0 (off - 0x1000)
  else if off < 0x3000 then placeIn .aon 0 (off - 0x2000)
  else if off < 0x4000 then placeIn .syn 0 (off - 0x3000)
  else if off < 0x5000 then (if off < 0x4008 then .doorbell ((off - 0x4000) / 4) else .zero)
  else if off < 0x6000 then placeIn .evt 0 (off - 0x5000)
  else if 0x10000 ≤ off && off < 0x18000 then .msix ((off - 0x10000) / 16) ((off - 0x10000) % 16 / 4)
  else if 0x18000 ≤ off && off < 0x18100 then .pba ((off - 0x18000) / 4)
  else if 0x100000 ≤ off && off < 0x110000 then s.window (s.num .HIF_WIN0_SEL) (off - 0x100000)
  else if 0x110000 ≤ off && off < 0x120000 then s.window (s.num .HIF_WIN1_SEL) (off - 0x110000)
  else if 0x400000 ≤ off && off < 0x600000 then .evtRec (off - 0x400000)
  else if 0x800000 ≤ off && off < 0x880000 then .pool (off - 0x800000) false
  else if 0x880000 ≤ off && off < 0x900000 then .pool (off - 0x880000) true
  else .zero

/-- BAR0 of a virtual function (Table 12.5). -/
def vfBar0 (fn off : Nat) : Place :=
  if off < 0x1000 then (placeIn .hif fn off).onlyIf hifAll
  else if off < 0x2000 then (placeIn .tde 0 (off - 0x1000)).onlyIf vfHas
  else if off < 0x3000 then (placeIn .syn fn (off - 0x2000)).onlyIf vfHas
  else if off < 0x4000 then (if off < 0x3008 then .doorbell ((off - 0x3000) / 4) else .zero)
  else if off < 0x5000 then .msix ((off - 0x4000) / 16) ((off - 0x4000) % 16 / 4)
  else if off < 0x5020 then .pba ((off - 0x5000) / 4)
  else if 0x8000 ≤ off && off < 0xC000 then .pool (off - 0x8000) false
  else if 0xC000 ≤ off && off < 0x10000 then .pool (off - 0xC000) true
  else .zero

/-- The block at an offset of the physical function's BAR2 (Table 12.6). -/
def bar2Block (off : Nat) : Option RegBlock :=
  match off / 0x10000 with
  | 1 => some .wgt | 2 => some .kvc | 3 => some .srv | 4 => some .bpl | 5 => some .fab | 6 => some .sec | 7 => some .fwp
  | 8 => some .hlt | 9 => some .pwr | 10 => some .thm | 11 => some .hka | 12 => some .bbx | 13 => some .cnt
  | _ => none

/-- The block at an offset of a virtual function's BAR2 (R383). -/
def vfBlock (off : Nat) : Option RegBlock :=
  match off / 0x1000 with
  | 0 => some .srv | 1 => some .wgt | 2 => some .kvc | 3 => some .bpl | 4 => some .fab | 8 => some .cntT
  | _ => none

/-- A word of the physical function's CNT block: running view, latched view, function selection, own tenant counters
(R497, R500). -/
def cntPlace (off : Nat) : Place :=
  if off < 0x1000 then placeIn .cnt 0 off
  else if off < 0x2000 then placeIn .cnt 65536 (off - 0x1000) true
  else if off < 0x3000 then placeIn .cnt 0 off
  else placeIn .cntT 0 (off - 0x3000)

/-- BAR2 of the physical function. -/
def pfBar2 (off : Nat) : Place :=
  match bar2Block off with
  | none => .zero
  | some .cnt => cntPlace (off % 0x10000)
  | some b => placeIn b 0 (off % 0x10000)

/-- BAR2 of a virtual function. -/
def vfBar2 (fn off : Nat) : Place :=
  match vfBlock off with
  | none => .zero
  | some .srv => placeIn .srv fn (off % 0x1000)
  | some .cntT => if off % 0x1000 < 0x800 then placeIn .cntT fn (off % 0x1000) else placeIn .cntT (fn + 65536) (off % 0x1000 - 0x800) true
  | some b => (placeIn b 0 (off % 0x1000)).onlyIf vfHas

/-- The SRV admin registers and the HLT registers that the security processor serves in SAFE (R413, R450). -/
def safeHas (r : Reg) : Bool :=
  match r.info.block with
  | .sec | .fwp | .bbx | .cnt | .cntT => true
  | .srv => r == .SRV_ADMQ_SQ_BASE || r == .SRV_ADMQ_CQ_BASE || r == .SRV_ADMQ_CTRL
  | .hlt => r == .HLT_HBM_FAIL || r == .HLT_LINK_FAIL || r == .HLT_CLUSTER_STATE || r == .HLT_LIST_SEL || r == .HLT_LIST_ENTRY ||
    r == .HLT_CPER_SEL || r == .HLT_CPER_LEN || r == .HLT_CPER_DATA
  | _ => false

/-- In STARTING, the registers of the processors that have not run yet read zero (R399). -/
def State.startHas (s : State) (r : Reg) : Bool :=
  match r.info.block with
  | .sec | .fwp => true
  | .srv => s.boot.schRan || r == .SRV_ADMQ_SQ_BASE || r == .SRV_ADMQ_CQ_BASE || r == .SRV_ADMQ_CTRL
  | .pwr | .thm | .hka => s.boot.pwrRan
  | _ => s.boot.schRan

/-- Registers that belong to absent units read zero and ignore writes (R7, R213, R362, R364). -/
def State.regAbsent (s : State) (r : Reg) : Bool :=
  let recv := r == .WGT_RECV_MODEL_ID || r == .WGT_RECV_GEN || r == .WGT_RECV_WAIT || r == .WGT_HOLD_MS || r == .WGT_HOLD_BYTES || r == .WGT_SHARD_SERVED
  let link := r == .FAB_LINK_STATE || r == .FAB_LINK_PEER || r == .FAB_LINK_DELAY || r == .FAB_LINK_CTRL || r == .FAB_LINK_FEC_CORR ||
    r == .FAB_LINK_FEC_UNCORR || r == .FAB_LINK_CRC_ERR || r == .FAB_LINK_REPLAYS || r == .FAB_LINK_RETRAINS || r == .FAB_LINK_INDET || r == .FAB_LINK_PEER_KEY
  (s.part == .jn8s && (recv || r.info.block == .fab)) || (link && !s.linkFitted s.selLink)

/-- What a 32-bit word at an offset of a function's BAR is, in the present state. -/
def State.place (s : State) (fn bar off : Nat) : Place :=
  let p := if bar == 0 then (if fn == 0 then s.pfBar0 off else vfBar0 fn off)
    else if bar == 2 then (if fn == 0 then pfBar2 off else vfBar2 fn off)
    else .zero
  match p with
  | .reg r _ _ _ _ =>
    if s.regAbsent r then .zero
    else if bar == 2 && s.safe && !safeHas r then .zero
    else if bar == 2 && s.starting && !s.startHas r then .zero
    else p
  | _ => p

/-! ### Emulation (R387 to R390) -/

/-- The firmware processor behind a name. -/
def procOf : HouseProc → Proc
  | .sec => .security | .pwr => .power | .sch => .scheduler

/-- The processor that emulates a word of BAR2; the security processor in SAFE and before the others run (R399, R413). -/
def State.emulator (s : State) (fn off : Nat) : HouseProc :=
  if s.safe then .sec
  else if fn != 0 then .sch
  else match bar2Block off with
    | some .sec | some .fwp => .sec
    | some .pwr | some .thm | some .hka => .pwr
    | some .srv => if s.starting && !s.boot.schRan then .sec else .sch
    | _ => .sch

/-- The bit of a processor in HIF_EMU_STATUS (Table 12.10). -/
def procBit : HouseProc → Nat
  | .sec => 0 | .pwr => 1 | .sch => 2

/-- An access to BAR2 finds its processor restarting. -/
def State.emuBusy (s : State) (fn bar off : Nat) : Bool := bar == 2 && s.restarting (procOf (s.emulator fn off))

/-! ### Reading (R385) -/

/-- Registers that are one for the device though every function has them. -/
def oneForAll (r : Reg) : Bool :=
  r == .HIF_ID || r == .HIF_CAPS || r == .HIF_PRESENCE || r == .HIF_DEV_STATE || r == .HIF_LINK_STATUS || r == .SRV_CAPS || r == .SYN_CAPS

/-- A register's value as a read shows it. -/
def State.readReg (s : State) (r : Reg) (u i : Nat) (latched : Bool) : Nat :=
  if latched then (if r == .CNT_T_FUNCTION then u % 256 else s.num r u i)
  else s.view r (if oneForAll r then 0 else u) i

/-- A word of an MSI-X entry (PCI Express). -/
def State.msixWord (s : State) (fn v w : Nat) : Nat :=
  let e := s.msixEntry fn v
  match w with
  | 0 => e.addr.toNat % 2 ^ 32 | 1 => e.addr.toNat / 2 ^ 32 | 2 => e.data.toNat | _ => bit01 e.mask

/-- A 32-bit word as it stands. -/
def State.peek (s : State) (fn : Nat) (p : Place) : Nat :=
  match p with
  | .reg r u i h l => s.readReg r u i l / 2 ^ (32 * h) % 2 ^ 32
  | .msix v w => s.msixWord fn v w
  | .pba w => ((List.range 32).map (fun k => bit01 (s.msixEntry fn (32 * w + k)).pending * 2 ^ k)).sum
  | .evtRec o => match s.evt.recs[o / 32]? with | none => 0 | some e => e.bytes / 2 ^ (8 * (o % 32)) % 2 ^ 32
  | .pool .. | .doorbell _ | .zero => 0

/-- The block of a function's space whose latches an offset uses (R385). -/
def latchBlock (fn bar off : Nat) : Nat := bar * 2 ^ 20 + (if bar == 2 && fn == 0 then off / 0x10000 else if 0x100000 ≤ off then off / 0x10000 * 16 else off / 0x1000)

/-- An entry of a latch list is that of a function's block. -/
def sameBlock (fn bar off : Nat) (e : Nat × Nat × W32) : Bool :=
  e.1 == fn && latchBlock fn (e.2.1 / 2 ^ 32) (e.2.1 % 2 ^ 32) == latchBlock fn bar off

/-- An access that R384 or R385 does not serve (HIF_BAD_ACCESS). -/
def State.badAccess (s : State) (fn : Nat) : State := (s.bump .HIF_BAD_ACCESS 1 fn).raise .HIF_INT_STATUS .HIF_INT_ENABLE 8 fn

/-- A 32-bit read of BAR0 or BAR2, with the read latch for the halves of 64-bit registers (R385). -/
def State.read32 (s : State) (fn bar off : Nat) : State × W64 :=
  let p := s.place fn bar off
  let v := BitVec.ofNat 64 (s.peek fn p)
  match p with
  | .reg r u i h l =>
    if r.info.size != 8 then (s, v)
    else if h == 0 then
      let up := BitVec.ofNat 32 (s.readReg r u i l / 2 ^ 32)
      ({ s with hif.rdLatch := (fn, bar * 2 ^ 32 + off, up) :: s.hif.rdLatch.filter (fun e => !sameBlock fn bar off e) }, v)
    else match s.hif.rdLatch.find? (fun e => e.1 == fn && e.2.1 + 4 == bar * 2 ^ 32 + off) with
      | none => (s, v)
      | some e => ({ s with hif.rdLatch := s.hif.rdLatch.filter (fun x => !sameBlock fn bar off x) }, e.2.2.setWidth 64)
  | _ => (s, v)

/-- A read of BAR0 or BAR2 (R385, R388). -/
def State.barRead (s : State) (fn bar off size : Nat) : State × W64 :=
  if !(size == 4 || size == 8) || off % size != 0 then (s.badAccess fn, 0)
  else if s.emuBusy fn bar off then
    let b := procBit (s.emulator fn off)
    (s.setF .HIF_EMU_STATUS (8 + b) 1 1 fn, if size == 8 then 0xFFFFFFFEFFFFFFFE else 0xFFFFFFFE)
  else if size == 4 then s.read32 fn bar off
  else match s.place fn bar off with
    | .pool o false => match s.poolWord fn o with
      | none => (s, 0)
      | some k => (s.countPool (poolRef k), (s.word (poolRef k)).value)
    | p => (s, BitVec.ofNat 64 (s.peek fn p + s.peek fn (s.place fn bar (off + 4)) * 2 ^ 32))

/-- A read by a function (R384, R385): BAR4 is the ring area. -/
def State.hostRead (s : State) (fn bar off size : Nat) : State × W64 :=
  if bar == 0 || bar == 2 then s.barRead fn bar off size
  else if bar == 4 && fn == 0 then
    if off + size ≤ 0x10000000 then (s, BitVec.ofNat 64 (s.ringRead off (min 8 size))) else (s.badAccess 0, 0)
  else (s, 0)

/-- REGISTER_READ (R14, R384, R385, R388); a function that does not answer completes nothing. -/
def execRegisterRead (t : Stamp) (fn : FnId) (bar : Fin 6) (off size : Nat) (s : State) : Res :=
  answer t s fun s =>
    if s.fnLive fn.val then
      let r := s.hostRead fn.val bar.val off size
      r.1.emit (.read r.2)
    else s.emit .unsupported

end Sys2Proof.Machine
end

