-- ==== Sys2Proof/Machine/Resilience.lean ====
section
/-! DEFINITION. Resilience's rows (14_resilience): GRADE_VERDICT to UNCONTAINED_FAULT, and what an HLT request does. -/

namespace Sys2Proof.Machine

/-! ### Grading (R168 to R171, R429, R430) -/

/-- A forced-refresh claim of rank 2 (Table 3.7, R430). -/
def State.forceRefresh (s : State) (pan : Nat) : State :=
  match (s.pan pan).currentContent s.tierLayers with
  | none => s
  | some c => s.updPan pan (fun x => x.addClaim { rank := 2, what := c })

/-- A graded product that failed: counted, GRADE_FAIL, fault event, steps void, the pan suspect and to be refreshed
(R430). -/
def State.gradeFail (s : State) (pan : Nat) (g : Graded) (e : List Int) : State :=
  let s := (s.bump .HLT_GRADE_FAILS).raise .HLT_INT_STATUS .HLT_INT_ENABLE 1
  let s := match s.physOfPan pan with
    | none => s
    | some p => s.updPhys p (fun x => { x with gradeFails := x.gradeFails + 1 })
  let s := (s.voidAll (s.panScope pan (stepOf g.owner g.first))).suspectPan pan
  (s.forceRefresh pan).panEvent pan 0x01 1 (rhoQ88 e) (epsQ88 e)
    ((g.owner.map (·.val)).getD 0xFFFFFFFF)

/-- GRADE_VERDICT (R168, R169, R171, R429, R430). -/
def execGradeVerdict (t : Stamp) (pan : PanId) (s : State) : Res :=
  answer t s fun s =>
    match (s.pan pan.val).kept with
    | [] => s
    | g :: rest =>
      let e := g.block.gradeErrors g.x g.level g.taken g.spilled g.recs
      let s := s.updPan pan.val (fun x => { x with kept := rest, grades := ((sumSquares e, e.length) :: x.grades).take 64 }) |>.ctx3 (pan.val / 16)
      let s := s.releaseBounce.bump .HLT_GRADED
      let s := match s.physOfPan pan.val with
        | none => s
        | some p => s.updPhys p (fun x => { x with graded := x.graded + 1 })
      if gradePasses e then s else s.gradeFail pan.val g e

/-! ### Sweep tests (R433 to R435) -/

/-- A sweep's rank-5 claim may have the shadow bed of a pan: no claim above it is pending or has the bed, and the bed may
be written (R100, R101, Table 3.5). -/
def Pan.sweepable (p : Pan) : Bool :=
  p.claims.all (fun k => decide (5 ≤ k.rank)) && p.serving.isNone &&
    (p.shadow.state == .empty || p.shadow.state == .written || p.shadow.state == .ready || p.shadow.state == .stale || p.shadow.state == .failed)

/-- The shadow bed of a pan as a sweep takes it; one that is FAILED stays out of use. -/
def Pan.sweepTake (p : Pan) : Pan :=
  if p.shadow.state == .failed then p
  else { p.setShadow { p.shadow with state := .writing, content := .none } with serving := some { rank := 5, what := .none } }

/-- The shadow bed of a pan after a sweep: written, with the sweep's patterns, which are no content. -/
def Pan.sweepGive (p : Pan) : Pan :=
  match p.serving with
  | some c => if c.what == .none then { p.setShadow { p.shadow with state := .written } with serving := none } else p
  | none => p

/-- The sweep may run on the core's pans (R100, R435). -/
def State.bedsFree (s : State) (p : Nat) : Bool :=
  match s.carried p with
  | none => true
  | some c => (pansOf c).all (fun q => (s.pan q).sweepable)

/-- A sweep takes the shadow beds of a logical core; a READY bed given up counts (R101). -/
def State.sweepBeds (s : State) (c : Nat) : State :=
  s.each (pansOf c) (fun q s =>
    let given := (s.pan q).shadow.state == .ready
    (s.updPan q Pan.sweepTake).when given (fun s => s.bump .PAN_WRITE_ABORTS 1 q))

/-- The class in which a core's test runs has its turn there (R260, R435, R436): a due one once no generation step is to
run on the core, or first of all after 64 deferred tides; another once the core is idle. -/
def State.sweepTurn (s : State) (p : Nat) : Bool :=
  let x := s.ph p
  match s.carried p with
  | none => true
  | some c =>
    let k := s.kindsOn c
    let busy := fun (gen : Bool) => s.withSess.any (fun e => e.2.steps.any (fun t => !t.complete && !t.void && e.2.uses k t && (!gen || t.gen)))
    if x.due then decide (64 ≤ x.defer) || !busy true else !busy false

/-- SWEEP_RUN (R44, R100, R101, R260, R433 to R435): in the work phase and in its class, the core and its partner are
occupied, and the sweep takes the shadow beds of the core's pans. -/
def execSweepRun (t : Stamp) (phys : PhysId) (partner : PhysId) (s : State) : Res :=
  answer t s fun s =>
    let ok := s.ready && s.pwrState == 0 && s.workOpen && phys != partner && clusterOfPhys phys.val == clusterOfPhys partner.val &&
      s.physWorks phys.val && s.physWorks partner.val && (s.ph phys.val).testing.isNone && (s.ph partner.val).testing.isNone &&
      (s.ph partner.val).partnerOf.isNone && s.bedsFree phys.val && s.sweepTurn phys.val
    s.when ok (fun s =>
      let s := (s.updPhys phys.val (fun x => { x with testing := some partner })).updPhys partner.val (fun x => { x with partnerOf := some phys })
      let s := match s.carried phys.val with
        | none => s
        | some c => s.sweepBeds c
      s.testCtx phys.val partner.val)

/-- A core's sweep has passed (R435). -/
def State.sweepPassed (s : State) (p : Nat) : State :=
  s.updPhys p (fun x => { x with sweepTide := s.tideIdx, sweepOk := true, due := false, defer := 0 })

/-- A verdict went against a core (R434). -/
def State.sweepMismatch (s : State) : State := (s.bump .HLT_SWEEP_MISMATCH).raise .HLT_INT_STATUS .HLT_INT_ENABLE 8

/-- SWEEP_VERDICT (R434): pass; digital parts against a core, which retires; undecided, repeated in the next tide; a pan
that fails its passes is a fault event, with the responses of Table 14.1. -/
def execSweepVerdict (t : Stamp) (phys : PhysId) (o : SweepOutcome) (s : State) : Res :=
  answer t s fun s =>
    match (s.ph phys.val).testing with
    | none => s
    | some partner =>
      let s := (s.updPhys phys.val (fun x => { x with testing := none })).updPhys partner.val (fun x => { x with partnerOf := none })
      let s := match s.carried phys.val with
        | none => s
        | some c => s.each (pansOf c) (fun q s => s.updPan q Pan.sweepGive)
      let s := s.testCtx phys.val partner.val
      let done := fun (s : State) => (s.bump .HLT_SWEEPS).updPhys phys.val (fun x => { x with sweeps := x.sweeps + 1 })
      match o with
      | .pass => (done s).sweepPassed phys.val
      | .undecided => s.updPhys phys.val (fun x => { x with due := false, defer := 0, asked := some 0 })
      | .digital loser third =>
        let s := (done s).sweepMismatch
        let s := if loser == phys then s.updPhys phys.val (fun x => { x with sweepOk := false }) else s.sweepPassed phys.val
        ((s.faultRec 0x08 (some loser.val) (s.carried loser.val) 0xFF 8 0xFFFF 0xFFFF 0xFFFFFFFF
          (BitVec.ofNat 64 partner.val) (BitVec.ofNat 64 third.val)).lastFault loser.val 0x08).retire loser.val 0x08
      | .panFail pan rho =>
        let s := ((done s).sweepMismatch).updPhys phys.val (fun x => { x with sweepOk := false, due := false, defer := 0 })
        let s := match s.carried phys.val with
          | none => s
          | some c => ((s.voidAll (s.panScope (c * 16 + pan.val) [])).suspectPan (c * 16 + pan.val)).forceRefresh (c * 16 + pan.val)
        (s.faultRec 0x07 (some phys.val) (s.carried phys.val) pan.val 1 rho.toNat).charge phys.val 0x07

/-! ### Configuration and memory (R441 to R443) -/

/-- CONFIG_SCRUB (R442): each word that differs is restored and counted; every step of the tide that used the core is
void; a fault event. -/
def execConfigScrub (t : Stamp) (cluster : ClusterId) (differ : List (PhysId × W64 × W64)) (s : State) : Res :=
  answer t s fun s =>
    s.when (s.ready && !s.restarting (.cluster cluster) && !(s.clusters.get cluster.val).ccpStopped) (fun s =>
      s.each (differ.filter (fun e => clusterOfPhys e.1.val == cluster.val)) (fun e s =>
        let p := e.1.val
        let s := (s.bump .HLT_CFG_MISMATCH).raise .HLT_INT_STATUS .HLT_INT_ENABLE 32
        let s : State := match s.carried p with
          | none => s
          | some c => s.voidAll (s.tideOn c)
        (s.faultRec 0x0A (some p) (s.carried p) 0xFF 1 0xFFFF 0xFFFF 0xFFFFFFFF e.2.1 e.2.2).charge p 0x0A))

/-- The step whose access a core makes: that of its RUNNING context. -/
def State.coreStep (s : State) (p : Nat) : List (Nat × W32) :=
  match s.carried p with
  | none => []
  | some c => ((s.core c).ctxs.filter (fun x => x.state == .running)).filterMap (fun x => match x.owner with
    | none => none
    | some q => match (s.qp q.val).session with
      | none => none
      | some y => y.openFirst.map (fun f => (q.val, f)))

/-- The session in a sequence slot. -/
def State.inSlot (s : State) (slot : Nat) : Option (Nat × Session) := s.withSess.find? (fun e => e.2.slot == slot)

/-- A KV block damaged (Table 14.4): counted, recorded, read as zero. -/
def State.kvDamaged (s : State) (p slot layer : Nat) (isValue : Bool) (head : Nat) (pos : W32) (blk : Nat) : State :=
  let s := s.bump .HLT_KV_DAMAGED
  let d := layer + (if isValue then 256 else 0) + head * 512 + blk * 8192
  let s := s.faultRec 0x0C (some p) (s.carried p) 0xFF 0 0xFFFF 0xFFFF slot (BitVec.ofNat 64 pos.toNat) (BitVec.ofNat 64 d)
  match s.inSlot slot with
  | none => s
  | some (_, x) => match s.model with
    | none => s
    | some m => s.zeroBlock m x layer isValue head pos blk

/-- MEMORY_ERROR (R443, Table 14.4). -/
def execMemoryError (t : Stamp) (phys : PhysId) (wh : MemWhere) (corrected : Bool) (s : State) : Res :=
  answer t s fun s => s.when (s.powered && decide (phys.val < s.part.physCores)) (fun s =>
    let p := phys.val
    if corrected then (s.bump .HLT_MEM_CE).updPhys p (fun x => { x with ce := x.ce + 1 })
    else
      let s := ((s.bump .HLT_MEM_UE).updPhys p (fun x => { x with ue := x.ue + 1 })).raise .HLT_INT_STATUS .HLT_INT_ENABLE 64
      let local_ := fun (s : State) (d : Nat) =>
        ((s.voidAll (s.coreStep p)).faultRec 0x0B (some p) (s.carried p) 0xFF 1 0xFFFF 0xFFFF 0xFFFFFFFF (BitVec.ofNat 64 d) 0).charge p 0x0B
      match wh with
      | .coreSram => local_ s 0
      | .sluiceStore => local_ s 1
      | .localSync => local_ s 2
      | .kvGroup sl l v h pos b => s.kvDamaged p sl.val l v h pos b.val
      | .hbmData _ => s.voidAll (s.coreStep p)
      | .hbmMaster k => s.uncontained 0x10 none 0 k.val
      | .hbmReserve k => s.uncontained 0x10 none 0 k.val
      | .hbmRing k => s.uncontained 0x10 none 0 k.val
      | .poolStore => s.uncontained 0x12 none 0
      | .houseSram => s.uncontained 0x12 none 0)

/-- UNCONTAINED_FAULT (R444, Table 14.5). -/
def execUncontainedFault (t : Stamp) (k : Uncontained) (s : State) : Res :=
  answer t s fun s => s.when (s.ready || s.starting) (fun s =>
    match k with
    | .stackDown x => (s.setF .HLT_HBM_FAIL x.val 1 1).uncontained 0x10 none 0 x.val
    | .ingress => s.uncontained 0x12 none 0
    | .poolStore => s.uncontained 0x12 none 0
    | .router c => ({ s.setF .FWP_ST_CLUSTER_FAIL 9 1 1 0 c.val with clusters := s.clusters.upd c.val (fun x => { x with unitFailed := true }) } : State).uncontained
        0xFF (some (c.val * 64)) 0
    | .reduction c => ({ s.setF .FWP_ST_CLUSTER_FAIL 8 1 1 0 c.val with clusters := s.clusters.upd c.val (fun x => { x with unitFailed := true }) } : State).uncontained
        0xFF (some (c.val * 64)) 0)

/-! ### Requests (R445) -/

/-- The code a request is answered with (R445, Table 14.10). -/
def State.hltCode (s : State) (kind unit sel : Nat) : Nat :=
  if kind == 3 then 0x41
  else if kind == 2 then (if sel < s.mram.retired.length then 0 else 0x41)
  else if !s.physWorks unit then 0x41
  else if (s.ph unit).testing.isSome || (s.ph unit).asked.isSome then 0x42
  else 0

/-- HLT_CTRL.REQ acts (R440, R445): answered, REQ clear, REQ_DONE; a sweep or retirement waits for the next edge. A
retirement that finds the list full holds, and is answered with ST_HLT_LIST_FULL (DEDUCED, log 100). -/
def State.hltRequest (s : State) : State :=
  let kind := s.fld .HLT_CTRL 2 2
  let unit := s.fld .HLT_REQ_UNIT 0 13
  let sel := s.fld .HLT_LIST_SEL 0 10
  let code := s.hltCode kind unit sel
  let answer := if code == 0 && kind == 1 && decide (1024 ≤ s.mram.retired.length) then 0x43 else code
  let s := if code != 0 then s
    else if kind == 2 then { s with mram.retired := s.mram.retired.eraseIdx sel }
    else s.updPhys unit (fun x => { x with asked := some kind })
  ((s.setNum .HLT_REQ_STATUS answer).setF .HLT_CTRL 1 1 0).raise .HLT_INT_STATUS .HLT_INT_ENABLE 128

end Sys2Proof.Machine
end

