-- ==== Sys2Proof/Machine/RegWrite.lean ====
section
/-! DEFINITION. Register writes (00_scope R14, R15, R527, 12_host R374, R384 to R389): what a write of each register
does, and the write path of a function: row REGISTER_WRITE. -/

namespace Sys2Proof.Machine

/-! ### Fields and ranges (Table 0.5, R527) -/

/-- The bits of a register that are not RSV; those not named here have no RSV bit. -/
def regMask (r : Reg) : Nat :=
  match r with
  | .TDE_PERIOD_STAGE | .TDE_LEAD_STAGE | .FAB_LINK_SEL => 0x3F
  | .TDE_INT_STATUS | .TDE_INT_ENABLE | .WGT_INT_STATUS | .WGT_INT_ENABLE => 0xFF
  | .KVC_INT_STATUS | .KVC_INT_ENABLE | .FWP_INT_STATUS | .FWP_INT_ENABLE | .THM_INT_STATUS | .THM_INT_ENABLE => 0x3F
  | .SRV_INT_STATUS | .SRV_INT_ENABLE | .SEC_INT_STATUS | .SEC_INT_ENABLE => 0xF
  | .BPL_INT_STATUS | .BPL_INT_ENABLE | .HIF_INT_STATUS | .HIF_INT_ENABLE => 0x7F
  | .SYN_INT_STATUS | .SYN_INT_ENABLE | .HKA_INT_STATUS | .HKA_INT_ENABLE | .BBX_INT_STATUS | .BBX_INT_ENABLE
  | .EVT_INT_STATUS | .EVT_INT_ENABLE => 0x7
  | .FAB_INT_STATUS | .FAB_INT_ENABLE | .HLT_INT_STATUS | .HLT_INT_ENABLE => 0x1FF
  | .PWR_INT_STATUS | .PWR_INT_ENABLE => 0x1F
  | .WGT_PIN_TIMEOUT | .WGT_RECV_GEN | .SYN_ALLOC_BASE | .SYN_STALL_TIDES | .FAB_RETRY_TIDES | .HLT_SWEEP_PERIOD | .PWR_IDLE_TIDES => 0xFFFF
  | .FAB_DIMS => 0x1FFFF
  | .KVC_PT_SEL => 0x3FFFFF7F
  | .SRV_QP_SEL => 0xFFFFF
  | .BPL_PL_SEL | .HLT_REQ_UNIT => 0x1FFF
  | .SYN_ALLOC_SEL | .HIF_FN_SEL | .CNT_FN_SEL | .HLT_GRADE_SAMPLES | .HLT_SUSPECT_SAMPLES => 0x7F
  | .HIF_COAL | .CNT_LAYER_SEL => 0xFFF
  | .HIF_WIN0_SEL | .HIF_WIN1_SEL => 0xFFFFFF
  | .SEC_MEAS_SEL | .HLT_VOID_LIMIT => 0xFF
  | .HLT_LIST_SEL | .HLT_CPER_SEL => 0x3FF
  | .HKA_COEF => 0xFFFFFFF
  | .AON_CMP => 0xFFFFF
  | _ => 2 ^ (8 * r.info.size) - 1

/-- Every field of the value lies in its range (R527). -/
def regInRange (r : Reg) (v : Nat) : Bool :=
  let within := fun (lo hi : Nat) => decide (lo ≤ v) && decide (v ≤ hi)
  match r with
  | .WGT_SHARD_TIMEOUT => within 100 60000
  | .WGT_RETRY_WAIT => within 10 1000
  | .WGT_HOLD_MS => within 0 600000
  | .KVC_PT_SEL => decide (v % 128 < 96)
  | .SYN_ALLOC_SEL | .HIF_FN_SEL | .CNT_FN_SEL => within 0 64
  | .SYN_STALL_TIDES | .FAB_RETRY_TIDES | .PWR_IDLE_TIDES => within 1 65535
  | .FAB_OP_TIMEOUT => within 100 100000
  | .FAB_LINK_SEL => within 0 35
  | .HIF_COAL => v % 256 != 0 && v / 256 != 0
  | .SEC_CERT_OFF => v % 4096 == 0
  | .SEC_MEAS_SEL => within 1 12
  | .HLT_GRADE_SAMPLES => within 1 64
  | .HLT_SUSPECT_SAMPLES => within 0 64
  | .HLT_SWEEP_PERIOD => within 64 65535
  | .HLT_VOID_LIMIT => within 1 255
  | .BBX_READ_OFF => v % 4096 == 0 && decide (v ≤ 0x37F000)
  | .EVT_WFG_LEN => v % 32 == 0
  | _ => true

/-- A plain RW register written: RSV bits dropped, out of range ignored. -/
def State.writeRw (s : State) (r : Reg) (u i v : Nat) : State :=
  let v := v &&& regMask r
  if regInRange r v then s.setNum r v u i else s

/-- The RW fields of a control register written, its other bits kept: fields as (low bit, width). -/
def State.writeFields (s : State) (r : Reg) (u : Nat) (l : List (Nat × Nat)) (v : Nat) : State :=
  s.each l (fun f s => s.setF r f.1 f.2 (v / 2 ^ f.1 % 2 ^ f.2) u)

/-- Bit `b` of a written value. -/
def bitOf (v b : Nat) : Bool := v / 2 ^ b % 2 == 1

/-! ### Control registers -/

/-- TDE_CTRL (Table 2.3): on a CNK-JN8-768S a write of FABRIC is ignored as a whole (R60, R527). -/
def State.tdeCtrl (s : State) (v : Nat) : State :=
  if v % 4 == 2 && s.part == .jn8s then s
  else (s.setF .TDE_CTRL 0 2 (v % 4)).when (bitOf v 2) (fun s => s.setF .TDE_CTRL 2 1 1)

/-- PAN_CTRL (Table 3.11). -/
def State.panCtrl (s : State) (u v : Nat) : State :=
  (s.when (bitOf v 0) (fun s => s.refreshReq u)).when (bitOf v 1) (fun s => s.rakeReq u)

/-- COR_CAPTURE_CTRL (Table 4.7, R139): ARM clears DONE and TRUNC. -/
def State.captureCtrl (s : State) (u v : Nat) : State :=
  (s.setF .COR_CAPTURE_CTRL 4 4 (v / 16 % 16) u).when (bitOf v 0) (fun s => s.setF .COR_CAPTURE_CTRL 0 3 1 u)

/-- WGT_LOAD_CTRL (Table 6.13). The start of a load is a waking event (R461). -/
def State.wgtCtrl (s : State) (v : Nat) : State :=
  let s := s.writeFields .WGT_LOAD_CTRL 0 [(2, 2), (4, 1), (5, 1), (8, 1), (16, 12)] v
  let s := s.when (bitOf v 0) (fun s =>
    let s' := (s.setF .WGT_LOAD_CTRL 0 1 1).loadStart
    if s.wgt.load.isNone && s'.wgt.load.isSome then s'.exitPower else s')
  let s := s.when (bitOf v 1) (fun s => s.loadAbort)
  let s := s.when (bitOf v 6) (fun s => s.restage)
  let s := s.when (bitOf v 7) (fun s => s.wgtRelease)
  s.when (bitOf v 9) (fun s => s.adapterUnload)

/-- WGT_TRUST_CTRL (Table 6.17). -/
def State.trustCtrl (s : State) (v : Nat) : State :=
  let s := s.setF .WGT_TRUST_CTRL 0 4 (v % 16)
  let s := s.when (bitOf v 5) (fun s => s.trustSet (some s.trustDigest))
  s.when (bitOf v 6) (fun s => s.trustSet none)

/-- BPL_CTRL (Table 9.14). The start of a load is a waking event (R461). -/
def State.bplCtrl (s : State) (v : Nat) : State :=
  let s := s.writeFields .BPL_CTRL 0 [(2, 1), (4, 1)] v
  let s := s.when (bitOf v 0) (fun s =>
    let s' := (s.setF .BPL_CTRL 0 1 1).planStart
    if s.plans.loading.isNone && s'.plans.loading.isSome then s'.exitPower else s')
  let s := s.when (bitOf v 1) (fun s => s.planAbort)
  let s := s.when (bitOf v 3) (fun s => s.planRelease)
  s.when (bitOf v 5) (fun s => (s.setF .BPL_CTRL 5 1 1).planDump)

/-- SYN_ALLOC_CTRL (Table 10.12). -/
def State.allocCtrl (s : State) (v : Nat) : State :=
  let s := s.writeFields .SYN_ALLOC_CTRL 0 [(0, 17), (17, 1)] (if s.part == .jn8s then v % 2 ^ 17 else v)
  s.when (bitOf v 18) (fun s => s.shareApply)

/-- Links that are not DOWN. -/
def State.openLinks (s : State) : List Nat := (s.fab.links.filter (fun e => e.2.st != .down)).map (·.1)

/-- FAB_CTRL (Table 11.12): clearing ENABLE takes every link DOWN (R341); MAP_LOAD acts in mapped mode (R344). -/
def State.fabCtrl (s : State) (v : Nat) : State :=
  let s := s.writeFields .FAB_CTRL 0 [(0, 1), (1, 1), (3, 1)] v
  let s := s.when (!s.fabOn) (fun s => s.each s.openLinks (fun n s => s.linkDown n))
  let s := s.when (bitOf v 2 && s.mapped) (fun s => s.setF .FAB_CTRL 2 1 1)
  s.rootSelf.fabStatus

/-- FAB_LINK_CTRL of the selected link (R336, R337, Table 11.11). -/
def State.linkCtrl (s : State) (v : Nat) : State :=
  let n := s.selLink
  let s := s.updLink n (fun l => { l with disabled := bitOf v 2 })
  let s := s.when (bitOf v 0 && (s.link n).st == .up) (fun s => s.enterRetrain n)
  let s := s.when (bitOf v 1 && (s.link n).st == .held) (fun s => s.linkDown n)
  s.when (bitOf v 2 && (s.link n).st != .down) (fun s => s.linkDown n)

/-- The staged shares of a function, or those in effect. -/
def State.stagedShare (s : State) (fn : Nat) : Share :=
  match s.stages.find? (fun e => e.fn == fn) with | none => s.share fn | some e => e.share
/-- A staged share changed. -/
def State.stageShare (s : State) (f : Share → Share) : State :=
  let fn := s.fld .HIF_FN_SEL 0 7
  { s with stages := ⟨fn, f (s.stagedShare fn)⟩ :: s.stages.filter (fun e => e.fn != fn) }

/-- A change of shares is refused (R374, Table 12.3). -/
def State.fnRefused (s : State) (fn : Nat) (x : Share) : Bool :=
  let old := s.share fn
  let moves := x.qpFirst != old.qpFirst || x.qpCount != old.qpCount
  let others := (List.range 65).filter (fun g => g != fn)
  let busy := s.qps.cells.any (fun e => e.2.state != .free && decide (old.qpFirst ≤ e.1) && decide (e.1 < old.qpFirst + old.qpCount))
  (moves && (busy || s.bit .SRV_ADMQ_CTRL 10 fn)) || (moves && fn != 0 && s.hif.numVfs != 0) ||
  x.qpCount == 0 || decide (2 ^ 20 < x.qpFirst + x.qpCount) || decide (96 < x.sessMax) || decide (96 < x.sessRes) ||
  others.any (fun g => runsOverlap x.qpFirst x.qpCount (s.share g).qpFirst (s.share g).qpCount) ||
  decide (96 < x.sessRes + (others.map (fun g => (s.share g).sessRes)).sum)

/-- HIF_FN_CTRL.APPLY (R374). -/
def State.fnApply (s : State) : State :=
  let fn := s.fld .HIF_FN_SEL 0 7
  let x := s.stagedShare fn
  if s.fnRefused fn x then s.raise .HIF_INT_STATUS .HIF_INT_ENABLE 32
  else (({ s with stages := s.stages.filter (fun e => e.fn != fn) } : State).setShare fn
    { s.share fn with qpFirst := x.qpFirst, qpCount := x.qpCount, sessMax := x.sessMax, sessRes := x.sessRes }).raise .HIF_INT_STATUS .HIF_INT_ENABLE 16

/-- FWP_CTRL (Table 13.11, R405, R406, R411, R423). -/
def State.fwpCtrl (s : State) (v : Nat) : State :=
  let s := s.writeFields .FWP_CTRL 0 [(3, 2), (5, 6)] v
  let s := s.when (bitOf v 0) (fun s => s.fwpLoad)
  let s := s.when (bitOf v 1) (fun s => s.commitSvn)
  s.when (bitOf v 2) (fun s => s.restartRequest)

/-- HLT_CTRL (Table 14.12, R445). -/
def State.hltCtrl (s : State) (v : Nat) : State :=
  (s.writeFields .HLT_CTRL 0 [(0, 1), (2, 2)] v).when (bitOf v 1) (fun s => s.hltRequest)

/-- PWR_CTRL (Table 15.11, R460). -/
def State.pwrCtrl (s : State) (v : Nat) : State :=
  (s.writeFields .PWR_CTRL 0 [(0, 2), (3, 1)] v).when (bitOf v 2) (fun s => s.powerRequest)

/-- HKA_CTRL (R477, R478). -/
def State.hkaCtrl (s : State) (v : Nat) : State :=
  (s.when (bitOf v 0) (fun s => s.startCal 0)).when (bitOf v 1) (fun s => s.startCal 1)

/-- AON_WAKE_EN (Table 15.14): bit 4 always 1; bits 0, 1, 2 and 7 ignored. -/
def State.wakeEn (s : State) (v : Nat) : State := s.setNum .AON_WAKE_EN ((v &&& 0x168) + 0x10)

/-- AON_CMP (Table 15.5): a FIXED comparator ignores writes. -/
def State.cmpWrite (s : State) (i v : Nat) : State := s.when (!s.bit .AON_CMP 31 0 i) (fun s => s.writeRw .AON_CMP 0 i v)

/-- BBX_CTRL (R492, R494). -/
def State.bbxCtrl (s : State) (v : Nat) : State :=
  (s.when (bitOf v 0) (fun s => s.bbxClear)).when (bitOf v 1) (fun s => s.bbxSnap)

/-- EVT_CTRL (R488, R501). -/
def State.evtCtrl (s : State) (v : Nat) : State :=
  ((s.evtFreeze (bitOf v 0)).when (bitOf v 1) (fun s => s.evtClear)).when (bitOf v 2) (fun s => s.wfgReq)

/-! ### One register written -/

/-- A register of the first blocks written with `v`; none where another rule holds. -/
def State.writeOwn (s : State) (fn : Nat) (r : Reg) (u i v : Nat) : Option State :=
  match r with
  | .TDE_CTRL => some (s.tdeCtrl v)
  | .PAN_CTRL => some (s.panCtrl u v)
  | .COR_CAPTURE_CTRL => some (s.captureCtrl u v)
  | .WGT_LOAD_CTRL => some (s.wgtCtrl v)
  | .WGT_HOST_TIER_ADDR => some (s.setNum .WGT_HOST_TIER_ADDR v).tierWritten
  | .WGT_HOLD_BYTES => some (s.when (s.wgt.serving.isNone && s.receiving.isNone) (fun s => s.setNum .WGT_HOLD_BYTES v))
  | .WGT_ADAPTER_REGION => some (s.when (s.wgt.adapters.isEmpty && (s.wgt.load.bind (·.adapter)).isNone) (fun s => s.setNum .WGT_ADAPTER_REGION v))
  | .WGT_TRUST_CTRL => some (s.trustCtrl v)
  | .WGT_TRUST_DIGEST => some (s.when (s.fld .WGT_LOAD_STATUS 0 4 != 1) (fun s => s.setNum .WGT_TRUST_DIGEST v 0 i))
  | .KVC_RESERVE_BYTES => some (s.kvcReserve (BitVec.ofNat 64 v))
  | .SRV_ADMQ_CTRL => some (s.admqWrite u (BitVec.ofNat 32 v))
  | .BPL_CTRL => some (s.bplCtrl v)
  | .SYN_ALLOC_CTRL => some (s.allocCtrl v)
  | .FAB_CTRL => some (s.fabCtrl v)
  | .FAB_DIMS | .FAB_SYSTEM_ID => some (s.when (s.isRoot && !s.mapped) (fun s => s.writeRw r u i v))
  | .FAB_LINK_CTRL => some (s.linkCtrl v)
  | .HIF_EMU_STATUS => some (s.setNum .HIF_EMU_STATUS (s.num .HIF_EMU_STATUS fn - (s.num .HIF_EMU_STATUS fn &&& v &&& 0x700)) fn)
  | .HIF_FN_QP_FIRST => some (s.stageShare (fun x => { x with qpFirst := v % 2 ^ 20 }))
  | .HIF_FN_QP_COUNT => some (s.stageShare (fun x => { x with qpCount := v % 2 ^ 21 }))
  | .HIF_FN_SESSIONS => some (s.stageShare (fun x => { x with sessMax := v % 128, sessRes := v / 256 % 128 }))
  | .HIF_FN_CTRL => some (s.when (bitOf v 0) (fun s => s.fnApply))
  | _ => none

/-- A register of the other blocks written with `v`. -/
def State.writeOther (s : State) (r : Reg) (i v : Nat) : Option State :=
  match r with
  | .FWP_CTRL => some (s.fwpCtrl v)
  | .HLT_CTRL => some (s.hltCtrl v)
  | .PWR_CTRL => some (s.pwrCtrl v)
  | .PWR_VCORE_TARGET => some (s.vcoreTarget v)
  | .PWR_LIMIT => some (s.pwrLimit v)
  | .HKA_CTRL => some (s.hkaCtrl v)
  | .AON_CTRL => some (s.when (bitOf v 0) (fun s => s.clearLatches))
  | .AON_WAKE_EN => some (s.wakeEn v)
  | .AON_CMP => some (s.cmpWrite i v)
  | .BBX_CTRL => some (s.bbxCtrl v)
  | .EVT_CTRL => some (s.evtCtrl v)
  | _ => none

/-- A register of unit `u` written whole by function `fn` (R14, R527). -/
def State.writeReg (s : State) (fn : Nat) (r : Reg) (u i v : Nat) : State :=
  match s.writeOwn fn r u i v with
  | some s' => s'
  | none => match s.writeOther r i v with
    | some s' => s'
    | none => match r.info.access with
      | .rw => s.writeRw r u i v
      | .w1c => s.setReg r (s.reg r u i &&& ~~~(BitVec.ofNat 64 v)) u i
      | .ro | .roW1c => s

/-! ### The write path (R384 to R389) -/

/-- A word of an MSI-X entry written; a pending message goes out when its vector is unmasked (R376, log 12). -/
def State.msixWrite (s : State) (fn v w x : Nat) : State :=
  if vectorsOf fn ≤ v then s
  else
    let e := s.msixEntry fn v
    let a := e.addr.toNat
    let e := match w with
      | 0 => { e with addr := BitVec.ofNat 64 (a / 2 ^ 32 * 2 ^ 32 + x) }
      | 1 => { e with addr := BitVec.ofNat 64 (a % 2 ^ 32 + x * 2 ^ 32) }
      | 2 => { e with data := BitVec.ofNat 32 x }
      | _ => { e with mask := bitOf x 0 }
    if e.pending && !e.mask then (s.setMsix fn v { e with pending := false }).emit (.msix fn v) else s.setMsix fn v e

/-- A 32-bit write of BAR0 or BAR2, with the write latch for the halves of 64-bit registers (R385). -/
def State.write32 (s : State) (fn bar off x : Nat) : State :=
  match s.place fn bar off with
  | .reg r u i h l =>
    if l then s
    else if r.info.size != 8 then s.writeReg fn r u i x
    else if h == 0 then
      { s with hif.wrLatch := (fn, bar * 2 ^ 32 + off, BitVec.ofNat 32 x) :: s.hif.wrLatch.filter (fun e => !sameBlock fn bar off e) }
    else match s.hif.wrLatch.find? (fun e => e.1 == fn && e.2.1 + 4 == bar * 2 ^ 32 + off) with
      | none => s.writeReg fn r u i (s.readReg r u i false % 2 ^ 32 + x * 2 ^ 32)
      | some e => ({ s with hif.wrLatch := s.hif.wrLatch.filter (fun y => !sameBlock fn bar off y) } : State).writeReg fn r u i
          (e.2.2.toNat + x * 2 ^ 32)
  | .msix v w => s.msixWrite fn v w x
  | .doorbell 0 => s.setLatch fn (some (BitVec.ofNat 32 x))
  | .doorbell _ => s.doorbellWrite fn (.upper (BitVec.ofNat 32 x))
  | .pba _ | .pool .. | .evtRec _ | .zero => s

/-- A write of BAR0 or BAR2 that is applied now. -/
def State.applyWrite (s : State) (fn bar off size : Nat) (v : W64) : State :=
  if size == 4 then s.write32 fn bar off (v.toNat % 2 ^ 32)
  else match s.place fn bar off with
    | .reg r u i h l =>
      if r.info.size == 8 && h == 0 then (if l then s else s.writeReg fn r u i v.toNat)
      else (s.write32 fn bar off (v.toNat % 2 ^ 32)).write32 fn bar (off + 4) (v.toNat / 2 ^ 32)
    | .doorbell _ => s.doorbellWrite fn (.whole v)
    | .pool o add => match s.poolWord fn o with
      | none => s
      | some k => if add then s.syncAdd (poolRef k) v (hostId fn) else s.syncStore (poolRef k) v (hostId fn)
    | _ => (s.write32 fn bar off (v.toNat % 2 ^ 32)).write32 fn bar (off + 4) (v.toNat / 2 ^ 32)

/-- A write that arrives while its processor restarts is held, or dropped when 256 are held (R388, R389). -/
def State.holdWrite (s : State) (fn : FnId) (bar : Fin 6) (off size : Nat) (v : W64) (p : HouseProc) : State :=
  if decide (256 ≤ (s.hif.held.filter (fun w => w.proc == p)).length) then
    (s.bumpSat .HIF_EMU_DROPS).raise .HIF_INT_STATUS .HIF_INT_ENABLE 2 fn.val
  else { s with hif.held := s.hif.held ++ [⟨fn, bar, off, size, v, p⟩] }

/-- A write by a function (R384, R385, R388); its payload is counted (Table 16.8). -/
def State.hostWrite (s : State) (fn : FnId) (bar : Fin 6) (off size : Nat) (v : W64) : State :=
  let s := s.bump .CNT_PCIE_BAR_WR size
  if bar.val == 0 || bar.val == 2 then
    if !(size == 4 || size == 8) || off % size != 0 then s.badAccess fn.val
    else if s.emuBusy fn.val bar.val off then s.holdWrite fn bar off size v (s.emulator fn.val off)
    else s.applyWrite fn.val bar.val off size v
  else if bar.val == 4 && fn.val == 0 then
    if off + size ≤ 0x10000000 then s.ringWrite off (min 8 size) v.toNat else s.badAccess 0
  else s

/-- REGISTER_WRITE (R14, R385, R388, R527). -/
def execRegisterWrite (t : Stamp) (fn : FnId) (bar : Fin 6) (off size : Nat) (v : W64) (s : State) : Res :=
  answer t s fun s => s.when (s.fnLive fn.val) (fun s => s.hostWrite fn bar off size v)

end Sys2Proof.Machine
end

