-- ==== Sys2Proof/Machine/RegRows.lean ====
section
/-! DEFINITION. The rows that are a write of one bit or one register, each through the write path of the function that
writes (RegWrite.lean), and PROC_RESTART_DONE (R409, R388). -/

namespace Sys2Proof.Machine

/-- A register's place for the function that writes it: BAR and offset of the block it lies in. -/
def regHome (fn : Nat) (r : Reg) : Nat × Nat :=
  match r.info.block with
  | .hif => (0, 0)
  | .tde => (0, 0x1000)
  | .aon => (0, 0x2000)
  | .syn => (0, if fn == 0 then 0x3000 else 0x2000)
  | .evt => (0, 0x5000)
  | .wgt => (2, 0x10000) | .kvc => (2, 0x20000)
  | .srv => (2, if fn == 0 then 0x30000 else 0)
  | .bpl => (2, 0x40000) | .fab => (2, 0x50000) | .sec => (2, 0x60000) | .fwp => (2, 0x70000) | .hlt => (2, 0x80000) | .pwr => (2, 0x90000)
  | .thm => (2, 0xA0000) | .hka => (2, 0xB0000) | .bbx => (2, 0xC0000) | .cnt => (2, 0xD0000)
  | _ => (0, 0x100000)

/-- Function `fn` writes `w` to register `r`. -/
def State.regWrite (s : State) (fn : FnId) (r : Reg) (w : W64) : State :=
  let h := regHome fn.val r
  s.when (s.fnLive fn.val) (fun s => s.hostWrite fn ⟨h.1 % 6, Nat.mod_lt _ (by decide)⟩ (h.2 + r.info.off) r.info.size w)

/-- A row that is a write of 1 to bit `b` of register `r`, with the other fields of the word; a word without the bit is
no such command. -/
def bitRow (t : Stamp) (fn : FnId) (r : Reg) (b : Nat) (w : W32) (s : State) : Res :=
  answer t s fun s => s.when (w.getLsbD b) (fun s => s.regWrite fn r (w.setWidth 64))

/-- As `bitRow`, with the field of `n` bits at `lo` at `x` besides. -/
def fieldRow (t : Stamp) (fn : FnId) (r : Reg) (b lo n x : Nat) (w : W32) (s : State) : Res :=
  answer t s fun s => s.when (w.getLsbD b && w.toNat / 2 ^ lo % 2 ^ n == x) (fun s => s.regWrite fn r (w.setWidth 64))

/-- A row that is a write of the register `r` of one unit with bit `b`, through an indirect window that has the unit
selected (R391); a write for an absent unit is ignored (R7). -/
def unitRow (t : Stamp) (fn : FnId) (cls u : Nat) (r : Reg) (b : Nat) (w : W32) (s : State) : Res :=
  answer t s fun s => s.when (w.getLsbD b && fn.val == 0 && s.fnLive 0) (fun s =>
    let s := s.bump .CNT_PCIE_BAR_WR 4
    s.when (!s.unitAbsent cls u) (fun s => s.writeReg 0 r u 0 w.toNat))

/-! ### The rows -/

/-- TDE_APPLY (R65). -/
def execTdeApply (t : Stamp) (fn : FnId) (w : W32) (s : State) : Res := bitRow t fn .TDE_CTRL 2 w s
/-- AON_CLEAR_LATCHES (Table 15.14). -/
def execAonClearLatches (t : Stamp) (fn : FnId) (w : W32) (s : State) : Res := bitRow t fn .AON_CTRL 0 w s
/-- CAPTURE_ARM (R139). -/
def execCaptureArm (t : Stamp) (fn : FnId) (core : CoreId) (w : W32) (s : State) : Res := unitRow t fn 2 core.val .COR_CAPTURE_CTRL 0 w s
/-- REFRESH_REQ (Table 3.11). -/
def execRefreshReq (t : Stamp) (fn : FnId) (pan : PanId) (w : W32) (s : State) : Res := unitRow t fn 1 pan.val .PAN_CTRL 0 w s
/-- RAKE_REQ (Table 3.11). -/
def execRakeReq (t : Stamp) (fn : FnId) (pan : PanId) (w : W32) (s : State) : Res := unitRow t fn 1 pan.val .PAN_CTRL 1 w s
/-- LOAD_START (R189). -/
def execLoadStart (t : Stamp) (fn : FnId) (w : W32) (s : State) : Res := bitRow t fn .WGT_LOAD_CTRL 0 w s
/-- LOAD_ABORT (R193). -/
def execLoadAbort (t : Stamp) (fn : FnId) (w : W32) (s : State) : Res := bitRow t fn .WGT_LOAD_CTRL 1 w s
/-- RESTAGE (R204). -/
def execRestage (t : Stamp) (fn : FnId) (w : W32) (s : State) : Res := bitRow t fn .WGT_LOAD_CTRL 6 w s
/-- WGT_RELEASE (R204). -/
def execWgtRelease (t : Stamp) (fn : FnId) (w : W32) (s : State) : Res := bitRow t fn .WGT_LOAD_CTRL 7 w s
/-- ADAPTER_UNLOAD (R209). -/
def execAdapterUnload (t : Stamp) (fn : FnId) (w : W32) (s : State) : Res := bitRow t fn .WGT_LOAD_CTRL 9 w s
/-- HOST_TIER_REGISTER (R180, R183). -/
def execHostTierRegister (t : Stamp) (fn : FnId) (w : W64) (s : State) : Res := answer t s fun s => s.regWrite fn .WGT_HOST_TIER_ADDR w
/-- TRUST_WRITE (R186, R214). -/
def execTrustWrite (t : Stamp) (fn : FnId) (w : W32) (s : State) : Res := bitRow t fn .WGT_TRUST_CTRL 5 w s
/-- TRUST_ERASE (R186, R214). -/
def execTrustErase (t : Stamp) (fn : FnId) (w : W32) (s : State) : Res := bitRow t fn .WGT_TRUST_CTRL 6 w s
/-- KVC_RESERVE_WRITE (R219, R220). -/
def execKvcReserveWrite (t : Stamp) (fn : FnId) (w : W64) (s : State) : Res := answer t s fun s => s.regWrite fn .KVC_RESERVE_BYTES w
/-- ADMQ_CTRL_WRITE (R249, Table 8.12). -/
def execAdmqCtrlWrite (t : Stamp) (fn : FnId) (w : W32) (s : State) : Res := answer t s fun s => s.regWrite fn .SRV_ADMQ_CTRL (w.setWidth 64)
/-- PLAN_LOAD_START (R291). -/
def execPlanLoadStart (t : Stamp) (fn : FnId) (w : W32) (s : State) : Res := bitRow t fn .BPL_CTRL 0 w s
/-- PLAN_LOAD_ABORT (R291). -/
def execPlanLoadAbort (t : Stamp) (fn : FnId) (w : W32) (s : State) : Res := bitRow t fn .BPL_CTRL 1 w s
/-- PLAN_RELEASE (R295). -/
def execPlanRelease (t : Stamp) (fn : FnId) (w : W32) (s : State) : Res := bitRow t fn .BPL_CTRL 3 w s
/-- PLACEMENT_DUMP (R298). -/
def execPlacementDump (t : Stamp) (fn : FnId) (w : W32) (s : State) : Res := bitRow t fn .BPL_CTRL 5 w s
/-- SHARE_APPLY (R316). -/
def execShareApply (t : Stamp) (fn : FnId) (w : W32) (s : State) : Res := bitRow t fn .SYN_ALLOC_CTRL 18 w s
/-- RETRAIN (R336). -/
def execRetrain (t : Stamp) (fn : FnId) (w : W32) (s : State) : Res := bitRow t fn .FAB_LINK_CTRL 0 w s
/-- LINK_RESET (R337). -/
def execLinkReset (t : Stamp) (fn : FnId) (w : W32) (s : State) : Res := bitRow t fn .FAB_LINK_CTRL 1 w s

/-- MAP_LOAD (R344): the write, and the map it reads; a write that is held or ignored reads none. -/
def execMapLoad (t : Stamp) (fn : FnId) (w : W32) (map : List Byte) (s : State) : Res :=
  answer t s fun s => s.when (w.getLsbD 2) (fun s =>
    let s := s.regWrite fn .FAB_CTRL (w.setWidth 64)
    s.when (s.bit .FAB_CTRL 2) (fun s => (s.mapRead map).setF .FAB_CTRL 2 1 0))

/-- FN_APPLY (R374). -/
def execFnApply (t : Stamp) (fn : FnId) (w : W32) (s : State) : Res := bitRow t fn .HIF_FN_CTRL 0 w s
/-- FWP_LOAD (R405, R423). -/
def execFwpLoad (t : Stamp) (fn : FnId) (w : W32) (s : State) : Res := bitRow t fn .FWP_CTRL 0 w s
/-- COMMIT_SVN (R406, R423). -/
def execCommitSvn (t : Stamp) (fn : FnId) (w : W32) (s : State) : Res := bitRow t fn .FWP_CTRL 1 w s
/-- PROC_RESTART_REQUEST (R411, R423). -/
def execProcRestartRequest (t : Stamp) (fn : FnId) (w : W32) (s : State) : Res := bitRow t fn .FWP_CTRL 2 w s
/-- HLT_REQ_SWEEP (R445). -/
def execHltReqSweep (t : Stamp) (fn : FnId) (w : W32) (s : State) : Res := fieldRow t fn .HLT_CTRL 1 2 2 0 w s
/-- HLT_REQ_RETIRE (R445). -/
def execHltReqRetire (t : Stamp) (fn : FnId) (w : W32) (s : State) : Res := fieldRow t fn .HLT_CTRL 1 2 2 1 w s
/-- HLT_REQ_UNLIST (R440, R445). -/
def execHltReqUnlist (t : Stamp) (fn : FnId) (w : W32) (s : State) : Res := fieldRow t fn .HLT_CTRL 1 2 2 2 w s
/-- HLT_REQ_INVALID (R445, Table 14.12): REQ_KIND 3. -/
def execHltReqInvalid (t : Stamp) (fn : FnId) (w : W32) (s : State) : Res := fieldRow t fn .HLT_CTRL 1 2 2 3 w s
/-- POWER_REQ_ACTIVE (R460, R461). -/
def execPowerReqActive (t : Stamp) (fn : FnId) (w : W32) (s : State) : Res := fieldRow t fn .PWR_CTRL 2 0 2 0 w s
/-- POWER_REQ_IDLE (R460). -/
def execPowerReqIdle (t : Stamp) (fn : FnId) (w : W32) (s : State) : Res := fieldRow t fn .PWR_CTRL 2 0 2 1 w s
/-- POWER_REQ_STANDBY (R460). -/
def execPowerReqStandby (t : Stamp) (fn : FnId) (w : W32) (s : State) : Res := fieldRow t fn .PWR_CTRL 2 0 2 2 w s
/-- POWER_REQ_DEEP_SLEEP (R460, R463). -/
def execPowerReqDeepSleep (t : Stamp) (fn : FnId) (w : W32) (s : State) : Res := fieldRow t fn .PWR_CTRL 2 0 2 3 w s
/-- VCORE_TARGET_WRITE (R453). -/
def execVcoreTargetWrite (t : Stamp) (fn : FnId) (w : W32) (s : State) : Res := answer t s fun s => s.regWrite fn .PWR_VCORE_TARGET (w.setWidth 64)
/-- PWR_LIMIT_WRITE (R458). -/
def execPwrLimitWrite (t : Stamp) (fn : FnId) (w : W32) (s : State) : Res := answer t s fun s => s.regWrite fn .PWR_LIMIT (w.setWidth 64)
/-- HKA_SELF_CAL (R477). -/
def execHkaSelfCal (t : Stamp) (fn : FnId) (w : W32) (s : State) : Res := bitRow t fn .HKA_CTRL 0 w s
/-- HKA_REF_CAL (R478). -/
def execHkaRefCal (t : Stamp) (fn : FnId) (w : W32) (s : State) : Res := bitRow t fn .HKA_CTRL 1 w s
/-- EVT_FREEZE (R488): FREEZE takes the value written. -/
def execEvtFreeze (t : Stamp) (fn : FnId) (w : W32) (s : State) : Res := answer t s fun s => s.regWrite fn .EVT_CTRL (w.setWidth 64)
/-- EVT_CLEAR (R488). -/
def execEvtClear (t : Stamp) (fn : FnId) (w : W32) (s : State) : Res := bitRow t fn .EVT_CTRL 1 w s
/-- WFG_REQ (R501). -/
def execWfgReq (t : Stamp) (fn : FnId) (w : W32) (s : State) : Res := bitRow t fn .EVT_CTRL 2 w s
/-- BBX_CLEAR (R494). -/
def execBbxClear (t : Stamp) (fn : FnId) (w : W32) (s : State) : Res := bitRow t fn .BBX_CTRL 0 w s
/-- BBX_SNAP (R492). -/
def execBbxSnap (t : Stamp) (fn : FnId) (w : W32) (s : State) : Res := bitRow t fn .BBX_CTRL 1 w s

/-! ### The end of a restart (R388, R408, R409) -/

/-- A processor's held writes are applied in their order. -/
def State.applyHeld (s : State) (p : HouseProc) : State :=
  let l := s.hif.held.filter (fun w => w.proc == p)
  ({ s with hif.held := s.hif.held.filter (fun w => w.proc != p) } : State).each l (fun w s => s.applyWrite w.fn.val w.bar.val w.off w.size w.v)

/-- PROC_RESTART_DONE (R388, R408, R409): BUSY clears, RESTART reads 0 for the processor it named, and the held writes
follow. What a scheduler restart held is released at the next edge. -/
def execProcRestartDone (t : Stamp) (p : Proc) (s : State) : Res :=
  answer t s fun s => s.when (s.restarting p) (fun s =>
    let s : State := { s with hif.restarting := s.hif.restarting.filter (fun q => q != p) }
    let s := s.when (s.selProc == p) (fun s => s.setF .FWP_CTRL 2 1 0)
    match p with
    | .security => s.applyHeld .sec
    | .power => s.applyHeld .pwr
    | .scheduler => s.applyHeld .sch
    | .cluster _ => s)

end Sys2Proof.Machine
end

