-- ==== Sys2Proof/Machine/TideShift.lean ====
section
/-! DEFINITION. A rebase (02_tide R64): the serial difference added to every tide index the device holds. Records already
made, and what the root announced in its own numbering, keep theirs. -/

namespace Sys2Proof.Machine

/-- A bed's indices moved by `d`. -/
def Bed.shift (d : W32) (b : Bed) : Bed := { b with rakeTide := b.rakeTide + d }
/-- A pan's indices moved by `d`. -/
def Pan.shift (d : W32) (p : Pan) : Pan := { p with a := p.a.shift d, b := p.b.shift d, activeTide := p.activeTide + d }
/-- A physical core's indices moved by `d`. -/
def Phys.shift (d : W32) (x : Phys) : Phys :=
  { x with
    events := x.events.map (fun e => e + d), suspect := x.suspect.map (fun e => (e.1, e.2 + d))
    sweepTide := x.sweepTide + d, lastTide := x.lastTide + d }
/-- A session's indices moved by `d`: its deadlines above all (R56, R266). -/
def Session.shift (d : W32) (x : Session) : Session :=
  { x with
    work := x.work.map (fun w => { w with deadline := w.deadline + d }), offTide := x.offTide + d
    waitFrom := x.waitFrom.map (fun t => t + d) }
/-- A queue pair's indices moved by `d`. -/
def Qp.shift (d : W32) (x : Qp) : Qp := { x with cqFullFrom := x.cqFullFrom + d, session := x.session.map (Session.shift d) }
/-- A sync word's last tide moved by `d` (R325). -/
def SyncWord.shift (d : W32) (w : SyncWord) : SyncWord := { w with lastTide := w.lastTide + d }
/-- A core's words moved by `d`. -/
def Core.shift (d : W32) (c : Core) : Core :=
  { c with words := Cells.mapAll (fun _ => {}) (fun _ w => SyncWord.shift d w) c.words }
/-- Resilience's indices moved by `d`. -/
def Resil.shift (d : W32) (h : Resil) : Resil :=
  { h with
    trips := h.trips.map (fun e => (e.1, e.2.1, e.2.2 + d)), voids := h.voids.map (fun e => (e.1, e.2.1, e.2.2 + d))
    fabVoids := h.fabVoids.map (fun e => (e.1, e.2.1, e.2.2.1, e.2.2.2 + d))
    migrations := h.migrations.map (fun m => { m with edge := m.edge + d, beds := m.beds.map (Pan.shift d) }) }

/-- The registers that hold a tide index. -/
def tideRegs : List Reg :=
  [.TDE_TIDE, .TDE_EFFECT_TIDE, .TDE_LATCH_TIDE, .WGT_EFFECT_TIDE, .WGT_SWITCH_TIDE, .BPL_EFFECT_TIDE, .BPL_SWITCH_TIDE]

/-- Every tide index moved by `d` (R64). -/
def State.shiftTides (s : State) (d : W32) : State :=
  let s := s.each tideRegs (fun r s => s.setNum r (s.num r + d.toNat))
  { s with
    wgt.heldFrom := s.wgt.heldFrom.map (fun t => t + d)
    pans := s.pans.map (fun p => p.shift d)
    phys := s.phys.map (fun x => x.shift d)
    cores := s.cores.map (fun c => c.shift d)
    qps := s.qps.map (fun x => x.shift d)
    pool := Cells.mapAll (fun _ => {}) (fun _ w => SyncWord.shift d w) s.pool
    hlt := s.hlt.shift d
    fab.links := Cells.mapAll (fun _ => {}) (fun _ l => { l with starved := l.starved.map (fun e => (e.1, e.2.1, e.2.2 + d)) }) s.fab.links }

/-- A rebase to the root's index `r` at the edge that would be `e` (R64). -/
def State.rebase (s : State) (e r : W32) : State :=
  let d := r - e
  let old := s.tideIdx.toNat
  (((s.shiftTides d).setNum .TDE_REBASE_DELTA d.toNat).raise .TDE_INT_STATUS .TDE_INT_ENABLE 32).event 0x0203 0x80 old d.toNat

end Sys2Proof.Machine
end

