-- ==== Sys2Proof/Machine/Switch.lean ====
section
/-! DEFINITION. Step 3 of R45: requests, migrations, fills, switches, refresh swaps, ages, draws and the placement an edge
makes (R37, R38, R94 to R98, R200 to R210, R244, R245, R293 to R298, R429, R435, R436, R445). -/

namespace Sys2Proof.Machine

/-! ### Sweeps and requests (R435, R445) -/

/-- A due sweep that did not run in the tide that closes is deferred (R435). -/
def Phys.deferred (x : Phys) : Bool := x.due && x.testing.isNone && x.role != .retired

/-- Deferred sweeps counted; cores not listed in the store are as its default (R435). -/
def State.countDeferred (s : State) : State :=
  if !(s.ready && s.pwrState == 0) then s
  else
    let fit := s.phys.cells.filter (fun e => decide (e.1 < s.part.physCores))
    let rest := if s.phys.dflt.deferred then s.part.physCores - fit.length else 0
    let n := (fit.filter (fun e => e.2.deferred)).length + rest
    let s := s.bump .HLT_SWEEP_DEFERRED n
    s.when (n != 0) (fun s => { s with phys := s.phys.map (fun x => if x.deferred then { x with defer := x.defer + 1 } else x) })

/-- No core work crosses an edge (R32): a test that has no verdict ends; and a sweep becomes due (R435). -/
def State.judgeDue (s : State) (e : W32) : State :=
  let p : Int := s.num .HLT_SWEEP_PERIOD
  { s with phys := s.phys.map (fun x =>
      { x with testing := none, partnerOf := none, due := x.due || (x.role != .retired && decide (p ≤ tideDist x.sweepTide e)) }) }

/-- Requests of R445 take effect: a sweep is due, a unit retires. -/
def State.takeRequests (s : State) : State :=
  s.each s.phys.cells (fun e s => match e.2.asked with
    | none => s
    | some k =>
      let s := s.updPhys e.1 (fun x => { x with asked := none, due := x.due || k == 0 })
      if k == 0 then s
      else ((s.faultRec 0x10 (some e.1) (s.carried e.1) 0xFF 8).lastFault e.1 0x10).retire e.1 0x10)

/-! ### Migrations (R436, Table 14.2) -/

/-- A bed that lives on in a vacated core: one edge older. -/
def Bed.vacated (b : Bed) : Bed := { b with age := b.age + 1, mism := [], mismOf := [], beforeEdge := true }

/-- The pan of a logical core that has moved to the filled beds of a reserve. -/
def Pan.onReserve (p : Pan) (id : Nat) (tide : W32) : Pan :=
  let c : Content := if p.cur.isSome then .current else .start
  let q : Pan := { p with
    a := { (p.a.fresh .active c id tide) with spares := [] }, b := { (p.b.fresh .stale c id tide) with spares := [] }
    activeB := false, activeTide := tide, withdrawn := false, serving := none, claims := p.claims.filter (fun c => c.rank == 3) }
  if p.staged.isSome then q.addClaim { rank := 3, what := .staged } else q

/-- The pan back on its own beds. A staged block that changed meanwhile is not the one its shadow bed holds. -/
def Pan.backHome (p old : Pan) : Pan :=
  let q : Pan := { p with a := old.a, b := old.b, activeB := old.activeB, activeTide := old.activeTide, withdrawn := old.withdrawn, serving := none }
  if q.shadow.content == .staged && p.staged != old.staged then q.setShadow { q.shadow with content := .none } else q

/-- A physical core carries logical core `c` again. -/
def State.carry (s : State) (p c : Nat) : State :=
  s.updPhys p (fun x => if homeCore p == some c then { x with role := .home, logical := none } else { x with role := .carrying, logical := some c })

/-- A reserve is free again, unless it retired. -/
def State.freeAgain (s : State) (r : Nat) : State :=
  s.updPhys r (fun x => if x.role == .retired then x else { x with role := .reserve, logical := none })

/-- Edge E + 1: the logical core moves to the filled reserve. -/
def State.migrateOut (s : State) (m : Migration) (c : Nat) : State :=
  let beds := (pansOf c).map (fun p => let x := s.pan p; { x with a := x.a.vacated, b := x.b.vacated })
  let id := s.freeCtr + 1
  let t := s.tideIdx
  let s := s.tick.unstage.each (pansOf c) (fun p s => s.updPan p (fun x => x.onReserve id t))
  let s := (s.updPhys m.phys (fun x => { x with role := .carrying, logical := none })).updPhys m.reserve (fun x => { x with role := .carrying, logical := some c })
  let m' := { m with core := c, phase := 1, beds := beds }
  (({ s with hlt.migrations := s.hlt.migrations ++ [m'] } : State).bump .HLT_MIGRATIONS).restoreMoved c

/-- Edge E + 2: the logical core returns, or stays where its physical core retired. -/
def State.migrateBack (s : State) (m : Migration) : State :=
  let gone := (s.ph m.phys).role == .retired
  let rGone := (s.ph m.reserve).role == .retired
  if gone then (if rGone then s.remap m.core m.phys else s)
  else
    let s := (s.freeAgain m.reserve).carry m.phys m.core
    (s.unstage.each ((pansOf m.core).zip m.beds) (fun e s => s.updPan e.1 (fun x => x.backHome e.2))).restoreMoved m.core

/-- Migrations go on by one edge (Table 14.2). -/
def State.migrations (s : State) : State :=
  let l := s.hlt.migrations
  ({ s with hlt.migrations := [] } : State).each l (fun m s =>
    if m.phase == 1 then s.migrateBack m
    else match s.carried m.phys with
      | none => s.freeAgain m.reserve
      | some c => if (s.ph m.reserve).role == .filling && (s.ph m.reserve).logical.isNone then s.migrateOut m c else s.freeAgain m.reserve)

/-- A migration begins for a core deferred 64 times, when the cluster has a free reserve (R436). -/
def State.startMigration (s : State) (e : W32) (p : Nat) : State :=
  match s.carried p, (physOfCluster (clusterOfPhys p)).find? s.freeReserve with
  | some _, some r =>
    let s := s.updPhys r (fun x => { x with role := .filling, logical := none })
    ({ s with hlt.migrations := s.hlt.migrations ++ [{ phys := p, reserve := r, edge := e }] } : State).raise .HLT_INT_STATUS .HLT_INT_ENABLE 16
  | _, _ => s

/-- Cores whose 64th deferred tide in a row closes now. -/
def State.startMigrations (s : State) (e : W32) : State :=
  let at64 := fun (x : Phys) => x.defer == 64 && x.due && x.role != .retired
  if !s.phys.any at64 then s
  else s.each ((List.range s.part.physCores).filter (fun p => at64 (s.ph p) && !(s.hlt.migrations.any (fun m => m.phys == p)))) (fun p s => s.startMigration e p)

/-! ### Fills and moves (R38, R297) -/

/-- A pan of a core being filled holds its current content READY, or has none. -/
def Pan.filled (p : Pan) : Bool := p.cur.isNone || (p.shadow.state == .ready && p.shadow.content == .current)

/-- A claim serves the content in use. -/
def Claim.isRefresh (c : Claim) : Bool := c.rank == 2 || c.rank == 4

/-- The shadow bed holds READY what a refresh wrote: the current content, or, on a streamed pan, the streamed block that a
request of PAN_CTRL wrote (log 116). -/
def Pan.refreshed (p : Pan) : Bool :=
  p.shadow.state == .ready &&
    (if p.streamed then (p.serving.map (fun c => c.rank != 1 && c.rank != 3)).getD false
    else p.cur.isSome && p.shadow.content == .current)

/-- What a refresh wrote READY in the shadow bed swaps in (R97). -/
def Pan.swapCurrent (p : Pan) (e : W32) : Pan :=
  if p.refreshed then
    let q := p.swap e
    { q with claims := q.claims.filter (fun c => !c.isRefresh) }
  else p

/-- The filled pans of a core swap in. -/
def State.swapCore (s : State) (c : Nat) (e : W32) : State := s.each (pansOf c) (fun p s => s.updPan p (fun x => x.swapCurrent e))

/-- Reserves whose beds are written and raked take their logical cores (R38). -/
def State.endFills (s : State) (e : W32) : State :=
  s.each s.phys.cells (fun x s => match x.2.role, x.2.logical with
    | .filling, some c =>
      if (pansOf c).all (fun p => (s.pan p).filled) then
        (s.updPhys x.1 (fun y => { y with role := .carrying })).swapCore c e
      else s
    | _, _ => s)

/-- Group cores whose new logical core is ready are there (R297). -/
def State.endMoves (s : State) (e : W32) : State :=
  match s.activePlan with
  | none => s
  | some p => s.each p.place (fun x s => match x.moving with
    | none => s
    | some t =>
      if (s.physOf t).isSome && (pansOf t).all (fun q => (s.pan q).filled) then
        let go := fun (y : PlanSlot) => if y.state != .active then y
          else { y with place := y.place.map (fun z => if z.core == x.core then { z with core := t, moving := none } else z) }
        (({ s with plans := { s.plans with s0 := go s.plans.s0, s1 := go s.plans.s1 } } : State).clearPans x.core).swapCore t e
      else s)

/-! ### The switch (R200 to R203, R210, R244, R245, R294) -/

/-- A pinned session is open. -/
def State.pinnedOpen (s : State) : Bool := s.sequences.any (fun x => x.2.pinned)

/-- Plan slot `k` meets R294 at edge `e` but for the pin, as far as it is asked for itself. -/
def State.planMeets (s : State) (k : Nat) (e : W32) : Bool :=
  (s.pslot k).state == .staged && s.allStaged (s.pslot k).pans &&
  !(s.bit .BPL_CTRL 4 && tideBefore e (BitVec.ofNat 32 (s.num .BPL_EFFECT_TIDE)))

/-- Weight slot `w` meets R201 at edge `e` but for the pin and its plan. -/
def State.slotMeets (s : State) (w : Nat) (e : W32) : Bool :=
  (s.wslot w).state == .staged && s.allStaged (s.wslot w).pans &&
  !(s.bit .WGT_LOAD_CTRL 8 && tideBefore e (BitVec.ofNat 32 (s.num .WGT_EFFECT_TIDE)))

/-- The switch that weight slot `w` makes: alone under the active plan, or with the plan bound to it. -/
def State.slotSwitch (s : State) (w : Nat) (e : W32) : Option (Option Nat × Option Nat) :=
  if !s.slotMeets w e then none
  else match [0, 1].find? (fun k => (s.pslot k).bound == some w && (s.pslot k).state != .active) with
    | some k => if s.planMeets k e then some (some w, some k) else none
    | none => match s.activePlan with
      | none => none
      | some p => match p.img with
        | none => none
        | some i => if i.modelId == (s.wslot w).modelId then some (some w, none) else none

/-- The switch of plan slot `k` bound to the ACTIVE weight slot. -/
def State.planSwitch (s : State) (k : Nat) (e : W32) : Option (Option Nat × Option Nat) :=
  match (s.pslot k).bound with
  | none => none
  | some w => if (s.wslot w).state == .active && s.planMeets k e then some (none, some k) else none

/-- The switch whose conditions all hold at edge `e` but for the pin: weight slot and plan slot that become ACTIVE. -/
def State.switchDue (s : State) (e : W32) : Option (Option Nat × Option Nat) :=
  ((((s.slotSwitch 0 e).orElse fun _ => s.slotSwitch 1 e).orElse fun _ => s.planSwitch 0 e).orElse fun _ => s.planSwitch 1 e)

/-- Sessions whose adapters belong to another model lose them (R210). -/
def State.detachAdapters (s : State) (m : BitVec 128) : State :=
  s.each s.withSess (fun x s =>
    if s.wgt.adapters.any (fun a => a.id == x.2.adapter && a.base != m) then
      (s.updSess x.1 (fun y => { y with adapter := 0xFFFF, events := y.events ||| 4 })).event 0x0605 0 x.1 x.2.adapter
    else s)

/-- Weight slot `w` becomes ACTIVE (R201). -/
def State.switchSlot (s : State) (w : Nat) (e : W32) : State :=
  let old := s.activeSlot
  let id := (s.wslot w).modelId
  let other := match old with | none => false | some o => (s.wslot o).modelId != id
  let s := match old with | none => s | some o => s.updWslot o (fun x => { x with state := .retired, pans := [] })
  let s := (s.updWslot w (fun x => { x with state := .active, pans := [] })).setNum .WGT_SWITCH_TIDE e.toNat
  let act := fun (p : PlanSlot) => if p.state == .active then { p with bound := some w } else p
  let s : State := { s with plans := { s.plans with s0 := act s.plans.s0, s1 := act s.plans.s1 } }
  let s := (s.raise .WGT_INT_STATUS .WGT_INT_ENABLE 8).event 0x0603 0 w (s.wslot w).gen.toNat e.toNat
  s.when other (fun s => s.detachAdapters id)

/-- The KV shape or format differs, or the model (R245). -/
def kvDiffers (a b : PlanImage) : Bool :=
  a.modelId != b.modelId || a.model.kvLayers != b.model.kvLayers || a.model.kvHeads != b.model.kvHeads || a.model.gqa != b.model.gqa || a.model.kvFormat != b.model.kvFormat

/-- Every open sequence's pages are freed (R245); its steps that rolled over go on (R203), in a window that holds nothing
before them. -/
def State.kvResetAll (s : State) (e : W32) : State :=
  let l := s.sequences
  let s := s.each l (fun x s => (s.dropPages x.2).updSess x.1 Session.kvReset)
  (s.raise .KVC_INT_STATUS .KVC_INT_ENABLE 8).event 0x0701 0 l.length e.toNat

/-- The layer counters start from zero with a plan (R499). -/
def State.clearLayers (s : State) : State :=
  { s with regs := s.regs.filter (fun x => x.1 / 1024 % 512 != Reg.CNT_LAYER.ctorIdx || x.1 / 1024 / 512 == 65536) }

/-- Plan slot `k` becomes ACTIVE (R294). -/
def State.switchPlan (s : State) (k : Nat) (e : W32) : State :=
  let old := s.activePlan
  let reset := match old.bind PlanSlot.img, (s.pslot k).img with | some a, some b => kvDiffers a b | _, _ => false
  let s := [0, 1].foldl (fun s j => if (s.pslot j).state == .active then s.updPslot j (fun _ => {}) else s) s
  let s := (s.updPslot k (fun x => { x with state := .active, pans := [] })).setNum .BPL_SWITCH_TIDE e.toNat
  let s := (s.raise .BPL_INT_STATUS .BPL_INT_ENABLE 8).event 0x0902 0 k e.toNat
  (s.clearLayers).when reset (fun s => s.kvResetAll e)

/-- A bed whose content is no longer current. -/
def Bed.former (b : Bed) : Bed := { b with content := .none, firstFail := false }

/-- A resident pan at a switch to content `b`: its staged content swaps in, equal content stays, and a pan that could not be
staged works in reference arithmetic until its beds are written (R98, R201, R293). -/
def Pan.switchTo (p : Pan) (b : Block) (e : W32) (reachable : Bool) : Pan :=
  let p : Pan := { p with streamed := false, streams := [], streamAt := 0, streamFrom := none }
  if p.staged == some b && p.shadow.state == .ready && p.shadow.content == .staged then
    let q := p.swap e
    let q := (q.setActive { q.active with content := .current }).setShadow q.shadow.former
    { q with cur := some b, staged := none, claims := q.claims.filter (fun c => c.rank == 5) }
  else if p.cur == some b then
    { p with staged := none, claims := p.claims.filter (fun c => c.rank != 3), serving := p.serving.filter (fun c => c.rank != 3) }
  else
    let q := (p.setActive p.active.former).setShadow p.shadow.former
    let q : Pan := { q with cur := some b, staged := none, withdrawn := true, claims := [], serving := none }
    if reachable then q.addClaim { rank := 2, what := .current, rake := true } else q

/-- A pan of the streaming set at a switch: it is loaded by the schedule from the first block on (R95, R176). -/
def Pan.streamTo (p : Pan) (l : List StreamKey) : Pan :=
  let q := (p.setActive p.active.former).setShadow p.shadow.former
  { q with cur := none, staged := none, withdrawn := false, streamed := true, streams := l, streamAt := 0, streamFrom := none, claims := [], serving := none }

/-- A pan that the new placement gives nothing. -/
def Pan.unused (p : Pan) : Pan :=
  let q := (p.setActive p.active.former).setShadow p.shadow.former
  { q with cur := none, staged := none, withdrawn := false, streamed := false, streams := [], streamAt := 0, streamFrom := none, claims := [], serving := none }

/-- A pan holds or is to hold something of a plan. -/
def Pan.inUse (p : Pan) : Bool := p.cur.isSome || p.staged.isSome || p.streamed

/-- Every pan takes the content of the active plan and the ACTIVE weight slot (R201, R294). -/
def State.switchPans (s : State) (e : W32) : State :=
  match s.activePlan, s.activeSlot with
  | some p, some w => match p.img with
    | none => s
    | some i =>
      let res := s.planPans p i w
      let strPans := ((planPlaces p i true).map (·.1)).eraseDups
      let gone := (s.pans.cells.filter (fun x => x.2.inUse && !res.any (fun r => r.1 == x.1) && !strPans.contains x.1)).map (fun (x : Nat × Pan) => x.1)
      let s := s.each res (fun r s => s.updPan r.1 (fun x => x.switchTo r.2 e (s.physOf (r.1 / 16)).isSome))
      let s := s.each strPans (fun q s => s.updPan q (fun x => x.streamTo (planStreams p i q)))
      s.each gone (fun q s => s.updPan q Pan.unused)
  | _, _ => s

/-- A switch takes effect (R201, R294). -/
def State.switchNow (s : State) (w k : Option Nat) (e : W32) : State :=
  let s := match w with | none => s | some w => s.switchSlot w e
  let s := match k with | none => s | some k => s.switchPlan k e
  let s : State := (s.switchPans e).raise .SEC_INT_STATUS .SEC_INT_ENABLE 8
  { s with wgt.heldFrom := none }

/-- The pin (R202): an edge at which the switch is held, from the first such edge on. -/
def State.holdSwitch (s : State) (e : W32) : State :=
  match s.wgt.heldFrom with
  | some _ => s.bump .WGT_PIN_WAIT
  | none => ({ s with wgt.heldFrom := some e } : State).setNum .WGT_PIN_WAIT 1 |>.raise .WGT_INT_STATUS .WGT_INT_ENABLE 16

/-- The pin timeout has run out at edge `e` (R202). -/
def State.pinOver (s : State) (e : W32) : Bool :=
  match s.wgt.heldFrom with
  | none => s.num .WGT_PIN_TIMEOUT == 0
  | some f => decide ((s.num .WGT_PIN_TIMEOUT : Int) ≤ tideDist f e)

/-- Nothing is staged or is being staged: no hold goes on (R202). -/
def State.nothingStaged (s : State) : Bool :=
  [0, 1].all (fun w => (s.wslot w).state != .staged && (s.wslot w).state != .staging && (s.pslot w).state != .staged && (s.pslot w).state != .staging)

/-- Whether a switch happens at edge `e` (R201, R202, R294); whether a plan switched. -/
def State.switchEdge (s : State) (e : W32) : State × Bool :=
  match s.switchDue e with
  | none => (s.when s.nothingStaged (fun s => { s with wgt.heldFrom := none }), false)
  | some (w, k) => if s.pinnedOpen && !s.pinOver e then (s.holdSwitch e, false) else (s.switchNow w k e, k.isSome)

/-! ### Refresh swaps and ages (R94 to R98, R427) -/

/-- A refresh swap at edge `e` (R97): counted; the checksum groups that the write was for trip again within 1,024 tides
(R427). -/
def State.refreshSwap (s : State) (p : Nat) (e : W32) : State :=
  let s := (s.updPan p (fun x => x.swapCurrent e)).bump .PAN_REFRESH_SWAPS 1 p
  let mine := s.hlt.marked.filter (fun x => x.1.val == p)
  { s with hlt := { s.hlt with
      trips := s.hlt.trips.filter (fun t => !mine.any (fun m => m.1 == t.1 && m.2 == t.2.1)) ++ mine.map (fun (m : PanId × Nat) => (m.1, m.2, e))
      marked := s.hlt.marked.filter (fun x => x.1.val != p) } }

/-- Pans with a READY refreshed shadow swap (R97). -/
def State.refreshSwaps (s : State) (e : W32) : State :=
  s.each s.pans.cells (fun x s =>
    s.when (x.2.refreshed && (s.physOf (x.1 / 16)).isSome)
      (fun s => s.refreshSwap x.1 e))

/-- A bed one edge older (R97), its mismatches of the tide gone (R87). -/
def Bed.older (b : Bed) : Bed :=
  { b with
    age := if b.state == .empty || b.state == .writing then b.age else b.age + 1
    mism := [], mismOf := [], beforeEdge := true }

/-- A pan at an edge: no product is in flight (R47), and what belonged to the tide is gone. -/
def Pan.older (p : Pan) : Pan :=
  { p with a := p.a.older, b := p.b.older, stagedIn := 0, flights := [], kept := [], users := [], toDraw := 0, stallFrom := none, streamFrom := none }

/-- Every pan one edge older; the waits of the streaming set end with the tide and are counted (R178, R181). -/
def State.agePans (s : State) : State :=
  let stall := (s.wgt.stallFrom.map (fun u => s.now - u)).getD 0
  let tier := (s.wgt.tierWait.map (fun e => s.now - e.2)).sum
  (({ s with pans := s.pans.map (fun p => p.older), wgt.stallFrom := none, wgt.tierWait := [] } : State).bump .WGT_STREAM_STALL_NS stall).bump
    .WGT_HOST_TIER_WAIT_NS tier

/-- At an edge at which no step goes on, the visits of the tide are over: the copies that they read go, but for those that
a grading verdict still waits for (R95, R182). -/
def State.bounceEdge (s : State) (rolled : Bool) : State :=
  if rolled then s
  else
    ({ s with wgt.bounce := s.wgt.bounce.map (fun (b : Bounce) => if b.pans.isEmpty then b else { b with left := true }) } : State).releaseBounce

/-- A claim of a rank is pending or being served with the current content. -/
def Pan.hasClaim (p : Pan) (rank : Nat) : Bool :=
  p.claims.any (fun c => c.rank == rank) || (p.serving.map (fun c => c.rank == rank)).getD false

/-- A claim of a rank, unless there is one. -/
def Pan.claimOnce (p : Pan) (rank : Nat) : Pan := if p.hasClaim rank then p else p.addClaim { rank := rank, what := .current }

/-- The refresh that a resident pan's age asks for (R97), and its withdrawal at age 16 (R98). A pan withdrawn already, by
a checksum trip (R426), is not withdrawn anew and counts no PAN_REFRESH_MISS (DEDUCED, log 114). -/
def State.refreshDue (s : State) (p : Nat) : State :=
  let x := s.pan p
  let age := x.active.age
  if x.cur.isNone || x.streamed || x.active.state != .active || (s.physOf (p / 16)).isNone || age < 8 then s
  else
    let s := s.updPan p (fun x => let y := x.claimOnce 4; if age < 14 then y else y.claimOnce 2)
    if age < 16 || x.withdrawn then s
    else
      let s := ((s.updPan p (fun x => { x with withdrawn := true })).bump .PAN_REFRESH_MISS 1 p).event 0x0301 0x80 p age
      s.faultRec 0x0D (s.physOfPan p) (some (p / 16)) (p % 16)

/-- Where the schedule of a streamed pan stands at an edge: at its first block, or at the active one while a step goes on
(R59, R95). -/
def Pan.streamRestart (p : Pan) (rolled : Bool) : Pan :=
  if !p.streamed then p
  else
    let here := match p.active.content with | .stream b => p.streams.findIdx? (fun c => c == b) | _ => none
    let q : Pan := { p with
      streamAt := if rolled then here.getD 0 else 0, serving := p.serving.filter (fun c => c.rank != 1)
      claims := p.claims.filter (fun c => c.rank != 1) }
    q.claimStream

/-- Ages, refresh claims and the streamed pans' first claims. -/
def State.pansEdge (s : State) : State :=
  let rolled := s.withSess.any (fun x => x.2.steps.any (fun t => t.rolled && !t.complete && !t.void))
  let s := s.agePans.bounceEdge rolled
  let s := s.each s.pans.cells (fun x s => s.refreshDue x.1)
  { s with pans := s.pans.map (fun p => p.streamRestart rolled) }

/-! ### Placement as host software sees it (R298) -/

/-- The logical cores whose placement entry may differ from that of an unplaced core on its home. -/
def State.placeCores (s : State) : List Nat :=
  let placed := match s.activePlan with | none => [] | some p => p.place.flatMap (fun e => e.core :: e.moving.toList)
  let moved := s.phys.cells.flatMap (fun x => (homeCore x.1).toList ++ x.2.logical.toList)
  sortBy (fun a b => decide (a ≤ b)) ((placed ++ moved ++ s.hlt.degraded ++ s.plans.shown.map (fun (x : Nat × Nat × Nat) => x.1)).eraseDups)

/-- The entry of a core in the active placement, and its physical core. -/
def State.placeNow (s : State) (c : Nat) : Nat × Nat := (s.placeEntry (s.activePlan.getD {}) c, (s.physOf c).getD 0xFFFFFFFF)

/-- The entry of a core that no plan places, on its home. -/
def placeHome (c : Nat) : Nat × Nat :=
  (packFields [(0, 4, 0xFFFFFFFF), (7, 1, localPhys (some (homePhys c))), (8, 1, 0xFF)], homePhys c)

/-- The placement that took effect at edge `e` against that of the edge before: an event for each core whose entry
changed; the epoch (R298). -/
def State.placeEdge (s : State) (switched : Bool) : State :=
  let was := fun (c : Nat) => ((s.plans.shown.find? (fun x => x.1 == c)).map (fun (x : Nat × Nat × Nat) => x.2)).getD (placeHome c)
  let now := fun (c : Nat) => if s.isMoving c && !switched then was c else s.placeNow c
  let cs := s.placeCores
  let changed := if s.activePlan.isSome then cs.filter (fun c => now c != was c) else []
  let shown := (cs.map (fun c => (c, now c))).filter (fun x => x.2 != placeHome x.1)
  let s := s.when (switched || !changed.isEmpty) (fun s => s.bump .BPL_PLACE_EPOCH)
  let ep := s.num .BPL_PLACE_EPOCH
  let s := s.each changed (fun c s => s.event 0x0901 0 ep c (was c).2 (now c).2)
  let s := s.when (switched || !changed.isEmpty) (fun s => s.raise .BPL_INT_STATUS .BPL_INT_ENABLE 16)
  { s with plans.shown := shown }

/-- The bytes of a placement table (R298), as little-endian 64-bit words. -/
def State.placeTable (s : State) (e : W32) : List Nat :=
  let id := match s.activePlan.bind PlanSlot.img with | none => 0 | some i => i.planId.toNat
  let head := packFields [(0, 4, 0x4C504E4A), (4, 4, s.num .BPL_PLACE_EPOCH), (8, 4, e.toNat), (12, 4, s.part.cores), (16, 16, id)]
  (List.range 8).map (fun k => head / 2 ^ (64 * k) % 2 ^ 64) ++
  (List.range s.part.cores).flatMap (fun c => let x := (s.placeNow c).1; [x % 2 ^ 64, x / 2 ^ 64])

/-- BPL_CTRL.DUMP at an edge (R298). -/
def State.dumpEdge (s : State) (e : W32) : State :=
  if !s.plans.dump then s
  else
    let s : State := ({ s with plans.dump := false } : State).setF .BPL_CTRL 5 1 0
    let n := 64 + 16 * s.part.cores
    if s.num .BPL_DUMP_LEN < n then s.raise .BPL_INT_STATUS .BPL_INT_ENABLE 64
    else ((s.emit (.dma (s.reg .BPL_DUMP_ADDR) (s.placeTable e))).dmaWr 0 n).raise .BPL_INT_STATUS .BPL_INT_ENABLE 32

/-! ### Draws and adapters (R209, R210, R429, R430) -/

/-- The draws of a tide (R429, R430), once its work is planned: none in reference mode (R167) or outside READY and Active. -/
def State.drawEdge (s : State) (e : W32) : State :=
  let on := s.ready && s.pwrState == 0 && !s.bit .SRV_STATUS 7
  let n := if on then s.num .HLT_GRADE_SAMPLES else 0
  let m := s.num .HLT_SUSPECT_SAMPLES
  let s : State := { s with cores := s.cores.map (fun c => { c with draws := n }) }
  if !on then s
  else s.each s.phys.cells (fun x s => match s.carried x.1 with
    | none => s
    | some c => s.each (List.range 16) (fun i s => s.when (x.2.isSuspect i e) (fun s => s.updPan (c * 16 + i) (fun p => { p with toDraw := m }))))

/-- Adapters verified before the edge can be named; a retiring one that no session names is freed (R207, R209). -/
def State.adapterEdge (s : State) : State :=
  let named := fun (a : Nat) => s.withSess.any (fun x => x.2.state != .closed && x.2.adapter == a)
  let l := s.wgt.adapters.filter (fun a => !(a.retiring && !named a.id))
  let n := s.wgt.adapters.length - l.length
  let gone := s.wgt.adapters.filter (fun a => a.retiring && !named a.id)
  let s := s.each gone (fun a s => s.clearShards (adapterBase a.id))
  let s : State := { s with wgt.adapters := l.map (fun a => { a with usable := true }) }
  s.when (n != 0) (fun s => s.raise .WGT_INT_STATUS .WGT_INT_ENABLE 128)

/-! ### Step 3 -/

/-- Nothing moves: no reserve is being filled, no group core of the active plan is on its way. -/
def State.settled (s : State) : Bool :=
  !s.phys.any (fun x => x.role == .filling) && (match s.activePlan with | none => true | some p => p.place.all (fun e => e.moving.isNone))

/-- Residency decided again for a plan with a group core on a DEGRADED logical core, on the logical cores that are left
(R175, R297): the new placement, where the layers that stream are others. -/
def State.residedAgain (s : State) (k : Nat) : Option (List Nat × List Placed) :=
  let p := s.pslot k
  match p.img with
  | none => none
  | some i =>
    if p.place.any (fun e => s.hlt.degraded.contains e.core) && s.settled then
      match s.placePlan i with
      | none => none
      | some r => if sameSet r.1 p.streamed then none else some r
    else none

/-- A change between resident and streamed takes effect at an edge (R175): the active plan's pans take their new content;
another plan is staged anew. -/
def State.resideAgain (s : State) (e : W32) : State :=
  s.each [0, 1] (fun k s => match s.residedAgain k with
    | none => s
    | some (st, place) =>
      if (s.pslot k).state == .active then (s.updPslot k (fun p => { p with place := place, streamed := st })).switchPans e
      else
        ((s.endStaging (s.pslot k).pans).updPslot k (fun p =>
          { p with place := place, streamed := st, state := .waitModel, bound := none, pans := [] })).bindPlan k)

/-- Step 3 of R45 at edge `e`. While the scheduler processor restarts, nothing switches, moves or swaps (R409). -/
def State.stageThree (s : State) (e : W32) : State :=
  let s := (s.countDeferred).judgeDue e
  let busy := s.restarting .scheduler
  let (s, switched) := if busy then (s, false)
    else
      let s := (((s.takeRequests.migrations.endFills e).endMoves e).resideAgain e).tryStage
      let (s, b) := s.switchEdge e
      (s.refreshSwaps e, b)
  let s := s.pansEdge
  let s := s.when (!busy) (fun s => s.startMigrations e)
  let s := s.when (!busy) (fun s => (s.placeEdge switched).dumpEdge e)
  let s := s.adapterEdge
  { s with wgt.tierFails := [] }

end Sys2Proof.Machine
end

