-- ==== Sys2Proof/Machine/Tide.lean ====
section
/-! DEFINITION. The tide (02_tide): rows TIDE_EDGE, WORK_PHASE_START, SEAL and TIDE_MARKER. -/

namespace Sys2Proof.Machine

/-! ### The source, realignment and rebase (R60 to R64) -/

/-- The source in effect at an edge is FABRIC (R60). AUTO is FABRIC once a link that carries markers has named a root
(DEDUCED, log 60). -/
def State.fabricSource (s : State) : Bool :=
  let sel := s.fld .TDE_CTRL 0 2
  s.part != .jn8s && !s.isRoot && (sel == 2 || (sel != 1 && s.bit .FAB_ROOT 31 && !s.liveLinks.isEmpty))

/-- The number of periods from a root edge to the one nearest to a time `d` after it (R63). -/
def nearestEdge (d p : Int) : Int := -((p - 2 * d) / (2 * p))

/-- The offset θ and the root's index at an edge at time `now`, from the latest marker (R63). -/
def State.rootOffset (s : State) (m : RootEdge) (now : Nat) : Int × W32 :=
  let p : Int := s.num .TDE_PERIOD_ACT * 1000000
  let d : Int := (now : Int) - m.time
  let k := nearestEdge d p
  (d - k * p, m.tide + BitVec.ofInt 32 k)

/-- TIDE_FREERUN clears (R63). -/
def State.endFreerun (s : State) (theta : Int) : State :=
  if s.bit .TDE_STATUS 2 then
    ((s.setF .TDE_STATUS 2 1 0).raise .TDE_INT_STATUS .TDE_INT_ENABLE 8).event 0x0202 0x80 s.tideIdx.toNat (int32Nat theta)
  else s

/-- An edge with a fresh marker (R63, R64): rebase, offset, and by how much the tide that opens is longer. -/
def State.align (s : State) (m : RootEdge) (e : W32) (now : Nat) : State × Int × W32 :=
  let (theta, r) := s.rootOffset m now
  let s := if r == e then s else s.rebase e r
  let s := s.setNum .TDE_ROOT_OFFSET (int32Nat theta)
  if decide (theta.natAbs ≤ 2000) then ((s.endFreerun theta).setF .TDE_STATUS 3 1 0, 0, r)
  else (s.setF .TDE_STATUS 3 1 1, if decide (0 < theta) then -(min theta 50000) else min (-theta) 50000, r)

/-- The second consecutive edge without a marker sets TIDE_FREERUN (R62); `n` counts them. It clears SLEWING, for the
device then runs on its own timer; R62 is silent on that bit (DESIGN CHOICE, log 111). -/
def State.lostMarker (s : State) (n : Nat) : State :=
  if decide (2 ≤ n) && !s.bit .TDE_STATUS 2 then
    (((s.setF .TDE_STATUS 2 1 1).setF .TDE_STATUS 3 1 0).raise .TDE_INT_STATUS .TDE_INT_ENABLE 4).event 0x0201 0x80 s.tideIdx.toNat
  else s

/-- An edge under FABRIC (R62, R63): with a marker since the edge before, or without. -/
def State.fabricEdgeTime (s : State) (e : W32) (now : Nat) : State × Int × W32 :=
  match s.tide.fresh, s.tide.marker with
  | true, some m => ({ s with tide.missed := 0 } : State).align m e now
  | _, _ =>
    let n := s.tide.missed + 1
    (({ s with tide.missed := n } : State).lostMarker n, 0, e)

/-- The source of the edge, its index, and by how much the tide that opens is longer than the period (R60 to R64). -/
def State.realign (s : State) (first : Bool) (now : Nat) : State × Int × W32 :=
  let e := if first then s.tideIdx else s.tideIdx + 1
  if s.fabricSource then
    let s := (s.setF .TDE_STATUS 0 2 2).setF .TDE_STATUS 5 1 1
    let (s, adj, e) := s.fabricEdgeTime e now
    (s.when (s.bit .TDE_STATUS 2) (fun s => s.bump .TDE_FREERUN_TIDES), adj, e)
  else
    let s := ((s.setF .TDE_STATUS 0 2 1).setF .TDE_STATUS 5 1 0).endFreerun 0
    let s := (s.setF .TDE_STATUS 3 1 0).setNum .TDE_ROOT_OFFSET 0
    ({ s with tide.missed := 0, tide.fresh := false, tide.marker := none }, 0, e)

/-! ### Period and intake lead (R65 to R67) -/

/-- The period that the root carries applies at its edge; a lead above half of it is cut (R66, R67). A device that runs
free keeps the period last in effect until markers return (R62). -/
def State.rootPeriodEdge (s : State) (e : W32) : State :=
  match s.tide.rootPeriod with
  | none => s
  | some (p, f) =>
    if tideBefore e f || (s.bit .TDE_STATUS 2 && !s.tide.fresh) then s
    else
      let s := ({ s with tide.rootPeriod := none } : State).setNum .TDE_PERIOD_ACT p
      if 5 * p < s.num .TDE_LEAD_ACT then (s.setNum .TDE_LEAD_ACT (5 * p)).raise .TDE_INT_STATUS .TDE_INT_ENABLE 128 else s

/-- The root carries no new period any more: the staged change was refused, withdrawn or is in effect. -/
def State.noAnnounce (s : State) : State := s.when s.isRoot (fun s => { s with tide.rootPeriod := none })

/-- A staged change is refused (R66). -/
def State.stageRefused (s : State) : State :=
  (s.noAnnounce.setF .TDE_CTRL 2 1 0).raise .TDE_INT_STATUS .TDE_INT_ENABLE 128

/-- The staged values lie in their ranges and go together (R41, R50, R66). -/
def State.stageOk (s : State) (fabric : Bool) : Bool :=
  let p := s.num .TDE_PERIOD_STAGE
  let l := s.num .TDE_LEAD_STAGE
  decide (5 ≤ p) && decide (p ≤ 40) && decide (2 ≤ l) && decide (l ≤ 50) && decide (l ≤ 5 * p) && !(fabric && p != s.num .TDE_PERIOD_ACT)

/-- Step 2 of R45 at edge `e` (R65 to R67): the root announces a new period at least 16 tides ahead. -/
def State.stageEdge (s : State) (e : W32) (fabric : Bool) : State :=
  let s := s.when fabric (fun s => s.rootPeriodEdge e)
  if !s.bit .TDE_CTRL 2 then s.noAnnounce
  else
    let p := s.num .TDE_PERIOD_STAGE
    let f : W32 := BitVec.ofNat 32 (s.num .TDE_EFFECT_TIDE)
    let changes := s.isRoot && p != s.num .TDE_PERIOD_ACT && s.stageOk fabric
    if changes && s.tide.rootPeriod != some (p, f) then
      if tideDist (e - 1) f < 16 then s.stageRefused else { s with tide.rootPeriod := some (p, f) }
    else
      let s := if changes then s else s.noAnnounce
      if tideBefore e f then s
      else if !s.stageOk fabric then s.stageRefused
      else
        let s := (((s.setNum .TDE_PERIOD_ACT p).setNum .TDE_LEAD_ACT (s.num .TDE_LEAD_STAGE)).setF .TDE_CTRL 2 1 0).noAnnounce
        s.raise .TDE_INT_STATUS .TDE_INT_ENABLE 64

/-! ### Cores at an edge (R45 step 4, R305, R308, R311) -/

/-- A context at an edge: IDLE; one whose step rolled over keeps its place (R59, R305). -/
def Ctx.atEdge (k : Ctx) (rolled : Bool) : Ctx :=
  { step := if rolled then k.step else 0, rolled := rolled, operand := k.operand, seals := k.seals, stallRef := k.stallRef, stallStep := k.stallStep
    stalled := k.stalled }

/-- A hoist at an edge: nothing queued or under way. -/
def Hoist.atEdge (h : Hoist) : Hoist :=
  { seals := h.seals, stallRef := h.stallRef, stallStep := h.stallStep, stalled := h.stalled }

/-- The step that a context runs rolls over. -/
def State.ctxRolls (s : State) (k : Ctx) : Bool :=
  match k.owner with
  | none => false
  | some q => match s.sess? q.val with
    | none => false
    | some x => x.openFirst.isSome

/-- A core at an edge: waits counted, contexts IDLE, its words at their initial values (R305, R311), pointers at their
lowest requester (R320). -/
def State.coreEdge (s : State) (c : Nat) : State :=
  let k := s.core c
  let s := s.each k.ctxs (fun x s => match x.reason with
    | none => s
    | some r => s.bump r.counter (s.now - x.since) c)
  let init := match s.schedOf c with | none => [] | some d => d.initWords
  let words : Cells SyncWord := init.foldl (fun w e => Cells.set (fun _ => {}) w e.1 { value := e.2 }) []
  s.updCore c (fun k => { k with
    ctxs := k.ctxs.map (fun x => x.atEdge (s.ctxRolls x)), hoists := k.hoists.map (fun h => h.atEdge), words := words, last := 3 })

/-- Every core at an edge, and the pool words' waits dropped (R305). -/
def State.coresEdge (s : State) : State :=
  let placed := match s.activePlan with | none => [] | some p => p.place.map (fun (e : Placed) => e.core)
  let s := s.each ((s.cores.cells.map (fun (x : Nat × Core) => x.1) ++ placed).eraseDups) (fun c s => s.coreEdge c)
  { s with pool := Cells.mapAll (fun _ => {}) (fun _ w => { w with waiters := [] }) s.pool }

/-! ### The fabric at an edge (R338, R344, R347, R355, R359, R360) -/

/-- UP links whose partner the map in effect places at another address are HELD (R344). -/
def State.mapEdge (s : State) : State :=
  if !s.fab.mapped then s
  else s.each s.upLinks (fun n s => match (s.link n).peer with
    | none => s
    | some h =>
      let l := s.fab.map.filter (fun m => m.2 == h.keyId)
      s.when (!l.isEmpty && !l.any (fun m => m.1 == h.coord)) (fun s => s.hold n 0x3A))

/-- The system version announced for this edge (R359). -/
def State.sysverEdge (s : State) (e : W32) : State :=
  match s.fab.sysverNext with
  | none => s
  | some (v, f) =>
    if tideBefore e f then s
    else ({ s with fab.sysver := v, fab.sysverNext := none } : State).raise .FAB_INT_STATUS .FAB_INT_ENABLE 64

/-- This end reports ALIGNED (Table 11.7). -/
def State.aligned (s : State) : Bool := s.isRoot || (!s.bit .TDE_STATUS 2 && !s.bit .TDE_STATUS 3)

/-- A link in ADMIT may go UP at this edge (R338, R360). -/
def State.mayGoUp (s : State) (n : Nat) : Bool :=
  let l := s.link n
  l.st == .admitSt && s.aligned && (match l.peer with
    | none => false
    | some h => h.aligned && decide (h.verMin ≤ s.fab.sysver) && decide (s.fab.sysver ≤ h.verMax))

/-- A link goes UP (R338). -/
def State.goUp (s : State) (n : Nat) : State :=
  let p := ((s.link n).peer.map (fun h => h.coord.toNat)).getD 0
  let s := (s.updLink n (fun l => { l with st := .up, since := s.now })).raise .FAB_INT_STATUS .FAB_INT_ENABLE 1
  (s.event 0x0B01 0 n p (s.link n).ver).sendLsu

/-- Members in address order. -/
def State.memberAddrs (s : State) : List (BitVec 17) := sortBy (fun a b => decide (a.toNat ≤ b.toNat)) (s.fab.db.map (fun (m : Member) => m.addr))

/-- The usable planes of every other member, where a plane is. -/
def State.usableNow (s : State) : List (BitVec 17 × List Nat) :=
  match s.addr with
  | none => []
  | some a => ((s.memberAddrs.filter (fun d => d != a)).map (fun d => (d, s.usablePlanes a d))).filter (fun e => !e.2.isEmpty)

/-- FAB_ROUTE_EPOCH (R347). -/
def State.routeEdge (s : State) : State :=
  let u := s.usableNow
  if u == s.fab.usable then s
  else (({ s with fab.usable := u } : State).bump .FAB_ROUTE_EPOCH).raise .FAB_INT_STATUS .FAB_INT_ENABLE 8

/-- A TIDE packet's values in the order of Table 11.9. -/
def markerArgs (m : Marker) : List Nat :=
  [m.systemId.toNat, m.rootAddr.toNat, m.tide.toNat, m.delayPs, m.period.toNat, m.periodNext.toNat, m.periodEffect.toNat,
   m.sysver.toNat, m.sysverNext.toNat, m.sysverEffect.toNat]

/-- The root's marker for edge `e` (R67, R355, R359). -/
def State.rootMarker (s : State) (e : W32) : Marker :=
  let pn := s.tide.rootPeriod.getD (0, 0)
  let sn := s.fab.sysverNext.getD (0xFF, 0)
  { systemId := s.reg .FAB_SYSTEM_ID, rootAddr := s.addr.getD 0, tide := e, delayPs := 0, period := BitVec.ofNat 8 (s.num .TDE_PERIOD_ACT)
    periodNext := BitVec.ofNat 8 pn.1, periodEffect := pn.2, sysver := BitVec.ofNat 8 s.fab.sysver
    sysverNext := BitVec.ofNat 8 sn.1, sysverEffect := sn.2 }

/-- A marker sent on some links, each with the measured delay of the link added (R355, R357). -/
def State.sendMarker (s : State) (m : Marker) (root : BitVec 17) (links : List Nat) : State :=
  s.each (links.filter (s.onTree root)) (fun n s =>
    s.sendCtrl n 3 (markerArgs { m with delayPs := m.delayPs + s.num .FAB_LINK_DELAY 0 n }))

/-- The fabric's share of edge `e`. -/
def State.fabricEdge (s : State) (e : W32) : State :=
  if s.part == .jn8s then s
  else
    let s := s.mapEdge
    let s : State := { s with fab.db := s.fab.db.map (fun m => { m with routes := m.up }), fab.red := if s.withSess.any (fun e => e.2.openFirst.isSome) then s.fab.red.filter (fun r => !r.failed && !r.complete) else [] }
    let s := (s.sysverEdge e).rootSysver
    let s := s.each (s.liveLinks.filter s.mayGoUp) (fun n s => s.goUp n)
    let s := s.routeEdge
    (match s.isRoot, s.addr with
      | true, some a => s.sendMarker (s.rootMarker e) a s.liveLinks
      | _, _ => s).fabStatus

/-! ### Seal (R47, R48, R324, R497) -/

/-- Counter registers copied into the latched view (R48, R497). -/
def State.latchCounters (s : State) : State :=
  let copy := fun (b : RegBlock) (u : Nat) (s : State) =>
    s.each b.regs (fun r s => s.each (List.range r.info.count) (fun i s => s.setNum r (s.view r u i) (65536 + u) i))
  s.each (List.range 65) (fun u s => copy .cntT u s) |> copy .cnt 0

/-- The KV charges of the tide and its energy (Tables 7.7, 15.11). -/
def State.latchTide (s : State) : State :=
  let v := s.srv
  let s := ((s.setNum .KVC_SPENT_LAST (v.spentGen + v.spentPrompt)).setNum .KVC_SPENT_GEN_LAST v.spentGen).setNum .KVC_SPENT_PROMPT_LAST
    v.spentPrompt
  let u := s.num .PWR_ENERGY_UJ
  { s.setNum .PWR_TIDE_UJ (u - s.pwr.sealUj) with pwr.sealUj := u }

/-- Consecutive seals at which a unit waited on one word for one step (R324): the count, and whether it is a stall now. -/
def stallCount (was : Option SyncRef) (wasStep seals : Nat) (w : Option SyncWait) (step : Nat) : Nat :=
  match w with
  | none => 0
  | some w => if was == some w.ref && wasStep == step then seals + 1 else 1

/-- A stalled wait is reported: STALL, and its event (R324). -/
def State.stallReport (s : State) (id : Nat) (w : Option SyncWait) (n : Nat) : State :=
  match w with
  | none => s
  | some w => (s.raise .SYN_INT_STATUS .SYN_INT_ENABLE 1).event 0x0A01 0 id (refResource w.ref) n

/-- A context at seal (R324). -/
def State.ctxSeal (s : State) (c x : Nat) : State :=
  let k := (s.core c).ctx x
  let w := if k.state == .waiting && k.reason == some .sync then k.wait else none
  let lim := s.num .SYN_STALL_TIDES
  let n := stallCount k.stallRef k.stallStep k.seals w k.step
  let s := s.updCtx c x (fun k => { k with seals := n, stallRef := w.map SyncWait.ref, stallStep := k.step, stalled := decide (lim ≤ n) })
  s.when (decide (lim ≤ n) && (n == 1 || !k.stalled)) (fun s => s.stallReport (s.unitId 1 c x) w n)

/-- A hoist at seal: the transfer at the head of its queue (R324). -/
def State.hoistSeal (s : State) (c h : Nat) : State :=
  let k := (s.core c).hoist h
  let w := k.queue.head?.bind Desc.wait
  let st := (k.queue.head?.map (fun (d : Desc) => d.step * 4 + d.ctx.val)).getD 0
  let lim := s.num .SYN_STALL_TIDES
  let n := stallCount k.stallRef k.stallStep k.seals w st
  let s := s.updHoist c h (fun k => { k with seals := n, stallRef := w.map SyncWait.ref, stallStep := st, stalled := decide (lim ≤ n) })
  s.when (decide (lim ≤ n) && (n == 1 || !k.stalled)) (fun s => s.stallReport (s.unitId 2 c h) w n)

/-- The stalls of every core at seal. -/
def State.stalls (s : State) : State :=
  s.each s.cores.cells (fun e s =>
    let s := s.each (List.range 4) (fun x s => s.ctxSeal e.1 x)
    s.each (List.range 2) (fun h s => s.hoistSeal e.1 h))

/-- Seal (R47, R48): no new work starts; the counters latch; waits are judged. -/
def State.doSeal (s : State) : State :=
  if s.tide.latched || s.tide.first then s
  else
    let s := ((s.sealWork).stalls).wfgAtSeal
    let s := ((s.latchCounters).latchTide).setNum .TDE_LATCH_TIDE s.tideIdx.toNat
    ({ s with tide.latched := true } : State).raise .TDE_INT_STATUS .TDE_INT_ENABLE 2

/-- SEAL (R47, R48): 0.5 ms before the next edge. -/
def execSeal (s : State) : Res :=
  if s.powered && s.tide.running && !s.tide.first && !s.tide.latched then
    .next (s.enter (s.tide.nextEdge - 500000)).doSeal
  else .next (s.enter 0)

/-! ### The edge (R45) -/

/-- Step 6 of R45 and the tide that opens (R43, R49, R68): index, edge time, length, next edge and intake close. -/
def State.openTide (s : State) (first : Bool) (e : W32) (adj : Int) : State :=
  let t0 := s.tide.nextEdge
  let len := ((s.num .TDE_PERIOD_ACT * 1000000 : Nat) + adj).toNat
  let s := (s.setNum .TDE_TIDE e.toNat).setNum .TDE_EDGE_TIME t0
  let t := { s.tide with
    first := false, len := len, nextEdge := t0 + len, close := t0 + len - s.num .TDE_LEAD_ACT * 100000
    work := false, sealed := false, latched := false, count := if first then s.tide.count else s.tide.count + 1 }
  { s with tide := { t with fresh := false }, pwr.waitEdge := false }

/-- Start-up's last step: the first edge after the start rake (Table 13.1). -/
def State.readyEdge (s : State) : State :=
  if s.starting && s.bootStep == 11 then (s.setNum .FWP_READY_TIME s.now).setDevState 1 else s

/-- Serving at an edge: the pool and the budget as they now stand, buckets, and the admission of R49 (R220, R232, R233). -/
def State.admitEdge (s : State) (close : Nat) (asleep : Bool) : State :=
  let s := (s.carve).judgeBudget
  let s := s.each s.sequences (fun x s => s.updSess x.1 (fun y => { y with bucket := y.bucketAt y.next }))
  let s := s.setNum .KVC_POOL_FREE s.pagesFree
  if asleep || (s.ready && s.restarting .scheduler) then s else s.admitAll close

/-- The actions of an edge from step 1 on, at the index `e` (R45). -/
def State.edgeActions (s : State) (first : Bool) (e : W32) (adj : Int) : State :=
  let close := s.tide.close
  let len := s.tide.len
  let sw := s.num .WGT_SWITCH_TIDE + s.num .BPL_SWITCH_TIDE * 2 ^ 32
  let s := (s.when (!first) (fun s => (s.endTide e).saveRolled)).publish e close
  let s := (s.stageEdge e s.fabricSource).stageThree e
  let s : State := { s.coresEdge with srv.limbo := [] }
  let s := ((s.openTide first e adj).raise .TDE_INT_STATUS .TDE_INT_ENABLE 1).readyEdge
  let s := s.fabricEdge e
  let asleep := s.inStandby
  let s := (s.powerEdge len first).judgePower
  if !s.powered then s
  else
    let s := (s.admitEdge close asleep).when (!asleep) State.takeStandby
    let qs := s.qps.cells.map (fun (x : Nat × Qp) => x.1)
    s.when (s.num .WGT_SWITCH_TIDE + s.num .BPL_SWITCH_TIDE * 2 ^ 32 != sw) (fun s => s.each qs (fun q s => s.writeStatus q e))

/-! ### The last edge of an orderly stop (R471 step 3) -/

/-- A session at the end: its commands complete with ST_THM_SHUTDOWN, and it is FAILED. -/
def State.stopSession (s : State) (q : Nat) (x : Session) : State :=
  (s.updQp q (fun k => { k with recs := k.recs ++ x.ends 0x52 })).updSess q (fun y =>
    { y with state := .failed, work := [], steps := [], done := [], closing := none })

/-- What an orderly stop publishes at its edge (R471 step 3). -/
def State.publishStop (s : State) (e : W32) : State :=
  let s := s.each (s.withSess.filter (fun x => x.2.state != .failed)) (fun x s => s.commitSession x.1 x.2)
  let s := s.each (s.withSess.filter (fun x => x.2.state != .failed)) (fun x s => s.stopSession x.1 x.2)
  let s := match s.boot.flashing with
    | none => s
    | some (q, cid, irq) => s.fwRecord q { opcode := 0x48, flags := if irq then 2 else 0, cid := cid } 0x52 0
  let s := s.each s.boot.waitFw (fun w s => s.fwRecord w.1 w.2.1 0x52 0)
  let s : State := { s with boot.flashing := none, boot.waitFw := [] }
  let qs := s.qps.cells.map (fun (x : Nat × Qp) => x.1)
  let s := s.each qs (fun q s => (s.writeStatus q e).answerQueries q e)
  (s.each qs (fun q s => s.when ((s.qp q).state != .free) (fun s => s.publishQp q e s.tide.close))).signalAll

/-- The edge that ends an orderly stop (R471 steps 3 and 4). -/
def State.stopEdge (s : State) : State :=
  let e := s.tideIdx + 1
  let s := s.endTide e
  let s := s.when (!s.restarting .scheduler) (fun s => s.publishStop e)
  let s := s.openTide false e 0
  if s.restarting .scheduler then s else s.stopNow

/-- TIDE_EDGE (R45): the actions in order; in an orderly stop, its steps 3 and 4. The row runs them whole, so that an
access stamped at the edge sees none of them or all; which of them it sees is open (R525): DESIGN CHOICE, log 112. -/
def execTideEdge (s : State) : Res :=
  if s.powered && s.tide.running then
    let first := s.tide.first
    let s := (s.enter (s.tide.nextEdge - 500000)).doSeal
    let s : State := { s with now := max s.now s.tide.nextEdge }
    if s.stopping && !first then .next s.stopEdge
    else
      let (s, adj, e) := s.realign first s.tide.nextEdge
      .next (s.edgeActions first e adj)
  else .next (s.enter 0)

/-! ### The work phase (R44, R305) -/

/-- WORK_PHASE_START (R44, R237, R305): 0.2 ms after the edge, the tide's work is planned and the contexts take it up. -/
def execWorkPhaseStart (s : State) : Res :=
  if s.powered && s.tide.running && !s.tide.first && !s.tide.work then
    let s := s.enter (s.num .TDE_EDGE_TIME + 200000)
    let s : State := { s with tide.work := true }
    let plans := s.ready && s.pwrState == 0 && !s.pwr.waitEdge && s.beforeSeal && !s.restarting .scheduler
    let s := (s.when plans State.planTide).drawEdge s.tideIdx
    .next (s.each (s.cores.cells.map (fun (e : Nat × Core) => e.1)) (fun c s => s.ctx3 c))
  else .next (s.enter 0)

/-! ### Markers (R62 to R67, R355, R356, R359) -/

/-- A marker is valid (R356). -/
def State.markerValid (s : State) (n : Nat) (m : Marker) : Bool :=
  let l := (s.link n).st
  (l == .up || l == .admitSt) && m.systemId == s.reg .FAB_SYSTEM_ID && s.bit .FAB_ROOT 31 &&
  m.rootAddr.toNat == s.fld .FAB_ROOT 0 17 && !s.isRoot

/-- What the first valid marker of a root edge says: the edge's time, and what the root carries (R67, R356, R359). A device
whose period is not the root's takes it over (log 60). -/
def State.takeMarker (s : State) (n : Nat) (m : Marker) : State :=
  let at_ := s.now - m.delayPs / 1000
  let rp : Option (Nat × W32) := if m.periodNext != 0 then some (m.periodNext.toNat, m.periodEffect)
    else if m.period.toNat != s.num .TDE_PERIOD_ACT then some (m.period.toNat, m.tide) else none
  let sv : Option (Nat × W32) := if m.sysverNext != 0xFF then some (m.sysverNext.toNat, m.sysverEffect)
    else if m.sysver.toNat != s.fab.sysver then some (m.sysver.toNat, m.tide) else s.fab.sysverNext
  { s with
    tide.marker := some ⟨at_, m.tide⟩, tide.fresh := true, tide.firstMarker := some (m.tide, n / 6), tide.rootPeriod := rp, fab.sysverNext := sv }

/-- A later marker of the same root edge, on another plane (R356). -/
def State.skewed (s : State) (n : Nat) (m : Marker) : Bool :=
  match s.tide.firstMarker, s.tide.marker with
  | some (_, p), some r => p != n / 6 && decide (1000 < ((s.now : Int) - (m.delayPs / 1000 : Nat) - r.time).natAbs)
  | _, _ => false

/-- TIDE_MARKER (R355, R356): used, compared, and passed on along the tree of its plane; the residence time added is free
(log 4). -/
def execTideMarker (t : Stamp) (link : LinkId) (h : PktHdr) (m : Marker) (s : State) : Res :=
  answer t s fun s => s.arrival (.tideMarker t link h m) link.val h 3 none (fun s =>
    let n := link.val
    if !s.markerValid n m then s
    else
      let again := (s.tide.firstMarker.map (fun (e : W32 × Nat) => e.1)) == some m.tide
      let s := if again then s.when (s.skewed n m) (fun s => s.bump .FAB_MARKER_SKEW) else s.takeMarker n m
      let on := s.liveLinks.filter (fun k => k / 6 == n / 6 && k != n)
      let m' := { m with delayPs := m.delayPs + Config.freeNat s.freeCtr }
      if (on.filter (s.onTree m.rootAddr)).isEmpty then s else s.tick.sendMarker m' m.rootAddr on)

end Sys2Proof.Machine
end

