-- ==== Sys2Proof/Machine/Dispatch.lean ====
section
/-! DEFINITION. One arm a command: its meaning, or its rejection by name. -/

namespace Sys2Proof.Machine

/-- The effect of command `i` on everything but the queue. -/
def exec (i : Instr) (s : State) : Host.Outcome State Fault Refusal :=
  match i with
  | .coldStart => Sys2Proof.Machine.execColdStart s
  | .vioCheck t vio => Sys2Proof.Machine.execVioCheck t vio s
  | .vcoreCheck t vcore => Sys2Proof.Machine.execVcoreCheck t vcore s
  | .powerSequenceRetry t => Sys2Proof.Machine.execPowerSequenceRetry t s
  | .brownOut t => Sys2Proof.Machine.execBrownOut t s
  | .houseDieResetRelease t bootSel smbAddr => Sys2Proof.Machine.execHouseDieResetRelease t bootSel smbAddr s
  | .identityDerived t p q helperOk certLen => Sys2Proof.Machine.execIdentityDerived t p q helperOk certLen s
  | .romSelfTestDone t st => Sys2Proof.Machine.execRomSelfTestDone t st s
  | .firmwareVerified t img => Sys2Proof.Machine.execFirmwareVerified t img s
  | .firmwareStarted t st controllers monitors => Sys2Proof.Machine.execFirmwareStarted t st controllers monitors s
  | .startRakeDone t failed => Sys2Proof.Machine.execStartRakeDone t failed s
  | .perstAssert t => Sys2Proof.Machine.execPerstAssert t s
  | .perstDeassert t trip => Sys2Proof.Machine.execPerstDeassert t trip s
  | .hotReset t => Sys2Proof.Machine.execHotReset t s
  | .pcieLinkDisable t => Sys2Proof.Machine.execPcieLinkDisable t s
  | .pcieLinkDown t => Sys2Proof.Machine.execPcieLinkDown t s
  | .pfFlr t => Sys2Proof.Machine.execPfFlr t s
  | .vfFlr t fn => Sys2Proof.Machine.execVfFlr t fn s
  | .vfEnable t numVfs => Sys2Proof.Machine.execVfEnable t numVfs s
  | .hardwareTrip t => Sys2Proof.Machine.execHardwareTrip t s
  | .timerWake t => Sys2Proof.Machine.execTimerWake t s
  | .linkPresenceWake t => Sys2Proof.Machine.execLinkPresenceWake t s
  | .wakeIn t which => Sys2Proof.Machine.execWakeIn t which s
  | .pmbAlert t a => Sys2Proof.Machine.execPmbAlert t a s
  | .deepSleepPowerOff t => Sys2Proof.Machine.execDeepSleepPowerOff t s
  | .aonClearLatches t fn w => Sys2Proof.Machine.execAonClearLatches t fn w s
  | .tideEdge => Sys2Proof.Machine.execTideEdge s
  | .workPhaseStart => Sys2Proof.Machine.execWorkPhaseStart s
  | .seal => Sys2Proof.Machine.execSeal s
  | .tdeApply t fn w => Sys2Proof.Machine.execTdeApply t fn w s
  | .tideMarker t link h m => Sys2Proof.Machine.execTideMarker t link h m s
  | .productIssue t pan p => Sys2Proof.Machine.execProductIssue t pan p s
  | .passComplete t pan dev => Sys2Proof.Machine.execPassComplete t pan dev s
  | .sluiceQReady t pan => Sys2Proof.Machine.execSluiceQReady t pan s
  | .stage5Complete t pan => Sys2Proof.Machine.execStage5Complete t pan s
  | .accumulatorDrainDone t pan => Sys2Proof.Machine.execAccumulatorDrainDone t pan s
  | .accSave t x => Sys2Proof.Machine.execAccSave t x s
  | .accRestore t x => Sys2Proof.Machine.execAccRestore t x s
  | .captureArm t fn core w => Sys2Proof.Machine.execCaptureArm t fn core w s
  | .bedWriteStart t pan => Sys2Proof.Machine.execBedWriteStart t pan s
  | .bedWriteComplete t pan => Sys2Proof.Machine.execBedWriteComplete t pan s
  | .bedWriteAbort t pan => Sys2Proof.Machine.execBedWriteAbort t pan s
  | .rakeStart t pan => Sys2Proof.Machine.execRakeStart t pan s
  | .rakeComplete t pan d => Sys2Proof.Machine.execRakeComplete t pan d s
  | .rakeAbort t pan => Sys2Proof.Machine.execRakeAbort t pan s
  | .streamedSwap t pan => Sys2Proof.Machine.execStreamedSwap t pan s
  | .refreshReq t fn pan w => Sys2Proof.Machine.execRefreshReq t fn pan w s
  | .rakeReq t fn pan w => Sys2Proof.Machine.execRakeReq t fn pan w s
  | .loadStart t fn w => Sys2Proof.Machine.execLoadStart t fn w s
  | .loadAbort t fn w => Sys2Proof.Machine.execLoadAbort t fn w s
  | .restage t fn w => Sys2Proof.Machine.execRestage t fn w s
  | .wgtRelease t fn w => Sys2Proof.Machine.execWgtRelease t fn w s
  | .adapterUnload t fn w => Sys2Proof.Machine.execAdapterUnload t fn w s
  | .shardReadDone t part => Sys2Proof.Machine.execShardReadDone t part s
  | .hostTierRegister t fn w => Sys2Proof.Machine.execHostTierRegister t fn w s
  | .hostTierReadDone t layer shards => Sys2Proof.Machine.execHostTierReadDone t layer shards s
  | .broadcastAnnounce t => Sys2Proof.Machine.execBroadcastAnnounce t s
  | .bcastAnnouncement t link h modelId gen => Sys2Proof.Machine.execBcastAnnouncement t link h modelId gen s
  | .bcastDataReceived t link h part off bytes => Sys2Proof.Machine.execBcastDataReceived t link h part off bytes s
  | .bcastEnd t link h => Sys2Proof.Machine.execBcastEnd t link h s
  | .bcastAbort t link h => Sys2Proof.Machine.execBcastAbort t link h s
  | .bcastSilence t => Sys2Proof.Machine.execBcastSilence t s
  | .recvWaitExpiry t => Sys2Proof.Machine.execRecvWaitExpiry t s
  | .shardRequestWaitExpiry t index => Sys2Proof.Machine.execShardRequestWaitExpiry t index s
  | .shardTimeout t index => Sys2Proof.Machine.execShardTimeout t index s
  | .shardReqReceived t link h index host => Sys2Proof.Machine.execShardReqReceived t link h index host s
  | .shardRespReceived t link h index x => Sys2Proof.Machine.execShardRespReceived t link h index x s
  | .holdExpiry t => Sys2Proof.Machine.execHoldExpiry t s
  | .trustWrite t fn w => Sys2Proof.Machine.execTrustWrite t fn w s
  | .trustErase t fn w => Sys2Proof.Machine.execTrustErase t fn w s
  | .kvcReserveWrite t fn w => Sys2Proof.Machine.execKvcReserveWrite t fn w s
  | .doorbellLowerWrite t fn w => Sys2Proof.Machine.execDoorbellLowerWrite t fn w s
  | .sqDoorbell t fn d => Sys2Proof.Machine.execSqDoorbell t fn d s
  | .cqDoorbell t fn d => Sys2Proof.Machine.execCqDoorbell t fn d s
  | .openSession t qid c => Sys2Proof.Machine.execOpenSession t qid c s
  | .audioIn t qid c positions => Sys2Proof.Machine.execAudioIn t qid c positions s
  | .textIn t qid c tokens => Sys2Proof.Machine.execTextIn t qid c tokens s
  | .prompt t qid c => Sys2Proof.Machine.execPrompt t qid c s
  | .generate t qid c => Sys2Proof.Machine.execGenerate t qid c s
  | .cancel t qid c => Sys2Proof.Machine.execCancel t qid c s
  | .close t qid c => Sys2Proof.Machine.execClose t qid c s
  | .setAdapter t qid c => Sys2Proof.Machine.execSetAdapter t qid c s
  | .setSampling t qid c => Sys2Proof.Machine.execSetSampling t qid c s
  | .createQp t qid c => Sys2Proof.Machine.execCreateQp t qid c s
  | .deleteQp t qid c => Sys2Proof.Machine.execDeleteQp t qid c s
  | .setRefMode t qid c => Sys2Proof.Machine.execSetRefMode t qid c s
  | .querySession t qid c => Sys2Proof.Machine.execQuerySession t qid c s
  | .admqCtrlWrite t fn w => Sys2Proof.Machine.execAdmqCtrlWrite t fn w s
  | .stepStart t core cfg => Sys2Proof.Machine.execStepStart t core cfg s
  | .stepComplete t qid r => Sys2Proof.Machine.execStepComplete t qid r s
  | .planLoadStart t fn w => Sys2Proof.Machine.execPlanLoadStart t fn w s
  | .planLoadAbort t fn w => Sys2Proof.Machine.execPlanLoadAbort t fn w s
  | .planRelease t fn w => Sys2Proof.Machine.execPlanRelease t fn w s
  | .placementDump t fn w => Sys2Proof.Machine.execPlacementDump t fn w s
  | .planLoadDone t p => Sys2Proof.Machine.execPlanLoadDone t p s
  | .syncLoad t core ctx r => Sys2Proof.Machine.execSyncLoad t core ctx r s
  | .syncStore t core ctx r v => Sys2Proof.Machine.execSyncStore t core ctx r v s
  | .syncAdd t core ctx r v => Sys2Proof.Machine.execSyncAdd t core ctx r v s
  | .syncCas t core ctx r e v => Sys2Proof.Machine.execSyncCas t core ctx r e v s
  | .syncWait t core ctx r cond target => Sys2Proof.Machine.execSyncWait t core ctx r cond target s
  | .fenceLocal t core ctx => Sys2Proof.Machine.execFenceLocal t core ctx s
  | .fenceDevice t core ctx => Sys2Proof.Machine.execFenceDevice t core ctx s
  | .fenceFabric t core ctx => Sys2Proof.Machine.execFenceFabric t core ctx s
  | .fenceComplete t core ctx => Sys2Proof.Machine.execFenceComplete t core ctx s
  | .hoistTransferStart t core hoist ctx step x => Sys2Proof.Machine.execHoistTransferStart t core hoist ctx step x s
  | .hoistTransferComplete t core hoist data uncorrectable => Sys2Proof.Machine.execHoistTransferComplete t core hoist data uncorrectable s
  | .poolHostStore t fn off v => Sys2Proof.Machine.execPoolHostStore t fn off v s
  | .poolHostAdd t fn off v => Sys2Proof.Machine.execPoolHostAdd t fn off v s
  | .shareApply t fn w => Sys2Proof.Machine.execShareApply t fn w s
  | .fabricWrite t core ctx dst buf off bytes => Sys2Proof.Machine.execFabricWrite t core ctx dst buf off bytes s
  | .fabricReduceAdd t core ctx dst buf off vals => Sys2Proof.Machine.execFabricReduceAdd t core ctx dst buf off vals s
  | .presenceProbe t link present => Sys2Proof.Machine.execPresenceProbe t link present s
  | .detectDebounceEnd t link => Sys2Proof.Machine.execDetectDebounceEnd t link s
  | .presenceLoss t link => Sys2Proof.Machine.execPresenceLoss t link s
  | .trainComplete t link nonce => Sys2Proof.Machine.execTrainComplete t link nonce s
  | .trainTimeout t link => Sys2Proof.Machine.execTrainTimeout t link s
  | .helloReceived t link h => Sys2Proof.Machine.execHelloReceived t link h s
  | .helloTimeout t link => Sys2Proof.Machine.execHelloTimeout t link s
  | .linkCtrlReceived t link ack nak credits => Sys2Proof.Machine.execLinkCtrlReceived t link ack nak credits s
  | .linkSilence t link => Sys2Proof.Machine.execLinkSilence t link s
  | .retrain t fn w => Sys2Proof.Machine.execRetrain t fn w s
  | .linkReset t fn w => Sys2Proof.Machine.execLinkReset t fn w s
  | .linkAckTimer t link => Sys2Proof.Machine.execLinkAckTimer t link s
  | .lsuReceived t link h u => Sys2Proof.Machine.execLsuReceived t link h u s
  | .delayExchange t link => Sys2Proof.Machine.execDelayExchange t link s
  | .delayReceived t link h t1 t2 t3 t4 => Sys2Proof.Machine.execDelayReceived t link h t1 t2 t3 t4 s
  | .syncReqReceived t link h opNum word op => Sys2Proof.Machine.execSyncReqReceived t link h opNum word op s
  | .syncRespReceived t link h opNum status value => Sys2Proof.Machine.execSyncRespReceived t link h opNum status value s
  | .writeReceived t link h opNum buf off bytes => Sys2Proof.Machine.execWriteReceived t link h opNum buf off bytes s
  | .reduceAddReceived t link h opNum buf off vals => Sys2Proof.Machine.execReduceAddReceived t link h opNum buf off vals s
  | .ackReceived t link h opNum status => Sys2Proof.Machine.execAckReceived t link h opNum status s
  | .opTimeout t opNum => Sys2Proof.Machine.execOpTimeout t opNum s
  | .mapLoad t fn w map => Sys2Proof.Machine.execMapLoad t fn w map s
  | .fnApply t fn w => Sys2Proof.Machine.execFnApply t fn w s
  | .dmaError t fn what => Sys2Proof.Machine.execDmaError t fn what s
  | .poisonedWrite t fn => Sys2Proof.Machine.execPoisonedWrite t fn s
  | .ideCheckFail t => Sys2Proof.Machine.execIdeCheckFail t s
  | .ideKm t fn session => Sys2Proof.Machine.execIdeKm t fn session s
  | .getVersion t fn => Sys2Proof.Machine.execGetVersion t fn s
  | .getCapabilities t fn => Sys2Proof.Machine.execGetCapabilities t fn s
  | .negotiateAlgorithms t fn => Sys2Proof.Machine.execNegotiateAlgorithms t fn s
  | .getDigests t fn => Sys2Proof.Machine.execGetDigests t fn s
  | .getCertificate t fn slot off len => Sys2Proof.Machine.execGetCertificate t fn slot off len s
  | .challenge t fn nonce => Sys2Proof.Machine.execChallenge t fn nonce s
  | .getMeasurements t fn index => Sys2Proof.Machine.execGetMeasurements t fn index s
  | .keyExchange t fn => Sys2Proof.Machine.execKeyExchange t fn s
  | .finish t fn session ok => Sys2Proof.Machine.execFinish t fn session ok s
  | .heartbeat t fn session => Sys2Proof.Machine.execHeartbeat t fn session s
  | .keyUpdate t fn session => Sys2Proof.Machine.execKeyUpdate t fn session s
  | .endSession t fn session => Sys2Proof.Machine.execEndSession t fn session s
  | .horId t pecOk args => Sys2Proof.Machine.execHorId t pecOk args s
  | .horState t pecOk args => Sys2Proof.Machine.execHorState t pecOk args s
  | .horTemp t pecOk args => Sys2Proof.Machine.execHorTemp t pecOk args s
  | .horPower t pecOk args => Sys2Proof.Machine.execHorPower t pecOk args s
  | .horFaults t pecOk args => Sys2Proof.Machine.execHorFaults t pecOk args s
  | .horCperRead t pecOk args => Sys2Proof.Machine.execHorCperRead t pecOk args s
  | .horLimits t pecOk args => Sys2Proof.Machine.execHorLimits t pecOk args s
  | .registerWrite t fn bar off size v => Sys2Proof.Machine.execRegisterWrite t fn bar off size v s
  | .fwpLoad t fn w => Sys2Proof.Machine.execFwpLoad t fn w s
  | .commitSvn t fn w => Sys2Proof.Machine.execCommitSvn t fn w s
  | .procRestartRequest t fn w => Sys2Proof.Machine.execProcRestartRequest t fn w s
  | .watchdogExpiry t p => Sys2Proof.Machine.execWatchdogExpiry t p s
  | .procRestartDone t p => Sys2Proof.Machine.execProcRestartDone t p s
  | .fwFlash t qid c img => Sys2Proof.Machine.execFwFlash t qid c img s
  | .flashWriteDone t ok => Sys2Proof.Machine.execFlashWriteDone t ok s
  | .selfTest t qid c st => Sys2Proof.Machine.execSelfTest t qid c st s
  | .retireFailed t qid c => Sys2Proof.Machine.execRetireFailed t qid c s
  | .restartDevice t qid c => Sys2Proof.Machine.execRestartDevice t qid c s
  | .gradeVerdict t pan => Sys2Proof.Machine.execGradeVerdict t pan s
  | .sweepRun t phys partner => Sys2Proof.Machine.execSweepRun t phys partner s
  | .sweepVerdict t phys o => Sys2Proof.Machine.execSweepVerdict t phys o s
  | .configScrub t cluster differ => Sys2Proof.Machine.execConfigScrub t cluster differ s
  | .memoryError t phys wh corrected => Sys2Proof.Machine.execMemoryError t phys wh corrected s
  | .uncontainedFault t k => Sys2Proof.Machine.execUncontainedFault t k s
  | .hltReqSweep t fn w => Sys2Proof.Machine.execHltReqSweep t fn w s
  | .hltReqRetire t fn w => Sys2Proof.Machine.execHltReqRetire t fn w s
  | .hltReqUnlist t fn w => Sys2Proof.Machine.execHltReqUnlist t fn w s
  | .hltReqInvalid t fn w => Sys2Proof.Machine.execHltReqInvalid t fn w s
  | .powerReqActive t fn w => Sys2Proof.Machine.execPowerReqActive t fn w s
  | .powerReqIdle t fn w => Sys2Proof.Machine.execPowerReqIdle t fn w s
  | .powerReqStandby t fn w => Sys2Proof.Machine.execPowerReqStandby t fn w s
  | .powerReqDeepSleep t fn w => Sys2Proof.Machine.execPowerReqDeepSleep t fn w s
  | .hbmSelfRefreshExit t => Sys2Proof.Machine.execHbmSelfRefreshExit t s
  | .powerExitComplete t => Sys2Proof.Machine.execPowerExitComplete t s
  | .brakeEvaluation t ma => Sys2Proof.Machine.execBrakeEvaluation t ma s
  | .vcoreTargetWrite t fn w => Sys2Proof.Machine.execVcoreTargetWrite t fn w s
  | .pwrLimitWrite t fn w => Sys2Proof.Machine.execPwrLimitWrite t fn w s
  | .hkaConversion t code => Sys2Proof.Machine.execHkaConversion t code s
  | .hkaScanComplete t => Sys2Proof.Machine.execHkaScanComplete t s
  | .thermalDwellEnd t throttle => Sys2Proof.Machine.execThermalDwellEnd t throttle s
  | .orderlyStopDeadline t => Sys2Proof.Machine.execOrderlyStopDeadline t s
  | .hkaSelfCal t fn w => Sys2Proof.Machine.execHkaSelfCal t fn w s
  | .selfCalDone t conv => Sys2Proof.Machine.execSelfCalDone t conv s
  | .hkaRefCal t fn w => Sys2Proof.Machine.execHkaRefCal t fn w s
  | .refCalDone t codes => Sys2Proof.Machine.execRefCalDone t codes s
  | .eventRecordArrival t src => Sys2Proof.Machine.execEventRecordArrival t src s
  | .evtFreeze t fn w => Sys2Proof.Machine.execEvtFreeze t fn w s
  | .evtClear t fn w => Sys2Proof.Machine.execEvtClear t fn w s
  | .wfgReq t fn w => Sys2Proof.Machine.execWfgReq t fn w s
  | .wfgWriteDone t => Sys2Proof.Machine.execWfgWriteDone t s
  | .bbxClear t fn w => Sys2Proof.Machine.execBbxClear t fn w s
  | .bbxSnap t fn w => Sys2Proof.Machine.execBbxSnap t fn w s
  | .snapshotDone t => Sys2Proof.Machine.execSnapshotDone t s
  | .startupPublish t => Sys2Proof.Machine.execStartupPublish t s
  | .registerRead t fn bar off size => Sys2Proof.Machine.execRegisterRead t fn bar off size s
  | .packetCrcFail t link k => Sys2Proof.Machine.execPacketCrcFail t link k s
  | .reservedTypePacket t link h type => Sys2Proof.Machine.execReservedTypePacket t link h type s
  | .transitPacket t link h type opNum args final => Sys2Proof.Machine.execTransitPacket t link h type opNum args final s
  | .doeDiscovery t fn index => Sys2Proof.Machine.execDoeDiscovery t fn index s
  | .unknownOpcode t qid c => Sys2Proof.Machine.execUnknownOpcode t qid c s
  | .horUnknown t code pecOk args => Sys2Proof.Machine.execHorUnknown t code pecOk args s

end Sys2Proof.Machine
end

