-- ==== Sys2Proof/Safety.lean ====
section
/-! DEFINITION. What a safe run is: one that meets no fault and no refusal; and the canonical form of a state's sparse
stores, in which equal contents are equal data. -/

namespace Sys2Proof.Safety

open Sys2Proof.Machine

/-- The command is answered with a next state. -/
def Answers (o : Host.Outcome State Fault Refusal) : Prop := ∃ s, o = .next s

/-- `k` steps from `s` meet no fault and no refusal. -/
def SafeFor (k : Nat) (s : State) : Prop :=
  match k with
  | 0 => True
  | k + 1 => ∃ s', step s = .next s' ∧ SafeFor k s'

/-- `c` run in `s` is answered with a next state of which `p` holds. -/
def Gives (c : Instr) (s : State) (p : State → Prop) : Prop := ∃ u, exec c s = .next u ∧ p u

/-- Of the control bits `b` and `bs` of a register, the word sets `b` alone. -/
abbrev Only (w : W32) (b : Nat) (bs : List Nat) : Prop := w.getLsbD b = true ∧ ∀ c ∈ bs, w.getLsbD c = false

/-- The device is READY and none of its processors is restarting, so that every access is served at once. -/
abbrev Serves (s : State) : Prop := s.ready = true ∧ s.hif.restarting = []

/-- From `s` to `u` counter `r` of a unit has advanced by `n`, modulo its width (R496). -/
abbrev Counts (s u : State) (r : Reg) (n : Nat) (unit : Nat := 0) (i : Nat := 0) : Prop :=
  u.num r unit i = (s.num r unit i + n) % 2 ^ (8 * r.info.size)

/-- In the admission window the device takes next an entry of queue pair `q`, the first in order whose pair takes work
(R51, R253, R259); `rest` are the others. -/
abbrev Fronts (s : State) (k : Stamp) (q : Nat) (rest : List Admitted) : Prop :=
  (s.enter k).admitting = true ∧ ∃ a ∈ s.nextAdmitted, a.qid = q ∧ rest = s.srv.admitted.erase a

/-- The device is READY, and takes next an entry of queue pair `q`. -/
abbrev Takes (s : State) (k : Stamp) (q : Nat) (rest : List Admitted) : Prop := s.ready = true ∧ Fronts s k q rest

/-- A command whose FLAGS and CID are in range, with its opcode (Table 8.2). -/
abbrev Sent (c : SrvCmd) (op : Nat) : Prop := c.opcode.toNat = op ∧ c.flags.toNat < 4 ∧ c.cid ≠ 0xFFFF

/-- From `s` to `u` queue pair `q` alone of the queue pairs changed, and `rest` of the admitted entries are left. -/
def OnlyPair (q : Nat) (rest : List Admitted) (s u : State) : Prop :=
  u.srv.admitted = rest ∧ ∀ p, p ≠ q → u.qp p = s.qp p

/-- The fault events of a physical core that count with one of the current tide (R425). -/
def eventsNear (s : State) (p : Nat) : List W32 := (s.ph p).events.filter (fun e => decide (tideDist e s.tideIdx < 64))

/-- The commands that reach state of every kind: an edge and what completes a deferred one, the losses of supply, the
resets, and the writes of registers, at once or held until a processor has restarted. -/
def outside (c : Instr) : Bool :=
  match c with
  | .accumulatorDrainDone .. | .streamedSwap .. | .snapshotDone .. | .orderlyStopDeadline .. | .coldStart
  | .brownOut .. | .hardwareTrip .. | .deepSleepPowerOff .. | .perstAssert .. | .hotReset .. | .pcieLinkDisable ..
  | .pcieLinkDown .. | .pfFlr .. | .vfFlr .. | .vfEnable .. | .registerWrite .. | .tdeApply ..
  | .aonClearLatches .. | .captureArm .. | .refreshReq .. | .rakeReq .. | .loadStart .. | .loadAbort ..
  | .restage .. | .wgtRelease .. | .adapterUnload .. | .hostTierRegister .. | .trustWrite .. | .trustErase ..
  | .kvcReserveWrite .. | .admqCtrlWrite .. | .planLoadStart .. | .planLoadAbort .. | .planRelease ..
  | .placementDump .. | .shareApply .. | .retrain .. | .linkReset .. | .mapLoad .. | .fnApply .. | .fwpLoad ..
  | .commitSvn .. | .procRestartRequest .. | .hltReqSweep .. | .hltReqRetire .. | .hltReqUnlist ..
  | .hltReqInvalid .. | .powerReqActive .. | .powerReqIdle .. | .powerReqStandby .. | .powerReqDeepSleep ..
  | .vcoreTargetWrite .. | .pwrLimitWrite .. | .hkaSelfCal .. | .hkaRefCal .. | .evtFreeze .. | .evtClear ..
  | .wfgReq .. | .bbxClear .. | .bbxSnap .. | .procRestartDone .. | .tideEdge => true
  | _ => false

end Sys2Proof.Safety

namespace Sys2Proof.Machine

/-- Numbers strictly ascending, each listed once. -/
def Cells.ascends {α : Type} (lo : Option Nat) (c : Cells α) : Bool :=
  match c with
  | [] => true
  | (j, _) :: c => (match lo with | none => true | some l => decide (l < j)) && Cells.ascends (some j) c

/-- Every sparse store of the device is in its canonical form (Store.lean): the register file lists each register once
and in order; the memory of the cores and of HBM, the ring area of BAR4, the pool sync words, the shares, the MSI-X tables,
the links and the units list, in order and once, what differs from what an unlisted entry holds, and nothing else. -/
structure State.Canonical (s : State) : Prop where
  regs : Cells.ascends none s.regs = true
  mem : Cells.wf (fun _ => 0) s.mem = true
  rings : Cells.wf (fun _ => 0) s.rings = true
  pool : Cells.wf (fun _ => {}) s.pool = true
  shares : Cells.wf shareDefault s.shares = true
  msix : Cells.wf (fun _ => {}) s.hif.msix = true
  links : Cells.wf (fun _ => {}) s.fab.links = true
  pans : s.pans.wf = true
  cores : s.cores.wf = true
  clusters : s.clusters.wf = true
  phys : s.phys.wf = true
  qps : s.qps.wf = true

/-! ### What a command leaves alone -/

/-- The fields of the state but the register file. -/
inductive Field where
  | pending | out | freeCtr | part | now | aon | boot | mram | tide | pans | cores | clusters | phys | pool | wgt | qps | srv | shares | stages | plans | fab | hif | sec | hlt | pwr | evt | snaps | saved | mem | rings
deriving DecidableEq, Repr

/-- A field holds the same in both states. -/
def Field.same (f : Field) (s t : State) : Prop :=
  match f with
  | .pending => t.pending = s.pending
  | .out => t.out = s.out
  | .freeCtr => t.freeCtr = s.freeCtr
  | .part => t.part = s.part
  | .now => t.now = s.now
  | .aon => t.aon = s.aon
  | .boot => t.boot = s.boot
  | .mram => t.mram = s.mram
  | .tide => t.tide = s.tide
  | .pans => t.pans = s.pans
  | .cores => t.cores = s.cores
  | .clusters => t.clusters = s.clusters
  | .phys => t.phys = s.phys
  | .pool => t.pool = s.pool
  | .wgt => t.wgt = s.wgt
  | .qps => t.qps = s.qps
  | .srv => t.srv = s.srv
  | .shares => t.shares = s.shares
  | .stages => t.stages = s.stages
  | .plans => t.plans = s.plans
  | .fab => t.fab = s.fab
  | .hif => t.hif = s.hif
  | .sec => t.sec = s.sec
  | .hlt => t.hlt = s.hlt
  | .pwr => t.pwr = s.pwr
  | .evt => t.evt = s.evt
  | .snaps => t.snaps = s.snaps
  | .saved => t.saved = s.saved
  | .mem => t.mem = s.mem
  | .rings => t.rings = s.rings

/-- From `s` to `t` only the fields `fs` and the registers `rs` may have changed: every other field holds the same, and
every other register reads the same, of every unit and in every element. -/
def SameBut (fs : List Field) (rs : List Reg) (s t : State) : Prop :=
  (∀ f, f ∉ fs → f.same s t) ∧ (∀ r, r ∉ rs → ∀ u i, t.reg r u i = s.reg r u i)

end Sys2Proof.Machine
end

