-- ==== Sys2Proof/Certificates/Slice0/Obligations.lean ====
section
/-! DEFINITION. The statements for the provers, one definition each: what every command of the opcode table does, by
family, and what holds of the machine as a whole. `Gives c s p` says that `c` answers a next state with `p`; `SameBut`
says what is left as it was. -/

open Sys2Proof Sys2Proof.Machine Sys2Proof.Safety

/-! ### The power-up sequence and start-up -/

/-- R17, R466, R510, R511: a cold start keeps MRAM alone; the checks of comparators 1 and 7 by their windows, VR_EN, the
failed check and the third in a row, the retry; a brown-out. The part, the waiting commands and ROM's
signers (log 137) are the model's frame. -/
def Obligations.PowerUpSequence : Prop :=
  ∀ (s : State) (k : Stamp) (v : BitVec 10),
    Gives .coldStart s (fun u => u = { State.reset with
      pending := s.pending, part := s.part, mram := s.mram, freeCtr := s.freeCtr
      boot := { signers := s.boot.signers } }) ∧
    (s.aon.phase = .seqVio → s.fld .AON_CMP 0 10 0 1 ≤ v.toNat → v.toNat < s.fld .AON_CMP 10 10 0 1 →
      Gives (.vioCheck k v) s (fun u => u.aon = { s.aon with phase := .seqVcore, vrEn := true } ∧
        u.bit .AON_STATUS 6 = true ∧ SameBut [.out, .now, .aon] [.AON_STATUS] s u)) ∧
    (s.aon.phase = .seqVio → (v.toNat < s.fld .AON_CMP 0 10 0 1 ∨ s.fld .AON_CMP 10 10 0 1 ≤ v.toNat) →
      Gives (.vioCheck k v) s (fun u => u.aon = { s.aon with
          fails := s.aon.fails + 1, pwrEn := false, vrEn := false
          phase := if 3 ≤ s.aon.fails + 1 then .heldLow else .retryWait } ∧
        u.bit .AON_STATUS 6 = false ∧ SameBut [.out, .now, .aon] [.AON_STATUS] s u)) ∧
    (s.aon.phase = .seqVcore → s.fld .AON_CMP 0 10 0 7 ≤ v.toNat → v.toNat < s.fld .AON_CMP 10 10 0 7 →
      Gives (.vcoreCheck k v) s (fun u => u.aon = { s.aon with phase := .seqHouse } ∧
        u.bit .AON_STATUS 12 = true ∧ SameBut [.out, .now, .aon] [.AON_STATUS] s u)) ∧
    (s.aon.phase = .seqVcore → (v.toNat < s.fld .AON_CMP 0 10 0 7 ∨ s.fld .AON_CMP 10 10 0 7 ≤ v.toNat) →
      Gives (.vcoreCheck k v) s (fun u => u.aon = { s.aon with
          fails := s.aon.fails + 1, pwrEn := false, vrEn := false
          phase := if 3 ≤ s.aon.fails + 1 then .heldLow else .retryWait } ∧
        u.bit .AON_STATUS 12 = false ∧ SameBut [.out, .now, .aon] [.AON_STATUS] s u)) ∧
    (s.aon.phase = .retryWait →
      Gives (.powerSequenceRetry k) s (fun u => u.aon = { s.aon with phase := .seqVio, pwrEn := true } ∧
        SameBut [.out, .now, .aon] [] s u)) ∧
    Gives (.brownOut k) s (fun u => u.aon = { phase := .vaonOff, pwrEn := false } ∧ u.mram = s.mram ∧
      u.regs = [] ∧ u.pending = s.pending ∧ u.part = s.part ∧ u.now = max s.now k ∧ u.qps = State.reset.qps ∧
      u.wgt = State.reset.wgt ∧ u.tide = State.reset.tide ∧ u.fab = State.reset.fab)

/-- R397 to R405, R415 to R417, R402: each step of a start that succeeds leads to the next one, and a failing one to the
safe state with its reason. The stop of FWP_STATUS.STEP at a failing step is the model's reading (log 97). Before edge 0 STARTUP_PUBLISH stands for
an edge's publication, and does nothing later or where no queue pair is made. -/
def Obligations.StartUpSteps : Prop :=
  ∀ (s : State) (k : Stamp),
    (∀ (b : Bool) (a : BitVec 3), s.aon.phase = .seqHouse →
      Gives (.houseDieResetRelease k b a) s (fun u => u.aon.phase = .on ∧ u.boot.bootSel = b ∧
        u.num .HIF_ID = s.part.deviceId ∧ u.num .HIF_CAPS = s.part.caps ∧ u.num .HIF_PRESENCE = s.part.presence ∧
        u.bootStep = 3 ∧ u.bit .FWP_STATUS 4 = b ∧
        SameBut [.out, .freeCtr, .now, .aon, .boot]
          [.HIF_ID, .HIF_CAPS, .HIF_PRESENCE, .HIF_LINK_STATUS, .SEC_CAPS, .FWP_STATUS] s u)) ∧
    (∀ p q n, s.starting = true → s.bootStep = 3 → keyIdOf (p * q) 65537 = s.mram.refKeyId →
      Gives (.identityDerived k p q true n) s (fun u => u.bootStep = 5 ∧ u.fld .SEC_STATUS 0 2 = 3 ∧
        u.boot.identity = ⟨p * q, 65537, privateExp p q⟩ ∧ u.boot.serial.toNat = s.mram.refKeyId.toNat % 2 ^ 64 ∧
        u.num .SEC_PUB_E = 65537 ∧ u.num .SEC_CERT_LEN = min 65536 n ∧
        u.num .SEC_KEY_ID = s.mram.refKeyId.toNat % 2 ^ 64 ∧ u.num .SEC_KEY_ID 0 1 = s.mram.refKeyId.toNat / 2 ^ 64 ∧
        SameBut [.out, .now, .boot] [.FWP_STATUS, .SEC_STATUS, .SEC_CERT_LEN, .SEC_KEY_ID, .SEC_PUB_E] s u)) ∧
    (∀ p q helperOk n, s.starting = true → s.bootStep = 3 →
      (helperOk = false ∨ keyIdOf (p * q) 65537 ≠ s.mram.refKeyId) →
      Gives (.identityDerived k p q helperOk n) s (fun u => u.devState = 2 ∧ u.fld .FWP_STATUS 16 8 = 3)) ∧
    (∀ st, s.starting = true → s.bootStep = 5 → (s.tested st).passes = true →
      Gives (.romSelfTestDone k st) s (fun u => u.bootStep = 6 ∧
        (u.bit .FWP_STATUS 5 = true ↔ s.bit .FWP_STATUS 5 = true ∨ (s.boot.bootSel = true ∧ s.boot.ownImage = none)))) ∧
    (∀ st, s.starting = true → s.bootStep = 5 → (s.tested st).passes = false →
      Gives (.romSelfTestDone k st) s (fun u => u.devState = 2 ∧ u.fld .FWP_STATUS 16 8 = 1)) ∧
    (∀ img, s.starting = true → s.bootStep = 6 → s.bit .FWP_STATUS 5 = false → s.verifyImage s.imageSource img = 0 →
      Gives (.firmwareVerified k img) s (fun u => u.bootStep = 7 ∧ u.num .FWP_FW_VERSION = img.field 8 4 ∧
        u.fld .FWP_SVN 0 16 = img.field 12 4 % 65536 ∧ u.boot.image = img.digests ∧ u.boot.ownImage = none ∧
        SameBut [.out, .now, .boot] [.FWP_STATUS, .FWP_CTRL, .FWP_FW_VERSION, .FWP_SVN] s u)) ∧
    (∀ img, s.starting = true → s.bootStep = 6 → s.bit .FWP_STATUS 5 = false → s.verifyImage s.imageSource img ≠ 0 →
      Gives (.firmwareVerified k img) s (fun u => u.devState = 2 ∧ u.fld .FWP_STATUS 16 8 = 2 ∧
        u.fld .FWP_STATUS 8 8 = s.verifyImage s.imageSource img)) ∧
    (∀ st (n : Fin 5) (w : BitVec 5), s.starting = true → s.bootStep = 7 → (s.boot.failed.join (s.tested st)).passes = true →
      s.bit .HKA_STATUS 0 = false →
      Gives (.firmwareStarted k st n w) s (fun u => u.bootStep = 8 ∧ u.tide.running = true ∧
        u.boot = { s.boot with fwRuns := true, pwrRan := true, schRan := true, failed := s.boot.failed.join (s.tested st) } ∧
        u.num .PWR_LIMIT = s.part.tdp ∧ u.bit .HKA_STATUS 0 = true ∧ u.pwr = { s.pwr with calibrating := some 0, monitors := w } ∧
        (s.tide.running = false → s.aon.warm = true →
          u.num .TDE_TIDE = (s.aon.keptTide.toNat + (max s.now k - s.aon.keptTime) / s.aon.keptLen) % 2 ^ 32) ∧
        SameBut [.out, .now, .aon, .boot, .mram, .tide, .phys, .hlt, .pwr] [.TDE_TIDE, .WGT_CAPS, .KVC_CAPS,
          .KVC_RESERVE_BYTES, .KVC_BUDGET_BYTES, .SRV_CAPS, .BPL_CAPS, .FAB_CAPS, .FWP_STATUS, .FWP_ST_RESULT,
          .FWP_ST_HBM_FAIL, .FWP_ST_LINK_FAIL, .FWP_ST_CLUSTER_FAIL, .HLT_CAPS, .PWR_CAPS, .PWR_LIMIT, .HKA_CTRL,
          .HKA_STATUS, .CNT_CAPS] s u)) ∧
    (∀ st (n : Fin 5) (w : BitVec 5), s.starting = true → s.bootStep = 7 → (s.boot.failed.join (s.tested st)).passes = false →
      Gives (.firmwareStarted k st n w) s (fun u => u.devState = 2 ∧ u.fld .FWP_STATUS 16 8 = 1)) ∧
    (∀ failed, s.starting = true → s.bootStep = 10 →
      (s.boot.failed.join (s.tested { cores := failed.map (fun q => (q, CoreTest.pan)) })).passes = true →
      Gives (.startRakeDone k failed) s (fun u => u.bootStep = 11 ∧
        ∀ i, (u.pans.get i).a.state = .active ∧ (u.pans.get i).b.state = .stale ∧
          (u.pans.get i).a.content = .start ∧ (u.pans.get i).b.content = .start ∧
          (u.pans.get i).baseWrites = (s.pans.get i).baseWrites + 2 ∧
          (u.pans.get i).baseRakes = (s.pans.get i).baseRakes + 2)) ∧
    (∀ failed, s.starting = true → s.bootStep = 10 →
      (s.boot.failed.join (s.tested { cores := failed.map (fun q => (q, CoreTest.pan)) })).passes = false →
      Gives (.startRakeDone k failed) s (fun u => u.devState = 2 ∧ u.fld .FWP_STATUS 16 8 = 1)) ∧
    (s.starting = true → s.tide.running = false → s.qps.cells = [] → s.qps.dflt.state = .free →
      Gives (.startupPublish k) s (fun u => SameBut [.out, .now, .srv] [] s u)) ∧
    ((s.starting = false ∨ s.tide.running = true) → Gives (.startupPublish k) s (fun u => SameBut [.out, .now] [] s u))

/-- What a reset of every function leaves (R371, R372): SR-IOV disabled, the physical function's enables 0, every ring and
session gone, loads in progress ended; tides, pans, fabric, loaded weights and plans, MRAM as they were. -/
abbrev FnsReset (s u : State) : Prop :=
  u.hif.numVfs = 0 ∧ u.num .HIF_INT_ENABLE = 0 ∧ u.num .SRV_INT_ENABLE = 0 ∧ u.wgt.load = none ∧
  (∀ e ∈ s.qps.cells, s.fnOf e.1 ≤ s.hif.numVfs → u.qp e.1 = {}) ∧
  SameBut [.out, .now, .boot, .cores, .pool, .wgt, .qps, .srv, .plans, .fab, .hif, .evt, .mem]
    ((blocksOfFn 0).flatMap (fun b => b.regs.filter Reg.resets) ++ [.WGT_LOAD_CTRL, .WGT_LOAD_STATUS, .BPL_CTRL, .BPL_STATUS,
      .CRE_SWITCHES, .CRE_SYNC_WAIT_NS, .CRE_HOIST_WAIT_NS, .CRE_LANE_WAIT_NS, .CRE_FENCE_NS, .CNT_LINK_TX]) s u

/-- R369 to R372, R374 (Table 12.3), R399: the resets of every function, in READY and SAFE, disable SR-IOV and return the
enables of the physical function to 0; before, they do nothing. PERST# beside it, and the resets of one virtual function
and of those that SR-IOV loses. Which registers a reset returns is Table 0.5's RW and W1C (log 47). -/
def Obligations.Resets : Prop :=
  ∀ (s : State) (k : Stamp),
    ((s.ready = true ∨ s.safe = true) → Gives (.hotReset k) s (fun u => FnsReset s u)) ∧
    ((s.ready = true ∨ s.safe = true) → Gives (.pcieLinkDisable k) s (fun u => FnsReset s u)) ∧
    ((s.ready = true ∨ s.safe = true) → Gives (.pcieLinkDown k) s (fun u => FnsReset s u)) ∧
    ((s.ready = true ∨ s.safe = true) → Gives (.pfFlr k) s (fun u => FnsReset s u)) ∧
    (∀ c ∈ [Instr.hotReset k, .pcieLinkDisable k, .pcieLinkDown k, .pfFlr k], s.ready = false → s.safe = false →
      Gives c s (fun u => SameBut [.out, .now] [] s u)) ∧
    Gives (.perstAssert k) s (fun u => u.aon.perst = true ∧ (s.ready = true ∨ s.safe = true → u.hif.numVfs = 0) ∧
      u.bit .AON_STATUS 9 = false ∧ u.mram = s.mram ∧ u.tide = s.tide ∧ u.pans = s.pans ∧ u.fab = s.fab) ∧
    (s.aon.perst = true → s.aon.phase = .asleep → ∀ v,
      Gives (.perstDeassert k v) s (fun u => u.aon.perst = false ∧ u.aon.phase = .seqVio ∧ u.aon.pwrEn = true ∧
        u.aon.warm = true ∧ u.fld .AON_STATUS 0 3 = 3 ∧ SameBut [.out, .now, .aon] [.AON_STATUS, .AON_WAKE_IGNORED] s u)) ∧
    (s.aon.perst = true → s.aon.phase = .stopped → s.aon.perstCycle = true → ∀ v : BitVec 10, v.toNat * 150 < 110 * 1024 →
      Gives (.perstDeassert k v) s (fun u => u.aon.phase = .seqVio ∧ u.aon.warm = true ∧ u.aon.fromSleep = false ∧
        u.fld .AON_STATUS 0 3 = 3 ∧ SameBut [.out, .now, .aon] [.AON_STATUS, .AON_WAKE_IGNORED] s u)) ∧
    (s.aon.perst = true → s.aon.phase = .stopped → s.aon.perstCycle = true → ∀ v : BitVec 10, 110 * 1024 ≤ v.toNat * 150 →
      Gives (.perstDeassert k v) s (fun u => u.aon.phase = .stopped ∧ u.aon.perst = false ∧
        u.num .AON_WAKE_IGNORED = (s.num .AON_WAKE_IGNORED + 1) % 2 ^ 32 ∧
        SameBut [.out, .now, .aon] [.AON_STATUS, .AON_WAKE_IGNORED] s u)) ∧
    (∀ fn : FnId, s.fnLive fn.val = true → fn.val ≠ 0 →
      Gives (.vfFlr k fn) s (fun u => u.num .SRV_INT_ENABLE fn.val = 0 ∧ u.num .SRV_CMDS fn.val = 0 ∧
        u.num .HIF_DMA_ERRORS fn.val = 0 ∧ u.hif.numVfs = s.hif.numVfs ∧
        u.mram = s.mram ∧ u.aon = s.aon ∧ u.tide = s.tide ∧ u.wgt = s.wgt ∧ u.plans = s.plans ∧ u.fab = s.fab)) ∧
    (∀ n : W16, s.powered = true →
      Gives (.vfEnable k n) s (fun u => u.hif.numVfs = min 64 n.toNat ∧
        u.mram = s.mram ∧ u.aon = s.aon ∧ u.tide = s.tide ∧ u.wgt = s.wgt ∧ u.plans = s.plans ∧ u.fab = s.fab))

/-- R463, R465, R467, R472, Tables 15.4 and 15.14: what the always-on domain does by itself. A trip or the end of the
entry into Deep sleep takes every supply but VAON: the registers outside the domain are as at a cold start, and MRAM is
kept; a wake source starts the device warm and is named by WAKE_REASON. -/
def Obligations.AlwaysOnDomain : Prop :=
  ∀ (s : State) (k : Stamp),
    (s.aon.phase ≠ .vaonOff → Gives (.hardwareTrip k) s (fun u => u.aon.phase = .stopped ∧ u.aon.thermtrip = true ∧
      u.aon.pwrEn = false ∧ u.aon.vrEn = false ∧ u.bit .AON_STATUS 4 = true ∧ u.bit .AON_STATUS 7 = false ∧
      u.mram = s.mram ∧ u.pending = s.pending ∧ u.part = s.part ∧
      ∀ r : Reg, r.info.block ≠ .aon → ∀ a b, u.reg r a b = Reg.resetAt r b)) ∧
    (s.aon.phase = .sleepGranted → Gives (.deepSleepPowerOff k) s (fun u => u.aon.phase = .asleep ∧
      u.num .AON_DEEP_SLEEPS = (s.num .AON_DEEP_SLEEPS + 1) % 2 ^ 32 ∧ u.aon.pwrEn = false ∧ u.aon.vrEn = false ∧
      u.mram = s.mram ∧ u.pending = s.pending ∧ u.part = s.part ∧
      ∀ r : Reg, r.info.block ≠ .aon → ∀ a b, u.reg r a b = Reg.resetAt r b)) ∧
    (s.aon.phase = .asleep → s.bit .AON_WAKE_EN 8 = true → s.num .AON_WAKE_TIME ≤ max s.now k * 32768 / 1000000000 →
      Gives (.timerWake k) s (fun u => u.aon.phase = .seqVio ∧ u.aon.pwrEn = true ∧ u.aon.warm = true ∧
        u.fld .AON_STATUS 0 3 = 1 ∧ SameBut [.out, .now, .aon] [.AON_STATUS] s u)) ∧
    (s.aon.phase = .asleep → s.part ≠ .jn8s → s.bit .AON_WAKE_EN 3 = true →
      Gives (.linkPresenceWake k) s (fun u => u.aon.phase = .seqVio ∧ u.aon.pwrEn = true ∧ u.aon.warm = true ∧
        u.fld .AON_STATUS 0 3 = 2 ∧ SameBut [.out, .now, .aon] [.AON_STATUS] s u)) ∧
    (∀ i : Fin 2, s.aon.phase = .asleep → s.bit .AON_WAKE_EN (5 + i.val) = true →
      Gives (.wakeIn k i) s (fun u => u.aon.phase = .seqVio ∧ u.aon.pwrEn = true ∧ u.aon.warm = true ∧
        u.fld .AON_STATUS 0 3 = 4 + i.val ∧ u.bit .AON_STATUS (10 + i.val) = false ∧
        SameBut [.out, .now, .aon] [.AON_STATUS] s u)) ∧
    (∀ w : W32, Serves s → w.getLsbD 0 = true →
      Gives (.aonClearLatches k 0 w) s (fun u => u.fld .AON_STATUS 3 2 = 0 ∧ u.aon.thermtrip = false ∧
        SameBut [.out, .now, .aon] [.AON_STATUS, .CNT_PCIE_BAR_WR] s u))

/-- A sequenced packet comes on an UP link as the next one of its sequence, in a version of the range, outside the states
in which the device waits for HBM (R334, R358, R461): it is accepted and acts. -/
abbrev Comes (s : State) (n : Nat) (h : PktHdr) : Prop :=
  (s.link n).st = .up ∧ h.seq = (s.link n).rxSeq ∧ 1 ≤ h.ver ∧ h.ver ≤ 2 ∧ s.inStandby = false

/-- It has been accepted: the sequence advances by one and the bytes count (R334, Table 16.9). -/
abbrev Received (s u : State) (n : Nat) (h : PktHdr) : Prop :=
  (u.link n).rxSeq = (s.link n).rxSeq + 1 ∧ (u.link n).st = .up ∧ Counts s u .CNT_LINK_RX (h.len * 16) 0 n

/-- R44 to R48, R55, R60, R65: the edge of a LOCAL source advances the index by one (an edge 0 leaves it), opens a tide of
one period and clears the marks of the closed one; the work phase; the seal; APPLY. Edge 0's instant after a start is the
model's reading (log 24).
R355, R356: what a marker does: the first valid one of a root edge gives the edge's time; a later one on another
plane more than 1 µs away is counted; one that is not valid does nothing but arrive. -/
def Obligations.EdgesAndMarkers : Prop :=
  (∀ (s : State) (k : Stamp),
    (s.powered = true → s.tide.running = true → (s.stopping = false ∨ s.tide.first = true) → s.fabricSource = false →
      Gives .tideEdge s (fun u =>
        u.num .TDE_TIDE = (s.num .TDE_TIDE + (if s.tide.first then 0 else 1)) % 2 ^ 32 ∧
        u.num .TDE_EDGE_TIME = s.tide.nextEdge % 2 ^ 64 ∧ u.tide.first = false ∧
        u.tide.len = u.num .TDE_PERIOD_ACT * 1000000 ∧ u.tide.nextEdge = s.tide.nextEdge + u.tide.len ∧
        u.tide.work = false ∧ u.tide.sealed = false ∧ u.tide.latched = false ∧ u.bit .TDE_INT_STATUS 0 = true ∧
        u.boot = s.boot ∧ u.part = s.part ∧ u.pending = s.pending)) ∧
    (s.powered = true → s.tide.running = true → s.tide.first = false → s.tide.work = false →
      Gives .workPhaseStart s (fun u => u.tide = { s.tide with work := true } ∧
        u.now = max s.now (s.num .TDE_EDGE_TIME + 200000) ∧
        SameBut [.out, .freeCtr, .now, .mram, .tide, .pans, .cores, .qps, .srv, .hif] [.KVC_STATUS, .KVC_INT_STATUS,
          .KVC_SLIDES, .KVC_PROMPT_PAUSE_TIDES, .KVC_GEN_SHORT, .CRE_SWITCHES, .CNT_KV_CHARGED, .CNT_T_KV_CHARGED, .CNT_T_SLIDES] s u)) ∧
    (s.powered = true → s.tide.running = true → s.tide.first = false → s.tide.latched = false →
      Gives .seal s (fun u => u.tide.latched = true ∧ u.num .TDE_LATCH_TIDE = s.num .TDE_TIDE % 2 ^ 32 ∧
        u.bit .TDE_INT_STATUS 1 = true ∧
        SameBut [.out, .now, .tide, .pans, .cores, .qps, .hif, .pwr, .evt] (RegBlock.cnt.regs ++ RegBlock.cntT.regs ++
          [.TDE_LATCH_TIDE, .TDE_INT_STATUS, .PAN_WRITE_ABORTS, .KVC_SPENT_LAST, .KVC_SPENT_GEN_LAST,
            .KVC_SPENT_PROMPT_LAST, .SYN_INT_STATUS, .PWR_TIDE_UJ]) s u)) ∧
    (∀ w : W32, Serves s → w.getLsbD 2 = true → ¬(w.toNat % 4 = 2 ∧ s.part = .jn8s) →
      Gives (.tdeApply k 0 w) s (fun u => u.bit .TDE_CTRL 2 = true ∧ u.fld .TDE_CTRL 0 2 = w.toNat % 4 ∧
        SameBut [.out, .now] [.TDE_CTRL, .CNT_PCIE_BAR_WR] s u)) ∧
    (∀ w : W32, Serves s → w.getLsbD 2 = true → w.toNat % 4 = 2 → s.part = .jn8s →
      Gives (.tdeApply k 0 w) s (fun u => SameBut [.out, .now] [.CNT_PCIE_BAR_WR] s u))) ∧
  (∀ (s : State) (k : Stamp) (n : LinkId) (h : PktHdr) (m : Marker), Comes s n.val h →
    (s.markerValid n.val m = true → (∀ p, s.tide.firstMarker ≠ some (m.tide, p)) →
      Gives (.tideMarker k n h m) s (fun u => u.tide.marker = some ⟨max s.now k - m.delayPs / 1000, m.tide⟩ ∧
        u.tide.fresh = true ∧ u.tide.firstMarker = some (m.tide, n.val / 6) ∧ Received s u n.val h ∧
        SameBut [.out, .freeCtr, .now, .tide, .fab] [.CNT_LINK_TX, .CNT_LINK_RX] s u)) ∧
    (∀ p r, s.markerValid n.val m = true → s.tide.firstMarker = some (m.tide, p) → s.tide.marker = some r → p ≠ n.val / 6 →
      1000 < ((max s.now k : Nat) - (m.delayPs / 1000 : Nat) - (r.time : Int) : Int).natAbs →
      Gives (.tideMarker k n h m) s (fun u => u.num .FAB_MARKER_SKEW = (s.num .FAB_MARKER_SKEW + 1) % 2 ^ 64 ∧
        u.tide = s.tide ∧ Received s u n.val h ∧
        SameBut [.out, .freeCtr, .now, .fab] [.FAB_MARKER_SKEW, .CNT_LINK_TX, .CNT_LINK_RX] s u)) ∧
    (s.markerValid n.val m = false → Gives (.tideMarker k n h m) s (fun u => Received s u n.val h ∧
      SameBut [.out, .now, .fab] [.CNT_LINK_TX, .CNT_LINK_RX] s u)))

/-! ### Products -/

/-- The counters of Table 16.8 that bytes on the move advance (R24, R496). -/
abbrev traffic : List Reg := [.CNT_SRAM_BYTES, .CNT_CLUSTER_BYTES, .CNT_DIE_NET_BYTES, .CNT_D2D_CC, .CNT_D2D_HOUSE, .CNT_D2D_LINK,
  .CNT_HBM_RD, .CNT_HBM_WR]

/-- What contexts count that wait or run again (Table 10.10). -/
abbrev waits : List Reg := [.CRE_SWITCHES, .CRE_SYNC_WAIT_NS, .CRE_HOIST_WAIT_NS, .CRE_LANE_WAIT_NS, .CRE_FENCE_NS]

/-- The pan is free for a product: its block is here, no product waits on the sluice, and the lane holds fewer than two that
await q (R95, R122). -/
abbrev Accepts (s : State) (k : Stamp) (pan : PanId) (b : Block) : Prop :=
  (s.pan pan.val).block = some b ∧ (s.enter k).panWorks pan.val = true ∧
  ((s.pan pan.val).streamed && (s.pan pan.val).active.beforeEdge) = false ∧ (s.pan pan.val).stallFrom = none ∧
  ((s.pan pan.val).flights.filter Flight.awaitsQ).length < 2

/-- The product `p` is the newest flight `f` of the pan: its vector and scale code are what core SRAM holds, its rows are
selected and its passes are to do, or it is computed in reference arithmetic (R73, R77, R81, R119, R153, R164). -/
abbrev Issued (s : State) (k : Stamp) (pan : PanId) (p : ProductCmd) (b : Block) (f : Flight) : Prop :=
  f.prod.x = (s.memRead (sramAddr (pan.val / 16) p.x) 1024).map (fun c => c.toInt) ∧
  f.prod.sx = BitVec.ofNat 16 (leNat (s.memRead (sramAddr (pan.val / 16) p.sx) 2)) ∧
  f.prod.last = p.last ∧ f.prod.add = p.add ∧ f.prod.tile = p.tile ∧ f.prod.owner = p.owner ∧
  f.t0 = max s.now k ∧ f.q = none ∧ f.recs = [] ∧ f.seq = (s.core (pan.val / 16)).issued ∧
  f.reference = ((s.pan pan.val).withdrawn || s.uncarried pan.val || s.inReference p.owner) ∧
  f.todo = (if f.reference then [] else b.mainPasses) ∧ f.taken = (if f.reference then [] else b.taken f.prod.x) ∧
  f.spilled = (if f.reference then [] else b.spilled f.prod.x)

/-- R73, R77, R81, R98, R119, R122, R137, R153, R164: a product starts on a working pan whose lane holds fewer than two that
await q, as the pan's last flight; sets that hold another context's tile are saved before; with two that await q, or with a
save that has to wait, it does not start and its context waits; a vector outside core SRAM is refused. -/
def Obligations.ProductsStart : Prop :=
  ∀ (s : State) (k : Stamp) (pan : PanId) (p : ProductCmd) (b : Block),
    (p.wellFormed = true → Accepts s k pan b → (s.pan pan.val).foreign p.owner = false →
      Gives (.productIssue k pan p) s (fun u =>
        (∃ f : Flight, (u.pan pan.val).flights = (s.pan pan.val).flights ++ [f] ∧ Issued s k pan p b f ∧
          f.level = (s.pan pan.val).startLevel (s.pan pan.val).flights.getLast? f.prod) ∧
        (∀ q, q ≠ pan.val → u.pan q = s.pan q) ∧
        SameBut [.out, .now, .pans, .cores] [.SLC_DYN_ROWS, .SLC_FETCH_MISS, .CRE_HOIST_DEMAND] s u)) ∧
    (p.wellFormed = true → Accepts s k pan b → (s.pan pan.val).foreign p.owner = true → (s.pan pan.val).saveWaits = false →
      Gives (.productIssue k pan p) s (fun u =>
        (∃ f : Flight, (u.pan pan.val).flights = [f] ∧ Issued s k pan p b f ∧ f.level = 0) ∧
        (u.pan pan.val).set0.valid = false ∧ (u.pan pan.val).set1.valid = false ∧
        ((s.pan pan.val).set0.valid = true → ∃ r ∈ u.saved, r.target = .lane pan 0 ∧ r.owner = (s.pan pan.val).set0.owner) ∧
        ((s.pan pan.val).set1.valid = true → ∃ r ∈ u.saved, r.target = .lane pan 1 ∧ r.owner = (s.pan pan.val).set1.owner) ∧
        (∀ q, q ≠ pan.val → u.pan q = s.pan q) ∧
        SameBut [.out, .now, .pans, .cores, .saved, .mem]
          ([.COR_SAVES, .SLC_DYN_ROWS, .SLC_FETCH_MISS, .CRE_HOIST_DEMAND] ++ traffic) s u)) ∧
    (p.wellFormed = true → (s.pan pan.val).block = some b → (s.enter k).panWorks pan.val = true →
      ((s.pan pan.val).streamed && (s.pan pan.val).active.beforeEdge) = false →
      ((s.pan pan.val).stallFrom ≠ none ∨ 2 ≤ ((s.pan pan.val).flights.filter Flight.awaitsQ).length) →
      Gives (.productIssue k pan p) s (fun u =>
        u.pan pan.val = { s.pan pan.val with stallFrom := some ((s.pan pan.val).stallFrom.getD (max s.now k)) } ∧
        (∀ x, s.ctxOf (pan.val / 16) p.owner = some x → ((u.core (pan.val / 16)).ctx x).state = .waiting ∧
          ((u.core (pan.val / 16)).ctx x).reason = some .lane) ∧
        (∀ q, q ≠ pan.val → u.pan q = s.pan q) ∧ SameBut [.out, .now, .pans, .cores] [.CRE_SWITCHES] s u)) ∧
    (p.wellFormed = true → Accepts s k pan b → (s.pan pan.val).foreign p.owner = true → (s.pan pan.val).saveWaits = true →
      Gives (.productIssue k pan p) s (fun u =>
        (∀ x, s.ctxOf (pan.val / 16) p.owner = some x → ((u.core (pan.val / 16)).ctx x).state = .waiting ∧
          ((u.core (pan.val / 16)).ctx x).reason = some .save) ∧
        SameBut [.out, .now, .cores] [.CRE_SWITCHES] s u)) ∧
    (p.wellFormed = false → exec (.productIssue k pan p) s = .refused .illFormed)

/-- R75, R82 to R87, R115, R123, R131: the codes of a pass are the converter's transfer of the ideal sums with the departures
given; a delivered pass is recorded in the flight that converts, its mismatching groups count, and the spill passes come
after the last main one; a saturated pass of more than 64 rows is halved and counted; one of 64 rows or fewer sends the
product to reference arithmetic and is counted. -/
def Obligations.Passes : Prop :=
  ∀ (s : State) (k : Stamp) (pan : PanId) (dev : List Int) (b : Block) (f : Flight) (fs : List Flight) (d : PassDesc)
    (ds : List PassDesc) (codes : List Byte),
    (s.pan pan.val).block = some b → (s.pan pan.val).flights = f :: fs → f.todo = d :: ds →
    codes = b.passCodes (s.pan pan.val).active.spares (b.pulses f.prod.x f.level f.taken f.spilled d) dev →
    (passSaturated (s.pan pan.val).active.spares b.colsUsed codes = false → (ds ≠ [] ∨ d.spill = true ∨ f.spilled = []) →
      ((List.range 16).filter (fun g => checkMismatch b.colsUsed (laneW (s.pan pan.val).active.coefs
        ((s.pan pan.val).active.coefDefault pan.val (s.pan pan.val).activeB) (s.pan pan.val).active.spares codes)
        (b.digitMag f.prod.x f.level f.taken f.spilled d) g)) = [] →
      Gives (.passComplete k pan dev) s (fun u =>
        (∃ r : PassRec, r.desc = d ∧ r.codes = codes ∧ r.p = b.digitSum f.prod.x f.level f.taken f.spilled d ∧
          (u.pan pan.val).flights = (if ds = [] then (startAgain (max s.now k - 64) (s.core (pan.val / 16)).issued
            ({ f with todo := ds, recs := f.recs ++ [r], passes := f.passes + 1, lastCode := max s.now k } :: fs)).1
          else { f with todo := ds, recs := f.recs ++ [r], passes := f.passes + 1, lastCode := max s.now k } :: fs)) ∧
        (∀ q, q ≠ pan.val → u.pan q = s.pan q) ∧ SameBut [.out, .now, .pans, .cores] [] s u)) ∧
    (passSaturated (s.pan pan.val).active.spares b.colsUsed codes = false → ds = [] → d.spill = false → f.spilled ≠ [] →
      Gives (.passComplete k pan dev) s (fun u =>
        (∃ g : Flight, (u.pan pan.val).flights = g :: fs ∧ g.todo = b.spillPasses f.spilled ∧ g.passes = f.passes + 1) ∧
        Counts s u .PAN_SPILL_PASSES 1 pan.val ∧ Counts s u .CNT_SPILL_PASSES 1 ∧
        Counts s u .SLC_SPILL_ROWS f.spilled.length (pan.val / 16) ∧ Counts s u .COR_SPILL_PASSES 1 (pan.val / 16))) ∧
    (passSaturated (s.pan pan.val).active.spares b.colsUsed codes = false →
      Gives (.passComplete k pan dev) s (fun u =>
        Counts s u .PAN_CHK_MISMATCH ((List.range 16).filter (fun g => checkMismatch b.colsUsed (laneW
          (s.pan pan.val).active.coefs ((s.pan pan.val).active.coefDefault pan.val (s.pan pan.val).activeB)
          (s.pan pan.val).active.spares codes) (b.digitMag f.prod.x f.level f.taken f.spilled d) g)).length pan.val)) ∧
    (passSaturated (s.pan pan.val).active.spares b.colsUsed codes = true → 64 < d.rows →
      Gives (.passComplete k pan dev) s (fun u =>
        (∃ g : Flight, (u.pan pan.val).flights = g :: fs ∧ g.todo = d.halves ++ ds ∧ g.recs = f.recs ∧
          g.level = f.level ∧ g.passes = f.passes + 1) ∧
        Counts s u .PAN_SAT_PASSES 2 pan.val ∧ Counts s u .CNT_SAT_PASSES 2 ∧
        SameBut [.out, .now, .pans] [.PAN_SAT_EVENTS, .PAN_SAT_PASSES, .CNT_SAT_EVENTS, .CNT_SAT_PASSES, .CNT_LAYER] s u)) ∧
    (passSaturated (s.pan pan.val).active.spares b.colsUsed codes = true → d.rows ≤ 64 →
      Gives (.passComplete k pan dev) s (fun u =>
        (∃ g gs, (u.pan pan.val).flights = g :: gs ∧ g.reference = true ∧ g.todo = [] ∧ g.recs = [] ∧ gs.length = fs.length) ∧
        Counts s u .PAN_SAT_FAULTS 1 pan.val ∧ Counts s u .CNT_SAT_FAULTS 1 ∧ u.tide = s.tide ∧ u.fab = s.fab ∧
        u.saved = s.saved ∧ u.clusters = s.clusters ∧ u.mem = s.mem))

/-- R117 to R122, R125 to R131: q of the oldest product that awaits it, in the order of issue on the core; stage 5 into the
working set, its repeat at the next level on an overflow below level 3, and its clamping at level 3. -/
def Obligations.SluiceAndStageFive : Prop :=
  ∀ (s : State) (k : Stamp) (pan : PanId) (b : Block) (f : Flight) (fs : List Flight),
    (s.pan pan.val).block = some b → (s.pan pan.val).flights = f :: fs →
    (f.awaitsQ = true → f.fetching = 0 → s.sluiceTurn (pan.val / 16) f.seq = true →
      Gives (.sluiceQReady k pan) s (fun u =>
        (u.pan pan.val).flights = { f with
          q := some ((List.range b.colsUsed).map (fun j => b.sluice f.prod.x f.level f.taken j)), qAt := max s.now k } :: fs ∧
        Counts s u .SLC_MACS ((b.statics.length + f.taken.length) * b.colsUsed) (pan.val / 16) ∧
        Counts s u .SLC_BUSY_CYCLES (sluiceCycles (b.statics.length + f.taken.length) b.colsUsed) (pan.val / 16) ∧
        (∀ q, q ≠ pan.val → u.pan q = s.pan q) ∧
        SameBut [.out, .now, .pans] [.SLC_MACS, .SLC_BUSY_CYCLES, .CNT_SLUICE_MACS] s u)) ∧
    (f.ready = true → (s.pan pan.val).workSet.use = .working → f.prod.last = false →
      (stage5 (f.prod.add && (s.pan pan.val).workSet.valid) (s.pan pan.val).workSet.acc (f.z b)).all fits32 = true →
      Gives (.stage5Complete k pan) s (fun u => (u.pan pan.val).flights = fs ∧ (u.pan pan.val).stallFrom = none ∧
        (u.pan pan.val).workSet.acc =
          stage5 (f.prod.add && (s.pan pan.val).workSet.valid) (s.pan pan.val).workSet.acc (f.z b) ∧
        (u.pan pan.val).workSet.shift = f.level ∧ (u.pan pan.val).workSet.valid = true ∧
        (u.pan pan.val).workSet.cols = b.colsUsed ∧ (u.pan pan.val).workSet.tile = f.prod.tile ∧
        (u.pan pan.val).workSet.owner = f.prod.owner ∧
        Counts s u .COR_PRODUCTS 1 (pan.val / 16) ∧ Counts s u .SLC_FETCH_WAIT_NS f.fetchWait (pan.val / 16) ∧
        SameBut [.out, .now, .pans, .cores, .evt] ([.PAN_PRODUCTS, .COR_CAPTURE_CTRL, .COR_PRODUCTS, .COR_ADD_EMPTY,
          .SLC_FETCH_WAIT_NS, .SLC_LANE_WAIT_NS, .CNT_PRODUCTS, .CNT_LAYER, .CNT_T_PRODUCTS] ++ waits) s u)) ∧
    (f.ready = true → (s.pan pan.val).workSet.use = .working → f.level < 3 →
      (stage5 (f.prod.add && (s.pan pan.val).workSet.valid) (s.pan pan.val).workSet.acc (f.z b)).all fits32 = false →
      Gives (.stage5Complete k pan) s (fun u =>
        (∃ g gs, (u.pan pan.val).flights = g :: gs ∧ g.level = f.level + 1 ∧ g.prod = f.prod ∧ g.recs = [] ∧
          gs.length = fs.length) ∧
        Counts s u .COR_OVF_REPEATS 1 (pan.val / 16) ∧ Counts s u .CNT_OVF_REPEATS 1)) ∧
    (f.ready = true → (s.pan pan.val).workSet.use = .working → 3 ≤ f.level → f.prod.last = false →
      (stage5 (f.prod.add && (s.pan pan.val).workSet.valid) (s.pan pan.val).workSet.acc (f.z b)).all fits32 = false →
      Gives (.stage5Complete k pan) s (fun u => (u.pan pan.val).flights = fs ∧
        (u.pan pan.val).workSet.acc =
          (stage5 (f.prod.add && (s.pan pan.val).workSet.valid) (s.pan pan.val).workSet.acc (f.z b)).map clamp32 ∧
        (u.pan pan.val).workSet.sat = true ∧
        Counts s u .COR_OVF_SAT 1 (pan.val / 16) ∧ Counts s u .CNT_OVF_SAT 1))

/-- R125, R127, R132, R137 to R139: a drained set is free and reaches the core's combine; a save writes the set's or the
slot's record and empties it; a restore takes back what the record's bytes say; ARM of a capture. -/
def Obligations.SetsDrainSaveRestore : Prop :=
  ∀ (s : State) (k : Stamp) (pan : PanId),
    (∀ a tile lanes, a = (s.pan pan.val).drainSet → a.use = .draining → s.tileOf pan.val a.layer = some (tile, lanes) → 1 < lanes →
      (s.core (pan.val / 16)).combine = [] →
      Gives (.accumulatorDrainDone k pan) s (fun u => (u.pan pan.val).workSet.use ≠ .draining ∧
        (u.core (pan.val / 16)).combine = [{
          tile := a.tile, layer := a.layer, lanes := 1, sat := a.sat,
          sums := (List.range 512).map (fun j => 0 + a.acc.getD j 0 * 4 ^ a.shift) }] ∧
        (∀ q, q ≠ pan.val → u.pan q = s.pan q) ∧
        SameBut [.out, .now, .pans, .cores] (.COR_DRAIN_STALL_NS :: waits) s u)) ∧
    (∀ i : Fin 2, (s.pan pan.val).flights = [] → ((s.pan pan.val).setAt i.val).use ≠ .draining → pan.val < s.part.pans →
      Gives (.accSave k (.lane pan i)) s (fun u =>
        (∃ r : SaveRec, u.saved = r :: s.saved.filter (fun x => x.target != .lane pan i) ∧ r.target = .lane pan i ∧
          r.owner = ((s.pan pan.val).setAt i.val).owner ∧ r.layer = ((s.pan pan.val).setAt i.val).layer ∧
          u.memRead r.addr 2112 = laneRecord pan.val i.val ((s.pan pan.val).setAt i.val) s.tideIdx ∧
          (∀ a, a < r.addr ∨ r.addr + 2112 ≤ a → u.memRead a 1 = s.memRead a 1)) ∧
        (u.pan pan.val).setAt i.val = { use := ((s.pan pan.val).setAt i.val).use } ∧
        (u.pan pan.val).setAt (1 - i.val) = (s.pan pan.val).setAt (1 - i.val) ∧
        Counts s u .COR_SAVES 1 (pan.val / 16) ∧ (∀ q, q ≠ pan.val → u.pan q = s.pan q) ∧
        SameBut [.out, .now, .pans, .cores, .saved, .mem] (.COR_SAVES :: traffic) s u)) ∧
    (∀ (c : ClusterId) (i : Fin 64), (s.slot c.val i.val).used = true →
      Gives (.accSave k (.slot c i)) s (fun u => u.slot c.val i.val = {} ∧
        (∃ r : SaveRec, u.saved = r :: s.saved.filter (fun x => x.target != .slot c i) ∧ r.target = .slot c i ∧
          r.owner = (s.slot c.val i.val).owner ∧ u.memRead r.addr 4128 = slotRecord i.val (s.slot c.val i.val) s.tideIdx ∧
          (∀ a, a < r.addr ∨ r.addr + 4128 ≤ a → u.memRead a 1 = s.memRead a 1)) ∧
        SameBut [.out, .now, .clusters, .saved, .mem] (.COR_SAVES :: traffic) s u)) ∧
    (∀ (i : Fin 2) r, s.saved.find? (fun r => r.target == SaveTarget.lane pan i) = some r →
      Gives (.accRestore k (.lane pan i)) s (fun u =>
        (u.pan pan.val).setAt i.val = laneOf (s.memRead r.addr 2112) r ∧ (∀ x ∈ u.saved, x.target ≠ .lane pan i) ∧
        Counts s u .COR_RESTORES 1 (pan.val / 16) ∧ (∀ q, q ≠ pan.val → u.pan q = s.pan q) ∧
        SameBut [.out, .now, .pans, .cores, .saved] (.COR_RESTORES :: traffic ++ waits) s u)) ∧
    (∀ (c : ClusterId) (i : Fin 64) r, s.saved.find? (fun r => r.target == SaveTarget.slot c i) = some r →
      Gives (.accRestore k (.slot c i)) s (fun u => u.slot c.val i.val = slotOf (s.memRead r.addr 4128) r ∧
        (∀ x ∈ u.saved, x.target ≠ .slot c i) ∧ SameBut [.out, .now, .clusters, .saved] (.COR_RESTORES :: traffic) s u)) ∧
    (∀ (core : CoreId) (w : W32), Serves s → core.val < s.part.cores → w.getLsbD 0 = true →
      Gives (.captureArm k 0 core w) s (fun u => u.fld .COR_CAPTURE_CTRL 0 3 core.val = 1 ∧
        u.fld .COR_CAPTURE_CTRL 4 4 core.val = w.toNat / 16 % 16 ∧
        (∀ c, c ≠ core.val → u.reg .COR_CAPTURE_CTRL c = s.reg .COR_CAPTURE_CTRL c) ∧
        SameBut [.out, .now] [.COR_CAPTURE_CTRL, .CNT_PCIE_BAR_WR] s u))

/-! ### Beds -/

/-- R90 to R104, R181, R526, Tables 3.4, 3.5, 3.7: a write begins for the highest claim, unless it is a host-tier layer's
whose copy is not in the bounce region; it ends, once hoist 1 has staged all of the content, WRITTEN or READY by the need
of a rake, and gives way to a higher claim; PAN_CTRL's requests claim the pan's content. -/
def Obligations.BedWrites : Prop :=
  ∀ (s : State) (k : Stamp) (pan : PanId),
    (∀ c cs, (s.pan pan.val).claims = c :: cs → (s.pan pan.val).serving = none → (s.pan pan.val).shadow.writable = true →
      (s.enter k).bedWork pan.val = true → s.tierMissing pan.val c.what = none →
      ((s.pan pan.val).shadow.state = .ready → (s.pan pan.val).shadow.content ≠ c.what) →
      Gives (.bedWriteStart k pan) s (fun u => (u.pan pan.val).shadow.state = .writing ∧
        (u.pan pan.val).shadow.content = c.what ∧ (u.pan pan.val).serving = some c ∧ (u.pan pan.val).claims = cs ∧
        (u.pan pan.val).active = (s.pan pan.val).active ∧ (u.pan pan.val).activeB = (s.pan pan.val).activeB ∧
        (∀ q, q ≠ pan.val → u.pan q = s.pan q) ∧ SameBut [.out, .now, .pans, .hlt] [] s u)) ∧
    (∀ c cs, (s.pan pan.val).claims = c :: cs → s.tierMissing pan.val c.what ≠ none →
      Gives (.bedWriteStart k pan) s (fun u => SameBut [.out, .now] [] s u)) ∧
    ((s.pan pan.val).shadow.state = .writing → bedBytes ≤ (s.pan pan.val).stagedIn →
      (∀ c, (s.pan pan.val).serving = some c → c.what ≠ .none) →
      Gives (.bedWriteComplete k pan) s (fun u =>
        (u.pan pan.val).shadow.state = (if (s.pan pan.val).shadow.needsRake (s.pan pan.val).serving s.tideIdx
          then .written else .ready) ∧
        (u.pan pan.val).shadow.age = 0 ∧ (u.pan pan.val).shadow.content = (s.pan pan.val).shadow.content ∧
        (u.pan pan.val).shadow.loaded = s.blockFor (s.pan pan.val).shadow.content ∧
        (u.pan pan.val).stagedIn = 0 ∧ (u.pan pan.val).active = (s.pan pan.val).active ∧
        Counts s u .PAN_BED_WRITES 1 pan.val ∧ Counts s u .CNT_PAN_WRITE_BYTES 262144 ∧
        (∀ q, q ≠ pan.val → u.pan q = s.pan q) ∧
        SameBut [.out, .now, .pans, .wgt, .plans, .hif] [.PAN_BED_WRITES, .WGT_INT_STATUS, .WGT_STREAM_BYTES,
          .BPL_INT_STATUS, .CNT_PAN_WRITE_BYTES] s u)) ∧
    ((s.pan pan.val).stagedIn < bedBytes → Gives (.bedWriteComplete k pan) s (fun u => SameBut [.out, .now] [] s u)) ∧
    (∀ c d, (s.pan pan.val).shadow.state = .writing → (s.pan pan.val).serving = some d → d.what ≠ .none →
      (s.pan pan.val).claims = [c] → c.rank < d.rank →
      Gives (.bedWriteAbort k pan) s (fun u => (u.pan pan.val).shadow.state = .empty ∧
        (u.pan pan.val).serving = none ∧ (u.pan pan.val).claims = [c, d] ∧ Counts s u .PAN_WRITE_ABORTS 1 pan.val ∧
        (∀ q, q ≠ pan.val → u.pan q = s.pan q) ∧ SameBut [.out, .now, .pans] [.PAN_WRITE_ABORTS] s u)) ∧
    (∀ (w : W32) c, Serves s → pan.val < s.part.pans → (s.pan pan.val).currentContent s.tierLayers = some c → w.getLsbD 0 = true →
      Gives (.refreshReq k 0 pan w) s (fun u =>
        (∃ d ∈ (u.pan pan.val).claims, d.rank = 4 ∧ d.what = c ∧ d.refreshReq = true) ∧
        (∀ q, q ≠ pan.val → u.pan q = s.pan q) ∧ SameBut [.out, .now, .pans] [.CNT_PCIE_BAR_WR] s u)) ∧
    (∀ (w : W32) c, Serves s → pan.val < s.part.pans → (s.pan pan.val).currentContent s.tierLayers = some c → w.getLsbD 1 = true →
      Gives (.rakeReq k 0 pan w) s (fun u =>
        (∃ d ∈ (u.pan pan.val).claims, d.rank = 5 ∧ d.what = c ∧ d.rake = true ∧ d.rakeReq = true) ∧
        (∀ q, q ≠ pan.val → u.pan q = s.pan q) ∧ SameBut [.out, .now, .pans] [.CNT_PCIE_BAR_WR] s u))

/-- The least-squares fit of what a rake's patterns gave on a pan's shadow bed (R102). -/
abbrev raked (s : State) (pan : PanId) (b : Block) (d : RakeData) : Nat → Option ColFit :=
  b.rakeFit (s.pan pan.val).shadow.spares (b.rakeRun (s.pan pan.val).shadow.spares d.patterns 8192 b.rakePasses d.devs).1

/-- R94, R95, R98, R101 to R104, R176, R178, R428: a rake of a WRITTEN shadow; its end READY with the coefficients and the
residual of the fit, or programmed again after a first failure; its abort; the swap of a streamed pan, and its wait. -/
def Obligations.RakesAndSwaps : Prop :=
  ∀ (s : State) (k : Stamp) (pan : PanId),
    (∀ c, (s.pan pan.val).rakeClaim = some c → (s.pan pan.val).shadow.state = .written → (s.enter k).bedWork pan.val = true →
      s.coreRakes (pan.val / 16) = false →
      Gives (.rakeStart k pan) s (fun u => (u.pan pan.val).shadow.state = .raking ∧ (u.pan pan.val).serving = some c ∧
        (∀ q, q ≠ pan.val → u.pan q = s.pan q) ∧ SameBut [.out, .now, .pans, .cores] [.CRE_SWITCHES] s u)) ∧
    (∀ (d : RakeData) b, (s.pan pan.val).shadow.state = .raking → (s.pan pan.val).blockIn (s.pan pan.val).shadow = some b →
      fitBad (raked s pan b d) (s.pan pan.val).shadow.spares b.colsUsed = [] →
      Gives (.rakeComplete k pan d) s (fun u => (u.pan pan.val).shadow.state = .ready ∧
        (u.pan pan.val).shadow.coefs = writeCoefs (s.pan pan.val).shadow.coefs (raked s pan b d) s.freeCtr ∧
        (u.pan pan.val).shadow.resid = BitVec.ofNat 16 (bedResid ((judgedColumns b.colsUsed).filterMap
          (fun j => raked s pan b d (physColumn (s.pan pan.val).shadow.spares j)))) ∧
        (u.pan pan.val).shadow.rakeTide = s.tideIdx ∧ (u.pan pan.val).shadow.raked = true ∧
        (u.pan pan.val).active = (s.pan pan.val).active ∧ Counts s u .PAN_RAKES 1 pan.val ∧
        (∀ q, q ≠ pan.val → u.pan q = s.pan q) ∧
        SameBut [.out, .freeCtr, .now, .pans, .cores, .wgt, .plans, .hif] ([.PAN_RAKES, .PAN_SAT_PASSES, .PAN_SAT_EVENTS,
          .CNT_SAT_PASSES, .CNT_SAT_EVENTS, .CNT_LAYER, .WGT_INT_STATUS, .BPL_INT_STATUS] ++ waits) s u)) ∧
    (∀ (d : RakeData) b, (s.pan pan.val).shadow.state = .raking → (s.pan pan.val).shadow.firstFail = false →
      (s.pan pan.val).blockIn (s.pan pan.val).shadow = some b →
      fitBad (raked s pan b d) (s.pan pan.val).shadow.spares b.colsUsed ≠ [] →
      Gives (.rakeComplete k pan d) s (fun u => (u.pan pan.val).shadow.state = .writing ∧
        (u.pan pan.val).shadow.firstFail = true ∧ (u.pan pan.val).shadow.coefs = (s.pan pan.val).shadow.coefs ∧
        Counts s u .PAN_RAKES 1 pan.val ∧ (∀ q, q ≠ pan.val → u.pan q = s.pan q) ∧
        SameBut [.out, .now, .pans, .cores] ([.PAN_RAKES, .PAN_SAT_PASSES, .PAN_SAT_EVENTS, .CNT_SAT_PASSES,
          .CNT_SAT_EVENTS, .CNT_LAYER] ++ waits) s u)) ∧
    (∀ c d, (s.pan pan.val).shadow.state = .raking → (s.pan pan.val).serving = some d →
      (s.pan pan.val).claims = [c] → c.rank < d.rank →
      Gives (.rakeAbort k pan) s (fun u => (u.pan pan.val).shadow.state = .written ∧ (u.pan pan.val).serving = none ∧
        (u.pan pan.val).claims = [c, d] ∧ Counts s u .PAN_WRITE_ABORTS 1 pan.val ∧
        (∀ q, q ≠ pan.val → u.pan q = s.pan q) ∧
        SameBut [.out, .now, .pans, .cores] (.PAN_WRITE_ABORTS :: waits) s u)) ∧
    (∀ b, (s.pan pan.val).streamed = true → (s.pan pan.val).flights = [] → (s.enter k).workOpen = true →
      s.ready = true → (s.pan pan.val).shadow.state = .ready → (s.pan pan.val).shadow.content = .stream b →
      (s.pan pan.val).shadow.beforeEdge = false →
      Gives (.streamedSwap k pan) s (fun u => (u.pan pan.val).activeB = !(s.pan pan.val).activeB ∧
        (u.pan pan.val).active.state = .active ∧ (u.pan pan.val).active.content = .stream b ∧
        (u.pan pan.val).shadow.state = .stale ∧ (u.pan pan.val).activeTide = s.tideIdx ∧
        (u.pan pan.val).withdrawn = false ∧ (u.pan pan.val).streamFrom = none ∧
        (∀ q, q ≠ pan.val → u.pan q = s.pan q) ∧ SameBut [.out, .now, .pans, .wgt, .mem] [.WGT_STREAM_STALL_NS] s u)) ∧
    ((s.pan pan.val).streamed = true → (s.pan pan.val).flights = [] → (s.enter k).workOpen = true →
      s.ready = true → (s.pan pan.val).shadow.state ≠ .ready →
      Gives (.streamedSwap k pan) s (fun u =>
        u.pan pan.val = { s.pan pan.val with streamFrom := some ((s.pan pan.val).streamFrom.getD (max s.now k)) } ∧
        u.wgt.stallFrom = some (s.wgt.stallFrom.getD (max s.now k)) ∧
        (∀ q, q ≠ pan.val → u.pan q = s.pan q) ∧ SameBut [.out, .now, .pans, .wgt] [] s u))

/-! ### Weights -/

/-- R189, R191, R194, R207: START of WGT_LOAD_CTRL: the slot is LOADING and the load begins, for a slot that is EMPTY or
FAILED and for an adapter identifier that is free; otherwise it is refused with a code, LOAD_FAIL is raised and START
reads 0. A VERIFIED slot is in use too (log 16). The start of a load is a waking event (R461).
R186, R193, R204, R209, R180, R183, R214: ABORT, RESTAGE, RELEASE and ADAPTER_UNLOAD; the host tier's address; the
trust list, which does not change while a load reads its header. -/
def Obligations.WeightCommands : Prop :=
  (∀ (s : State) (k : Stamp) (w : W32), Serves s → Only w 0 [1, 6, 7, 9] →
    (s.wgt.load = none → (s.part ≠ .jn8s ∨ (w.toNat / 4 % 4 ≠ 1 ∧ w.toNat / 4 % 4 ≠ 2)) → w.getLsbD 4 = false →
      ((s.wslot (w.toNat / 32 % 2)).state = .empty ∨ (s.wslot (w.toNat / 32 % 2)).state = .failed) →
      Gives (.loadStart k 0 w) s (fun u =>
        u.wgt.load = some { mode := w.toNat / 4 % 4, slot := w.toNat / 32 % 2, start := max s.now k, lastPkt := max s.now k } ∧
        (u.wslot (w.toNat / 32 % 2)).state = .loading ∧ u.wslot (1 - w.toNat / 32 % 2) = s.wslot (1 - w.toNat / 32 % 2) ∧
        u.fld .WGT_LOAD_STATUS 0 4 = 1 ∧ u.fld .WGT_LOAD_STATUS 8 8 = 0 ∧ u.bit .WGT_LOAD_CTRL 0 = true ∧
        (s.pwrState = 1 ∨ s.pwrState = 2 → u.pwrState = 3) ∧
        SameBut [.out, .now, .wgt, .pwr, .evt] [.WGT_LOAD_CTRL, .WGT_LOAD_STATUS, .WGT_SHARDS_TOTAL, .WGT_SHARDS_OK,
          .PWR_STATUS, .PWR_VCORE_ACT, .CNT_PCIE_BAR_WR] s u)) ∧
    (s.wgt.load = none → (s.part ≠ .jn8s ∨ (w.toNat / 4 % 4 ≠ 1 ∧ w.toNat / 4 % 4 ≠ 2)) → w.getLsbD 4 = true →
      (∀ a ∈ s.wgt.adapters, a.id ≠ w.toNat / 65536 % 4096) →
      Gives (.loadStart k 0 w) s (fun u =>
        u.wgt = { s.wgt with load := some (
          { mode := w.toNat / 4 % 4, adapter := some (w.toNat / 65536 % 4096), slot := w.toNat / 32 % 2,
            start := max s.now k, lastPkt := max s.now k } : Load) } ∧
        u.fld .WGT_LOAD_STATUS 0 4 = 1 ∧
        SameBut [.out, .now, .wgt, .pwr, .evt] [.WGT_LOAD_CTRL, .WGT_LOAD_STATUS, .WGT_SHARDS_TOTAL, .WGT_SHARDS_OK,
          .PWR_STATUS, .PWR_VCORE_ACT, .CNT_PCIE_BAR_WR] s u)) ∧
    (∀ code, (code = 0x0E ∧ s.part = .jn8s ∧ (w.toNat / 4 % 4 = 1 ∨ w.toNat / 4 % 4 = 2)) ∨
        (code = 0x26 ∧ (s.part ≠ .jn8s ∨ (w.toNat / 4 % 4 ≠ 1 ∧ w.toNat / 4 % 4 ≠ 2)) ∧ (s.wgt.load.isSome = true ∨
          (w.getLsbD 4 = true ∧ ∃ a ∈ s.wgt.adapters, a.id = w.toNat / 65536 % 4096) ∨
          (w.getLsbD 4 = false ∧ (s.wslot (w.toNat / 32 % 2)).state ≠ .empty ∧ (s.wslot (w.toNat / 32 % 2)).state ≠ .failed))) →
      Gives (.loadStart k 0 w) s (fun u => u.wgt = s.wgt ∧ u.fld .WGT_LOAD_STATUS 8 8 = code ∧
        u.fld .WGT_LOAD_STATUS 0 4 = s.fld .WGT_LOAD_STATUS 0 4 ∧ u.bit .WGT_LOAD_CTRL 0 = false ∧
        u.bit .WGT_INT_STATUS 1 = true ∧
        SameBut [.out, .now, .hif] [.WGT_LOAD_CTRL, .WGT_LOAD_STATUS, .WGT_INT_STATUS, .CNT_PCIE_BAR_WR] s u))) ∧
  (∀ (s : State) (k : Stamp) (w : W32), Serves s →
    (∀ l, Only w 1 [0, 6, 7, 9] → s.wgt.load = some l → l.mode ≠ 2 →
      Gives (.loadAbort k 0 w) s (fun u => u.wgt = { s.wgt with load := some { l with abort := true } } ∧
        u.bit .WGT_LOAD_CTRL 1 = false ∧ SameBut [.out, .now, .wgt] [.WGT_LOAD_CTRL, .CNT_PCIE_BAR_WR] s u)) ∧
    (∀ l, Only w 1 [0, 6, 7, 9] → s.wgt.load = some l → l.mode = 2 → l.adapter = none →
      Gives (.loadAbort k 0 w) s (fun u => u.wgt.load = none ∧ (u.wslot l.slot).state = .failed ∧
        u.fld .WGT_LOAD_STATUS 8 8 = 0x2B ∧ u.bit .WGT_LOAD_CTRL 0 = false ∧ u.bit .WGT_LOAD_CTRL 1 = false ∧
        u.bit .WGT_INT_STATUS 1 = true)) ∧
    (Only w 1 [0, 6, 7, 9] → s.wgt.load = none →
      Gives (.loadAbort k 0 w) s (fun u => SameBut [.out, .now] [.WGT_LOAD_CTRL, .CNT_PCIE_BAR_WR] s u)) ∧
    (Only w 6 [0, 1, 7, 9] → (s.wslot (w.toNat / 32 % 2)).state = .retired →
      (∀ i, (s.pslot i).img = none) →
      Gives (.restage k 0 w) s (fun u => (u.wslot (w.toNat / 32 % 2)) = { s.wslot (w.toNat / 32 % 2) with state := .verified } ∧
        u.fld .WGT_LOAD_STATUS 8 8 = 0x2C ∧ u.bit .WGT_LOAD_CTRL 6 = false ∧
        SameBut [.out, .now, .wgt] [.WGT_LOAD_CTRL, .WGT_LOAD_STATUS, .CNT_PCIE_BAR_WR] s u)) ∧
    (Only w 7 [0, 1, 6, 9] → ((s.wslot (w.toNat / 32 % 2)).state = .retired ∨ (s.wslot (w.toNat / 32 % 2)).state = .verified ∨
        (s.wslot (w.toNat / 32 % 2)).state = .failed) →
      Gives (.wgtRelease k 0 w) s (fun u => u.wslot (w.toNat / 32 % 2) = {} ∧
        u.wslot (1 - w.toNat / 32 % 2) = s.wslot (1 - w.toNat / 32 % 2) ∧ u.bit .WGT_LOAD_CTRL 7 = false ∧
        u.memRead (slotBase (w.toNat / 32 % 2)) 64 = List.replicate 64 0 ∧
        SameBut [.out, .now, .wgt, .mem] [.WGT_LOAD_CTRL, .CNT_PCIE_BAR_WR] s u)) ∧
    (Only w 7 [0, 1, 6, 9] → ((s.wslot (w.toNat / 32 % 2)).state = .loading ∨ (s.wslot (w.toNat / 32 % 2)).state = .active ∨
        (s.wslot (w.toNat / 32 % 2)).state = .empty) →
      Gives (.wgtRelease k 0 w) s (fun u => u.bit .WGT_LOAD_CTRL 7 = false ∧
        SameBut [.out, .now] [.WGT_LOAD_CTRL, .CNT_PCIE_BAR_WR] s u)) ∧
    (Only w 9 [0, 1, 6, 7] →
      Gives (.adapterUnload k 0 w) s (fun u => u.wgt = { s.wgt with adapters := s.wgt.adapters.map (fun a =>
          if a.id == w.toNat / 65536 % 4096 then { a with retiring := true } else a) } ∧
        u.bit .WGT_LOAD_CTRL 9 = false ∧ SameBut [.out, .now, .wgt] [.WGT_LOAD_CTRL, .CNT_PCIE_BAR_WR] s u)) ∧
    (∀ x : W64, Gives (.hostTierRegister k 0 x) s (fun u => u.reg .WGT_HOST_TIER_ADDR = x ∧ u.wgt = { s.wgt with tierFault := false, tierFails := [] } ∧
      u.bit .WGT_INT_STATUS 5 = false ∧
      SameBut [.out, .now, .wgt] [.WGT_HOST_TIER_ADDR, .WGT_INT_STATUS, .CNT_PCIE_BAR_WR] s u)) ∧
    (Only w 5 [6] → s.fld .WGT_LOAD_STATUS 0 4 ≠ 1 →
      Gives (.trustWrite k 0 w) s (fun u => u.mram = { s.mram with trust := s.mram.trust.set (w.toNat % 16) (some s.trustDigest) } ∧
        SameBut [.out, .now, .mram] [.WGT_TRUST_CTRL, .CNT_PCIE_BAR_WR] s u)) ∧
    (Only w 6 [5] → s.fld .WGT_LOAD_STATUS 0 4 ≠ 1 →
      Gives (.trustErase k 0 w) s (fun u => u.mram = { s.mram with trust := s.mram.trust.set (w.toNat % 16) none } ∧
        SameBut [.out, .now, .mram] [.WGT_TRUST_CTRL, .CNT_PCIE_BAR_WR] s u)) ∧
    (∀ c ∈ [Instr.trustWrite k 0 w, .trustErase k 0 w], s.fld .WGT_LOAD_STATUS 0 4 = 1 →
      Gives c s (fun u => SameBut [.out, .now] [.WGT_TRUST_CTRL, .CNT_PCIE_BAR_WR] s u)))

/-- A shard that a load fetches has come whole and right (Table 6.9, steps 8 and 9): not had before, `c` its clear content. -/
abbrev Opens (l : Load) (p : Package) (i : Nat) (e : ShardEntry) (bytes c : List Byte) : Prop :=
  l.pkg = some p ∧ p.shards[i]? = some e ∧ i ∉ l.ok ∧ (∃ key ∈ l.key, openShard p key i e bytes = some c) ∧
    contentOk e.format c = true ∧ l.abort = false

/-- A load has failed with a code (R190): the slot is FAILED, START reads 0, LOAD_FAIL is raised. -/
abbrev LoadFailed (s u : State) (l : Load) (code : Nat) : Prop :=
  u.wgt.load = none ∧ (l.adapter = none → u.wslot l.slot = { state := .failed }) ∧ (l.adapter ≠ none → u.wslot l.slot = s.wslot l.slot) ∧
  u.fld .WGT_LOAD_STATUS 0 4 = 5 ∧ u.fld .WGT_LOAD_STATUS 8 8 = code ∧ u.bit .WGT_LOAD_CTRL 0 = false ∧
  u.bit .WGT_INT_STATUS 1 = true

/-- The front of a package as far as a load has judged it: which code, if any, the first check of steps 1 to 7 that does not
pass gives it (Table 6.9, R193). -/
abbrev FrontCode (s : State) (l : Load) (x : PackageFront) (code : Option Nat) : Prop :=
  (code = some 0x22 ∧ s.stepOne l x = false) ∨
  (code = some 0x2B ∧ s.stepOne l x = true ∧ l.abort = true) ∨
  (code ≠ none ∧ s.stepOne l x = true ∧ l.abort = false ∧ s.frontFault l x (manifestOf x.manifest) = code) ∨
  (s.stepOne l x = true ∧ l.abort = false ∧ s.frontFault l x (manifestOf x.manifest) = none ∧
    code = (if (contentKey x s.keyId s.boot.identity.n s.boot.identity.d).isNone then some 0x21 else none))

/-- R190 to R193, R200, R207: the front of a package passes its checks and the shards are fetched, or the load fails with
the code of the first check that does not pass; a shard verifies and its content is kept, fails and is read again up to three
times, or ends an aborted load at its boundary; the last one makes the slot VERIFIED, or the adapter. -/
def Obligations.WeightLoading : Prop :=
  ∀ (s : State) (k : Stamp) (l : Load), s.wgt.load = some l → l.mode = 0 →
    (∀ x, l.pkg = none → FrontCode s l x none →
      Gives (.shardReadDone k (.front x)) s (fun u =>
        u.wgt.load = some { l with
          pkg := some (manifestOf x.manifest)
          key := contentKey x s.keyId s.boot.identity.n s.boot.identity.d
          hostLayers := if l.adapter.isSome then [] else (s.fitModel l (manifestOf x.manifest)).getD [] } ∧
        u.fld .WGT_LOAD_STATUS 0 4 = 3 ∧ u.num .WGT_SHARDS_TOTAL = (manifestOf x.manifest).shards.length % 2 ^ 32 ∧
        Counts s u .CNT_PCIE_DMA_RD (x.header.length + x.manifest.length + x.keytab.length) ∧
        SameBut [.out, .now, .wgt] [.WGT_LOAD_STATUS, .WGT_SHARDS_TOTAL, .CNT_PCIE_DMA_RD, .CNT_T_DMA_RD] s u)) ∧
    (∀ x code, l.pkg = none → FrontCode s l x (some code) →
      Gives (.shardReadDone k (.front x)) s (fun u => LoadFailed s u l code ∧
        SameBut [.out, .now, .wgt, .hif, .evt, .mem] [.WGT_LOAD_CTRL, .WGT_LOAD_STATUS, .WGT_INT_STATUS] s u)) ∧
    (∀ p i e c (x : SealedShard), Opens l p i e x.bytes c → x.dmaError = false → l.ok.length + 1 < p.shards.length →
      Gives (.shardReadDone k (.shard i x)) s (fun u =>
        u.wgt = { s.wgt with load := some { l with ok := l.ok ++ [i], wanted := l.wanted.filter (fun w => w.shard != i) } } ∧
        (e.layer ∉ l.hostLayers → u.memRead (shardAddr l.base i) c.length = c) ∧
        (e.layer ∈ l.hostLayers → u.memRead (shardAddr (hostBase l.slot) i) c.length = c) ∧
        u.num .WGT_SHARDS_OK = (s.num .WGT_SHARDS_OK + 1) % 2 ^ 32 ∧ Counts s u .CNT_PCIE_DMA_RD (e.clearLen + 48) ∧
        SameBut [.out, .now, .wgt, .mem] ([.WGT_SHARDS_OK, .CNT_PCIE_DMA_RD, .CNT_T_DMA_RD] ++ traffic) s u)) ∧
    (∀ p i e c (x : SealedShard), Opens l p i e x.bytes c → x.dmaError = false → l.ok.length + 1 = p.shards.length →
      l.adapter = none → (∀ j, (s.pslot j).img = none) →
      Gives (.shardReadDone k (.shard i x)) s (fun u => u.wgt.load = none ∧
        (u.wslot l.slot).state = .verified ∧ (u.wslot l.slot).modelId = p.modelId ∧ (u.wslot l.slot).gen = p.gen ∧
        (u.wslot l.slot).key = l.key ∧ (u.wslot l.slot).shards = p.shards ∧ (u.wslot l.slot).hostLayers = l.hostLayers ∧
        u.wslot (1 - l.slot) = s.wslot (1 - l.slot) ∧
        u.fld .WGT_LOAD_STATUS 0 4 = 4 ∧ u.bit .WGT_LOAD_CTRL 0 = false ∧ u.bit .WGT_INT_STATUS 0 = true ∧
        u.mram = s.mram ∧ u.pans = s.pans ∧ u.tide = s.tide)) ∧
    (∀ p i e c (x : SealedShard) a, Opens l p i e x.bytes c → x.dmaError = false → l.ok.length + 1 = p.shards.length →
      l.adapter = some a →
      Gives (.shardReadDone k (.shard i x)) s (fun u => u.wgt.load = none ∧
        u.wgt.adapters = s.wgt.adapters ++ [{
          id := a, base := p.base, gen := p.gen, rank := p.rank, bytes := contentBytes p, shards := p.shards }] ∧
        u.wgt.slot0 = s.wgt.slot0 ∧ u.wgt.slot1 = s.wgt.slot1 ∧ u.fld .WGT_LOAD_STATUS 0 4 = 4 ∧
        u.bit .WGT_LOAD_CTRL 0 = false ∧ u.bit .WGT_INT_STATUS 0 = true ∧
        SameBut [.out, .now, .wgt, .hif, .evt, .mem] ([.WGT_LOAD_CTRL, .WGT_LOAD_STATUS, .WGT_SHARDS_OK, .WGT_INT_STATUS,
          .CNT_PCIE_DMA_RD, .CNT_T_DMA_RD] ++ traffic) s u)) ∧
    (∀ p key i e (x : SealedShard), l.pkg = some p → l.key = some key → p.shards[i]? = some e → i ∉ l.ok → l.abort = false →
      (x.dmaError = true ∨ openShard p key i e x.bytes = none) → listed l.fails i 0 < 3 →
      Gives (.shardReadDone k (.shard i x)) s (fun u =>
        u.wgt = { s.wgt with load := some { l with fails := (i, listed l.fails i 0 + 1) :: l.fails.filter (fun e => e.1 != i) } } ∧
        Counts s u .WGT_SHARD_RETRIES 1 ∧ Counts s u .HIF_DMA_ERRORS (if x.dmaError then 1 else 0) ∧
        SameBut [.out, .now, .wgt, .hif] [.WGT_SHARD_RETRIES, .HIF_DMA_ERRORS, .HIF_INT_STATUS, .CNT_PCIE_DMA_RD, .CNT_T_DMA_RD] s u)) ∧
    (∀ p key i e c (x : SealedShard) code, l.pkg = some p → l.key = some key → p.shards[i]? = some e → i ∉ l.ok →
      x.dmaError = false →
      ((code = 0x23 ∧ openShard p key i e x.bytes = none ∧ l.abort = false ∧ 3 ≤ listed l.fails i 0) ∨
        (code = 0x24 ∧ openShard p key i e x.bytes = some c ∧ contentOk e.format c = false) ∨
        (code = 0x2B ∧ l.abort = true ∧ (openShard p key i e x.bytes = none ∨
          openShard p key i e x.bytes = some c ∧ contentOk e.format c = true))) →
      Gives (.shardReadDone k (.shard i x)) s (fun u => LoadFailed s u l code ∧
        u.mram = s.mram ∧ u.pans = s.pans ∧ u.plans = s.plans))

/-- The sealed shards of a layer open with the key of the ACTIVE slot (R181, R187). -/
abbrev tierOpens (s : State) (layer : Nat) (sealed : List (List Byte)) : Option (List (Nat × List Byte)) :=
  (s.wslot (s.activeSlot.getD 0)).key.bind (fun k => openLayer (s.wslot (s.activeSlot.getD 0)) k
    (((List.range (s.wslot (s.activeSlot.getD 0)).shards.length).zip (s.wslot (s.activeSlot.getD 0)).shards).filter
      (fun e => e.2.layer == layer)) sealed)

/-- R181 to R183: a host-tier read that comes whole puts the layer into the bounce region and ends its wait and its count of
failed reads; the fourth one of a tide that fails raises TIER_FAULT and ends the steps. -/
def Obligations.HostTierReads : Prop :=
  ∀ (s : State) (k : Stamp) (layer : Nat) (sealed : List (List Byte)), layer ∈ s.tierLayers → s.num .WGT_HOST_TIER_LEN ≠ 0 →
    (∀ l, tierOpens s layer sealed = some l →
      Gives (.hostTierReadDone k layer sealed) s (fun u => { layer := layer } ∈ u.wgt.bounce ∧ u.wgt.tierFault = s.wgt.tierFault ∧
        (∀ e ∈ u.wgt.tierWait, e.1 ≠ layer) ∧ (∀ e ∈ u.wgt.tierFails, e.1 ≠ layer) ∧
        Counts s u .CNT_PCIE_DMA_RD (sealed.map (·.length)).sum ∧
        SameBut [.out, .now, .wgt, .mem] ([.WGT_HOST_TIER_WAIT_NS, .CNT_PCIE_DMA_RD, .CNT_T_DMA_RD] ++ traffic) s u)) ∧
    (tierOpens s layer sealed = none → listed s.wgt.tierFails layer 0 ≠ 3 →
      Gives (.hostTierReadDone k layer sealed) s (fun u => u.wgt.bounce = s.wgt.bounce ∧ u.wgt.tierFault = s.wgt.tierFault ∧
        listed u.wgt.tierFails layer 0 = listed s.wgt.tierFails layer 0 + 1 ∧ Counts s u .WGT_TIER_READ_FAULTS 1 ∧
        SameBut [.out, .now, .wgt] [.WGT_TIER_READ_FAULTS, .CNT_PCIE_DMA_RD, .CNT_T_DMA_RD] s u)) ∧
    (tierOpens s layer sealed = none → listed s.wgt.tierFails layer 0 = 3 →
      Gives (.hostTierReadDone k layer sealed) s (fun u => u.wgt.tierFault = true ∧ u.bit .WGT_INT_STATUS 5 = true ∧
        (∀ q x, (q, x) ∈ s.withSess → (s.qp q).session = some x → x.openFirst.isSome = true →
          ∃ y, (u.qp q).session = some y ∧ y.commit = x.commit ∧ y.done = x.done ∧ ∀ t ∈ y.steps, t.complete = true ∨ t.void = true) ∧
        SameBut [.out, .now, .wgt, .qps, .hif, .evt] [.WGT_INT_STATUS, .WGT_TIER_READ_FAULTS, .CNT_PCIE_DMA_RD, .CNT_T_DMA_RD] s u))

/-- R194 to R199, R351: what a receiving load does: an announcement that names the pair is accepted; data of the broadcast
that it takes is kept; the end and the silence make what is missing wanted; the broadcaster's abort and two waits end it; a
request without an answer, or with NOT_HELD, is followed by the next. What a device does that serves shards: the broadcaster
announces its pair and its address; a request for a part that it holds is served and counted, another is answered with
NOT_HELD; the end of the hold time. -/
def Obligations.WeightBroadcast : Prop :=
  (∀ (s : State) (k : Stamp) (l : Load), s.wgt.load = some l → l.mode = 2 →
    (∀ (n : LinkId) (h : PktHdr) m g, Comes s n.val h → s.pairExpected m g = true →
      Gives (.bcastAnnouncement k n h m g) s (fun u => u.wgt.load = some { l with bcaster := some h.src } ∧
        Received s u n.val h ∧ SameBut [.out, .now, .wgt, .fab] [.CNT_LINK_TX, .CNT_LINK_RX] s u)) ∧
    (∀ (n : LinkId) (h : PktHdr) i off b, Comes s n.val h → l.bcaster = some h.src → l.pkg = none → i < 65536 →
      (s.arrivedFront l) = none →
      Gives (.bcastDataReceived k n h (.shard i) off b) s (fun u =>
        u.wgt.load = some { l with
          lastPkt := max s.now k, parts := (i, listed l.parts i 0 + b.length) :: l.parts.filter (fun e => e.1 != i) } ∧
        u.memRead (shardAddr arriveBase i + off) b.length = b ∧ Received s u n.val h ∧
        SameBut [.out, .now, .wgt, .fab, .mem] [.CNT_LINK_TX, .CNT_LINK_RX] s u)) ∧
    (∀ (n : LinkId) (h : PktHdr) p, Comes s n.val h → l.bcaster = some h.src → l.pkg = some p →
      Gives (.bcastEnd k n h) s (fun u => (∃ m, u.wgt.load = some m ∧ m.ok = l.ok ∧ m.ended = true ∧
          (∀ i < p.shards.length, i ∈ l.ok ∨ ∃ w ∈ m.wanted, w.shard = i)) ∧
        SameBut [.out, .now, .wgt, .fab] [.FAB_PHASE2_PKTS, .CNT_LINK_TX, .CNT_LINK_RX] s u)) ∧
    (∀ p, l.bcaster.isSome = true → l.pkg = some p → l.lastPkt + 100000000 ≤ max s.now k →
      Gives (.bcastSilence k) s (fun u => (∃ m, u.wgt.load = some m ∧ m.ok = l.ok ∧ m.ended = l.ended ∧
          (∀ i < p.shards.length, i ∈ l.ok ∨ ∃ w ∈ m.wanted, w.shard = i)) ∧
        SameBut [.out, .now, .wgt, .fab] [.FAB_PHASE2_PKTS, .CNT_LINK_TX] s u)) ∧
    (∀ (n : LinkId) (h : PktHdr), Comes s n.val h → l.bcaster = some h.src →
      Gives (.bcastAbort k n h) s (fun u => LoadFailed s u l 0x2B ∧
        SameBut [.out, .now, .wgt, .fab, .hif, .evt, .mem] [.WGT_LOAD_CTRL, .WGT_LOAD_STATUS, .WGT_INT_STATUS, .CNT_LINK_TX,
          .CNT_LINK_RX] s u)) ∧
    (l.bcaster = none → l.pkg = none → l.start + s.num .WGT_RECV_WAIT * 1000000 ≤ max s.now k →
      Gives (.recvWaitExpiry k) s (fun u => LoadFailed s u l 0x23 ∧
        SameBut [.out, .now, .wgt, .hif, .evt, .mem] [.WGT_LOAD_CTRL, .WGT_LOAD_STATUS, .WGT_INT_STATUS] s u)) ∧
    (∀ i w, l.wanted.find? (fun w => w.shard == i) = some w → w.first + s.num .WGT_SHARD_TIMEOUT * 1000000 ≤ max s.now k →
      Gives (.shardTimeout k i) s (fun u => LoadFailed s u l 0x23 ∧
        SameBut [.out, .now, .wgt, .hif, .evt, .mem] [.WGT_LOAD_CTRL, .WGT_LOAD_STATUS, .WGT_INT_STATUS] s u)) ∧
    (∀ i w, l.wanted.find? (fun w => w.shard == i) = some w → w.asked + s.num .WGT_RETRY_WAIT * 1000000 ≤ max s.now k →
      Gives (.shardRequestWaitExpiry k i) s (fun u => Counts s u .WGT_SHARD_RETRIES 1 ∧
        u.wgt = { s.wgt with load := some { l with
          wanted := l.wanted.map (fun v => if v.shard == i then { v with sent := w.sent + 1, asked := max s.now k } else v) } } ∧
        SameBut [.out, .now, .wgt, .fab] [.WGT_SHARD_RETRIES, .FAB_PHASE2_PKTS, .CNT_LINK_TX] s u)) ∧
    (∀ (n : LinkId) (h : PktHdr) i w, Comes s n.val h → l.wanted.find? (fun w => w.shard == i) = some w →
      Gives (.shardRespReceived k n h i none) s (fun u => Counts s u .WGT_SHARD_RETRIES 1 ∧
        u.wgt = { s.wgt with load := some { l with
          wanted := l.wanted.map (fun v => if v.shard == i then { v with sent := w.sent + 1, asked := max s.now k } else v) } } ∧
        SameBut [.out, .now, .wgt, .fab] [.WGT_SHARD_RETRIES, .FAB_PHASE2_PKTS, .CNT_LINK_TX, .CNT_LINK_RX] s u))) ∧
  (∀ (s : State) (k : Stamp),
    (∀ v, s.wgt.serving = some v → v.broadcaster = true →
      Gives (.broadcastAnnounce k) s (fun u =>
        (∀ o ∈ u.out, ∃ n p, o = .packet n p ∧ p.type = 10 ∧ p.args = [0, v.modelId.toNat, v.gen.toNat, (s.addr.getD 0).toNat]) ∧
        SameBut [.out, .now, .wgt, .fab] [.CNT_LINK_TX] s u)) ∧
    (∀ (n : LinkId) (h : PktHdr) i host b, Comes s n.val h → s.heldPart i host = some b →
      Gives (.shardReqReceived k n h i host) s (fun u => Counts s u .WGT_SHARD_SERVED 1 ∧
        SameBut [.out, .now, .fab] [.WGT_SHARD_SERVED, .FAB_PHASE2_PKTS, .CNT_PCIE_DMA_RD, .CNT_T_DMA_RD, .CNT_LINK_TX,
          .CNT_LINK_RX] s u)) ∧
    (∀ (n : LinkId) (h : PktHdr) i host, Comes s n.val h → s.heldPart i host = none →
      Gives (.shardReqReceived k n h i host) s (fun u =>
        SameBut [.out, .now, .fab] [.FAB_PHASE2_PKTS, .CNT_LINK_TX, .CNT_LINK_RX] s u)) ∧
    (∀ v e, s.wgt.serving = some v → v.untilT = some e → e ≤ max s.now k →
      Gives (.holdExpiry k) s (fun u => u.wgt = { s.wgt with serving := none } ∧ u.bit .WGT_INT_STATUS 6 = true ∧
        u.memRead holdBase 64 = List.replicate 64 0 ∧ SameBut [.out, .now, .wgt, .hif, .mem] [.WGT_INT_STATUS] s u)))

/-! ### Queue pairs and commands -/

/-- R251: each function has its own doorbell latch: a lower word is stored and has no other effect; an upper word with a
full latch acts with it as one 64-bit write and empties it; with an empty latch it is ignored, counted and flagged. -/
def Obligations.DoorbellLatch : Prop :=
  ∀ (s : State) (k : Stamp) (fn : FnId), s.fnLive fn.val = true →
    (∀ w, Gives (.doorbellLowerWrite k fn w) s (fun u => u.latchOf fn.val = some w ∧
      (∀ g, g ≠ fn.val → u.latchOf g = s.latchOf g) ∧ SameBut [.out, .now, .srv] [] s u)) ∧
    (∀ l x, s.latchOf fn.val = some l →
      exec (.sqDoorbell k fn (.upper x)) s =
        exec (.sqDoorbell k fn (.whole (BitVec.ofNat 64 (l.toNat + x.toNat * 2 ^ 32)))) (s.setLatch fn.val none) ∧
      exec (.cqDoorbell k fn (.upper x)) s =
        exec (.cqDoorbell k fn (.whole (BitVec.ofNat 64 (l.toNat + x.toNat * 2 ^ 32)))) (s.setLatch fn.val none)) ∧
    (∀ x, s.latchOf fn.val = none → ∀ c ∈ [Instr.sqDoorbell k fn (.upper x), .cqDoorbell k fn (.upper x)],
      Gives c s (fun u => u.num .SRV_DB_IGNORED fn.val = (s.num .SRV_DB_IGNORED fn.val + 1) % 2 ^ 64 ∧
        u.bit .SRV_INT_STATUS 1 fn.val = true ∧
        SameBut [.out, .now, .hif] [.SRV_DB_IGNORED, .SRV_INT_STATUS] s u))

/-- R250, R252, R253, R461: a submission tail makes entries visible with its arrival stamp; a completion head frees the
entries before it; a value out of range, and a tail that passes the head by more than the ring, put the pair in ERROR; a
doorbell outside the function's pairs is ignored and counted; in Standby it wakes the device. -/
def Obligations.Doorbells : Prop :=
  ∀ (s : State) (k : Stamp) (fn : FnId) (w : W64) (q v : Nat), s.fnLive fn.val = true → s.safe = false →
    fldOf w 0 20 = q → fldOf w 32 16 = v →
    ((s.share fn.val).qpFirst ≤ q → q < (s.share fn.val).qpFirst + (s.share fn.val).qpCount → (s.qp q).state = .ready →
      s.pwrState ≠ 2 →
      (∀ d, d = (v + (s.qp q).sqSize - (s.qp q).sqTail % (s.qp q).sqSize) % (s.qp q).sqSize → fldOf w 31 1 = 0 →
        v < (s.qp q).sqSize → (s.qp q).sqTail - (s.qp q).sqHead + d ≤ (s.qp q).sqSize →
        Gives (.sqDoorbell k fn (.whole w)) s (fun u =>
          u.qp q = { s.qp q with
            sqTail := (s.qp q).sqTail + d, lastTail := v,
            rung := if d = 0 then (s.qp q).rung else (s.qp q).rung ++ [(max s.now k, d)] } ∧
          (∀ p, p ≠ q → u.qp p = s.qp p) ∧ SameBut [.out, .now, .qps] [] s u)) ∧
      (∀ d, d = (v + (s.qp q).cqSize - (s.qp q).cqHead % (s.qp q).cqSize) % (s.qp q).cqSize → fldOf w 31 1 = 1 →
        v < (s.qp q).cqSize →
        Gives (.cqDoorbell k fn (.whole w)) s (fun u =>
          u.qp q = { s.qp q with cqHead := min (s.qp q).cqTail ((s.qp q).cqHead + d), lastHead := v } ∧
          (∀ p, p ≠ q → u.qp p = s.qp p) ∧ SameBut [.out, .now, .qps] [] s u)) ∧
      (∀ c ∈ [Instr.sqDoorbell k fn (.whole w), .cqDoorbell k fn (.whole w)],
        ((fldOf w 31 1 = 0 ∧ ((s.qp q).sqSize ≤ v ∨ (s.qp q).sqSize < (s.qp q).sqTail - (s.qp q).sqHead +
            (v + (s.qp q).sqSize - (s.qp q).sqTail % (s.qp q).sqSize) % (s.qp q).sqSize)) ∨
          (fldOf w 31 1 = 1 ∧ (s.qp q).cqSize ≤ v)) →
        Gives c s (fun u => (u.qp q).state = .error ∧ (u.qp q).rung = [] ∧
          (u.qp q).recs = (s.qp q).recs ++
            (if (s.qp q).recs.length < (s.qp q).cqFree then [{ cid := 0xFFFF, status := 0x17, opcode := 0 }] else []) ∧
          (∀ p, p ≠ q → u.qp p = s.qp p) ∧ (∀ a ∈ u.srv.admitted, a.qid ≠ q) ∧
          u.bit .SRV_INT_STATUS 0 (s.fnOf q) = true ∧ (∃ e ∈ u.evt.inFlight, e.code = 0x0801 ∧ e.p0 = q) ∧
          SameBut [.out, .now, .qps, .srv, .hif, .evt] [.SRV_INT_STATUS] s u))) ∧
    (∀ c ∈ [Instr.sqDoorbell k fn (.whole w), .cqDoorbell k fn (.whole w)],
      (q < (s.share fn.val).qpFirst ∨ (s.share fn.val).qpFirst + (s.share fn.val).qpCount ≤ q ∨ (s.qp q).state = .free) →
      s.pwrState ≠ 2 →
      Gives c s (fun u => u.num .SRV_DB_IGNORED fn.val = (s.num .SRV_DB_IGNORED fn.val + 1) % 2 ^ 64 ∧
        u.bit .SRV_INT_STATUS 1 fn.val = true ∧ SameBut [.out, .now, .hif] [.SRV_DB_IGNORED, .SRV_INT_STATUS] s u)) ∧
    (∀ c ∈ [Instr.sqDoorbell k fn (.whole w), .cqDoorbell k fn (.whole w)], s.pwrState = 2 →
      Gives c s (fun u => u.pwrState = 3 ∧ u.pwr.exitDue = some (max s.now k + 35000000)))

/-- R248, R249, Table 8.12: the admin queue pair of a function is made by a write with ENABLE and freed by one without;
while ENABLE is 1 a write that sets it is ignored, and so is a value out of range while it is 0 (R527; what a write that
clears ENABLE stores of other fields out of range is the model's choice, log 110). R219, R220: KVC_RESERVE_BYTES reads back, or is ignored with
RESERVE_ERR. -/
def Obligations.AdminPairAndReserve : Prop :=
  ∀ (s : State) (k : Stamp) (fn : FnId) (w : W32) (x : W64), Serves s → s.fnLive fn.val = true →
    (s.bit .SRV_ADMQ_CTRL 10 fn.val = false → w.getLsbD 10 = true → s.adminOk fn.val (s.adminQp fn.val w) = true →
      Gives (.admqCtrlWrite k fn w) s (fun u => u.qp (s.share fn.val).qpFirst = s.adminQp fn.val w ∧
        (∀ p, p ≠ (s.share fn.val).qpFirst → u.qp p = s.qp p) ∧ u.num .SRV_ADMQ_CTRL fn.val = w.toNat % 2 ^ 23 ∧
        SameBut [.out, .now, .qps] [.SRV_ADMQ_CTRL, .CNT_PCIE_BAR_WR] s u)) ∧
    (s.bit .SRV_ADMQ_CTRL 10 fn.val = true → w.getLsbD 10 = false →
      Gives (.admqCtrlWrite k fn w) s (fun u => u.qp (s.share fn.val).qpFirst = {} ∧
        (∀ p, p ≠ (s.share fn.val).qpFirst → u.qp p = s.qp p) ∧
        u.num .SRV_ADMQ_CTRL fn.val =
          (if admqFits fn.val (s.adminQp fn.val w) then w.toNat % 2 ^ 23 else s.num .SRV_ADMQ_CTRL fn.val - 1024) ∧
        u.srv.admitted = s.srv.admitted.filter (fun e => e.qid != (s.share fn.val).qpFirst) ∧
        SameBut [.out, .now, .qps, .srv] [.SRV_ADMQ_CTRL, .CNT_PCIE_BAR_WR] s u)) ∧
    (s.bit .SRV_ADMQ_CTRL 10 fn.val = false → w.getLsbD 10 = false → admqFits fn.val (s.adminQp fn.val w) = true →
      Gives (.admqCtrlWrite k fn w) s (fun u => u.num .SRV_ADMQ_CTRL fn.val = w.toNat % 2 ^ 23 ∧
        SameBut [.out, .now] [.SRV_ADMQ_CTRL, .CNT_PCIE_BAR_WR] s u)) ∧
    ((w.getLsbD 10 = true ∧ (s.bit .SRV_ADMQ_CTRL 10 fn.val = true ∨ s.adminOk fn.val (s.adminQp fn.val w) = false) ∨
        s.bit .SRV_ADMQ_CTRL 10 fn.val = false ∧ admqFits fn.val (s.adminQp fn.val w) = false) →
      Gives (.admqCtrlWrite k fn w) s (fun u => SameBut [.out, .now] [.CNT_PCIE_BAR_WR] s u)) ∧
    (s.openAll = 0 → s.wgt.load = none → x.toNat ≠ 0 → x.toNat % 2 ^ 30 = 0 →
      x.toNat + 2 ^ 32 + s.num .WGT_ADAPTER_REGION + (if s.part = .jn8s then 0 else s.num .WGT_HOLD_BYTES) +
        (if s.num .WGT_HOST_TIER_LEN = 0 then 0 else 2 ^ 31) + s.wgt.slot0.hbmBytes + s.wgt.slot1.hbmBytes ≤ s.part.hbmBytes →
      Gives (.kvcReserveWrite k 0 x) s (fun u => u.reg .KVC_RESERVE_BYTES = x ∧
        SameBut [.out, .now] [.KVC_RESERVE_BYTES, .CNT_PCIE_BAR_WR] s u)) ∧
    ((s.openAll ≠ 0 ∨ s.wgt.load.isSome = true ∨ x.toNat = 0 ∨ x.toNat % 2 ^ 30 ≠ 0 ∨
        s.part.hbmBytes < x.toNat + 2 ^ 32 + s.num .WGT_ADAPTER_REGION + (if s.part = .jn8s then 0 else s.num .WGT_HOLD_BYTES) ∨
        s.part.hbmBytes < x.toNat + 2 ^ 32 + s.num .WGT_ADAPTER_REGION + (if s.part = .jn8s then 0 else s.num .WGT_HOLD_BYTES) +
          (if s.num .WGT_HOST_TIER_LEN = 0 then 0 else 2 ^ 31) + s.wgt.slot0.hbmBytes + s.wgt.slot1.hbmBytes) →
      Gives (.kvcReserveWrite k 0 x) s (fun u => u.bit .KVC_INT_STATUS 4 = true ∧
        SameBut [.out, .now, .hif] [.KVC_INT_STATUS, .CNT_PCIE_BAR_WR] s u))

/-- R254, R255, Table 8.4: a command that the device takes and that fails a check has no effect but its record, which
names the first failure: the state of the device and the checks of the opcode, the function and the session first, then
the fields; so of every service command, CREATE_QP to QUERY_SESSION, and of an opcode that no table gives. -/
def Obligations.FailedCommands : Prop :=
  ∀ (s : State) (k : Stamp) (q : Qid) (cmd : SrvCmd) (rest : List Admitted) (l : List W32),
    (Fronts s k q.val rest →
      (∀ c ∈ [(Instr.openSession k q cmd, 1), (.audioIn k q cmd l, 2), (.textIn k q cmd l, 3), (.prompt k q cmd, 4),
          (.generate k q cmd, 5), (.cancel k q cmd, 6), (.close k q cmd, 7), (.setAdapter k q cmd, 8), (.setSampling k q cmd, 9),
          (.createQp k q cmd, 0x40), (.deleteQp k q cmd, 0x41), (.setRefMode k q cmd, 0x42), (.querySession k q cmd, 0x43)],
        cmd.opcode.toNat = c.2 →
        (∀ code, s.checkFront q.val c.2 = some code →
          Gives c.1 s (fun u => u.qp q.val = { s.qp q.val with
              recs := (s.qp q.val).recs ++ [{ cid := cmd.cid, status := code, opcode := c.2, irq := cmd.irq }] } ∧
            OnlyPair q.val rest s u ∧ SameBut [.out, .now, .qps, .srv] [.CNT_PCIE_DMA_RD, .CNT_T_DMA_RD] s u)) ∧
        (∀ off, s.checkFront q.val c.2 = none → (4 ≤ cmd.flags.toNat ∧ off = 1 ∨ cmd.flags.toNat < 4 ∧ cmd.cid = 0xFFFF ∧ off = 2) →
          Gives c.1 s (fun u => u.qp q.val = { s.qp q.val with
              recs := (s.qp q.val).recs ++ [{ cid := cmd.cid, status := 0x11, opcode := c.2, irq := cmd.irq, detail := off }] } ∧
            OnlyPair q.val rest s u ∧ SameBut [.out, .now, .qps, .srv] [.CNT_PCIE_DMA_RD, .CNT_T_DMA_RD] s u))) ∧
      (cmd.opcode.toNat ∉ [1, 2, 3, 4, 5, 6, 7, 8, 9, 0x40, 0x41, 0x42, 0x43, 0x48, 0x49, 0x4A, 0x4B] → s.ready = true →
        Gives (.unknownOpcode k q cmd) s (fun u => u.qp q.val = { s.qp q.val with
            recs := (s.qp q.val).recs ++ [{ cid := cmd.cid, status := 0x10, opcode := cmd.opcode.toNat, irq := cmd.irq }] } ∧
          OnlyPair q.val rest s u ∧ SameBut [.out, .now, .qps, .srv] [.CNT_PCIE_DMA_RD, .CNT_T_DMA_RD] s u)))

/-- R249, R250, R166, R277, R280: what the maintenance commands do: a pair made, a pair freed, reference mode switched,
a session's record asked for. Each posts its record; `c` is the command as sent. -/
def Obligations.MaintenanceCommands : Prop :=
  ∀ (s : State) (k : Stamp) (q : Qid) (c : SrvCmd) (rest : List Admitted), Takes s k q.val rest → s.isAdmin q.val = true →
    (Sent c 0x40 → c.dataAddr = 0 → c.dataLen = 0 → s.qidOk q.val c = true → (s.qp (c.par 0 20)).state = .free →
      c.arg 0 8 % 4096 = 0 → c.arg 8 8 % 4096 = 0 → 4 ≤ c.arg 16 1 → c.arg 16 1 ≤ 16 → 4 ≤ c.arg 17 1 → c.arg 17 1 ≤ 16 →
      c.arg 18 2 < vectorsOf (s.fnOf q.val) → c.arg 20 1 < 4 → (c.arg 20 1 % 2 = 1 → s.fnOf q.val = 0 ∧ s.ringsFit c.newQp = true) →
      c.argsEnd 21 = true →
      Gives (.createQp k q c) s (fun u => u.qp (c.par 0 20) =
          { state := .ready, sqBase := BitVec.ofNat 64 (c.arg 0 8), cqBase := BitVec.ofNat 64 (c.arg 8 8),
            sqLog := c.arg 16 1, cqLog := c.arg 17 1, vector := c.arg 18 2,
            mem := c.arg 20 1 % 2 == 1, lateDrop := c.arg 20 1 / 2 % 2 == 1 } ∧
        (u.qp q.val).recs = (s.qp q.val).recs ++ [{ cid := c.cid, status := 0, opcode := 0x40, irq := c.irq }] ∧
        u.srv.admitted = rest ∧ (∀ p, p ≠ q.val → p ≠ c.par 0 20 → u.qp p = s.qp p) ∧
        SameBut [.out, .now, .qps, .srv] [.CNT_PCIE_DMA_RD, .CNT_T_DMA_RD] s u)) ∧
    (Sent c 0x41 → c.dataAddr = 0 → c.dataLen = 0 → s.qidOk q.val c = true → (s.qp (c.par 0 20)).state ≠ .free → c.args = 0 →
      ((s.qp (c.par 0 20)).state = .error ∨ ∀ y, (s.qp (c.par 0 20)).session = some y → y.state = .closed ∨ y.state = .failed) →
      Gives (.deleteQp k q c) s (fun u => u.qp (c.par 0 20) = {} ∧
        (u.qp q.val).recs = (s.qp q.val).recs ++ [{ cid := c.cid, status := 0, opcode := 0x41, irq := c.irq }] ∧
        u.srv.admitted = rest.filter (fun e => e.qid != c.par 0 20) ∧
        (∀ p, p ≠ q.val → p ≠ c.par 0 20 → u.qp p = s.qp p) ∧
        SameBut [.out, .now, .qps, .srv] [.CNT_PCIE_DMA_RD, .CNT_T_DMA_RD] s u)) ∧
    (∀ y, Sent c 0x41 → c.dataAddr = 0 → c.dataLen = 0 → s.qidOk q.val c = true → (s.qp (c.par 0 20)).state = .ready → c.args = 0 →
      (s.qp (c.par 0 20)).session = some y → (y.state = .opened ∨ y.state = .closing) →
      Gives (.deleteQp k q c) s (fun u =>
        u.qp q.val = { s.qp q.val with
          recs := (s.qp q.val).recs ++ [{ cid := c.cid, status := 0x13, opcode := 0x41, irq := c.irq }] } ∧
        OnlyPair q.val rest s u ∧ SameBut [.out, .now, .qps, .srv] [.CNT_PCIE_DMA_RD, .CNT_T_DMA_RD] s u)) ∧
    (Sent c 0x42 → s.fnOf q.val = 0 → c.dataAddr = 0 → c.dataLen = 0 → c.param.toNat < 2 → c.args = 0 →
      Gives (.setRefMode k q c) s (fun u => u.fld .SRV_STATUS 7 1 = c.param.toNat ∧
        (s.fld .SRV_STATUS 7 1 ≠ c.param.toNat → ∀ fn ∈ s.fns, u.bit .SRV_INT_STATUS 2 fn = true) ∧
        (u.qp q.val) = { s.qp q.val with
          recs := (s.qp q.val).recs ++ [{ cid := c.cid, status := 0, opcode := 0x42, irq := c.irq }] } ∧
        OnlyPair q.val rest s u ∧
        SameBut [.out, .now, .qps, .srv, .hif] [.SRV_STATUS, .SRV_INT_STATUS, .CNT_PCIE_DMA_RD, .CNT_T_DMA_RD] s u)) ∧
    (Sent c 0x43 → c.dataLen = 64 → s.qidOk q.val c = true → c.args = 0 →
      Gives (.querySession k q c) s (fun u => u.qp q.val = { s.qp q.val with
          queries := (s.qp q.val).queries ++ [(c.dataAddr, c.par 0 20)]
          recs := (s.qp q.val).recs ++ [{ cid := c.cid, status := 0, opcode := 0x43, irq := c.irq }] } ∧
        OnlyPair q.val rest s u ∧ SameBut [.out, .now, .qps, .srv] [.CNT_PCIE_DMA_RD, .CNT_T_DMA_RD] s u))

/-- R208, R235, R236, R242, R257, R375: OPEN_SESSION opens the session that its fields describe in the lowest free slot,
ordinary or exclusive, or is refused for capacity and counted; the opening wakes the device from Idle (R461). -/
def Obligations.SessionsOpen : Prop :=
  ∀ (s : State) (k : Stamp) (q : Qid) (c : SrvCmd) (rest : List Admitted), Takes s k q.val rest → s.isAdmin q.val = false →
    (s.qp q.val).session = none → Sent c 1 → c.dataAddr.toNat % 64 = 0 → c.dataLen = 64 →
    1 ≤ c.par 0 15 → c.par 0 15 ≤ 16384 → c.par 15 2 ≤ 2 → c.par 22 4 ≤ 8 → c.par 18 2 ≠ 0 → c.par 26 6 = 0 →
    c.arg 0 2 = 0xFFFF → c.argsEnd 2 = true →
    (∀ excl slot, s.model.isSome = true → s.freeSlot = some slot → s.shareOpen (s.fnOf q.val) = true → s.anyExclusive = false →
      (s.openAll + 1) * s.kvLayers ≤ s.pagesFree →
      ((excl = false ∧ s.chargeAt (c.par 0 15) ≤ s.num .KVC_BUDGET_EFF ∧
          (s.sequences.map (fun e => s.chargeAt e.2.limit)).sum + s.chargeAt (c.par 0 15) ≤ s.num .KVC_BUDGET_EFF) ∨
        (excl = true ∧ s.num .KVC_BUDGET_EFF < s.chargeAt (c.par 0 15) ∧ s.openAll = 0 ∧
          s.chargeAt (c.par 0 15) ≤ s.kvCapacity)) →
      Gives (.openSession k q c) s (fun u =>
        (u.qp q.val).session = some
          { slot := slot, limit := c.par 0 15, policy := c.par 15 2, pinned := c.par 17 1 == 1,
            textOut := c.par 18 1 == 1, audioOut := c.par 19 1 == 1, in24 := c.par 20 1 == 1, out24 := c.par 21 1 == 1,
            specMax := c.par 22 4, draftLen := c.par 22 4, statusAddr := c.dataAddr, exclusive := excl } ∧
        (u.qp q.val).recs = (s.qp q.val).recs ++ [{ cid := c.cid, status := 0, opcode := 1, irq := c.irq }] ∧
        (s.pwrState = 1 → u.pwrState = 3) ∧ OnlyPair q.val rest s u ∧
        SameBut [.out, .now, .qps, .srv, .pwr, .evt] [.PWR_STATUS, .PWR_VCORE_ACT, .CNT_PCIE_DMA_RD, .CNT_T_DMA_RD] s u)) ∧
    ((s.model = none ∨ s.shareOpen (s.fnOf q.val) = false ∨
        ((s.kvAdmits (c.par 0 15)).isSome = true ∧ s.freeSlot = none)) →
      Gives (.openSession k q c) s (fun u => u.qp q.val = { s.qp q.val with
          recs := (s.qp q.val).recs ++ [{ cid := c.cid, status := 0x16, opcode := 1, irq := c.irq }] } ∧
        Counts s u .CNT_T_REFUSALS 1 (s.fnOf q.val) ∧ OnlyPair q.val rest s u ∧
        SameBut [.out, .now, .qps, .srv] [.CNT_PCIE_DMA_RD, .CNT_T_DMA_RD, .CNT_T_REFUSALS] s u)) ∧
    (s.model.isSome = true → s.shareOpen (s.fnOf q.val) = true →
      (s.anyExclusive = true ∨ s.pagesFree < (s.openAll + 1) * s.kvLayers ∨
        (s.num .KVC_BUDGET_EFF < s.chargeAt (c.par 0 15) ∧
          (s.openAll ≠ 0 ∨ s.kvCapacity < s.chargeAt (c.par 0 15))) ∨
        (s.chargeAt (c.par 0 15) ≤ s.num .KVC_BUDGET_EFF ∧ s.num .KVC_BUDGET_EFF <
          (s.sequences.map (fun e => s.chargeAt e.2.limit)).sum + s.chargeAt (c.par 0 15))) →
      Gives (.openSession k q c) s (fun u => u.qp q.val = { s.qp q.val with
          recs := (s.qp q.val).recs ++ [{ cid := c.cid, status := 0x16, opcode := 1, irq := c.irq }] } ∧
        Counts s u .CNT_T_REFUSALS 1 (s.fnOf q.val) ∧ Counts s u .KVC_REFUSALS 1 ∧ u.bit .KVC_INT_STATUS 1 = true ∧
        OnlyPair q.val rest s u ∧
        SameBut [.out, .now, .qps, .srv, .hif] [.KVC_INT_STATUS, .KVC_REFUSALS, .CNT_PCIE_DMA_RD, .CNT_T_DMA_RD,
          .CNT_T_REFUSALS] s u))

/-- R257, R258, R261 to R264, R268, R269, R208: the commands of an open session: input and generation join its work in
order, with no record of their own; CANCEL ends the commands of its scope with ST_CANCELLED; CLOSE; SET_ADAPTER to no
adapter; SET_SAMPLING, which restores the draft length (R274). -/
def Obligations.SessionCommands : Prop :=
  ∀ (s : State) (k : Stamp) (q : Qid) (c : SrvCmd) (rest : List Admitted) (x : Session), Takes s k q.val rest →
    s.isAdmin q.val = false → (s.qp q.val).session = some x → x.state = .opened →
    (∀ ps m, Sent c 2 → s.model = some m → m.audioFrontEnd = true → s.framesOk q.val c = true → c.param = 0 → c.args = 0 →
      Gives (.audioIn k q c ps) s (fun u => u.qp q.val = { s.qp q.val with session := some { x with
          work := x.work ++ [
            { opcode := 2, flags := c.flags.toNat, cid := c.cid, deadline := c.deadline, input := ps,
              frames := c.dataLen.toNat / (if x.in24 then 960 else 640) }] } } ∧ OnlyPair q.val rest s u ∧
        SameBut [.out, .now, .qps, .srv, .pwr, .evt] [.PWR_STATUS, .PWR_VCORE_ACT, .CNT_PCIE_DMA_RD, .CNT_T_DMA_RD] s u)) ∧
    (∀ ps, Sent c 2 → (∀ m, s.model = some m → m.audioFrontEnd = false) → s.framesOk q.val c = true → c.param = 0 → c.args = 0 →
      Gives (.audioIn k q c ps) s (fun u => u.qp q.val = { s.qp q.val with
          recs := (s.qp q.val).recs ++ [{ cid := c.cid, status := 0x0E, opcode := 2, irq := c.irq, detail := 1 }] } ∧
        OnlyPair q.val rest s u ∧ SameBut [.out, .now, .qps, .srv] [.CNT_PCIE_DMA_RD, .CNT_T_DMA_RD] s u)) ∧
    (∀ toks, Sent c 3 → c.dataLen.toNat % 4 = 0 → 4 ≤ c.dataLen.toNat → c.dataLen.toNat ≤ 1048576 → c.param = 0 → c.args = 0 →
      Gives (.textIn k q c toks) s (fun u => u.qp q.val = { s.qp q.val with session := some { x with
          work := x.work ++ [{ opcode := 3, flags := c.flags.toNat, cid := c.cid, deadline := c.deadline, input := toks }] } } ∧
        OnlyPair q.val rest s u ∧
        SameBut [.out, .now, .qps, .srv, .pwr, .evt] [.PWR_STATUS, .PWR_VCORE_ACT, .CNT_PCIE_DMA_RD, .CNT_T_DMA_RD] s u)) ∧
    (Sent c 4 → c.dataAddr = 0 → c.dataLen = 0 → c.param = 0 → c.args = 0 →
      Gives (.prompt k q c) s (fun u => u.qp q.val = { s.qp q.val with session := some { x with
          work := x.work ++ [{ opcode := 4, flags := c.flags.toNat, cid := c.cid, deadline := c.deadline }] } } ∧
        OnlyPair q.val rest s u ∧ SameBut [.out, .now, .qps, .srv] [.CNT_PCIE_DMA_RD, .CNT_T_DMA_RD] s u)) ∧
    (Sent c 5 → c.dataLen.toNat % 4 = 0 → c.par 16 16 = 0 → c.arg 8 4 % (if x.out24 then 960 else 640) = 0 → c.argsEnd 12 = true →
      Gives (.generate k q c) s (fun u => u.qp q.val = { s.qp q.val with session := some { x with
          work := x.work ++ [
            { opcode := 5, flags := c.flags.toNat, cid := c.cid, deadline := c.deadline,
              dataAddr := c.dataAddr, dataLen := c.dataLen.toNat, maxTokens := c.par 0 16,
              audioAddr := BitVec.ofNat 64 (c.arg 0 8), audioLen := c.arg 8 4 }] } } ∧
        OnlyPair q.val rest s u ∧ SameBut [.out, .now, .qps, .srv] [.CNT_PCIE_DMA_RD, .CNT_T_DMA_RD] s u)) ∧
    (∀ hits : Work → Bool, Sent c 6 → c.dataAddr = 0 → c.dataLen = 0 → c.par 0 2 ≤ 2 → c.par 2 30 = 0 →
      (c.par 0 2 = 0 ∨ c.arg 0 2 = 0) → c.argsEnd 2 = true →
      (∀ w, hits w = (w.done.isNone && (c.par 0 2 != 0 || w.cid.toNat == c.arg 0 2))) →
      Gives (.cancel k q c) s (fun u => (∃ y, (u.qp q.val).session = some y ∧ y.state = .opened ∧ y.commit = x.commit ∧
          y.work = x.work.map (fun w => if hits w then { w with done := some (0x14, 0) } else w) ∧
          (c.par 0 2 < 2 → y.blocks = x.blocks ∧ y.base = x.base) ∧
          (c.par 0 2 = 2 → y.blocks = [] ∧ y.base = x.next ∧ y.head = none)) ∧
        (u.qp q.val).recs = (s.qp q.val).recs ++
          [{ cid := c.cid, status := 0, opcode := 6, irq := c.irq, detail := (x.work.filter hits).length }] ∧
        Counts s u .SRV_CANCELLED (x.work.filter hits).length (s.fnOf q.val) ∧ OnlyPair q.val rest s u ∧
        SameBut [.out, .now, .qps, .srv] [.SRV_CANCELLED, .CNT_PCIE_DMA_RD, .CNT_T_DMA_RD] s u)) ∧
    (Sent c 7 → c.dataAddr = 0 → c.dataLen = 0 → c.param = 0 → c.args = 0 →
      Gives (.close k q c) s (fun u => u.qp q.val = { s.qp q.val with session := some { x with
          state := if x.work = [] then .closed else .closing, closing := some (c.cid, c.irq) } } ∧
        OnlyPair q.val rest s u ∧ SameBut [.out, .now, .qps, .srv] [.CNT_PCIE_DMA_RD, .CNT_T_DMA_RD] s u)) ∧
    (Sent c 8 → c.dataAddr = 0 → c.dataLen = 0 → c.param = 0 → c.arg 0 2 = 0xFFFF → c.argsEnd 2 = true →
      Gives (.setAdapter k q c) s (fun u => u.qp q.val = { s.qp q.val with
          session := some { x with adapter := 0xFFFF }
          recs := (s.qp q.val).recs ++ [{ cid := c.cid, status := 0, opcode := 8, irq := c.irq }] } ∧
        OnlyPair q.val rest s u ∧ SameBut [.out, .now, .qps, .srv] [.CNT_PCIE_DMA_RD, .CNT_T_DMA_RD] s u)) ∧
    (Sent c 8 → c.dataAddr = 0 → c.dataLen = 0 → c.param = 0 → c.arg 0 2 < 4096 → s.adapterUsable (c.arg 0 2) = false →
      c.argsEnd 2 = true →
      Gives (.setAdapter k q c) s (fun u => u.qp q.val = { s.qp q.val with
          recs := (s.qp q.val).recs ++ [{ cid := c.cid, status := 0x27, opcode := 8, irq := c.irq }] } ∧
        OnlyPair q.val rest s u ∧ SameBut [.out, .now, .qps, .srv] [.CNT_PCIE_DMA_RD, .CNT_T_DMA_RD] s u)) ∧
    (Sent c 9 → c.dataAddr = 0 → c.dataLen = 0 → c.par 1 31 = 0 → (∀ e ∈ samplingFields c, e.2 = true) →
      Gives (.setSampling k q c) s (fun u => u.qp q.val = { s.qp q.val with
          session := some { x with
            sampling :=
            { temp := BitVec.ofNat 32 (c.arg 0 4), topP := BitVec.ofNat 32 (c.arg 4 4),
              rep := BitVec.ofNat 32 (c.arg 8 4), pres := BitVec.ofNat 32 (c.arg 12 4), freq := BitVec.ofNat 32 (c.arg 16 4),
              topK := c.arg 20 2, history := c.arg 22 2, seed := BitVec.ofNat 64 (c.arg 24 8),
              stop0 := BitVec.ofNat 32 (c.arg 32 4), stop1 := BitVec.ofNat 32 (c.arg 36 4), includeInput := c.par 0 1 == 1 }
            draftLen := x.specMax, specOff := false, rejectRun := 0 }
          recs := (s.qp q.val).recs ++ [{ cid := c.cid, status := 0, opcode := 9, irq := c.irq }] } ∧
        OnlyPair q.val rest s u ∧ SameBut [.out, .now, .qps, .srv] [.CNT_PCIE_DMA_RD, .CNT_T_DMA_RD] s u))

/-- What the operations of a finishing step leave for its outcome (R153, R269). -/
abbrev outcome (s : State) (k : Stamp) (q : Qid) (i : PlanImage) (x : Session) (p : Step) (r : StepRun) : VecOut :=
  ((s.enter k).runOps q.val i.model x p i r.ops {}).2

/-- R218, R226, R273, R275: a step that ends with every scale group of its positions completes: a prompt chunk's positions
in order, each with its input token; of a generation step without drafts one position, with the token sampled from its
logits; nothing is committed before the edge. A cancelled step has no output; one that has not written every group has not
ended; operations outside core SRAM are refused. -/
def Obligations.StepsComplete : Prop :=
  ∀ (s : State) (k : Stamp) (q : Qid) (r : StepRun) (x : Session) (i : PlanImage) (w : Work) (ws : List Work) (p : Step)
    (ps : List Step),
    s.ready = true → s.tide.work = true → s.activePlan.bind (·.img) = some i → (s.qp q.val).session = some x →
    x.work = w :: ws → w.done = none → x.steps = p :: ps → p.complete = false → p.void = false →
    (r.wellFormed = true → groupsAll i.model p r.ops = true → p.cancelled = false → p.gen = false → w.flags % 2 = 1 →
      x.nextTok = none → p.count ≤ (w.input.drop (w.inputCommitted + x.newInput)).length →
      Gives (.stepComplete k q r) s (fun u => ∃ y l, (u.qp q.val).session = some y ∧ y.done = x.done ++ l ∧ y.commit = x.commit ∧
        l.map (fun d => (d.pos, d.token, d.isInput)) = (List.range p.count).map (fun j => (p.first + BitVec.ofNat 32 j,
          (w.input.drop (w.inputCommitted + x.newInput)).getD j 0, true)) ∧
        y.steps.head? = some { p with complete := true, layersDone := p.layers } ∧ y.work = x.work ∧
        (∀ j, j ≠ q.val → u.qp j = s.qp j) ∧ u.pans = s.pans ∧ u.tide = s.tide ∧ u.fab = s.fab)) ∧
    (r.wellFormed = true → groupsAll i.model p r.ops = true → p.cancelled = false → p.gen = true → p.prime = false →
      p.draft = 0 → p.count = 1 → w.flags % 2 = 1 →
      Gives (.stepComplete k q r) s (fun u => ∃ y d, (u.qp q.val).session = some y ∧ y.done = x.done ++ [d] ∧ y.commit = x.commit ∧
        d.pos = p.first ∧ (d.token, d.isInput) = x.firstTok i.model ∧
        d.delivered = some (sample p.sampling (x.firstTok i.model :: x.trail) ((outcome s k q i x p r).at_ p.first) p.first) ∧
        y.steps.head? = some { p with complete := true, layersDone := p.layers } ∧
        (∀ j, j ≠ q.val → u.qp j = s.qp j) ∧ u.pans = s.pans ∧ u.tide = s.tide ∧ u.fab = s.fab)) ∧
    (r.wellFormed = true → groupsAll i.model p r.ops = true → p.cancelled = true →
      Gives (.stepComplete k q r) s (fun u => ∃ y, (u.qp q.val).session = some y ∧ y.done = x.done ∧ y.commit = x.commit ∧
        y.steps.head? = some { p with complete := true, layersDone := p.layers } ∧ ∀ j, j ≠ q.val → u.qp j = s.qp j)) ∧
    (r.wellFormed = true → groupsAll i.model p r.ops = false →
      Gives (.stepComplete k q r) s (fun u => SameBut [.out, .now] [] s u)) ∧
    (r.wellFormed = false → exec (.stepComplete k q r) s = .refused .illFormed)

/-! ### Cores, synchronisation, the plan -/

/-- R301, R302, R304: STEP_START starts the READY context that R304 chooses, the first at or after the pointer among
those of the best rank; it is RUNNING and the switch is counted. With no READY context nothing starts. R441: words of the
configuration that the read corrects are counted. -/
def Obligations.StepsStart : Prop :=
  ∀ (s : State) (k : Stamp) (core : CoreId), s.ready = true → core.val < s.part.cores → (s.enter k).workOpen = true →
    s.hif.restarting = [] → (∀ y < 4, ((s.core core.val).ctx y).state ≠ .running) →
    (∀ x < 4, ((s.core core.val).ctx x).state = .ready → x < (s.core core.val).ctxs.length →
      (∀ y < 4, ((s.core core.val).ctx y).state = .ready → s.ctxRank core.val x ≤ s.ctxRank core.val y ∧
        (s.ctxRank core.val y = s.ctxRank core.val x →
          (x + 7 - (s.core core.val).last % 4) % 4 ≤ (y + 7 - (s.core core.val).last % 4) % 4)) →
      (s.core core.val).unfilled x = false → s.needsVector core.val x = false →
      Gives (.stepStart k core .clean) s (fun u =>
        ((u.core core.val).ctx x) = { (s.core core.val).ctx x with state := .running, mid := true } ∧
        (∀ y, y ≠ x → (u.core core.val).ctx y = (s.core core.val).ctx y) ∧ (u.core core.val).last = x ∧
        (∀ c, c ≠ core.val → u.core c = s.core c) ∧ Counts s u .CRE_SWITCHES 1 core.val ∧
        SameBut [.out, .now, .cores] [.CRE_SWITCHES] s u)) ∧
    ((∀ y < 4, ((s.core core.val).ctx y).state ≠ .ready) →
      Gives (.stepStart k core .clean) s (fun u => SameBut [.out, .now] [] s u)) ∧
    (∀ x n, s.choose core.val = some x → x < 3 → (s.core core.val).unfilled x = false → s.needsVector core.val x = false →
      Gives (.stepStart k core (.corrected n)) s (fun u => Counts s u .HLT_CFG_CORRECTED n ∧ (u.core core.val).last = x ∧
        SameBut [.out, .now, .cores] [.CRE_SWITCHES, .HLT_CFG_CORRECTED] s u))

/-- A sync word has been written: its value, who wrote it, how and when; the waiters whose condition has come true have
left it; no other word has changed (R311 to R313). -/
abbrev Written (s u : State) (k : Stamp) (r : SyncRef) (v : W64) (src op : Nat) : Prop :=
  u.word r = { value := v, lastSrc := src, lastOp := op, lastTide := s.tideIdx, lastTime := max s.now k,
               waiters := (s.word r).waiters.filter (fun x => !condHolds x.cond.cond v x.cond.target) } ∧
  (∀ q, q ≠ r → u.word q = s.word q)

/-- R311 to R314, R321, R325, Table 10.5: what an operation of the issuing context does to a sync word: its value, who
wrote it and when, and the waiters whose condition has come true, which are woken; a WAIT deschedules its context while
its condition is false. The old value is what an ADD and a CAS return, a LOAD the value. One that names a word of another
device sets out over the fabric (R350). -/
def Obligations.SyncOperations : Prop :=
  ∀ (s : State) (k : Stamp) (core : CoreId) (ctx : CtxId) (r : SyncRef), s.issuing core.val ctx.val = true →
    s.hasWord r = true →
    Gives (.syncLoad k core ctx (.word r)) s (fun u => u.out = [.read (s.word r).value] ∧ u.word r = s.word r ∧
      SameBut [.out, .now, .cores] [.SYN_POOL_OPS] s u) ∧
    (∀ v, Gives (.syncStore k core ctx (.word r) v) s (fun u =>
      Written s u k r v (s.unitId 1 core.val ctx.val) 0 ∧ u.out = [] ∧
      SameBut [.out, .now, .cores, .pool] (.SYN_POOL_OPS :: waits) s u)) ∧
    (∀ v, Gives (.syncAdd k core ctx (.word r) v) s (fun u =>
      Written s u k r ((s.word r).value + v) (s.unitId 1 core.val ctx.val) 1 ∧ u.out = [.read (s.word r).value] ∧
      SameBut [.out, .now, .cores, .pool] (.SYN_POOL_OPS :: waits) s u)) ∧
    (∀ v, Gives (.syncCas k core ctx (.word r) (s.word r).value v) s (fun u =>
      Written s u k r v (s.unitId 1 core.val ctx.val) 2 ∧ u.out = [.read (s.word r).value] ∧
      SameBut [.out, .now, .cores, .pool] (.SYN_POOL_OPS :: waits) s u)) ∧
    (∀ e v, (s.word r).value ≠ e →
      Gives (.syncCas k core ctx (.word r) e v) s (fun u => u.out = [.read (s.word r).value] ∧ u.word r = s.word r ∧
        SameBut [.out, .now, .cores] [.SYN_POOL_OPS] s u)) ∧
    (∀ a dst i v, s.opCheck dst = none → s.addr = some a → a ≠ dst → s.usablePlanes a dst ≠ [] →
      Gives (.syncAdd k core ctx (.remote dst i) v) s (fun u =>
        u.fab.ops = s.fab.ops ++ [⟨s.fab.nextOp, .modify, core, ctx, dst, max s.now k, 1⟩] ∧
        u.fab.nextOp = s.fab.nextOp + 1 ∧ SameBut [.out, .now, .fab] (.CNT_LINK_TX :: traffic) s u)) ∧
    (∀ cond target, condHolds cond (s.word r).value target = true →
      Gives (.syncWait k core ctx r cond target) s (fun u => SameBut [.out, .now] [] s u)) ∧
    (∀ cond target, condHolds cond (s.word r).value target = false →
      Gives (.syncWait k core ctx r cond target) s (fun u =>
        u.word r = { s.word r with waiters := (s.word r).waiters ++ [.ctx core ctx ⟨r, cond, target⟩ (max s.now k)] } ∧
        (∀ q, q ≠ r → u.word q = s.word q) ∧
        ((u.core core.val).ctx ctx.val).state = .waiting ∧ ((u.core core.val).ctx ctx.val).reason = some .sync ∧
        ((u.core core.val).ctx ctx.val).wait = some ⟨r, cond, target⟩ ∧
        SameBut [.out, .now, .cores, .pool] [.CRE_SWITCHES] s u))

/-- The context waits for a fence of a kind, from now on (R303, R318). -/
abbrev FenceWaits (s u : State) (k : Stamp) (core : CoreId) (ctx : CtxId) (kind : Nat) : Prop :=
  ((u.core core.val).ctx ctx.val).state = .waiting ∧ ((u.core core.val).ctx ctx.val).reason = some .fence ∧
  ((u.core core.val).ctx ctx.val).fence = kind ∧ ((u.core core.val).ctx ctx.val).since = max s.now k ∧
  (∀ d, d ≠ core.val → u.core d = s.core d) ∧ SameBut [.out, .now, .cores] [.CRE_SWITCHES] s u

/-- R303, R318, R352: a fence deschedules its context with reason FENCE; it completes, where a fabric fence has no
operation of the context left without an answer, and the wait is counted. -/
def Obligations.Fences : Prop :=
  ∀ (s : State) (k : Stamp) (core : CoreId) (ctx : CtxId),
    (s.issuing core.val ctx.val = true →
      Gives (.fenceLocal k core ctx) s (fun u => FenceWaits s u k core ctx 0) ∧
      Gives (.fenceDevice k core ctx) s (fun u => FenceWaits s u k core ctx 1) ∧
      Gives (.fenceFabric k core ctx) s (fun u => FenceWaits s u k core ctx 2)) ∧
    (core.val < s.part.cores → ((s.core core.val).ctx ctx.val).reason = some .fence →
      (((s.core core.val).ctx ctx.val).fence = 2 → s.opsOpen core ctx = false) →
      Gives (.fenceComplete k core ctx) s (fun u => ((u.core core.val).ctx ctx.val).reason = none ∧
        (((u.core core.val).ctx ctx.val).state = .ready ∨ ((u.core core.val).ctx ctx.val).state = .running) ∧
        Counts s u .CRE_FENCES 1 core.val ∧
        Counts s u .CRE_FENCE_NS (max s.now k - ((s.core core.val).ctx ctx.val).since) core.val ∧
        (∀ d, d ≠ core.val → u.core d = s.core d) ∧
        SameBut [.out, .now, .cores] [.CRE_SWITCHES, .CRE_FENCES, .CRE_FENCE_NS] s u)) ∧
    (((s.core core.val).ctx ctx.val).fence = 2 → s.opsOpen core ctx = true →
      Gives (.fenceComplete k core ctx) s (fun u => SameBut [.out, .now] [] s u))

/-- R307 to R310, R496, Table 14.4: a transfer within the run-ahead window, whose buffer no step still reads, starts; one
whose sync condition is false waits on the word; the head of the queue starts first. A transfer's end brings its bytes into
core SRAM, counts them and wakes the context that waits for them; an uncorrectable error counts in HLT_MEM_UE. Which transfer
the schedule names comes with the command (log 13). -/
def Obligations.Hoists : Prop :=
  ∀ (s : State) (k : Stamp) (core : CoreId) (h : Fin 2) (ctx : CtxId) (step : Nat) (x : Transfer),
    (core.val < s.part.cores → (s.enter k).beforeSeal = true → h.val < (s.core core.val).hoists.length →
      ((s.core core.val).hoist h.val).busy = none →
      (∀ d, ((s.core core.val).hoist h.val).queue = [] → x.cond = none →
        d = ({ dest := x.dest, bytes := x.bytes, out := x.out, bed := x.bed, ctx := ctx, step := step } : Desc) →
        step < ((s.core core.val).ctx ctx.val).step + ((s.schedOf core.val).map (·.window)).getD 1 →
        (s.core core.val).stillRead d = false →
        Gives (.hoistTransferStart k core h ctx step x) s (fun u =>
          ((u.core core.val).hoist h.val).busy = some d ∧ ((u.core core.val).hoist h.val).queue = [] ∧
          ((u.core core.val).hoist h.val).ahead = ((s.core core.val).hoist h.val).ahead ++
            (if x.out then [] else [⟨ctx, step, x.dest, x.bytes⟩]) ∧
          (∀ d, d ≠ core.val → u.core d = s.core d) ∧ SameBut [.out, .now, .cores] [] s u)) ∧
      (∀ r cond v, ((s.core core.val).hoist h.val).queue = [] → x.cond = some (r, cond, v) →
        condHolds cond (s.word r).value v = false →
        Gives (.hoistTransferStart k core h ctx step x) s (fun u =>
          ((u.core core.val).hoist h.val).busy = none ∧
          ((u.core core.val).hoist h.val).queue.map (·.wait) = [some ⟨r, cond, v⟩] ∧
          (u.word r).waiters = (s.word r).waiters ++ [.hoist core h ⟨r, cond, v⟩ (max s.now k)] ∧
          (∀ q, q ≠ r → u.word q = s.word q) ∧ SameBut [.out, .now, .cores, .pool] [] s u)) ∧
      (∀ d ds, ((s.core core.val).hoist h.val).queue = d :: ds → d.wait = none →
        (d.demand.isSome = true ∨ d.step < ((s.core core.val).ctx d.ctx.val).step + ((s.schedOf core.val).map (·.window)).getD 1 ∧
          (s.core core.val).stillRead d = false) →
        Gives (.hoistTransferStart k core h ctx step x) s (fun u =>
          ((u.core core.val).hoist h.val).busy = some d ∧ ((u.core core.val).hoist h.val).queue = ds ∧
          SameBut [.out, .now, .cores] [] s u))) ∧
    ((s.enter k).beforeSeal = false →
      Gives (.hoistTransferStart k core h ctx step x) s (fun u => SameBut [.out, .now] [] s u)) ∧
    (∀ d data, ((s.core core.val).hoist h.val).busy = some d → d.demand = none → d.bed = none → d.out = false →
      ((s.core core.val).hoist h.val).queue = [] → data.length = d.bytes → d.dest + d.bytes ≤ 524288 →
      (s.core core.val).hoists.all (fun y => y.queue.isEmpty && (y.busy.isNone || y.busy == some d)) = true →
      Gives (.hoistTransferComplete k core h data false) s (fun u =>
        ((u.core core.val).hoist h.val).busy = none ∧ u.memRead (sramAddr core.val d.dest) d.bytes = data ∧
        (∀ a, a < sramAddr core.val d.dest ∨ sramAddr core.val d.dest + d.bytes ≤ a → u.memRead a 1 = s.memRead a 1) ∧
        ((u.core core.val).ctx d.ctx.val).reason ≠ some .hoist ∧
        Counts s u (if h.val = 0 then .CRE_HOIST0_BYTES else .CRE_HOIST1_BYTES) d.bytes core.val ∧
        Counts s u .CNT_SRAM_BYTES d.bytes ∧ Counts s u .CNT_HBM_RD d.bytes ∧
        SameBut [.out, .freeCtr, .now, .cores, .mem] ([.CRE_HOIST0_BYTES, .CRE_HOIST1_BYTES] ++ traffic ++ waits) s u)) ∧
    (∀ d data p, ((s.core core.val).hoist h.val).busy = some d → d.demand = none → d.bed = some p → d.out = false →
      Gives (.hoistTransferComplete k core h data false) s (fun u =>
        (u.pan p.val).stagedIn = (s.pan p.val).stagedIn + d.bytes ∧ (∀ q, q ≠ p.val → u.pan q = s.pan q) ∧
        SameBut [.out, .freeCtr, .now, .cores, .pans, .mem] ([.CRE_HOIST0_BYTES, .CRE_HOIST1_BYTES] ++ traffic ++ waits) s u)) ∧
    (∀ d data, ((s.core core.val).hoist h.val).busy = some d → d.demand = none →
      Gives (.hoistTransferComplete k core h data true) s (fun u =>
        Counts s u (if h.val = 0 then .CRE_HOIST0_BYTES else .CRE_HOIST1_BYTES) d.bytes core.val ∧
        Counts s u .HLT_MEM_UE 1 ∧ u.bit .HLT_INT_STATUS 6 = true))

/-- R315, R316, R317: the host's operations on the pool words of its function's share, in the access view and in the add
view, with its own identity; what is outside the share is ignored. APPLY of a pool share, where R316 does not refuse it. -/
def Obligations.PoolOfTheHost : Prop :=
  ∀ (s : State) (k : Stamp) (fn : FnId) (off : Nat) (v : W64), s.fnLive fn.val = true →
    (∀ i, s.poolWord fn.val off = some i → i < 65536 →
      Gives (.poolHostStore k fn off v) s (fun u => Written s u k (poolRef i) v (4 + fn.val * 16 + 2 ^ 31) 0 ∧
        Counts s u .SYN_POOL_OPS 1 ∧ SameBut [.out, .now, .cores, .pool] (.SYN_POOL_OPS :: waits) s u) ∧
      Gives (.poolHostAdd k fn off v) s (fun u =>
        Written s u k (poolRef i) ((s.word (poolRef i)).value + v) (4 + fn.val * 16 + 2 ^ 31) 1 ∧
        Counts s u .SYN_POOL_OPS 1 ∧ SameBut [.out, .now, .cores, .pool] (.SYN_POOL_OPS :: waits) s u)) ∧
    (∀ c ∈ [Instr.poolHostStore k fn off v, .poolHostAdd k fn off v],
      (fn.val = 0 ∧ 65536 ≤ off / 8 ∨ fn.val ≠ 0 ∧ (s.share fn.val).poolCount ≤ off / 8) →
      Gives c s (fun u => SameBut [.out, .now] [] s u)) ∧
    (∀ (w : W32) (g base count : Nat), Serves s → w.getLsbD 18 = true →
      s.fld .SYN_ALLOC_SEL 0 7 = g → s.fld .SYN_ALLOC_BASE 0 16 = base → w.toNat % 2 ^ 17 = count →
      (s.shareRefused g base count = false →
        Gives (.shareApply k 0 w) s (fun u =>
          u.share g = { s.share g with poolBase := base, poolCount := count, fabric := w.getLsbD 17 && s.part != .jn8s } ∧
          (∀ f, f ≠ g → u.share f = s.share f) ∧ u.bit .SYN_INT_STATUS 2 = true ∧
          SameBut [.out, .now, .shares, .hif] [.SYN_ALLOC_CTRL, .SYN_INT_STATUS, .CNT_PCIE_BAR_WR] s u)) ∧
      (s.shareRefused g base count = true →
        Gives (.shareApply k 0 w) s (fun u => u.bit .SYN_INT_STATUS 1 = true ∧
          SameBut [.out, .now, .hif] [.SYN_ALLOC_CTRL, .SYN_INT_STATUS, .CNT_PCIE_BAR_WR] s u)))

/-- R291, R295, R298: START, ABORT, RELEASE and DUMP of BPL_CTRL: a load begins in a slot that is EMPTY or FAILED while
the other slot is EMPTY, FAILED or ACTIVE, else ST_BPL_BUSY; RELEASE frees a slot that is not ACTIVE, with a load into it.
R282 to R296, Table 9.9: a plan image that passes its checks and that the scheduler can place is placed and, with no
model for it, waits for one; the first check that fails ends the load with its step, code, section and offset, and a
plan that cannot be placed ends with ST_BPL_CORES; an aborted load and one whose read ended in an error fail with
ST_BPL_ABORTED. Which of the placements that meet R296 is taken is the model's choice (log 18). -/
def Obligations.PlanSlots : Prop :=
  (∀ (s : State) (k : Stamp) (w : W32) (i : Nat), Serves s → w.toNat / 4 % 2 = i →
    (Only w 0 [1, 3, 5] → s.plans.loading = none → ((s.pslot i).state = .empty ∨ (s.pslot i).state = .failed) →
      ((s.pslot (1 - i)).state = .empty ∨ (s.pslot (1 - i)).state = .failed ∨ (s.pslot (1 - i)).state = .active) →
      Gives (.planLoadStart k 0 w) s (fun u => u.pslot i = { state := .loading } ∧ u.pslot (1 - i) = s.pslot (1 - i) ∧
        u.plans.loading = some (i, false) ∧ u.num .BPL_STATUS = 1 ∧ u.bit .BPL_CTRL 0 = true ∧
        (s.pwrState = 1 ∨ s.pwrState = 2 → u.pwrState = 3) ∧
        SameBut [.out, .now, .plans, .pwr, .evt] [.BPL_CTRL, .BPL_STATUS, .PWR_STATUS, .PWR_VCORE_ACT, .CNT_PCIE_BAR_WR] s u)) ∧
    (Only w 0 [1, 3, 5] → (s.plans.loading.isSome = true ∨ ((s.pslot i).state ≠ .empty ∧ (s.pslot i).state ≠ .failed) ∨
        ((s.pslot (1 - i)).state ≠ .empty ∧ (s.pslot (1 - i)).state ≠ .failed ∧ (s.pslot (1 - i)).state ≠ .active)) →
      Gives (.planLoadStart k 0 w) s (fun u => u.fld .BPL_STATUS 8 8 = 0x6A ∧ u.bit .BPL_CTRL 0 = false ∧
        u.bit .BPL_INT_STATUS 1 = true ∧
        SameBut [.out, .now, .hif] [.BPL_CTRL, .BPL_STATUS, .BPL_INT_STATUS, .CNT_PCIE_BAR_WR] s u)) ∧
    (∀ j a, Only w 1 [0, 3, 5] → s.plans.loading = some (j, a) →
      Gives (.planLoadAbort k 0 w) s (fun u => u.plans = { s.plans with loading := some (j, true) } ∧
        u.bit .BPL_CTRL 1 = false ∧ SameBut [.out, .now, .plans] [.BPL_CTRL, .CNT_PCIE_BAR_WR] s u)) ∧
    (Only w 3 [0, 1, 5] → (s.pslot i).state ≠ .active → (s.pslot i).state ≠ .loading → (s.pslot i).bound = none →
      (s.pslot i).pans = [] →
      Gives (.planRelease k 0 w) s (fun u => u.pslot i = {} ∧ u.pslot (1 - i) = s.pslot (1 - i) ∧ u.bit .BPL_CTRL 3 = false ∧
        SameBut [.out, .now, .plans] [.BPL_CTRL, .CNT_PCIE_BAR_WR] s u)) ∧
    (∀ j a, Only w 3 [0, 1, 5] → (s.pslot i).state = .loading → s.plans.loading = some (j, a) →
      Gives (.planRelease k 0 w) s (fun u => u.pslot i = {} ∧ u.pslot (1 - i) = s.pslot (1 - i) ∧ u.plans.loading = none ∧
        u.bit .BPL_CTRL 3 = false ∧ u.bit .BPL_CTRL 0 = false ∧ u.fld .BPL_STATUS 0 4 = 0 ∧
        SameBut [.out, .now, .plans] [.BPL_CTRL, .BPL_STATUS, .CNT_PCIE_BAR_WR] s u)) ∧
    (Only w 3 [0, 1, 5] → (s.pslot i).state = .active →
      Gives (.planRelease k 0 w) s (fun u => u.bit .BPL_CTRL 3 = false ∧
        SameBut [.out, .now] [.BPL_CTRL, .CNT_PCIE_BAR_WR] s u)) ∧
    (Only w 5 [0, 1, 3] →
      Gives (.placementDump k 0 w) s (fun u => u.plans = { s.plans with dump := true } ∧ u.bit .BPL_CTRL 5 = true ∧
        SameBut [.out, .now, .plans] [.BPL_CTRL, .CNT_PCIE_BAR_WR] s u))) ∧
  (∀ (s : State) (k : Stamp) (p : PlanFile) (i : Nat), i < 2 →
    (∀ place st, s.plans.loading = some (i, false) → p.dmaError = false → planFault p (s.num .BPL_LOAD_LEN) = none →
      (∀ w < 2, (s.wslot w).modelId ≠ (planOf p).modelId) → s.placePlan (planOf p) = some (st, place) →
      Gives (.planLoadDone k p) s (fun u =>
        u.pslot i = { state := .waitModel, img := some (planOf p), place := place, streamed := st } ∧
        u.pslot (1 - i) = s.pslot (1 - i) ∧ u.plans.loading = none ∧ u.num .BPL_STATUS = 0 ∧ u.bit .BPL_CTRL 0 = false ∧
        u.bit .BPL_INT_STATUS 0 = true ∧ Counts s u .CNT_PCIE_DMA_RD (planOf p).planLen ∧
        Counts s u .CNT_T_DMA_RD (planOf p).planLen ∧
        SameBut [.out, .now, .plans, .hif] [.BPL_CTRL, .BPL_STATUS, .BPL_INT_STATUS, .CNT_PCIE_DMA_RD, .CNT_T_DMA_RD] s u)) ∧
    (∀ f, s.plans.loading = some (i, false) → p.dmaError = false →
      (planFault p (s.num .BPL_LOAD_LEN) = some f ∨ (planFault p (s.num .BPL_LOAD_LEN) = none ∧
        s.placePlan (planOf p) = none ∧ f = ⟨11, 0x69, sectionIndex p 3, s.placeFault (planOf p)⟩)) →
      Gives (.planLoadDone k p) s (fun u => (u.pslot i).state = .failed ∧ (u.pslot i).img = none ∧
        u.pslot (1 - i) = s.pslot (1 - i) ∧ u.plans.loading = none ∧ u.fld .BPL_STATUS 0 4 = f.step % 16 ∧
        u.fld .BPL_STATUS 8 8 = f.code % 256 ∧ u.num .BPL_FAIL_SECTION = f.sec % 2 ^ 32 ∧
        u.num .BPL_FAIL_OFFSET = f.off % 2 ^ 32 ∧ u.bit .BPL_CTRL 0 = false ∧ u.bit .BPL_INT_STATUS 1 = true ∧
        SameBut [.out, .now, .plans, .hif] [.BPL_CTRL, .BPL_STATUS, .BPL_FAIL_SECTION, .BPL_FAIL_OFFSET, .BPL_INT_STATUS] s u)) ∧
    (∀ a, s.plans.loading = some (i, a) → (a = true ∨ p.dmaError = true) →
      Gives (.planLoadDone k p) s (fun u => (u.pslot i).state = .failed ∧ (u.pslot i).img = none ∧
        u.pslot (1 - i) = s.pslot (1 - i) ∧ u.plans.loading = none ∧ u.fld .BPL_STATUS 8 8 = 0x6B ∧
        u.bit .BPL_CTRL 0 = false ∧ u.bit .BPL_INT_STATUS 1 = true ∧
        SameBut [.out, .now, .plans, .hif] [.BPL_CTRL, .BPL_STATUS, .BPL_INT_STATUS, .HIF_INT_STATUS, .HIF_DMA_ERRORS] s u)))

/-! ### The fabric -/

/-- R338, R339, R336, R337, R341, R520: presence starts DETECT, its debounce ends in TRAIN, a trained link sends its first
HELLO; the third failure of the training holds it; a HELLO that does not come takes it back to TRAIN; a loss of presence
takes it DOWN. The other links stay as they are. -/
def Obligations.LinkBringUp : Prop :=
  ∀ (s : State) (k : Stamp) (n : LinkId) (l : Link), s.link n.val = l →
    (n.val < s.part.links → l.st = .down → l.disabled = false → s.powered = true → s.fabOn = true → s.linkIdle n.val = false →
      Gives (.presenceProbe k n true) s (fun u =>
        u.link n.val = { l with present := true, st := .detect, since := max s.now k } ∧
        (∀ m, m ≠ n.val → u.link m = s.link m) ∧ SameBut [.out, .now, .fab] [] s u)) ∧
    (l.st = .detect → l.present = true → l.since + 10000000 ≤ max s.now k →
      Gives (.detectDebounceEnd k n) s (fun u =>
        u.link n.val = { l with st := .train, since := max s.now k, trainFails := 0 } ∧
        (∀ m, m ≠ n.val → u.link m = s.link m) ∧ SameBut [.out, .now, .fab] [] s u)) ∧
    (l.st = .detect → max s.now k < l.since + 10000000 →
      Gives (.detectDebounceEnd k n) s (fun u => SameBut [.out, .now] [] s u)) ∧
    (∀ nonce, (l.st = .train ∨ l.st = .retrain) →
      Gives (.trainComplete k n nonce) s (fun u =>
        u.link n.val = { l with st := .hello, since := max s.now k, nonce := nonce, first := false, trainFails := 0 } ∧
        (∃ salt, salt.length = 64 ∧ u.out = [.hello n.val ((s.ownHello n.val nonce 0).bytes ++
          pssSign s.boot.identity.n s.boot.identity.d salt (s.ownHello n.val nonce 0).bytes)]) ∧
        (∀ m, m ≠ n.val → u.link m = s.link m) ∧ SameBut [.out, .freeCtr, .now, .fab] [] s u)) ∧
    (l.st = .train → l.trainFails < 2 →
      Gives (.trainTimeout k n) s (fun u =>
        u.link n.val = { l with trainFails := l.trainFails + 1, since := max s.now k } ∧
        (∀ m, m ≠ n.val → u.link m = s.link m) ∧ SameBut [.out, .now, .fab] [] s u)) ∧
    (l.unacked = [] → l.waiting = [] →
      ((l.st = .train ∧ 2 ≤ l.trainFails) ∨
        (l.st = .retrain ∧ 2 ≤ (l.retrains.filter (fun x => decide (max s.now k < x + 1000000000))).length)) →
      Gives (.trainTimeout k n) s (fun u => (u.link n.val).st = .held ∧ (u.link n.val).code = 0x39 ∧
        u.bit .FAB_INT_STATUS 2 = true ∧ (∀ m, m ≠ n.val → u.link m = s.link m) ∧
        SameBut [.out, .now, .fab, .hif, .evt] [.FAB_INT_STATUS] s u)) ∧
    (l.st = .hello →
      Gives (.helloTimeout k n) s (fun u => u.link n.val = { l with st := .train, since := max s.now k } ∧
        (∀ m, m ≠ n.val → u.link m = s.link m) ∧ SameBut [.out, .now, .fab] [] s u)) ∧
    (n.val < s.part.links → l.unacked = [] → l.waiting = [] → l.st ≠ .down →
      Gives (.presenceLoss k n) s (fun u =>
        u.link n.val = { present := false, disabled := l.disabled, since := max s.now k } ∧
        (∀ m, m ≠ n.val → u.link m = s.link m) ∧
        (l.st = .up ∨ l.st = .admitSt ∨ l.st = .retrain → u.bit .FAB_INT_STATUS 1 = true) ∧
        SameBut [.out, .now, .fab, .hif, .evt] [.TDE_STATUS, .FAB_STATUS, .FAB_ADDR, .FAB_INT_STATUS] s u))

/-- R339, R340, R345, R358: the partner's first HELLO is answered with its nonce; the second that passes the checks takes
the link to ADMIT with the lower of the versions; one that fails them holds it with the code of the first failure, of
which a bad signature, a wrong PEER_NONCE and a device without a certificate give ST_FAB_AUTH. -/
def Obligations.Hellos : Prop :=
  ∀ (s : State) (k : Stamp) (n : LinkId) (l : Link) (h : Hello), s.link n.val = l → l.st = .hello →
    (h.peerNonce = 0 →
      Gives (.helloReceived k n h) s (fun u => u.link n.val = { l with first := true } ∧
        (∃ salt, salt.length = 64 ∧ u.out = [.hello n.val ((s.ownHello n.val l.nonce h.nonce).bytes ++
          pssSign s.boot.identity.n s.boot.identity.d salt (s.ownHello n.val l.nonce h.nonce).bytes)]) ∧
        (∀ m, m ≠ n.val → u.link m = s.link m) ∧ SameBut [.out, .freeCtr, .now, .fab] [] s u)) ∧
    (h.peerNonce ≠ 0 → l.first = true → (∀ p, l.peer = some p → p.keyId = h.keyId) →
      (s.helloFail n.val h = none →
        Gives (.helloReceived k n h) s (fun u =>
          u.link n.val = { l with st := .admitSt, since := max s.now k, peer := some h, ver := min 2 h.verMax, code := 0 } ∧
          u.num .FAB_ROOT = h.rootAddr.toNat + 2 ^ 31 ∧ (∀ m, m ≠ n.val → u.link m = s.link m) ∧
          SameBut [.out, .now, .fab, .hif] [.TDE_STATUS, .FAB_STATUS, .FAB_ADDR, .FAB_DIMS, .FAB_ROOT, .FAB_SYSTEM_ID,
            .FAB_INT_STATUS] s u)) ∧
      (∀ c, l.unacked = [] → l.waiting = [] → s.helloFail n.val h = some c →
        Gives (.helloReceived k n h) s (fun u => (u.link n.val).st = .held ∧ (u.link n.val).code = c ∧
          u.bit .FAB_INT_STATUS 2 = true ∧ (∀ m, m ≠ n.val → u.link m = s.link m) ∧
          SameBut [.out, .now, .fab, .hif, .evt] [.FAB_INT_STATUS] s u)) ∧
      ((h.signed = false ∨ h.peerNonce ≠ l.nonce ∨ s.bit .SEC_STATUS 0 = false) → s.helloFail n.val h = some 0x36))

/-- The link has gone from UP into RETRAIN (R336): its sequence numbers start anew, it counts and interrupts, and no other
link changed its state. -/
abbrev Retrained (s u : State) (n : Nat) : Prop :=
  (u.link n).st = .retrain ∧ (u.link n).txSeq = 0 ∧ (u.link n).rxSeq = 0 ∧ Counts s u .FAB_LINK_RETRAINS 1 0 n ∧
  u.bit .FAB_INT_STATUS 1 = true ∧ ∀ j, j ≠ n → (u.link j).st = (s.link j).st

/-- R334, R335, R336, R337, R357: acknowledgements and credits; the acknowledgement timer; silence and RETRAIN take an UP
link into RETRAIN, RESET takes a HELD one DOWN; the delay measured; faulty packets are answered with NAK and counted, and
packets of reserved types are dropped and counted. -/
def Obligations.LinkDelivery : Prop :=
  ∀ (s : State) (k : Stamp) (n : LinkId) (l : Link), s.link n.val = l →
    (∀ ack b m, (l.st = .up ∨ l.st = .admitSt) → l.waiting = [] →
      Gives (.linkCtrlReceived k n ack none [(b, m)]) s (fun u =>
        (u.link n.val).unacked = l.unacked.filter (fun e => !ackCovers ack e.1.seq) ∧ (u.link n.val).st = l.st ∧
        (∀ i < 16, (u.link n.val).spent.getD i 0 = l.spent.getD i 0 - (if i = b.val then m else 0)) ∧
        (∀ j, j ≠ n.val → u.link j = s.link j) ∧ SameBut [.out, .now, .fab] [] s u)) ∧
    (∀ ack q, (l.st = .up ∨ l.st = .admitSt) → l.waiting = [] → (∀ e ∈ l.unacked, e.2 < 15) →
      Gives (.linkCtrlReceived k n ack (some q) []) s (fun u => (u.link n.val).st = l.st ∧
        (u.link n.val).unacked.map (·.1) = (l.unacked.filter (fun e => !ackCovers ack e.1.seq)).map (·.1) ∧
        Counts s u .FAB_LINK_REPLAYS
          ((l.unacked.filter (fun e => !ackCovers ack e.1.seq)).filter (fun e => ackCovers e.1.seq q)).length 0 n.val ∧
        SameBut [.out, .now, .fab] [.FAB_LINK_REPLAYS] s u)) ∧
    ((l.st = .up ∨ l.st = .admitSt) →
      Gives (.linkAckTimer k n) s (fun u => u.link n.val = { l with toAck := 0, freed := [] } ∧
        (∃ p, u.out = [.packet n.val p] ∧ p.type = 0 ∧ p.args = [0, (l.rxSeq - 1).toNat] ++ l.freed) ∧
        SameBut [.out, .now, .fab] [] s u)) ∧
    (l.st = .up → l.unacked = [] → l.waiting = [] →
      Gives (.linkSilence k n) s (fun u => Retrained s u n.val ∧
        SameBut [.out, .now, .fab, .hif] [.TDE_STATUS, .FAB_STATUS, .FAB_INT_STATUS, .FAB_LINK_RETRAINS, .CNT_LINK_TX] s u)) ∧
    (∀ w, Only w 0 [1, 2] → Serves s → s.part ≠ .jn8s → s.selLink = n.val → n.val < s.part.links → l.disabled = false →
      l.st = .up → l.unacked = [] → l.waiting = [] →
      Gives (.retrain k 0 w) s (fun u => Retrained s u n.val ∧
        SameBut [.out, .now, .fab, .hif] [.TDE_STATUS, .FAB_STATUS, .FAB_INT_STATUS, .FAB_LINK_RETRAINS, .CNT_LINK_TX,
          .CNT_PCIE_BAR_WR] s u)) ∧
    (∀ w, Only w 1 [0, 2] → Serves s → s.part ≠ .jn8s → s.selLink = n.val → n.val < s.part.links → l.st = .held →
      l.unacked = [] → l.waiting = [] →
      Gives (.linkReset k 0 w) s (fun u => (u.link n.val).st = .down ∧ (u.link n.val).code = 0 ∧
        (∀ j, j ≠ n.val → u.link j = s.link j) ∧
        SameBut [.out, .now, .fab, .hif] [.TDE_STATUS, .FAB_STATUS, .FAB_ADDR, .FAB_INT_STATUS, .CNT_PCIE_BAR_WR] s u)) ∧
    ((l.st = .up ∨ l.st = .admitSt) → l.waiting = [] → l.unacked = [] → l.spent = [] →
      Gives (.delayExchange k n) s (fun u =>
        (∃ p, u.out = [.packet n.val p] ∧ p.type = 4 ∧ p.ver = l.ver ∧ p.seq = l.txSeq ∧ p.args = [max s.now k]) ∧
        (u.link n.val).txSeq = l.txSeq + 1 ∧ (∀ j, j ≠ n.val → u.link j = s.link j) ∧
        SameBut [.out, .now, .fab] [.CNT_LINK_TX] s u)) ∧
    (∀ h t1 t2 t3 t4, Comes s n.val h →
      Gives (.delayReceived k n h t1 t2 t3 t4) s (fun u => Received s u n.val h ∧
        u.num .FAB_LINK_DELAY 0 n.val = (((t4 - t1) - (t3 - t2)) / 2) % 2 ^ 32 ∧ (∀ j, j ≠ n.val → u.link j = s.link j) ∧
        SameBut [.out, .now, .fab] [.FAB_LINK_DELAY, .CNT_LINK_RX] s u)) ∧
    (∀ f, (l.st = .up ∨ l.st = .admitSt) →
      Gives (.packetCrcFail k n f) s (fun u =>
        Counts s u .FAB_LINK_CRC_ERR (if f = .seq then 0 else 1) 0 n.val ∧
        Counts s u .FAB_LINK_FEC_UNCORR (if f = .fec then 1 else 0) 0 n.val ∧
        (∃ p, u.out = [.packet n.val p] ∧ p.type = 0 ∧ p.args = [1, l.rxSeq.toNat] ++ l.freed) ∧
        u.link n.val = { l with freed := [] } ∧ (∀ j, j ≠ n.val → u.link j = s.link j) ∧
        SameBut [.out, .now, .fab] [.FAB_LINK_FEC_UNCORR, .FAB_LINK_CRC_ERR] s u)) ∧
    (∀ h type, Comes s n.val h → 14 ≤ type →
      Gives (.reservedTypePacket k n h type) s (fun u => Received s u n.val h ∧ Counts s u .FAB_VER_DROPS 1 ∧
        (∀ j, j ≠ n.val → u.link j = s.link j) ∧ SameBut [.out, .now, .fab] [.FAB_VER_DROPS, .CNT_LINK_RX] s u))

/-- R347, R334, R346, R358: a newer link-state update replaces the one held of its device; an older one does nothing. A
sequenced packet in its turn is accepted; one out of its turn is answered with NAK, one of another version dropped and
counted, and neither has an effect; a packet in transit goes on, on the link that its direct route gives. -/
def Obligations.LinkStateAndTransit : Prop :=
  ∀ (s : State) (k : Stamp) (n : LinkId) (l : Link), s.link n.val = l →
    (∀ h (u' : Lsu), Comes s n.val h → (∀ m, s.memberAt u'.addr = some m → m.counter < u'.counter) →
      s.isRoot = false →
      Gives (.lsuReceived k n h u') s (fun u => Received s u n.val h ∧
        (∃ m, u.memberAt u'.addr = some m ∧ m.counter = u'.counter ∧ m.up = u'.up ∧ (∀ x ∈ m.routes, x ∈ u'.up)) ∧
        (∀ a, a ≠ u'.addr → u.memberAt a = s.memberAt a) ∧ Counts s u .FAB_LSU_RX 1 ∧
        SameBut [.out, .now, .fab, .hif] [.TDE_STATUS, .FAB_STATUS, .FAB_INT_STATUS, .FAB_LSU_RX, .CNT_LINK_TX,
          .CNT_LINK_RX] s u)) ∧
    (∀ h (u' : Lsu) m, Comes s n.val h → s.memberAt u'.addr = some m → u'.counter ≤ m.counter →
      Gives (.lsuReceived k n h u') s (fun u => Received s u n.val h ∧ (∀ j, j ≠ n.val → u.link j = s.link j) ∧
        (∀ a, u.memberAt a = s.memberAt a) ∧ SameBut [.out, .now, .fab] [.CNT_LINK_RX] s u)) ∧
    (∀ (h : PktHdr) num w op b o x vs st v ty args f, l.st = .up →
      ∀ c ∈ [Instr.syncReqReceived k n h num w op, .syncRespReceived k n h num st v, .writeReceived k n h num b o x,
        .reduceAddReceived k n h num b o vs, .ackReceived k n h num st, .transitPacket k n h ty num args f],
      (h.seq = l.rxSeq → (h.ver < 1 ∨ 2 < h.ver) →
        Gives c s (fun u => Received s u n.val h ∧ Counts s u .FAB_VER_DROPS 1 ∧
          (∀ j, j ≠ n.val → u.link j = s.link j) ∧ SameBut [.out, .now, .fab] [.FAB_VER_DROPS, .CNT_LINK_RX] s u)) ∧
      (h.seq ≠ l.rxSeq →
        Gives c s (fun u => (∃ p, u.out = [.packet n.val p] ∧ p.type = 0 ∧ p.args = [1, l.rxSeq.toNat] ++ l.freed) ∧
          u.link n.val = { l with freed := [] } ∧ (∀ j, j ≠ n.val → u.link j = s.link j) ∧
          SameBut [.out, .now, .fab] [] s u))) ∧
    (∀ (h : PktHdr) ty num args a d, Comes s n.val h → l.waiting = [] → l.toAck < 63 →
      s.addr = some a → a ≠ h.dst → hopDir s.dims a h.dst = some d → n.val / 6 * 6 + d ≠ n.val →
      (s.link (n.val / 6 * 6 + d)).waiting = [] → (s.link (n.val / 6 * 6 + d)).unacked = [] →
      (s.link (n.val / 6 * 6 + d)).spent = [] → h.len ≤ 512 →
      Gives (.transitPacket k n h ty num args none) s (fun u => Received s u n.val h ∧
        (∃ p, u.out = [.packet (n.val / 6 * 6 + d) p] ∧ p.type = ty ∧ p.dst = h.dst ∧ p.src = h.src ∧ p.len = h.len ∧
          p.opNum = num ∧ p.args = args ∧
          p.seq = (s.link (n.val / 6 * 6 + d)).txSeq ∧
          p.dateline = ((h.dateline && n.val % 6 / 2 == d / 2) || crossesWrap s.dims a d)) ∧
        SameBut [.out, .now, .fab] [.CNT_LINK_TX, .CNT_LINK_RX] s u))

/-- A word of a destination buffer. -/
abbrev bufWord (s : State) (buf i : Nat) : Nat := leNat (s.memRead ((s.buffer buf).base + 8 * i) 8)

/-- `bytes` lie in the destination buffer from `off` on, as far as it reaches; all other memory holds what it held (R350,
log 117). -/
abbrev BufHolds (s u : State) (buf off : Nat) (bytes : List Byte) : Prop :=
  ∀ a, Cells.get (fun _ => (0 : Byte)) u.mem a =
    if (s.buffer buf).base + off ≤ a ∧ a < (s.buffer buf).base + off + min bytes.length ((s.buffer buf).len - off)
    then bytes.getD (a - ((s.buffer buf).base + off)) 0 else Cells.get (fun _ => (0 : Byte)) s.mem a

/-- The words of the destination buffer from `off` on are what `old` gives plus `vals`, a flag word combined by OR, as far
as the buffer reaches; memory outside the buffer holds what it held (R134, log 117). -/
abbrev BufAdded (s u : State) (old : Nat → Nat) (buf off : Nat) (vals : List W64) : Prop :=
  (∀ i < vals.length, off / 8 + i < (s.buffer buf).len / 8 →
    bufWord u buf (off / 8 + i) = addWord (off / 8 + i) (old (off / 8 + i)) (vals.getD i 0)) ∧
  (∀ a, a < (s.buffer buf).base ∨ (s.buffer buf).base + (s.buffer buf).len ≤ a →
    Cells.get (fun _ => (0 : Byte)) u.mem a = Cells.get (fun _ => (0 : Byte)) s.mem a)

/-- The reduction buffers with one contribution more in `buf`, complete when it has all that the plan names (R287). -/
abbrev counted (s : State) (buf : Nat) : List RedBuf :=
  s.fab.red.map (fun r => if r.buf = buf then
    { r with received := r.received + 1, complete := (s.expected buf).any (fun e => decide (e ≤ r.received + 1)) } else r)

/-- R348, R350, R352, R353, R361, R362: what an operation of a context does: with no fabric, and to an address where no
member sits, it fails with its code; to this device it takes effect here; to a member that a plane reaches it sets out and
stays outstanding; to one that nothing reaches it fails as unreachable. A destination that is this device needs no packet
(log 20). -/
def Obligations.FabricOperations : Prop :=
  ∀ (s : State) (k : Stamp) (core : CoreId) (ctx : CtxId) (dst : BitVec 17) (buf off : Nat) (bytes : List Byte) (vals : List W64),
    s.issuing core.val ctx.val = true →
    (∀ code, ((code = 0x0E ∧ s.part.linkDies = 0) ∨
        (code = 0x32 ∧ s.part.linkDies ≠ 0 ∧ (addrValid s.dims dst = false ∨ s.memberSits dst = false))) →
      ∀ c ∈ [Instr.fabricWrite k core ctx dst buf off bytes, .fabricReduceAdd k core ctx dst buf off vals],
        (s.ctxStep core ctx = none → Gives c s (fun u => SameBut [.out, .now] [] s u)) ∧
        (∀ q p x w ws, s.ctxStep core ctx = some (q, p) → (s.qp q).session = some x → x.work = w :: ws → w.done = none →
          Gives c s (fun u => ∃ y v, (u.qp q).session = some y ∧ y.work.head? = some v ∧ v.done = some (code, 0) ∧
            y.commit = x.commit ∧
            SameBut [.out, .now, .cores, .pool, .qps, .hlt] [.SRV_VOIDED, .CRE_SYNC_WAIT_NS, .CRE_HOIST_WAIT_NS,
              .CRE_LANE_WAIT_NS, .CRE_FENCE_NS, .HLT_VOID_EVENTS] s u))) ∧
    (s.part.linkDies ≠ 0 → addrValid s.dims dst = true → s.memberSits dst = true →
      (s.addr = some dst →
        Gives (.fabricWrite k core ctx dst buf off bytes) s (fun u => BufHolds s u buf off bytes ∧
          SameBut [.out, .now, .mem] traffic s u)) ∧
      (s.addr = some dst → (∀ r ∈ s.fab.red, r.buf = buf → r.complete = true) →
        Gives (.fabricReduceAdd k core ctx dst buf off vals) s (fun u =>
          BufAdded s u (fun _ => 0) buf off vals ∧ u.fab.red = {
            buf := buf, tag := s.activeGen, received := 1
            complete := (s.expected buf).any (fun e => decide (e ≤ 1)) } :: s.fab.red.filter (fun r => r.buf != buf) ∧
          SameBut [.out, .now, .fab, .mem] traffic s u)) ∧
      (∀ r, s.addr = some dst → s.fab.red.filter (fun r => r.buf == buf) = [r] → r.complete = false → r.tag = s.activeGen →
        Gives (.fabricReduceAdd k core ctx dst buf off vals) s (fun u =>
          BufAdded s u (bufWord s buf) buf off vals ∧ u.fab.red = counted s buf ∧
          SameBut [.out, .now, .fab, .mem] traffic s u)) ∧
      (∀ a, s.addr = some a → a ≠ dst → s.usablePlanes a dst ≠ [] →
        Gives (.fabricWrite k core ctx dst buf off bytes) s (fun u =>
          u.fab.ops = s.fab.ops ++ [⟨s.fab.nextOp, .write, core, ctx, dst, max s.now k, packetsOf bytes.length⟩] ∧
          u.fab.nextOp = s.fab.nextOp + 1 ∧ SameBut [.out, .now, .fab] (.CNT_LINK_TX :: traffic) s u) ∧
        Gives (.fabricReduceAdd k core ctx dst buf off vals) s (fun u =>
          u.fab.ops = s.fab.ops ++ [⟨s.fab.nextOp, .reduceAdd, core, ctx, dst, max s.now k, packetsOf (8 * vals.length)⟩] ∧
          u.fab.nextOp = s.fab.nextOp + 1 ∧ SameBut [.out, .now, .fab] (.CNT_LINK_TX :: traffic) s u)) ∧
      (∀ a, s.addr = some a → a ≠ dst → s.usablePlanes a dst = [] → s.detour a dst = none → s.ctxStep core ctx = none →
        ∀ c ∈ [Instr.fabricWrite k core ctx dst buf off bytes, .fabricReduceAdd k core ctx dst buf off vals],
        Gives c s (fun u => Counts s u .FAB_UNREACH_COUNT 1 ∧ u.bit .FAB_INT_STATUS 8 = true ∧
          SameBut [.out, .now, .hif] [.FAB_INT_STATUS, .FAB_UNREACH_COUNT] s u)))

/-- The outstanding operations after an answer with ST_OK: one packet less is to be answered of `num`, which is done at the
last (R350, R352). -/
abbrev answered (s : State) (num : Nat) : List FabOp :=
  (s.fab.ops.map (fun x => if x.num = num then { x with left := x.left - 1 } else x)).filter (fun x => x.left != 0)

/-- R350, R352, R353: the answer to an operation, with ST_OK, leaves it with one packet less to be answered, and done at the
last; an answer with another status, and the timeout, end it and void the step that runs it. -/
def Obligations.FabricAnswers : Prop :=
  ∀ (s : State) (k : Stamp) (n : LinkId) (h : PktHdr) (o : FabOp),
    s.fab.ops.find? (fun x => x.num == o.num) = some o →
    (Comes s n.val h →
      Gives (.ackReceived k n h o.num 0) s (fun u => Received s u n.val h ∧ u.fab.ops = answered s o.num ∧
        SameBut [.out, .now, .fab] [.CNT_LINK_RX] s u) ∧
      (∀ v, (o.kind = .load ∨ o.kind = .modify) → o.ctx.val < (s.core o.core.val).ctxs.length →
        Gives (.syncRespReceived k n h o.num 0 v) s (fun u => Received s u n.val h ∧ u.fab.ops = answered s o.num ∧
          ((u.core o.core.val).ctx o.ctx.val).operand = v ∧ (∀ d, d ≠ o.core.val → u.core d = s.core d) ∧
          SameBut [.out, .now, .cores, .fab] [.CNT_LINK_RX] s u)) ∧
      (∀ v, o.kind ≠ .load → o.kind ≠ .modify →
        Gives (.syncRespReceived k n h o.num 0 v) s (fun u => Received s u n.val h ∧ u.fab.ops = answered s o.num ∧
          SameBut [.out, .now, .fab] [.CNT_LINK_RX] s u)) ∧
      (∀ (st : Byte) v, st ≠ 0 → st ≠ 0x30 → s.ctxStep o.core o.ctx = none →
        ∀ c ∈ [Instr.ackReceived k n h o.num st, .syncRespReceived k n h o.num st v],
        Gives c s (fun u => Received s u n.val h ∧ u.fab.ops = s.fab.ops.filter (fun x => x.num != o.num) ∧
          SameBut [.out, .now, .fab] [.CNT_LINK_RX] s u))) ∧
    (o.sent + s.num .FAB_OP_TIMEOUT * 1000 ≤ max s.now k → s.ctxStep o.core o.ctx = none →
      Gives (.opTimeout k o.num) s (fun u => u.fab.ops = s.fab.ops.filter (fun x => x.num != o.num) ∧
        SameBut [.out, .now, .fab] [] s u)) ∧
    (max s.now k < o.sent + s.num .FAB_OP_TIMEOUT * 1000 →
      Gives (.opTimeout k o.num) s (fun u => SameBut [.out, .now] [] s u))

/-- R312, R317, R350, R361, R461, R462: what arrives for this device: bytes written, words added under one generation tag,
an operation on a pool word of a share open to the fabric; another generation is not applied, a word of no such share is
refused; in Standby the packet waits and the exit starts. -/
def Obligations.FabricArrivals : Prop :=
  ∀ (s : State) (k : Stamp) (n : LinkId) (h : PktHdr) (num buf off : Nat),
    (Comes s n.val h → s.addr ≠ some h.src →
      (∀ bytes, Gives (.writeReceived k n h num buf off bytes) s (fun u => Received s u n.val h ∧ BufHolds s u buf off bytes ∧
        SameBut [.out, .now, .fab, .mem] ([.CNT_LINK_RX, .CNT_LINK_TX, .FAB_PHASE2_PKTS] ++ traffic) s u)) ∧
      (∀ vals r, s.fab.red.filter (fun r => r.buf == buf) = [r] → r.complete = false → r.tag = h.gen →
        Gives (.reduceAddReceived k n h num buf off vals) s (fun u => Received s u n.val h ∧
          BufAdded s u (bufWord s buf) buf off vals ∧ u.fab.red = counted s buf ∧
          SameBut [.out, .now, .fab, .mem] ([.CNT_LINK_RX, .CNT_LINK_TX, .FAB_PHASE2_PKTS] ++ traffic) s u)) ∧
      (∀ vals r, s.fab.red.filter (fun r => r.buf == buf) = [r] → r.complete = false → r.tag ≠ h.gen →
        Gives (.reduceAddReceived k n h num buf off vals) s (fun u => Received s u n.val h ∧
          (∀ x ∈ u.fab.red, x.buf = buf → x.failed = true) ∧ Counts s u .FAB_GENMIX_COUNT 1 ∧
          u.bit .FAB_INT_STATUS 7 = true ∧ u.mem = s.mem)) ∧
      (∀ (w : Fin 65536) (g : Nat), g < 65 → (s.share g).fabric = true → (s.share g).poolBase ≤ w.val →
        w.val < (s.share g).poolBase + (s.share g).poolCount →
        (∀ v, Gives (.syncReqReceived k n h num w (.store v)) s (fun u => Received s u n.val h ∧
          Written s u k (.pool w) v (5 + h.src.toNat * 16 + 2 ^ 31) 0 ∧
          Counts s u .SYN_POOL_REMOTE_OPS 1 ∧ Counts s u .SYN_POOL_OPS 1 ∧
          SameBut [.out, .now, .cores, .pool, .fab] ([.SYN_POOL_OPS, .SYN_POOL_REMOTE_OPS, .CNT_LINK_RX, .CNT_LINK_TX,
            .FAB_PHASE2_PKTS] ++ waits) s u)) ∧
        (∀ v, Gives (.syncReqReceived k n h num w (.add v)) s (fun u => Received s u n.val h ∧
          Written s u k (.pool w) ((s.word (.pool w)).value + v) (5 + h.src.toNat * 16 + 2 ^ 31) 1 ∧
          Counts s u .SYN_POOL_REMOTE_OPS 1 ∧ Counts s u .SYN_POOL_OPS 1 ∧
          SameBut [.out, .now, .cores, .pool, .fab] ([.SYN_POOL_OPS, .SYN_POOL_REMOTE_OPS, .CNT_LINK_RX, .CNT_LINK_TX,
            .FAB_PHASE2_PKTS] ++ waits) s u))) ∧
      (∀ (w : Fin 65536) op, (∀ g < 65, (s.share g).fabric = false) →
        Gives (.syncReqReceived k n h num w op) s (fun u => Received s u n.val h ∧ Counts s u .SYN_POOL_REFUSED 1 ∧
          SameBut [.out, .now, .fab] [.SYN_POOL_REFUSED, .CNT_LINK_RX, .CNT_LINK_TX, .FAB_PHASE2_PKTS] s u))) ∧
    (∀ bytes vals w op, (s.link n.val).st = .up → h.seq = (s.link n.val).rxSeq → 1 ≤ h.ver → h.ver ≤ 2 → s.pwrState = 2 →
      ∀ c ∈ [Instr.writeReceived k n h num buf off bytes,
        .reduceAddReceived k n h num buf off vals, .syncReqReceived k n h num w op],
      Gives c s (fun u => Received s u n.val h ∧ u.fab.standby = s.fab.standby ++ [c] ∧ u.pwrState = 3 ∧
        u.pwr.exitDue = some (max s.now k + 35000000) ∧
        SameBut [.out, .now, .fab, .pwr, .evt] [.PWR_STATUS, .PWR_VCORE_ACT, .CNT_LINK_RX] s u))

/-- R343, R344: in mapped mode MAP_LOAD reads a map of the right length: the device takes the address whose key is its own,
the torus and the system; with no such key it has no address. A map with a wrong magic or of another length leaves them as
they are. -/
def Obligations.MapLoads : Prop :=
  ∀ (s : State) (k : Stamp) (w : W32) (map : List Byte) (d : List Nat) (keys : List (BitVec 17 × BitVec 128)),
    Serves s → s.part ≠ .jn8s → w.getLsbD 0 = true → w.getLsbD 1 = true → w.getLsbD 2 = true → w.getLsbD 3 = false →
    d = dimsOf (field map 8 4 % 2 ^ 17) → keys = mapKeys map d →
    (field map 0 4 = 0x4D464E4A → s.num .FAB_MAP_LEN = 64 + 16 * d.getD 0 1 * d.getD 1 1 * d.getD 2 1 →
      (∀ e, keys.filter (fun e => e.2 == s.keyId && e.2 != 0) = [e] →
        Gives (.mapLoad k 0 w map) s (fun u => u.num .FAB_ADDR = e.1.toNat + 2 ^ 31 ∧
          u.num .FAB_DIMS = field map 8 4 % 2 ^ 17 ∧ u.num .FAB_SYSTEM_ID = field map 16 8 ∧
          u.num .FAB_MAP_EPOCH = field map 4 4 ∧
          u.fab.map = keys ∧ u.fab.mapped = true ∧ u.fab.noAddr = false ∧ u.bit .FAB_CTRL 2 = false ∧
          SameBut [.out, .now, .fab, .hif] [.TDE_STATUS, .FAB_CTRL, .FAB_STATUS, .FAB_ADDR, .FAB_DIMS, .FAB_ROOT,
            .FAB_SYSTEM_ID, .FAB_MAP_EPOCH, .FAB_INT_STATUS, .CNT_LINK_TX, .CNT_PCIE_BAR_WR] s u)) ∧
      (keys.filter (fun e => e.2 == s.keyId && e.2 != 0) = [] →
        Gives (.mapLoad k 0 w map) s (fun u => u.num .FAB_ADDR = 0 ∧ u.fab.noAddr = true ∧ u.fab.map = keys ∧
          u.fab.mapped = true ∧ u.num .FAB_MAP_EPOCH = field map 4 4 ∧ u.bit .FAB_CTRL 2 = false))) ∧
    ((field map 0 4 ≠ 0x4D464E4A ∨ s.num .FAB_MAP_LEN ≠ 64 + 16 * d.getD 0 1 * d.getD 1 1 * d.getD 2 1) →
      Gives (.mapLoad k 0 w map) s (fun u => u.reg .FAB_ADDR = s.reg .FAB_ADDR ∧
        u.reg .FAB_DIMS = s.reg .FAB_DIMS ∧ u.fab.map = s.fab.map ∧ u.fab.mapped = s.fab.mapped ∧ u.bit .FAB_CTRL 2 = false))

/-! ### The host interface -/

/-- R14, R372, R384, R385, R388, R389, R527: an access that is not aligned, or neither 32 nor 64 bits, reads zero, has no
effect and is counted; a register read answers its value; a plain RW register takes a value in its range and keeps its
own for one out of it; a W1C register clears what is written as 1; a RO register keeps its value; while its processor
restarts a read answers the busy pattern and a write is held in order, up to 256. -/
def Obligations.RegisterAccess : Prop :=
  ∀ (s : State) (k : Stamp) (fn : FnId) (bar : Fin 6) (off size : Nat) (v : W64) (r : Reg) (un i : Nat),
    (s.fnLive fn.val = false →
      Gives (.registerRead k fn bar off size) s (fun u => u.out = [.unsupported] ∧ SameBut [.out, .now] [] s u) ∧
      Gives (.registerWrite k fn bar off size v) s (fun u => SameBut [.out, .now] [] s u)) ∧
    (s.fnLive fn.val = true → (bar = 0 ∨ bar = 2) →
      ((size ≠ 4 ∧ size ≠ 8 ∨ off % size ≠ 0) →
        Gives (.registerRead k fn bar off size) s (fun u => .read 0 ∈ u.out ∧ Counts s u .HIF_BAD_ACCESS 1 fn.val ∧
          u.bit .HIF_INT_STATUS 3 fn.val = true ∧ SameBut [.out, .now, .hif] [.HIF_BAD_ACCESS, .HIF_INT_STATUS] s u) ∧
        Gives (.registerWrite k fn bar off size v) s (fun u => Counts s u .HIF_BAD_ACCESS 1 fn.val ∧
          u.bit .HIF_INT_STATUS 3 fn.val = true ∧
          SameBut [.out, .now, .hif] [.HIF_BAD_ACCESS, .HIF_INT_STATUS, .CNT_PCIE_BAR_WR] s u)) ∧
      ((size = 4 ∨ size = 8) → off % size = 0 → s.hif.restarting = [] → s.place fn.val bar.val off = .reg r un i 0 false →
        r.info.size = size →
        (size = 4 → Gives (.registerRead k fn bar off size) s (fun u =>
          u.out = [.read (BitVec.ofNat 64 (s.readReg r un i false % 2 ^ 32))] ∧ SameBut [.out, .now] [] s u)) ∧
        (r.info.access = .rw → s.writeOwn fn.val r un i (v.toNat % 2 ^ (8 * size)) = none →
          s.writeOther r i (v.toNat % 2 ^ (8 * size)) = none →
          Gives (.registerWrite k fn bar off size v) s (fun u =>
            (regInRange r (v.toNat % 2 ^ (8 * size) &&& regMask r) = true →
              u.num r un i = v.toNat % 2 ^ (8 * size) &&& regMask r) ∧
            (regInRange r (v.toNat % 2 ^ (8 * size) &&& regMask r) = false → u.reg r un i = s.reg r un i) ∧
            SameBut [.out, .now] [r, .CNT_PCIE_BAR_WR] s u)) ∧
        (r.info.access = .w1c → Gives (.registerWrite k fn bar off size v) s (fun u =>
          (∀ b < 8 * size, u.bit r b un i = (s.bit r b un i && !v.getLsbD b)) ∧ SameBut [.out, .now] [r, .CNT_PCIE_BAR_WR] s u)) ∧
        (r.info.access = .ro → Gives (.registerWrite k fn bar off size v) s (fun u =>
          SameBut [.out, .now] [.CNT_PCIE_BAR_WR] s u))) ∧
      (∀ p, (size = 4 ∨ size = 8) → off % size = 0 → bar = 2 → s.emulator fn.val off = p →
        s.hif.restarting.contains (procOf p) = true →
        Gives (.registerRead k fn bar off size) s (fun u =>
          u.out = [.read (if size = 8 then 0xFFFFFFFEFFFFFFFE else 0xFFFFFFFE)] ∧
          u.bit .HIF_EMU_STATUS (8 + procBit p) fn.val = true ∧ SameBut [.out, .now] [.HIF_EMU_STATUS] s u) ∧
        ((s.hif.held.filter (fun w => w.proc == p)).length < 256 →
          Gives (.registerWrite k fn bar off size v) s (fun u =>
            u.hif = { s.hif with held := s.hif.held ++ [⟨fn, bar, off, size, v, p⟩] } ∧
            SameBut [.out, .now, .hif] [.CNT_PCIE_BAR_WR] s u)) ∧
        (256 ≤ (s.hif.held.filter (fun w => w.proc == p)).length →
          Gives (.registerWrite k fn bar off size v) s (fun u => u.hif.held = s.hif.held ∧
            u.bit .HIF_INT_STATUS 1 fn.val = true ∧
            SameBut [.out, .now, .hif] [.HIF_EMU_DROPS, .HIF_INT_STATUS, .CNT_PCIE_BAR_WR] s u)))) ∧
    (s.powered = true → fn = 0 → bar = 4 → (size = 4 ∨ size = 8) → off + size ≤ 0x10000000 →
      Gives (.registerWrite k fn bar off size v) s (fun u =>
        (∀ a, u.ringByte a = if off ≤ a ∧ a < off + size then BitVec.ofNat 8 (v.toNat / 256 ^ (a - off)) else s.ringByte a) ∧
        SameBut [.out, .now, .rings] [.CNT_PCIE_BAR_WR] s u))

/-- The error stands in the function's AER log, once; what was logged stays (R368, R379). -/
abbrev Logged (s u : State) (fn : Nat) (e : AerError) : Prop :=
  u.hif = { s.hif with aer := if (fn, e) ∈ s.hif.aer then s.hif.aer else s.hif.aer ++ [(fn, e)] }

/-- R368, R373, R374, R379: APPLY of the shares of a function; an error of a host read, counted, by what it was for; a
poisoned write, discarded and logged, and a packet that fails its IDE check, logged, which takes a keyed stream to Insecure. -/
def Obligations.HostEvents : Prop :=
  ∀ (s : State) (k : Stamp),
    (∀ (w : W32) f, Serves s → w.getLsbD 0 = true → s.fld .HIF_FN_SEL 0 7 = f → s.fnRefused f (s.stagedShare f) = false →
      Gives (.fnApply k 0 w) s (fun u => u.share f = { s.share f with
          qpFirst := (s.stagedShare f).qpFirst, qpCount := (s.stagedShare f).qpCount,
          sessMax := (s.stagedShare f).sessMax, sessRes := (s.stagedShare f).sessRes } ∧
        (∀ g, g ≠ f → u.share g = s.share g) ∧ u.stages = s.stages.filter (fun e => e.fn != f) ∧
        u.bit .HIF_INT_STATUS 4 = true ∧
        SameBut [.out, .now, .shares, .stages, .hif] [.HIF_INT_STATUS, .CNT_PCIE_BAR_WR] s u)) ∧
    (∀ (w : W32) f, Serves s → w.getLsbD 0 = true → s.fld .HIF_FN_SEL 0 7 = f → s.fnRefused f (s.stagedShare f) = true →
      Gives (.fnApply k 0 w) s (fun u => u.bit .HIF_INT_STATUS 5 = true ∧
        SameBut [.out, .now, .hif] [.HIF_INT_STATUS, .CNT_PCIE_BAR_WR] s u)) ∧
    (∀ fn : FnId, s.fnLive fn.val = true →
      Gives (.dmaError k fn .mapRead) s (fun u => Counts s u .HIF_DMA_ERRORS 1 fn.val ∧ u.bit .HIF_INT_STATUS 2 fn.val = true ∧
        SameBut [.out, .now, .hif] [.HIF_INT_STATUS, .HIF_DMA_ERRORS] s u) ∧
      (∀ i a, s.plans.loading = some (i, a) →
        Gives (.dmaError k fn .plan) s (fun u => Counts s u .HIF_DMA_ERRORS 1 fn.val ∧ (u.pslot i).state = .failed ∧
          u.plans.loading = none ∧ u.fld .BPL_STATUS 8 8 = 0x6B ∧
          SameBut [.out, .now, .plans, .hif] [.BPL_CTRL, .BPL_STATUS, .BPL_INT_STATUS, .HIF_INT_STATUS, .HIF_DMA_ERRORS] s u)) ∧
      (∀ (q : Qid) (c : SrvCmd) x w, (s.qp q.val).session = some x → x.work = [w] → w.cid = c.cid →
        w.opcode = c.opcode.toNat → w.done = none →
        Gives (.dmaError k fn (.command q c)) s (fun u => Counts s u .HIF_DMA_ERRORS 1 fn.val ∧
          u.qp q.val = { s.qp q.val with session := some { x with work := [{ w with done := some (0x19, 0) }] } } ∧
          (∀ p, p ≠ q.val → u.qp p = s.qp p) ∧
          SameBut [.out, .now, .qps, .hif] [.HIF_INT_STATUS, .HIF_DMA_ERRORS] s u)) ∧
      (s.starting = true → s.bootStep = 6 → s.bit .FWP_STATUS 5 = false →
        Gives (.dmaError k fn .image) s (fun u => u.devState = 2 ∧ u.fld .FWP_STATUS 16 8 = 2 ∧ u.fld .FWP_STATUS 8 8 = 7))) ∧
    (∀ fn : FnId, s.fnLive fn.val = true →
      Gives (.poisonedWrite k fn) s (fun u => Logged s u fn.val .poisonedWrite ∧ SameBut [.out, .now, .hif] [] s u)) ∧
    (∀ id, s.powered = true → s.sec.ide = some id →
      Gives (.ideCheckFail k) s (fun u => u.bit .HIF_LINK_STATUS 8 = false ∧ u.sec = { s.sec with ideFailed := true } ∧
        Logged s u 0 .ideCheck ∧ SameBut [.out, .now, .sec, .hif] [.HIF_LINK_STATUS] s u)) ∧
    (s.sec.ide = none → Gives (.ideCheckFail k) s (fun u => SameBut [.out, .now] [] s u))

/-- R379, R417, R418, R420, R421: the SPDM responder of a function, over the stages of its connection, with a valid
certificate; at most 8 sessions; without a certificate every request is answered with an ERROR and counted. DOE discovery.
The codes and their order are DMTF's (log 49). -/
def Obligations.Attestation : Prop :=
  ∀ (s : State) (k : Stamp) (fn : FnId), s.fnLive fn.val = true →
    (∀ i, Gives (.doeDiscovery k fn i) s (fun u =>
      u.out = [if i = 0 then .doe 1 0 1 else if i = 1 then .doe 1 1 2 else if i = 2 then .doe 1 2 0 else .doe 0xFFFF 0 0] ∧
      SameBut [.out, .now] [] s u)) ∧
    (s.restarting .security = false →
      (s.bit .SEC_STATUS 0 = false → ∀ sess slot off len nonce idx ok, ∀ c ∈ [Instr.getVersion k fn, .getCapabilities k fn,
          .negotiateAlgorithms k fn, .getDigests k fn, .getCertificate k fn slot off len, .challenge k fn nonce,
          .getMeasurements k fn idx, .keyExchange k fn, .finish k fn sess ok, .heartbeat k fn sess, .keyUpdate k fn sess,
          .endSession k fn sess, .ideKm k fn sess],
        Gives c s (fun u => (∃ code, .spdm 0x7F [code] ∈ u.out) ∧ Counts s u .SEC_SPDM_ERRORS 1 ∧ u.bit .SEC_INT_STATUS 2 = true ∧
          SameBut [.out, .now, .hif] [.SEC_INT_STATUS, .SEC_SPDM_ERRORS] s u)) ∧
      (s.bit .SEC_STATUS 0 = true →
        Gives (.getVersion k fn) s (fun u => u.out = [.spdm 0x04 [0x13]] ∧ u.spdmStage fn.val = 1 ∧ u.sec.sessions = s.sec.sessions ∧
          SameBut [.out, .now, .sec] [] s u) ∧
        (1 ≤ s.spdmStage fn.val → Gives (.getCapabilities k fn) s (fun u => u.out = [.spdm 0x61 []] ∧
          u.spdmStage fn.val = max 2 (s.spdmStage fn.val) ∧ SameBut [.out, .now, .sec] [] s u)) ∧
        (2 ≤ s.spdmStage fn.val → Gives (.negotiateAlgorithms k fn) s (fun u => u.out = [.spdm 0x63 [4096, 512, 384, 256]] ∧
          u.spdmStage fn.val = 3 ∧ SameBut [.out, .now, .sec] [] s u)) ∧
        (3 ≤ s.spdmStage fn.val →
          Gives (.getDigests k fn) s (fun u => u.out = [.spdm 0x01 ((sha512 ((List.range
              (s.num .SEC_CERT_LEN)).map (fun j => BitVec.ofNat 8 (certByte j)))).map BitVec.toNat)] ∧ SameBut [.out, .now] [] s u) ∧
          (∀ off len, off < s.num .SEC_CERT_LEN → Gives (.getCertificate k fn 0 off len) s (fun u =>
            u.out = [.spdm 0x02 ([min len (s.num .SEC_CERT_LEN - off),
                s.num .SEC_CERT_LEN - off - min len (s.num .SEC_CERT_LEN - off)] ++
              (List.range (min len (s.num .SEC_CERT_LEN - off))).map (fun j => certByte (off + j)))] ∧ SameBut [.out, .now] [] s u)) ∧
          (∀ nonce, Gives (.challenge k fn nonce) s (fun u => (∃ sg, u.out = [.spdm 0x03 [nonce.toNat, sg]]) ∧
            SameBut [.out, .freeCtr, .now] [] s u)) ∧
          Gives (.getMeasurements k fn 0) s (fun u => u.out = [.spdm 0x60 [12]] ∧ SameBut [.out, .now] [] s u) ∧
          (∀ i, 1 ≤ i → i ≤ 12 → Gives (.getMeasurements k fn i) s (fun u => (∃ d, u.out = [.spdm 0x60 (i :: d)]) ∧
            SameBut [.out, .now] [] s u)) ∧
          (s.sec.sessions.length < 8 → Gives (.keyExchange k fn) s (fun u =>
            (∃ id, u.out = [.spdm 0x64 [id]] ∧ (∀ x ∈ s.sec.sessions, x.id ≠ id) ∧
              u.sec.sessions = s.sec.sessions ++ [{ id := id, fn := fn.val, last := max s.now k }]) ∧
            SameBut [.out, .now, .sec] [] s u)) ∧
          (8 ≤ s.sec.sessions.length → Gives (.keyExchange k fn) s (fun u => .spdm 0x7F [3] ∈ u.out ∧ u.sec = s.sec ∧
            Counts s u .SEC_SPDM_ERRORS 1 ∧ SameBut [.out, .now, .hif] [.SEC_INT_STATUS, .SEC_SPDM_ERRORS] s u)) ∧
          (∀ id x, s.sec.sessions.find? (fun x => x.id == id && x.fn == fn.val) = some x →
            (x.ready = false →
              Gives (.finish k fn id true) s (fun u => .spdm 0x65 [id] ∈ u.out ∧ u.bit .SEC_INT_STATUS 0 = true ∧
                u.sec.sessions = s.sec.sessions.map (fun y => if y.id = id then { y with ready := true, last := max s.now k } else y) ∧
                SameBut [.out, .now, .hif, .sec] [.SEC_INT_STATUS] s u) ∧
              Gives (.finish k fn id false) s (fun u => u.sec.sessions = s.sec.sessions.filter (fun y => y.id != id) ∧
                Counts s u .SEC_SPDM_ERRORS 1 ∧ SameBut [.out, .now, .hif, .sec] [.SEC_INT_STATUS, .SEC_SPDM_ERRORS] s u)) ∧
            (x.ready = true →
              Gives (.heartbeat k fn id) s (fun u => u.out = [.spdm 0x68 [id]] ∧
                u.sec.sessions = s.sec.sessions.map (fun y => if y.id = id then { y with last := max s.now k } else y) ∧
                SameBut [.out, .now, .sec] [] s u) ∧
              Gives (.keyUpdate k fn id) s (fun u => u.out = [.spdm 0x69 [id]] ∧
                u.sec.sessions = s.sec.sessions.map (fun y => if y.id = id then { y with keys := y.keys + 1, last := max s.now k } else y) ∧
                SameBut [.out, .now, .sec] [] s u) ∧
              Gives (.endSession k fn id) s (fun u => .spdm 0x6C [id] ∈ u.out ∧ u.bit .SEC_INT_STATUS 1 = true ∧
                u.sec.sessions = s.sec.sessions.filter (fun y => y.id != id) ∧
                SameBut [.out, .now, .hif, .sec] [.SEC_INT_STATUS] s u) ∧
              (fn = 0 → Gives (.ideKm k fn id) s (fun u => u.bit .HIF_LINK_STATUS 8 = true ∧ u.sec.ide = some id ∧
                u.sec.ideFailed = false ∧ SameBut [.out, .now, .sec] [.HIF_LINK_STATUS] s u)))))))

/-- R393 to R395: a transaction of the management port answers by PEC, argument length, the power of the house die and the
processor that serves it, and then what Table 12.11 gives; it changes nothing. With the house die off some values are
free (log 50); the layout of HOR_LIMITS and of HOR_CPER_READ's length is the model's reading (log 51). -/
def Obligations.ManagementPort : Prop :=
  ∀ (s : State) (k : Stamp) (args : List Byte) (code : Byte), s.aon.phase ≠ .vaonOff →
    (∀ c ∈ [Instr.horId k false args, .horState k false args, .horTemp k false args, .horPower k false args,
        .horFaults k false args, .horCperRead k false args, .horLimits k false args],
      Gives c s (fun u => u.out = [.hor [3]] ∧ SameBut [.out, .now] [] s u)) ∧
    (args ≠ [] → ∀ c ∈ [Instr.horId k true args, .horState k true args, .horTemp k true args, .horPower k true args,
        .horFaults k true args, .horLimits k true args],
      Gives c s (fun u => u.out = [.hor [2]] ∧ SameBut [.out, .now] [] s u)) ∧
    (args.length ≠ 6 → Gives (.horCperRead k true args) s (fun u => u.out = [.hor [2]] ∧ SameBut [.out, .now] [] s u)) ∧
    ((code = 0 ∨ 7 < code.toNat) →
      Gives (.horUnknown k code true args) s (fun u => u.out = [.hor [1]] ∧ SameBut [.out, .now] [] s u)) ∧
    (s.powered = false → ∀ c ∈ [Instr.horPower k true [], .horFaults k true [], .horLimits k true []],
      Gives c s (fun u => u.out = [.hor [4]] ∧ SameBut [.out, .now] [] s u)) ∧
    (s.powered = true → s.pwrBusy = true → ∀ c ∈ [Instr.horTemp k true [], .horPower k true [], .horLimits k true []],
      Gives c s (fun u => u.out = [.hor [5]] ∧ SameBut [.out, .now] [] s u)) ∧
    (s.powered = true → s.schBusy = true → Gives (.horFaults k true []) s (fun u => u.out = [.hor [5]] ∧
      SameBut [.out, .now] [] s u)) ∧
    (s.powered = true →
      Gives (.horId k true []) s (fun u => u.out = [.hor (0 :: (natBytes s.part.deviceId 4 ++ natBytes s.part.caps 4 ++
        natBytes s.part.presence 4 ++ natBytes s.keyId.toNat 16 ++ natBytes (s.num .FWP_FW_VERSION) 4))] ∧
        SameBut [.out, .freeCtr, .now] [] s u) ∧
      Gives (.horState k true []) s (fun u => u.out = [.hor (0 :: (natBytes s.devState 1 ++ natBytes s.pwrState 1 ++
        natBytes s.retiredListed.length 2 ++ natBytes s.heldLinks 2 ++ natBytes s.withdrawnPans 2 ++ natBytes s.tideIdx.toNat 4))] ∧
        SameBut [.out, .freeCtr, .now] [] s u)) ∧
    (s.powered = true → s.pwrBusy = false →
      (s.hottest.isSome = true → Gives (.horTemp k true []) s (fun u =>
        u.out = [.hor (0 :: (natBytes (s.num .THM_HOTTEST) 2 ++ natBytes (s.num .THM_HOTTEST / 65536 % 32) 1))] ∧
        SameBut [.out, .freeCtr, .now] [] s u)) ∧
      Gives (.horPower k true []) s (fun u => u.out = [.hor (0 :: (natBytes (s.num .PWR_PKG_MW) 4 ++
        natBytes (5 * s.num .PWR_VCORE_ACT) 2 ++ natBytes (s.num .PWR_ICORE_MA) 4 ++ natBytes (s.fld .PWR_STATUS 16 1) 1))] ∧
        SameBut [.out, .now] [] s u) ∧
      Gives (.horLimits k true []) s (fun u => (∃ d, u.out = [.hor (0 :: (d ++ natBytes (1000 * s.num .PWR_LIMIT) 4 ++
        natBytes (1000 * s.part.limit10) 4))] ∧ d.length = 8) ∧ SameBut [.out, .now] [] s u)) ∧
    (s.powered = true → s.schBusy = false →
      (s.mram.bbx.faults ≠ [] → Gives (.horFaults k true []) s (fun u =>
        u.out = [.hor (0 :: (natBytes s.mram.bbx.faults.length 2 ++ natBytes (s.mram.bbx.faults.length - 1) 2))] ∧
        SameBut [.out, .freeCtr, .now] [] s u)) ∧
      (args.length = 6 → s.mram.bbx.faults = [] → Gives (.horCperRead k true args) s (fun u => u.out = [.hor [6]] ∧
        SameBut [.out, .now] [] s u)) ∧
      (∀ f, args = [0, 0, 0, 0, 0, 0] → s.mram.bbx.faults[0]? = some f → Gives (.horCperRead k true args) s (fun u =>
        (∃ d, u.out = [.hor (0 :: ([88, 0] ++ d))] ∧ d.length = 240) ∧ SameBut [.out, .now] [] s u)))

/-! ### Firmware and processors -/

/-- Restarts of a processor in the 60 s before the instant (R410). -/
abbrev near (s : State) (k : Stamp) (p : Proc) : Nat :=
  (s.hif.history.filter (fun e => e.1 == p && decide (max s.now k < e.2 + 60000000000))).length

/-- The house-die processor `p` restarts, for its watchdog (0) or a request (1): counted, reported to every function and as
an event; the security processor loses its sessions (R408 to R411, Table 13.5). -/
abbrev Restarts (s u : State) (p : Proc) (why : Nat) : Prop :=
  u.restarting p = true ∧ Counts s u p.counter 1 ∧ u.bit .FWP_INT_STATUS 1 = true ∧
  (∀ fn ∈ s.fns, u.bit .HIF_INT_STATUS 0 fn = true) ∧
  (∃ e ∈ u.evt.inFlight, e.code = 0x0D01 ∧ e.p0 = p.code ∧ e.p2 = why) ∧ (p = .security → u.sec.sessions = [])

/-- R405, R406, R408, R409, R410, R411, R388: LOAD acts only while WAIT_HOST; COMMIT_SVN raises the minimum SVN to the
running one; a processor whose watchdog expires, or that is asked to, restarts, is counted and reported; the third
restart of a house-die processor in 60 s is the safe state, in which every session is FAILED and its pending commands end
with SESSION_FAILED (log 83); that of a cluster processor leaves its cluster out; the end of a restart, after which the
writes held for it are applied. -/
def Obligations.Processors : Prop :=
  ∀ (s : State) (k : Stamp) (w : W32),
    (s.starting = true → s.hif.restarting = [] → Only w 0 [1, 2] →
      (s.bit .FWP_STATUS 5 = true →
        Gives (.fwpLoad k 0 w) s (fun u => u.bit .FWP_STATUS 5 = false ∧ u.bit .FWP_CTRL 0 = true ∧
          SameBut [.out, .now] [.FWP_STATUS, .FWP_CTRL, .CNT_PCIE_BAR_WR] s u)) ∧
      (s.bit .FWP_STATUS 5 = false →
        Gives (.fwpLoad k 0 w) s (fun u => u.bit .FWP_CTRL 0 = s.bit .FWP_CTRL 0 ∧
          SameBut [.out, .now] [.FWP_CTRL, .CNT_PCIE_BAR_WR] s u))) ∧
    (Serves s → Only w 1 [0, 2] →
      Gives (.commitSvn k 0 w) s (fun u =>
        u.mram = { s.mram with minSvn := BitVec.ofNat 16 (max s.mram.minSvn.toNat (s.fld .FWP_SVN 0 16)) } ∧
        u.bit .FWP_INT_STATUS 4 = true ∧
        SameBut [.out, .now, .mram, .hif] [.FWP_CTRL, .FWP_INT_STATUS, .CNT_PCIE_BAR_WR] s u)) ∧
    (∀ p ∈ [Proc.security, .power, .scheduler], s.procRuns p = true →
      (near s k p < 2 →
        Gives (.watchdogExpiry k p) s (fun u => Restarts s u p 0 ∧
          SameBut [.out, .now, .wgt, .hif, .sec, .evt, .mem] [.WGT_LOAD_CTRL, .WGT_LOAD_STATUS, .WGT_INT_STATUS,
            .HIF_INT_STATUS, .SEC_INT_STATUS, .FWP_INT_STATUS, .FWP_RESTARTS_SEC, .FWP_RESTARTS_PWR, .FWP_RESTARTS_SCH] s u)) ∧
      (near s k p < 2 → Serves s → Only w 2 [0, 1] → w.toNat / 8 % 4 = p.code →
        Gives (.procRestartRequest k 0 w) s (fun u => Restarts s u p 1 ∧ u.bit .FWP_CTRL 2 = true ∧
          SameBut [.out, .now, .wgt, .hif, .sec, .evt, .mem] [.WGT_LOAD_CTRL, .WGT_LOAD_STATUS, .WGT_INT_STATUS,
            .HIF_INT_STATUS, .SEC_INT_STATUS, .FWP_CTRL, .FWP_INT_STATUS, .FWP_RESTARTS_SEC, .FWP_RESTARTS_PWR,
            .FWP_RESTARTS_SCH, .CNT_PCIE_BAR_WR] s u)) ∧
      (∀ c, (c = Instr.watchdogExpiry k p ∨
          (c = .procRestartRequest k 0 w ∧ Serves s ∧ Only w 2 [0, 1] ∧ w.toNat / 8 % 4 = p.code)) →
        2 ≤ near s k p → (s.ready = true ∨ s.starting = true) →
        Gives c s (fun u => u.devState = 2 ∧ u.fld .FWP_STATUS 16 8 = 4 ∧ Counts s u p.counter 1 ∧
          (s.qps.wf = true → ∀ q x, (s.qp q).session = some x → q ≠ (s.share 0).qpFirst → (s.qp q).state = .ready → x.state ≠ .failed →
            (u.qp q).recs = (s.qp q).recs ++ x.ends 0x18 ∧
            (u.qp q).session = some { x with state := .failed, steps := [], done := [], work := [], closing := none })))) ∧
    (∀ c : ClusterId, s.procRuns (.cluster c) = true →
      (near s k (.cluster c) < 2 →
        Gives (.watchdogExpiry k (.cluster c)) s (fun u => u.hif.restarting = s.hif.restarting ++ [.cluster c] ∧
          u.clusters = s.clusters ∧ Counts s u .FWP_RESTARTS_CCP 1 ∧
          SameBut [.out, .now, .hif, .evt] [.FWP_INT_STATUS, .FWP_RESTARTS_CCP] s u)) ∧
      (2 ≤ near s k (.cluster c) →
        Gives (.watchdogExpiry k (.cluster c)) s (fun u => u.hif.restarting = s.hif.restarting ∧
          (u.clusters.get c.val).ccpStopped = true ∧ u.bit .FWP_ST_CLUSTER_FAIL 7 0 c.val = true ∧
          ∀ i < 64, c.val * 64 + i ∈ u.hlt.degraded))) ∧
    (∀ p, s.procRuns p = false → Gives (.watchdogExpiry k p) s (fun u => SameBut [.out, .now] [] s u)) ∧
    (∀ p, s.restarting p = true → s.hif.held = [] →
      Gives (.procRestartDone k p) s (fun u => u.hif = { s.hif with restarting := s.hif.restarting.filter (fun q => q != p) } ∧
        (s.selProc = p → u.bit .FWP_CTRL 2 = false) ∧ SameBut [.out, .now, .hif] [.FWP_CTRL] s u)) ∧
    (∀ v : W64, s.restarting .power = true → s.hif.held = [⟨0, 2, 0x90020, 4, v, .pwr⟩] → s.ready = true →
      Gives (.procRestartDone k .power) s (fun u => u.hif.held = [] ∧ u.restarting .power = false ∧
        u.num .PWR_IDLE_TIDES = if v.toNat % 65536 = 0 then s.num .PWR_IDLE_TIDES else v.toNat % 65536)) ∧
    (∀ p, s.restarting p = false → Gives (.procRestartDone k p) s (fun u => SameBut [.out, .now] [] s u))

/-- R407, R414, Table 13.6: the firmware commands of the physical function's admin queue pair: an image that does not
verify is BAD_PARAM with DETAIL 8, one that does is written while FLASH_BUSY reads 1, and the record comes when it has
been read back; SELF_TEST stays in SAFE; RESTART_DEVICE, and RETIRE_FAILED after it has listed what failed, resume
start-up at step 5. A command that comes while flash is written waits. That a failed write is ST_INTERNAL is the model's
reading (log 96). -/
def Obligations.FirmwareCommands : Prop :=
  ∀ (s : State) (k : Stamp) (q : Qid) (c : SrvCmd) (rest : List Admitted),
    (Fronts s k q.val rest → (s.qp q.val).state = .ready → s.isAdmin q.val = true → s.fnOf q.val = 0 →
      c.flags.toNat < 4 → c.cid ≠ 0xFFFF → c.param = 0 → c.args = 0 → s.boot.flashing = none →
      (∀ img, c.opcode.toNat = 0x48 → (s.ready = true ∨ s.safe = true) →
        (s.verifyImage c.dataLen.toNat img = 0 → Gives (.fwFlash k q c img) s (fun u => u.bit .FWP_STATUS 6 = true ∧
          u.boot = { s.boot with flashing := some (q, c.cid, c.irq) } ∧ u.fld .FWP_STATUS 8 8 = 0 ∧ u.qps = s.qps ∧
          u.srv.admitted = rest ∧
          SameBut [.out, .now, .boot, .srv] [.FWP_STATUS, .CNT_PCIE_DMA_RD, .CNT_T_DMA_RD] s u)) ∧
        (s.verifyImage c.dataLen.toNat img ≠ 0 → Gives (.fwFlash k q c img) s (fun u => u.fld .FWP_STATUS 8 8 = s.verifyImage c.dataLen.toNat img ∧
          u.qp q.val = { s.qp q.val with
            recs := (s.qp q.val).recs ++ [{ cid := c.cid, status := 0x11, opcode := 0x48, irq := c.irq, detail := 8 }] } ∧
          OnlyPair q.val rest s u ∧
          SameBut [.out, .now, .qps, .srv] [.FWP_STATUS, .CNT_PCIE_DMA_RD, .CNT_T_DMA_RD] s u))) ∧
      (∀ st, c.opcode.toNat = 0x49 → s.safe = true → c.dataAddr = 0 → c.dataLen = 0 → s.boot.fwRuns = true →
        Gives (.selfTest k q c st) s (fun u => u.num .FWP_ST_RESULT = (s.tested st).result % 2 ^ 32 ∧
          u.boot = { s.boot with failed := s.tested st } ∧ u.safe = true ∧
          u.qp q.val = { s.qp q.val with
            recs := (s.qp q.val).recs ++ [{ cid := c.cid, status := 0, opcode := 0x49, irq := c.irq }] } ∧
          OnlyPair q.val rest s u ∧
          SameBut [.out, .now, .boot, .qps, .srv] [.FWP_ST_RESULT, .FWP_ST_HBM_FAIL, .FWP_ST_LINK_FAIL, .FWP_ST_CLUSTER_FAIL,
            .CNT_PCIE_DMA_RD, .CNT_T_DMA_RD] s u)) ∧
      (c.opcode.toNat = 0x4A → s.safe = true → c.dataAddr = 0 → c.dataLen = 0 →
        Gives (.retireFailed k q c) s (fun u => u.devState = 0 ∧ u.bootStep = 5 ∧ u.fld .FWP_STATUS 16 8 = 0 ∧
          (∀ e ∈ s.boot.failed.cores, s.mram.retired.length + s.boot.failed.cores.length ≤ 1024 →
            u.inList false e.1.val = true) ∧ (∀ e ∈ s.mram.retired, e ∈ u.mram.retired) ∧
          (u.qp q.val).recs = (s.qp q.val).recs ++ [{ cid := c.cid, status := 0, opcode := 0x4A, irq := c.irq }])) ∧
      (c.opcode.toNat = 0x4B → (s.starting = true ∨ s.ready = true ∨ s.safe = true) →
        Gives (.restartDevice k q c) s (fun u => u.devState = 0 ∧ u.bootStep = 5 ∧ u.fld .FWP_STATUS 16 8 = 0 ∧
          u.boot.ownImage = (if c.dataLen = 0 then none else some c.dataLen.toNat) ∧ u.boot.fwRuns = false ∧ u.wgt.load = none ∧ u.plans = {} ∧
          u.mram = s.mram ∧ u.tide = s.tide ∧ (∀ q x, (u.qp q).session = some x → x.state = .failed) ∧
          (u.qp q.val).recs = (s.qp q.val).recs ++ [{ cid := c.cid, status := 0, opcode := 0x4B, irq := c.irq }]))) ∧
    (∀ f img, Fronts s k q.val rest → (s.qp q.val).state = .ready → s.isAdmin q.val = true →
      s.fnOf q.val = 0 → Sent c 0x48 → c.param = 0 → c.args = 0 → (s.ready = true ∨ s.safe = true) → s.boot.flashing = some f →
      Gives (.fwFlash k q c img) s (fun u => u.boot = { s.boot with waitFw := s.boot.waitFw ++ [(q, c, .flash img)] } ∧
        u.qps = s.qps ∧ u.srv.admitted = rest ∧ SameBut [.out, .now, .boot, .srv] [.CNT_PCIE_DMA_RD, .CNT_T_DMA_RD] s u)) ∧
    (∀ cid irq, s.boot.flashing = some (q, cid, irq) → s.boot.waitFw = [] → (s.qp q.val).state = .ready →
      Gives (.flashWriteDone k true) s (fun u => u.bit .FWP_STATUS 6 = false ∧ u.bit .FWP_INT_STATUS 2 = true ∧
        u.boot = { s.boot with flashing := none } ∧
        u.qp q.val = { s.qp q.val with recs := (s.qp q.val).recs ++ [{ cid := cid, status := 0, opcode := 0x48, irq := irq }] } ∧
        (∀ p, p ≠ q.val → u.qp p = s.qp p) ∧
        SameBut [.out, .now, .boot, .qps, .hif] [.FWP_STATUS, .FWP_INT_STATUS] s u) ∧
      Gives (.flashWriteDone k false) s (fun u => u.bit .FWP_STATUS 6 = false ∧ u.bit .FWP_INT_STATUS 3 = true ∧
        u.fld .FWP_STATUS 8 8 = 8 ∧
        u.qp q.val = { s.qp q.val with recs := (s.qp q.val).recs ++ [{ cid := cid, status := 1, opcode := 0x48, irq := irq }] } ∧
        SameBut [.out, .now, .boot, .qps, .hif, .evt] [.FWP_STATUS, .FWP_INT_STATUS] s u)) ∧
    (∀ ok, s.boot.flashing = none → Gives (.flashWriteDone k ok) s (fun u => SameBut [.out, .now] [] s u))

/-! ### Resilience -/

/-- R168, R169, R171, R425, R429, R430, R437: the verdict on the oldest product kept for grading: counted, its residual
kept; one that fails is a fault event of its physical core, with a fault record, its pan suspect and its bed to be
refreshed; the third event within 64 tides retires the core, whose kind is that of the event. -/
def Obligations.Grading : Prop :=
  ∀ (s : State) (k : Stamp) (pan : PanId),
    ((s.pan pan.val).kept = [] → Gives (.gradeVerdict k pan) s (fun u => SameBut [.out, .now] [] s u)) ∧
    (∀ g rest e p, (s.pan pan.val).kept = g :: rest → g.block.gradeErrors g.x g.level g.taken g.spilled g.recs = e →
      s.physOfPan pan.val = some p →
      (gradePasses e = true → Gives (.gradeVerdict k pan) s (fun u =>
        u.pan pan.val = { s.pan pan.val with
          kept := rest, grades := ((sumSquares e, e.length) :: (s.pan pan.val).grades).take 64 } ∧
        (∀ q, q ≠ pan.val → u.pan q = s.pan q) ∧ u.ph p = { s.ph p with graded := (s.ph p).graded + 1 } ∧
        (∀ q, q ≠ p → u.ph q = s.ph q) ∧ Counts s u .HLT_GRADED 1 ∧ u.wgt = { s.wgt with bounce := u.wgt.bounce } ∧
        (∀ d, d ≠ pan.val / 16 → u.core d = s.core d) ∧
        SameBut [.out, .now, .pans, .cores, .phys, .wgt, .mem] [.HLT_GRADED, .CRE_SWITCHES] s u)) ∧
      (gradePasses e = false → (s.ph p).role ≠ .retired → s.panScope pan.val (stepOf g.owner g.first) = [] →
        ((s.pan pan.val).currentContent s.tierLayers).isSome = true →
        (eventsNear s p).length < 2 →
        Gives (.gradeVerdict k pan) s (fun u =>
          (u.pan pan.val).kept = rest ∧ (∃ c ∈ (u.pan pan.val).claims, c.rank = 2) ∧
          (∀ q, q ≠ pan.val → u.pan q = s.pan q) ∧
          u.ph p = { s.ph p with
            graded := (s.ph p).graded + 1, gradeFails := (s.ph p).gradeFails + 1
            suspect := (pan.val % 16, s.tideIdx + 64) :: (s.ph p).suspect.filter (fun x => x.1 != pan.val % 16)
            events := s.tideIdx :: eventsNear s p, lastFault := 0x01, lastTide := s.tideIdx } ∧
          (∀ q, q ≠ p → u.ph q = s.ph q) ∧ Counts s u .HLT_GRADED 1 ∧ Counts s u .HLT_GRADE_FAILS 1 ∧
          u.bit .HLT_INT_STATUS 0 = true ∧
          (s.mram.bbx.faults.length < 1024 → ∃ f, u.mram.bbx.faults = s.mram.bbx.faults ++ [f] ∧ f.kind = 0x01 ∧
            f.phys = some p ∧ f.core = some (pan.val / 16) ∧ f.pan = pan.val % 16 ∧ f.rho = rhoQ88 e ∧ f.eps = epsQ88 e) ∧
          SameBut [.out, .now, .mram, .pans, .cores, .phys, .wgt, .hif, .evt, .mem]
            [.HLT_INT_STATUS, .HLT_GRADED, .HLT_GRADE_FAILS, .BBX_INT_STATUS, .CRE_SWITCHES] s u)) ∧
      (gradePasses e = false → (s.ph p).role ≠ .retired → p < s.part.physCores → 2 ≤ (eventsNear s p).length →
        Gives (.gradeVerdict k pan) s (fun u => (u.ph p).role = .retired ∧ (u.ph p).kind = 0x01 ∧
          Counts s u .HLT_RETIREMENTS 1 ∧ u.bit .HLT_INT_STATUS 1 = true ∧
          (s.mram.retired.length < 1024 → u.inList false p = true))))

/-- R433, R434, R435, R437, R44, R100, R101: a sweep test runs in the work phase, takes the core and its partner out of work
and the shadow beds of the core's pans, which no higher claim may want, counts a READY bed given up, and leaves them
WRITTEN; its verdict: passed; digital parts against a core, which is retired at once; undecided, due again; a pan that
fails its passes is a fault event. -/
def Obligations.Sweeps : Prop :=
  ∀ (s : State) (k : Stamp) (p q : PhysId),
    (∀ c, s.ready = true → s.pwrState = 0 → (s.enter k).workOpen = true → p ≠ q → clusterOfPhys p.val = clusterOfPhys q.val → s.physWorks p.val = true →
      s.physWorks q.val = true → (s.ph p.val).testing = none → (s.ph q.val).testing = none → (s.ph q.val).partnerOf = none →
      s.bedsFree p.val = true → s.sweepTurn p.val = true → s.carried p.val = some c →
      Gives (.sweepRun k p q) s (fun u => u.ph p.val = { s.ph p.val with testing := some q } ∧
        u.ph q.val = { s.ph q.val with partnerOf := some p } ∧ (∀ x, x ≠ p.val → x ≠ q.val → u.ph x = s.ph x) ∧
        (∀ i < 16, (u.pan (c * 16 + i)).active = (s.pan (c * 16 + i)).active ∧
          ((s.pan (c * 16 + i)).shadow.state ≠ .failed →
            (u.pan (c * 16 + i)).shadow = { (s.pan (c * 16 + i)).shadow with state := .writing, content := .none } ∧
            (u.pan (c * 16 + i)).serving = some { rank := 5, what := .none }) ∧
          ((s.pan (c * 16 + i)).shadow.state = .failed → u.pan (c * 16 + i) = s.pan (c * 16 + i)) ∧
          Counts s u .PAN_WRITE_ABORTS (if (s.pan (c * 16 + i)).shadow.state = .ready then 1 else 0) (c * 16 + i)) ∧
        (∀ x, x / 16 ≠ c → u.pan x = s.pan x) ∧
        SameBut [.out, .now, .pans, .cores, .phys] [.PAN_WRITE_ABORTS, .CRE_SWITCHES] s u)) ∧
    ((s.ready = false ∨ s.pwrState ≠ 0 ∨ (s.enter k).workOpen = false ∨ p = q ∨ (s.ph p.val).testing ≠ none ∨
        s.bedsFree p.val = false ∨ s.sweepTurn p.val = false) →
      Gives (.sweepRun k p q) s (fun u => SameBut [.out, .now] [] s u)) ∧
    (∀ o, (s.ph p.val).testing = none → Gives (.sweepVerdict k p o) s (fun u => SameBut [.out, .now] [] s u)) ∧
    ((s.ph p.val).testing = some q → p ≠ q →
      Gives (.sweepVerdict k p .pass) s (fun u => u.ph p.val = { s.ph p.val with
          testing := none, sweeps := (s.ph p.val).sweeps + 1, sweepTide := s.tideIdx, sweepOk := true, due := false, defer := 0 } ∧
        u.ph q.val = { s.ph q.val with partnerOf := none } ∧ (∀ x, x ≠ p.val → x ≠ q.val → u.ph x = s.ph x) ∧
        (∀ x, u.pan x = if s.carried p.val = some (x / 16) then (s.pan x).sweepGive else s.pan x) ∧
        Counts s u .HLT_SWEEPS 1 ∧ SameBut [.out, .now, .pans, .cores, .phys] [.HLT_SWEEPS, .CRE_SWITCHES] s u) ∧
      Gives (.sweepVerdict k p .undecided) s (fun u => u.ph p.val = { s.ph p.val with
          testing := none, due := false, defer := 0, asked := some 0 } ∧
        u.ph q.val = { s.ph q.val with partnerOf := none } ∧
        (∀ x, u.pan x = if s.carried p.val = some (x / 16) then (s.pan x).sweepGive else s.pan x) ∧
        SameBut [.out, .now, .pans, .cores, .phys] [.CRE_SWITCHES] s u) ∧
      (∀ loser third, s.physWorks loser.val = true →
        Gives (.sweepVerdict k p (.digital loser third)) s (fun u => (u.ph loser.val).role = .retired ∧
          (u.ph loser.val).kind = 0x08 ∧ Counts s u .HLT_SWEEPS 1 ∧ Counts s u .HLT_SWEEP_MISMATCH 1 ∧
          Counts s u .HLT_RETIREMENTS 1 ∧ u.bit .HLT_INT_STATUS 3 = true)) ∧
      (∀ i rho, s.carried p.val = none → (s.ph p.val).role ≠ .retired → (eventsNear s p.val).length < 2 →
        Gives (.sweepVerdict k p (.panFail i rho)) s (fun u => u.ph p.val = { s.ph p.val with
            testing := none, sweeps := (s.ph p.val).sweeps + 1, sweepOk := false, due := false, defer := 0
            events := s.tideIdx :: eventsNear s p.val, lastFault := 0x07, lastTide := s.tideIdx } ∧
          Counts s u .HLT_SWEEPS 1 ∧ Counts s u .HLT_SWEEP_MISMATCH 1 ∧ u.bit .HLT_INT_STATUS 3 = true ∧
          SameBut [.out, .now, .mram, .cores, .phys, .hif, .evt]
            [.HLT_SWEEPS, .HLT_SWEEP_MISMATCH, .HLT_INT_STATUS, .BBX_INT_STATUS, .CRE_SWITCHES] s u)))

/-- The request for the unit is accepted for the next edge, and answered (R445). -/
abbrev Requested (s u : State) (unit kind : Nat) : Prop :=
  u.ph unit = { s.ph unit with asked := some kind } ∧ (∀ x, x ≠ unit → u.ph x = s.ph x) ∧ u.bit .HLT_CTRL 1 = false ∧
  u.bit .HLT_INT_STATUS 7 = true ∧
  SameBut [.out, .now, .phys, .hif] [.HLT_CTRL, .HLT_INT_STATUS, .HLT_REQ_STATUS, .CNT_PCIE_BAR_WR] s u

/-- R440, R445, Table 14.10: a request of HLT_CTRL is answered in HLT_REQ_STATUS, REQ reads 0 and REQ_DONE is raised: a
sweep or a retirement accepted for the next edge, an entry of the retirement list removed, or a code: 0x41 for a unit or
an entry that there is not, 0x42 for a unit under test or with a request that is not in effect yet. That a retirement
that finds the list full is answered with 0x43 is the model's reading (log 100). -/
def Obligations.HealthRequests : Prop :=
  ∀ (s : State) (k : Stamp) (w : W32) (unit sel : Nat), Serves s → w.getLsbD 1 = true →
    s.fld .HLT_REQ_UNIT 0 13 = unit → s.fld .HLT_LIST_SEL 0 10 = sel →
    (s.physWorks unit = true → (s.ph unit).testing = none → (s.ph unit).asked = none →
      (w.toNat / 4 % 4 = 0 → Gives (.hltReqSweep k 0 w) s (fun u => Requested s u unit 0 ∧ u.num .HLT_REQ_STATUS = 0)) ∧
      (w.toNat / 4 % 4 = 1 → Gives (.hltReqRetire k 0 w) s (fun u => Requested s u unit 1 ∧
        u.num .HLT_REQ_STATUS = if 1024 ≤ s.mram.retired.length then 0x43 else 0))) ∧
    (w.toNat / 4 % 4 = 2 → sel < s.mram.retired.length →
      Gives (.hltReqUnlist k 0 w) s (fun u => u.mram = { s.mram with retired := s.mram.retired.eraseIdx sel } ∧
        u.num .HLT_REQ_STATUS = 0 ∧ u.bit .HLT_CTRL 1 = false ∧ u.bit .HLT_INT_STATUS 7 = true ∧
        SameBut [.out, .now, .mram, .hif] [.HLT_CTRL, .HLT_INT_STATUS, .HLT_REQ_STATUS, .CNT_PCIE_BAR_WR] s u)) ∧
    (w.toNat / 4 % 4 = 3 →
      Gives (.hltReqInvalid k 0 w) s (fun u => u.num .HLT_REQ_STATUS = 0x41 ∧ u.bit .HLT_CTRL 1 = false ∧
        u.bit .HLT_INT_STATUS 7 = true ∧
        SameBut [.out, .now, .hif] [.HLT_CTRL, .HLT_INT_STATUS, .HLT_REQ_STATUS, .CNT_PCIE_BAR_WR] s u)) ∧
    (∀ c code, ((c = Instr.hltReqUnlist k 0 w ∧ w.toNat / 4 % 4 = 2 ∧ s.mram.retired.length ≤ sel ∧ code = 0x41) ∨
        ((c = .hltReqSweep k 0 w ∧ w.toNat / 4 % 4 = 0 ∨ c = .hltReqRetire k 0 w ∧ w.toNat / 4 % 4 = 1) ∧
          (s.physWorks unit = false ∧ code = 0x41 ∨ s.physWorks unit = true ∧ code = 0x42 ∧
            ((s.ph unit).testing ≠ none ∨ (s.ph unit).asked ≠ none)))) →
      Gives c s (fun u => u.num .HLT_REQ_STATUS = code ∧ u.bit .HLT_CTRL 1 = false ∧ u.bit .HLT_INT_STATUS 7 = true ∧
        SameBut [.out, .now, .hif] [.HLT_CTRL, .HLT_INT_STATUS, .HLT_REQ_STATUS, .CNT_PCIE_BAR_WR] s u))

/-- R442, R443, R444, Tables 14.4 and 14.5: a protected word that differs is counted and a fault event of its core; a
corrected memory error is counted alone; one that stays is a fault event of the core that read, a damaged KV block that
reads as zero, a voided step, or uncontained, by where it lies; an uncontained fault is the safe state with SAFE_REASON
UNCONTAINED and a fault record, with every session FAILED and no record left to publish but those of the admin pair. -/
def Obligations.ErrorsInTheMachine : Prop :=
  ∀ (s : State) (k : Stamp) (p : PhysId),
    (∀ c : ClusterId, s.ready = true → s.restarting (.cluster c) = false → (s.clusters.get c.val).ccpStopped = false →
      Gives (.configScrub k c []) s (fun u => SameBut [.out, .now] [] s u) ∧
      (∀ a b, clusterOfPhys p.val = c.val → (∀ x, s.carried p.val = some x → s.placed x = false) → (s.ph p.val).role ≠ .retired →
        (eventsNear s p.val).length < 2 →
        Gives (.configScrub k c [(p, a, b)]) s (fun u => Counts s u .HLT_CFG_MISMATCH 1 ∧ u.bit .HLT_INT_STATUS 5 = true ∧
          u.ph p.val = { s.ph p.val with
            events := s.tideIdx :: eventsNear s p.val, lastFault := 0x0A, lastTide := s.tideIdx } ∧
          (∀ x, x ≠ p.val → u.ph x = s.ph x) ∧
          SameBut [.out, .now, .mram, .phys, .hif, .evt] [.HLT_INT_STATUS, .HLT_CFG_MISMATCH, .BBX_INT_STATUS] s u))) ∧
    (s.powered = true → p.val < s.part.physCores →
      (∀ wh, Gives (.memoryError k p wh true) s (fun u => Counts s u .HLT_MEM_CE 1 ∧
        u.ph p.val = { s.ph p.val with ce := (s.ph p.val).ce + 1 } ∧ (∀ x, x ≠ p.val → u.ph x = s.ph x) ∧
        SameBut [.out, .now, .phys] [.HLT_MEM_CE] s u)) ∧
      (∀ wh ∈ [MemWhere.coreSram, .sluiceStore, .localSync], s.coreStep p.val = [] → (s.ph p.val).role ≠ .retired →
        (eventsNear s p.val).length < 2 →
        Gives (.memoryError k p wh false) s (fun u => Counts s u .HLT_MEM_UE 1 ∧ u.bit .HLT_INT_STATUS 6 = true ∧
          u.ph p.val = { s.ph p.val with
            ue := (s.ph p.val).ue + 1
            events := s.tideIdx :: eventsNear s p.val, lastFault := 0x0B, lastTide := s.tideIdx } ∧
          SameBut [.out, .now, .mram, .phys, .hif, .evt] [.HLT_INT_STATUS, .HLT_MEM_UE, .BBX_INT_STATUS] s u)) ∧
      (∀ sl l v h pos b, s.inSlot sl.val = none → Gives (.memoryError k p (.kvGroup sl l v h pos b) false) s (fun u =>
        Counts s u .HLT_MEM_UE 1 ∧ Counts s u .HLT_KV_DAMAGED 1 ∧
        SameBut [.out, .now, .mram, .phys, .hif, .evt] [.HLT_INT_STATUS, .HLT_MEM_UE, .HLT_KV_DAMAGED, .BBX_INT_STATUS] s u)) ∧
      (∀ sl l v h pos b q x m pg first n, s.inSlot sl.val = some (q, x) → s.model = some m → x.page l pos = some pg →
        n = m.groupBytes / 4 → first = pageAddr pg + m.valueOff (m.groupIndex v h pos) + n * b.val →
        Gives (.memoryError k p (.kvGroup sl l v h pos b) false) s (fun u =>
          Counts s u .HLT_MEM_UE 1 ∧ Counts s u .HLT_KV_DAMAGED 1 ∧
          (∀ a, Cells.get (fun _ => (0 : Byte)) u.mem a =
            if first ≤ a ∧ a < first + n then 0 else Cells.get (fun _ => (0 : Byte)) s.mem a) ∧
          SameBut [.out, .now, .mram, .phys, .hif, .evt, .mem]
            [.HLT_INT_STATUS, .HLT_MEM_UE, .HLT_KV_DAMAGED, .BBX_INT_STATUS] s u)) ∧
      (∀ sl, s.coreStep p.val = [] → Gives (.memoryError k p (.hbmData sl) false) s (fun u => Counts s u .HLT_MEM_UE 1 ∧
        SameBut [.out, .now, .phys, .hif] [.HLT_INT_STATUS, .HLT_MEM_UE] s u)) ∧
      (∀ wh : MemWhere, ((∃ x, wh = .hbmMaster x) ∨ (∃ x, wh = .hbmReserve x) ∨ (∃ x, wh = .hbmRing x) ∨ wh = .poolStore ∨ wh = .houseSram) →
        (s.ready = true ∨ s.starting = true) →
        Gives (.memoryError k p wh false) s (fun u => Counts s u .HLT_MEM_UE 1 ∧ u.devState = 2 ∧ u.fld .FWP_STATUS 16 8 = 5))) ∧
    (∀ f, (s.ready = true ∨ s.starting = true) →
      Gives (.uncontainedFault k f) s (fun u => u.devState = 2 ∧ u.fld .FWP_STATUS 16 8 = 5 ∧
        (s.mram.bbx.faults.length < 1024 → ∃ e ∈ u.mram.bbx.faults, e.kind = 0x11) ∧
        (∀ q x, (u.qp q).session = some x → x.state = .failed) ∧
        (∀ p, p ≠ (s.share 0).qpFirst → (u.qp p).recs = []) ∧
        (∀ x, f = .stackDown x → u.bit .HLT_HBM_FAIL x.val = true))) ∧
    (∀ f, s.ready = false → s.starting = false → Gives (.uncontainedFault k f) s (fun u => SameBut [.out, .now] [] s u))

/-! ### Power and the housekeeping converter -/

/-- The request of the word waits for the next edge (R460). -/
abbrev Pends (s u : State) (w : W32) : Prop :=
  u.bit .PWR_CTRL 2 = true ∧ u.fld .PWR_CTRL 0 2 = w.toNat % 4 ∧ u.bit .PWR_CTRL 3 = w.getLsbD 3 ∧
  SameBut [.out, .now] [.PWR_CTRL, .CNT_PCIE_BAR_WR] s u

/-- R453, R458, R460, R461, R462: a request waits for the next edge, and one for Active wakes the device from Idle in
30 ms or Standby in 35 ms; the VCORE target takes 0.68 V to 0.80 V and the power limit 100 W to the TDP, any other value
being ignored with ST_PWR_RANGE; HBM leaves self-refresh 5 ms into an exit, and at its end every bed is written and
raked. -/
def Obligations.PowerStates : Prop :=
  ∀ (s : State) (k : Stamp) (w : W32),
    (Serves s →
      (w.getLsbD 2 = true →
        (w.toNat % 4 = 1 → Gives (.powerReqIdle k 0 w) s (fun u => Pends s u w)) ∧
        (w.toNat % 4 = 2 → Gives (.powerReqStandby k 0 w) s (fun u => Pends s u w)) ∧
        (w.toNat % 4 = 3 → Gives (.powerReqDeepSleep k 0 w) s (fun u => Pends s u w))) ∧
      (∀ d, (s.pwrState = 1 ∧ d = 30000000 ∨ s.pwrState = 2 ∧ d = 35000000) → w.getLsbD 2 = true → w.toNat % 4 = 0 →
        Gives (.powerReqActive k 0 w) s (fun u => u.pwrState = 3 ∧ u.bit .PWR_CTRL 2 = false ∧
          u.pwr = { s.pwr with exitDue := some (max s.now k + d), exitFrom := max s.now k } ∧
          u.num .PWR_VCORE_ACT = s.fld .PWR_VCORE_TARGET 0 8 ∧
          SameBut [.out, .now, .pwr, .evt] [.PWR_CTRL, .PWR_STATUS, .PWR_VCORE_ACT, .CNT_PCIE_BAR_WR] s u)) ∧
      ((s.pwrState = 0 ∨ s.pwrState = 3) → w.getLsbD 2 = true → w.toNat % 4 = 0 →
        Gives (.powerReqActive k 0 w) s (fun u => u.bit .PWR_CTRL 2 = false ∧
          SameBut [.out, .now] [.PWR_CTRL, .CNT_PCIE_BAR_WR] s u)) ∧
      (136 ≤ w.toNat % 256 → w.toNat % 256 ≤ 160 →
        Gives (.vcoreTargetWrite k 0 w) s (fun u => u.num .PWR_VCORE_TARGET = w.toNat % 256 ∧
          SameBut [.out, .now] [.PWR_VCORE_TARGET, .CNT_PCIE_BAR_WR] s u)) ∧
      ((w.toNat % 256 < 136 ∨ 160 < w.toNat % 256) →
        Gives (.vcoreTargetWrite k 0 w) s (fun u => u.fld .PWR_STATUS 8 8 = 0x50 ∧
          SameBut [.out, .now] [.PWR_STATUS, .CNT_PCIE_BAR_WR] s u)) ∧
      (100 ≤ w.toNat % 4096 → w.toNat % 4096 ≤ s.part.tdp →
        Gives (.pwrLimitWrite k 0 w) s (fun u => u.num .PWR_LIMIT = w.toNat % 4096 ∧
          SameBut [.out, .now] [.PWR_LIMIT, .CNT_PCIE_BAR_WR] s u)) ∧
      ((w.toNat % 4096 < 100 ∨ s.part.tdp < w.toNat % 4096) →
        Gives (.pwrLimitWrite k 0 w) s (fun u => u.fld .PWR_STATUS 8 8 = 0x50 ∧
          SameBut [.out, .now] [.PWR_STATUS, .CNT_PCIE_BAR_WR] s u))) ∧
    (s.powered = true → s.pwrState = 3 → s.pwr.exitFrom + 5000000 ≤ max s.now k →
      Gives (.hbmSelfRefreshExit k) s (fun u => u.pwr = { s.pwr with selfRefresh := false } ∧
        SameBut [.out, .now, .pwr] [] s u)) ∧
    (∀ d, s.powered = true → s.pwrState = 3 → s.pwr.exitDue = some d → d ≤ max s.now k →
      Gives (.powerExitComplete k) s (fun u => u.pwrState = 0 ∧ u.bit .PWR_INT_STATUS 0 = true ∧
        u.pwr = { s.pwr with exitDue := none, waitEdge := true, selfRefresh := false } ∧
        (∀ i, (u.pan i).active.state = .active ∧ (u.pan i).active.raked = true ∧ (u.pan i).shadow.raked = true ∧
          (u.pan i).claims = [] ∧ (u.pan i).cur = (s.pan i).cur ∧ (u.pan i).staged = (s.pan i).staged) ∧
        SameBut [.out, .freeCtr, .now, .pans, .hif, .pwr, .evt] [.PWR_STATUS, .PWR_INT_STATUS] s u)) ∧
    ((s.powered = false ∨ s.pwrState ≠ 3) → ∀ c ∈ [Instr.hbmSelfRefreshExit k, .powerExitComplete k],
      Gives c s (fun u => SameBut [.out, .now] [] s u))

/-- R455, R457, R469, R471: the readings of a millisecond, and the brake on the first of its conditions, counted once a
tide; a regulator's warning, and a fault of one, which is uncontained; the end of a dwell; the deadline of an orderly
stop, after which the rails are off, or wait for the snapshot to be written. -/
def Obligations.BrakesAndStops : Prop :=
  ∀ (s : State) (k : Stamp),
    (∀ (ma : List Nat) (i mw : Nat) (p : Power), s.pwrLive = true → i < 2 ^ 32 → mw < 2 ^ 32 →
      rheQuot (if s.pwr.scans = 0 then s.coreMa else s.pwr.scanMa) (max 1 s.pwr.scans : Nat) = i →
      rheQuot (if s.pwr.scans = 0 then s.coreMw else s.pwr.scanMw) (max 1 s.pwr.scans : Nat) + s.boardMw ma = mw →
      p = { s.pwr with scanMa := 0, scanMw := 0, scans := 0, means := (((i : Int), (mw : Int)) :: s.pwr.means).take 10 } →
      ((s.closeMs ma).brakeCond = none ∨ s.pwr.brakeTide = true →
        Gives (.brakeEvaluation k ma) s (fun u => u.num .PWR_PKG_MW = mw ∧ u.num .PWR_ICORE_MA = i ∧
          Counts s u .PWR_ENERGY_UJ mw ∧ u.pwr = p ∧
          SameBut [.out, .now, .pwr] [.PWR_PKG_MW, .PWR_ICORE_MA, .PWR_ENERGY_UJ] s u)) ∧
      (∀ c, (s.closeMs ma).brakeCond = some c → s.pwr.brakeTide = false →
        Gives (.brakeEvaluation k ma) s (fun u => u.num .PWR_PKG_MW = mw ∧ u.num .PWR_ICORE_MA = i ∧
          Counts s u .PWR_ENERGY_UJ mw ∧ u.bit .PWR_STATUS 7 = true ∧ u.pwr = { p with brakeTide := true } ∧
          Counts s u .PWR_BRAKES 1 ∧ u.bit .PWR_INT_STATUS 2 = true ∧ (∃ e ∈ u.evt.inFlight, e.code = 0x0F03 ∧ e.p0 = c) ∧
          SameBut [.out, .now, .hif, .pwr, .evt] [.PWR_STATUS, .PWR_INT_STATUS, .PWR_PKG_MW, .PWR_ICORE_MA, .PWR_ENERGY_UJ,
            .PWR_BRAKES] s u))) ∧
    (s.pwrLive = true → Gives (.pmbAlert k .warning) s (fun u => Counts s u .PWR_REG_WARNINGS 1 ∧
      u.bit .PWR_INT_STATUS 3 = true ∧ u.pwr = { s.pwr with vrWarn := true } ∧
      SameBut [.out, .now, .hif, .pwr] [.PWR_INT_STATUS, .PWR_REG_WARNINGS] s u)) ∧
    (∀ a ∈ [RegAlert.vcoreOff, .pmbusFailed], s.pwrLive = true → (s.ready = true ∨ s.starting = true) →
      Gives (.pmbAlert k a) s (fun u => u.devState = 2 ∧ u.fld .FWP_STATUS 16 8 = 5 ∧
        (s.mram.bbx.snaps.length + s.snaps.length < 8 → ∃ q, u.snaps = s.snaps ++ [q] ∧ q.trigger = 1 ∧ q.detail = 0x53))) ∧
    (s.pwrLive = true →
      (dwellOver s.pwr.warn s.pwr.warnFrom (max s.now k) = true → Gives (.thermalDwellEnd k false) s (fun u =>
        u.bit .THM_STATUS 0 = false ∧ u.bit .THM_INT_STATUS 1 = true ∧
        u.pwr = { s.pwr with warn := false, warnFrom := none } ∧
        SameBut [.out, .now, .hif, .pwr] [.THM_STATUS, .THM_INT_STATUS] s u)) ∧
      (dwellOver s.pwr.throttle s.pwr.throttleFrom (max s.now k) = true → Gives (.thermalDwellEnd k true) s (fun u =>
        u.bit .THM_STATUS 1 = false ∧ u.bit .THM_INT_STATUS 3 = true ∧
        u.pwr = { s.pwr with throttle := false, throttleFrom := none } ∧
        SameBut [.out, .now, .hif, .pwr] [.THM_STATUS, .THM_INT_STATUS] s u))) ∧
    (∀ d, s.pwr.stopping = some d → s.powered = true → d + 2 * s.num .TDE_PERIOD_ACT * 1000000 ≤ max s.now k →
      (∀ q ∈ s.snaps, q.trigger ≠ 2) →
      (8 ≤ s.mram.bbx.snaps.length + s.snaps.length → Gives (.orderlyStopDeadline k) s (fun u =>
        u.aon.phase = .stopped ∧ u.aon.pwrEn = false ∧ u.aon.vrEn = false ∧ u.bit .AON_STATUS 3 = true ∧
        u.mram.bbx.shutReason = 2 ∧ u.mram.bbx.shutTime = max s.now k ∧ u.mram.bbx.shutTide = s.tideIdx ∧
        u.mram.bbx.snapsLost = s.mram.bbx.snapsLost + 1 ∧ u.qps = State.reset.qps ∧ u.tide = State.reset.tide)) ∧
      (s.mram.bbx.snaps.length + s.snaps.length < 8 → Gives (.orderlyStopDeadline k) s (fun u =>
        (∃ q, u.snaps = s.snaps ++ [q] ∧ q.trigger = 2) ∧ u.mram.bbx.shutReason = 2 ∧ u.mram.bbx.shutTime = max s.now k ∧
        SameBut [.out, .now, .mram, .snaps] [] s u))) ∧
    (s.pwr.stopping = none → Gives (.orderlyStopDeadline k) s (fun u => SameBut [.out, .now] [] s u))

/-- The calibration runs (R477). -/
abbrev Calibrates (s u : State) (which : Nat) : Prop :=
  u.bit .HKA_STATUS 0 = true ∧ u.pwr = { s.pwr with calibrating := some which } ∧
  SameBut [.out, .now, .pwr] [.HKA_CTRL, .HKA_STATUS, .CNT_PCIE_BAR_WR] s u

/-- The points of a channel's line: its conversions of internal ground at 0 and of the reference at 3,584 LSB (R477). -/
abbrev calPoints (e : List (BitVec 12) × List (BitVec 12)) : List (Int × Int) :=
  e.1.map (fun v => ((v.toNat : Int), 0)) ++ e.2.map (fun v => ((v.toNat : Int), 3584 * 64))

/-- R469, R474 to R479, R397: a conversion of the next of the 64 channels gives its raw code and, through its coefficients
and the reference scale, its value; an absent unit's channel reads zero; a thermal channel's mean of four conversions; a
whole scan is judged, with the orderly stop at 115 °C; the calibrations, one at a time, what each writes, and the step of
the start that follows. -/
def Obligations.Converter : Prop :=
  ∀ (s : State) (k : Stamp) (w : W32),
    (∀ (code : BitVec 12) c, s.powered = true → s.pwr.calibrating ≠ some 0 → s.pwr.channel = c → c < 64 →
      (s.chanAbsent c = true → Gives (.hkaConversion k code) s (fun u => u.num .HKA_RAW 0 c = 0 ∧ u.num .HKA_VALUE 0 c = 0 ∧
        u.pwr.channel = (c + 1) % 64 ∧ SameBut [.out, .now, .pwr] [.HKA_RAW, .HKA_VALUE] s u)) ∧
      (s.chanAbsent c = false → 32 ≤ c → Gives (.hkaConversion k code) s (fun u => u.num .HKA_RAW 0 c = code.toNat ∧
        u.num .HKA_VALUE 0 c = (BitVec.ofInt 32 (rheDiv (rheDiv ((16 * (code.toNat : Int) -
          coefOffset ((s.reg .HKA_COEF 0 c).setWidth 32)) * coefGain ((s.reg .HKA_COEF 0 c).setWidth 32)) 15 *
          (chanLsb c * 65536) * (s.num .HKA_REF_SCALE : Int)) 50)).toNat ∧
        (∀ x < 64, x ≠ c → u.num .HKA_RAW 0 x = s.num .HKA_RAW 0 x ∧ u.num .HKA_VALUE 0 x = s.num .HKA_VALUE 0 x) ∧
        u.pwr = { s.pwr with channel := (c + 1) % 64, scanDue := s.pwr.scanDue || c == 63 } ∧
        SameBut [.out, .now, .pwr] [.HKA_RAW, .HKA_VALUE] s u))) ∧
    (s.pwr.calibrating = some 0 → ∀ code, Gives (.hkaConversion k code) s (fun u => SameBut [.out, .now] [] s u)) ∧
    (s.pwr.scanDue = false → Gives (.hkaScanComplete k) s (fun u => SameBut [.out, .now] [] s u)) ∧
    (s.pwr.scanDue = true → s.pwrLive = false → Gives (.hkaScanComplete k) s (fun u => Counts s u .HKA_SCANS 1 ∧
      u.pwr = { s.pwr with scanDue := false } ∧ SameBut [.out, .now, .pwr] [.HKA_SCANS] s u)) ∧
    (∀ v c, s.pwr.scanDue = true → s.pwrLive = true → s.hottest = some (v, c) → c < 32 → 0 ≤ v → v < 32768 →
      Gives (.hkaScanComplete k) s (fun u => Counts s u .HKA_SCANS 1 ∧ u.fld .THM_HOTTEST 0 16 = v.toNat ∧
        u.fld .THM_HOTTEST 16 5 = c ∧ u.bit .THM_HOTTEST 31 = true ∧
        (1520 ≤ v → u.bit .THM_STATUS 0 = true ∧ u.pwr.warn = true) ∧ (1680 ≤ v → u.bit .THM_STATUS 1 = true) ∧
        (1840 ≤ v → s.ready = true → u.devState = 3 ∧ u.bit .THM_STATUS 2 = true ∧ u.pwr.stopping = some (max s.now k)))) ∧
    (Serves s → s.bit .HKA_STATUS 0 = false →
      (Only w 0 [1] → Gives (.hkaSelfCal k 0 w) s (fun u => u.bit .HKA_CTRL 0 = true ∧ Calibrates s u 0)) ∧
      (Only w 1 [0] → Gives (.hkaRefCal k 0 w) s (fun u => u.bit .HKA_CTRL 1 = true ∧ Calibrates s u 1))) ∧
    (Serves s → s.bit .HKA_STATUS 0 = true →
      ∀ c, (c = Instr.hkaSelfCal k 0 w ∧ Only w 0 [1] ∨ c = .hkaRefCal k 0 w ∧ Only w 1 [0]) →
      Gives c s (fun u => u.fld .HKA_STATUS 8 8 = 0x54 ∧ u.bit .HKA_STATUS 0 = true ∧
        SameBut [.out, .now] [.HKA_STATUS, .CNT_PCIE_BAR_WR] s u)) ∧
    (∀ conv, s.pwr.calibrating = some 0 → conv.length = 64 →
      Gives (.selfCalDone k conv) s (fun u =>
        (∀ i < 64, fitColumn (calPoints (conv.getD i default)) = none →
          u.num .HKA_COEF 0 i = s.num .HKA_COEF 0 i ∧ u.num .HKA_RESID 0 i = s.num .HKA_RESID 0 i) ∧
        (∀ i < 64, ∀ f, fitColumn (calPoints (conv.getD i default)) = some f →
          u.num .HKA_COEF 0 i = f.entry.toNat ∧ u.num .HKA_RESID 0 i = residQ88 f.num f.den % 2 ^ 32) ∧
        (s.starting = true → s.bootStep = 8 → u.bootStep = 9 ∧ u.pwr.calibrating = some 1) ∧
        ((s.starting = false ∨ s.bootStep ≠ 8) → u.bit .HKA_STATUS 0 = false ∧ u.pwr.calibrating = none) ∧
        u.bit .HKA_INT_STATUS 0 = true)) ∧
    (∀ codes m, s.pwr.calibrating = some 1 → s.refinUv codes = m → m < 2 ^ 32 → (1225000 ≤ m ∧ m ≤ 1275000 →
        Gives (.refCalDone k codes) s (fun u => u.num .HKA_REFIN_UV = m ∧
          2 * (u.num .HKA_REF_SCALE * m - 2 ^ 30 * 1250000 : Int).natAbs ≤ m ∧
          u.bit .HKA_STATUS 1 = true ∧ u.bit .PWR_STATUS 16 = true ∧ u.bit .THM_STATUS 11 = true ∧
          (s.starting = true → s.bootStep = 9 → u.bootStep = 10))) ∧
      (m < 1225000 ∨ 1275000 < m → Gives (.refCalDone k codes) s (fun u => u.num .HKA_REFIN_UV = m ∧ u.num .HKA_REF_SCALE = 2 ^ 30 ∧
          u.bit .HKA_STATUS 1 = false ∧ u.bit .HKA_STATUS 2 = true ∧ u.bit .HKA_INT_STATUS 1 = true ∧
          (∃ e ∈ u.evt.inFlight, e.code = 0x0F05 ∧ e.p1 = 0) ∧
          (s.starting = true → s.bootStep = 9 → u.bootStep = 10)))) ∧
    (s.pwr.calibrating ≠ some 1 → ∀ codes, Gives (.refCalDone k codes) s (fun u => SameBut [.out, .now] [] s u))

/-! ### Records -/

/-- R485, R487, R488, R489: a record that arrives is counted and joins the newest 8,192; it is stored while FREEZE reads 0
and there is room, and otherwise counted in EVT_LOST, FULL being raised at the first that finds no room; FREEZE; CLEAR,
which is itself recorded with what it cleared once FREEZE reads 0. A record of the very instant at which FREEZE was set is
stored still. -/
def Obligations.EventRecorder : Prop :=
  ∀ (s : State) (k : Stamp) (w : W32),
    (∀ (src : Byte) e, s.evt.inFlight.find? (fun x => x.src == src.toNat) = some e →
      (s.bit .EVT_CTRL 0 = false → s.evt.recs.length < 65536 →
        Gives (.eventRecordArrival k src) s (fun u => u.evt.recs = s.evt.recs ++ [e] ∧ e ∈ u.evt.tail ∧
          u.evt.inFlight = s.evt.inFlight.erase e ∧ Counts s u .EVT_OFFERED 1 ∧
          SameBut [.out, .now, .evt] [.EVT_OFFERED] s u)) ∧
      (s.bit .EVT_CTRL 0 = false → 65536 ≤ s.evt.recs.length →
        Gives (.eventRecordArrival k src) s (fun u => u.evt.recs = s.evt.recs ∧ e ∈ u.evt.tail ∧
          Counts s u .EVT_OFFERED 1 ∧ Counts s u .EVT_LOST 1 ∧ u.bit .EVT_STATUS 17 = true ∧
          (s.bit .EVT_STATUS 17 = false → u.bit .EVT_INT_STATUS 0 = true) ∧
          SameBut [.out, .now, .hif, .evt] [.EVT_OFFERED, .EVT_LOST, .EVT_STATUS, .EVT_INT_STATUS] s u)) ∧
      (s.bit .EVT_CTRL 0 = true → s.evt.freezeT ≠ max s.now k →
        Gives (.eventRecordArrival k src) s (fun u => u.evt.recs = s.evt.recs ∧ e ∈ u.evt.tail ∧
          Counts s u .EVT_OFFERED 1 ∧ Counts s u .EVT_LOST 1 ∧
          SameBut [.out, .now, .evt] [.EVT_OFFERED, .EVT_LOST] s u))) ∧
    (∀ src : Byte, s.evt.inFlight.find? (fun x => x.src == src.toNat) = none →
      Gives (.eventRecordArrival k src) s (fun u => SameBut [.out, .now] [] s u)) ∧
    (Serves s → s.evt.cleared = none →
      (Only w 0 [1, 2] → s.bit .EVT_CTRL 0 = false → Gives (.evtFreeze k 0 w) s (fun u => u.bit .EVT_CTRL 0 = true ∧
        u.evt = { s.evt with freezeT := max s.now k } ∧ SameBut [.out, .now, .evt] [.EVT_CTRL, .CNT_PCIE_BAR_WR] s u)) ∧
      ((∀ b ∈ [0, 1, 2], w.getLsbD b = false) → Gives (.evtFreeze k 0 w) s (fun u => u.bit .EVT_CTRL 0 = false ∧
        SameBut [.out, .now] [.EVT_CTRL, .CNT_PCIE_BAR_WR] s u)) ∧
      (s.evt.arrT ≠ max s.now k →
        (w.getLsbD 0 = true → w.getLsbD 1 = true → w.getLsbD 2 = false → s.bit .EVT_CTRL 0 = true →
          Gives (.evtClear k 0 w) s (fun u => u.evt = { s.evt with
              recs := [], cleared := some (s.evt.recs.length, s.num .EVT_LOST) } ∧
            u.num .EVT_LOST = 0 ∧ u.bit .EVT_STATUS 17 = false ∧
            SameBut [.out, .now, .evt] [.EVT_CTRL, .EVT_STATUS, .EVT_LOST, .CNT_PCIE_BAR_WR] s u)) ∧
        (Only w 1 [0, 2] → Gives (.evtClear k 0 w) s (fun u => u.num .EVT_LOST = 0 ∧ u.bit .EVT_STATUS 17 = false ∧
          (∃ e, u.evt.recs = [e] ∧ e.code = 0x1001 ∧ e.p0 = s.evt.recs.length ∧ e.p1 = s.num .EVT_LOST) ∧
          Counts s u .EVT_OFFERED 1 ∧
          SameBut [.out, .now, .evt] [.EVT_CTRL, .EVT_STATUS, .EVT_LOST, .EVT_OFFERED, .CNT_PCIE_BAR_WR] s u))))

/-- R492, R494, R501, R502: WFG_REQ is taken at the next seal, and joined to one that waits; when its records are written
to the host buffer, as many as it holds, WFG_DONE is raised; CLEAR of the black box empties its records and snapshots,
after the snapshot in progress; SNAP asks for a snapshot, or counts one lost; a snapshot that is done is kept. -/
def Obligations.BlackBox : Prop :=
  ∀ (s : State) (k : Stamp) (w : W32),
    (Serves s → s.evt.cleared = none → Only w 2 [0, 1] → s.bit .EVT_CTRL 0 = false →
      Gives (.wfgReq k 0 w) s (fun u => u.bit .EVT_CTRL 2 = true ∧
        (s.evt.wfgAsked = none → s.evt.wfgWriting = none → u.evt = { s.evt with wfgAsked := some (0, 0) }) ∧
        (s.evt.wfgAsked ≠ none ∨ s.evt.wfgWriting ≠ none → u.evt = s.evt) ∧
        SameBut [.out, .now, .evt] [.EVT_CTRL, .CNT_PCIE_BAR_WR] s u)) ∧
    (∀ g n, s.evt.wfgWriting = some g → s.num .EVT_WFG_LEN / 32 = n → g.edges.length < 2 ^ 32 →
      Gives (.wfgWriteDone k) s (fun u => u.num .EVT_WFG_EDGES = g.edges.length ∧ u.bit .EVT_CTRL 2 = false ∧
        u.bit .EVT_INT_STATUS 1 = true ∧ u.evt.wfgWriting = none ∧ u.evt.wfgLatest = some g ∧
        (n ≠ 0 → n < g.edges.length + 2 → u.bit .EVT_INT_STATUS 2 = true) ∧
        (n ≠ 0 → ∃ l, .dma (s.reg .EVT_WFG_ADDR) l ∈ u.out ∧ l.length ≤ n) ∧
        SameBut [.out, .now, .hif, .evt] [.EVT_CTRL, .EVT_INT_STATUS, .EVT_WFG_EDGES, .CNT_PCIE_DMA_WR, .CNT_T_DMA_WR] s u)) ∧
    (s.evt.wfgWriting = none → Gives (.wfgWriteDone k) s (fun u => SameBut [.out, .now] [] s u)) ∧
    (Serves s → Only w 0 [1] →
      (s.snaps = [] → Gives (.bbxClear k 0 w) s (fun u => u.bit .BBX_CTRL 0 = false ∧
        u.mram = { s.mram with
          bbx := { s.mram.bbx with faults := [], snaps := [], faultsLost := 0, snapsLost := 0, clearTime := max s.now k } } ∧
        (∃ e ∈ u.evt.inFlight, e.code = 0x1002 ∧ e.p0 = s.mram.bbx.faults.length ∧ e.p1 = s.mram.bbx.snaps.length) ∧
        SameBut [.out, .now, .mram, .evt] [.BBX_CTRL, .CNT_PCIE_BAR_WR] s u)) ∧
      (s.snaps ≠ [] → Gives (.bbxClear k 0 w) s (fun u => u.bit .BBX_CTRL 0 = true ∧
        SameBut [.out, .now] [.BBX_CTRL, .CNT_PCIE_BAR_WR] s u))) ∧
    (Serves s → Only w 1 [0] →
      (s.mram.bbx.snaps.length + s.snaps.length < 8 → Gives (.bbxSnap k 0 w) s (fun u => u.bit .BBX_CTRL 1 = true ∧
        (∃ q, u.snaps = s.snaps ++ [q] ∧ q.trigger = 3 ∧ q.tide = s.tideIdx ∧ q.time = max s.now k) ∧
        SameBut [.out, .now, .snaps] [.BBX_CTRL, .CNT_PCIE_BAR_WR] s u)) ∧
      (8 ≤ s.mram.bbx.snaps.length + s.snaps.length → Gives (.bbxSnap k 0 w) s (fun u =>
        u.mram = { s.mram with bbx := { s.mram.bbx with snapsLost := s.mram.bbx.snapsLost + 1 } } ∧
        u.bit .BBX_INT_STATUS 2 = true ∧
        SameBut [.out, .now, .mram, .hif] [.BBX_CTRL, .BBX_INT_STATUS, .CNT_PCIE_BAR_WR] s u))) ∧
    (∀ q rest, s.snaps = q :: rest → q.trigger ≠ 2 →
      (s.bit .BBX_CTRL 0 = false → Gives (.snapshotDone k) s (fun u => u.snaps = rest ∧ u.bit .BBX_INT_STATUS 0 = true ∧
        (∃ x, u.mram = { s.mram with bbx := { s.mram.bbx with snaps := s.mram.bbx.snaps ++ [x] } } ∧ x.trigger = q.trigger ∧
          x.safeReason = q.safeReason ∧ x.devState = q.devState ∧ x.tide = q.tide ∧ x.time = q.time ∧ x.detail = q.detail ∧
          x.tail = s.evt.tail) ∧
        SameBut [.out, .now, .mram, .hif, .evt, .snaps] [.BBX_CTRL, .BBX_INT_STATUS] s u)) ∧
      (s.bit .BBX_CTRL 0 = true → Gives (.snapshotDone k) s (fun u => u.snaps = rest ∧ u.mram.bbx.snaps = [] ∧
        u.mram.bbx.faults = [] ∧ u.bit .BBX_CTRL 0 = false))) ∧
    (∀ q rest, s.snaps = q :: rest → q.trigger = 2 → Gives (.snapshotDone k) s (fun u => u.aon.phase = .stopped ∧
      u.bit .AON_STATUS 3 = true ∧ u.aon.pwrEn = false)) ∧
    (s.snaps = [] → Gives (.snapshotDone k) s (fun u => SameBut [.out, .now] [] s u))

/-! ### The machine as a whole -/

/-- A step runs the command in front of the queue with the queue's rest; on an empty queue the block idles (the model's
choice, log 2). -/
def Obligations.StepRunsTheFrontCommand : Prop :=
  (∀ (c : Instr) (s : State) (rest : List Instr), s.pending = c :: rest → step s = exec c { s with pending := rest }) ∧
  (∀ s : State, s.pending = [] → step s = .next s)

/-- R14, R17, R48, R397: after reset every register of every unit reads its reset value (where the tables give none, 0 or
the value that log 5 names), nothing waits in the queue, no supply is on but VAON, the tide does not run, no pan holds
content, no queue pair is made; and every sparse store is in its canonical form. -/
def Obligations.ResetState : Prop :=
  (∀ r u i, State.reset.reg r u i = Reg.resetAt r i) ∧ State.reset.pending = [] ∧ State.reset.aon.phase ≠ .on ∧
  State.reset.tide.running = false ∧ (∀ p, (State.reset.pan p).a.state = .empty ∧ (State.reset.pan p).b.state = .empty) ∧
  (∀ q, (State.reset.qp q).state = .free) ∧ State.reset.Canonical

/-- Every step keeps the canonical form of the sparse stores, so that equal contents stay equal data (the model's own
invariant). -/
def Obligations.CanonicalKept : Prop := ∀ s t : State, s.Canonical → step s = .next t → t.Canonical

/-- Every well-formed command is answered with a next state in every state; it leaves the queue, the part and the
reference key as they are, and time never goes back but at a cold start (R17, R52, R417). -/
def Obligations.CommandsAnswer : Prop :=
  ∀ (c : Instr) (s : State), c.wellFormed = true → Gives c s (fun u =>
    u.pending = s.pending ∧ u.part = s.part ∧ u.mram.refKeyId = s.mram.refKeyId ∧ (c ≠ .coldStart → s.now ≤ u.now))

/-- R14, R37, R67, R374, R384, R404: between the edges and apart from register writes, resets and losses of supply, no
command changes a tide period or lead, the placement epoch, the shares of a function, or a setting that host software
writes, but for the control words in which the device answers and the few that it measures or learns; only the start of
firmware sets the tide index and the defaults of the settings, only a verified image the running SVN, and only the
publication of a start writes the ring area. -/
def Obligations.BetweenEdges : Prop :=
  ∀ (c : Instr) (s u : State), outside c = false → exec c s = .next u →
    u.shares = s.shares ∧ u.stages = s.stages ∧
    (∀ r ∈ [Reg.TDE_PERIOD_ACT, .TDE_LEAD_ACT, .TDE_EDGE_TIME, .BPL_PLACE_EPOCH, .HLT_REQ_STATUS, .AON_DEEP_SLEEPS],
      ∀ n i, u.reg r n i = s.reg r n i) ∧
    ((∀ k st n m, c ≠ .firmwareStarted k st n m) → (∀ n i, u.reg .TDE_TIDE n i = s.reg .TDE_TIDE n i) ∧
      ∀ r, r.info.access = .rw → r ∉ [Reg.COR_CAPTURE_CTRL, .WGT_LOAD_CTRL, .BPL_CTRL, .FAB_DIMS, .FAB_SYSTEM_ID, .FWP_CTRL,
        .HKA_CTRL, .HKA_COEF, .CNT_LAYER_SEL, .CNT_FN_SEL, .EVT_CTRL] → ∀ n i, u.reg r n i = s.reg r n i) ∧
    ((∀ k img, c ≠ .firmwareVerified k img) → ∀ n i, u.reg .FWP_SVN n i = s.reg .FWP_SVN n i) ∧
    ((∀ k, c ≠ .startupPublish k) → u.rings = s.rings)

/-- R382, R383, R391: a virtual function has no control register of the blocks of weights, plan, fabric, firmware,
resilience, power, converter and black box, and no indirect window: a write of it at such a register's offset changes
nothing but the count of the bytes written, and nothing at all through a window. That such a row is a write at that offset
of the function's own space is the model's reading (log 76). -/
def Obligations.VirtualFunctionWrites : Prop :=
  ∀ (s : State) (k : Stamp) (fn : FnId) (w : W32) (x : W64), fn ≠ 0 → s.fnLive fn.val = true → s.hif.restarting = [] →
    (∀ c ∈ [Instr.loadStart k fn w, .loadAbort k fn w, .restage k fn w, .wgtRelease k fn w, .adapterUnload k fn w,
        .trustWrite k fn w, .trustErase k fn w, .planLoadStart k fn w, .planLoadAbort k fn w, .planRelease k fn w,
        .placementDump k fn w, .retrain k fn w, .linkReset k fn w, .fwpLoad k fn w, .commitSvn k fn w,
        .procRestartRequest k fn w, .hltReqSweep k fn w, .hltReqRetire k fn w, .hltReqUnlist k fn w, .hltReqInvalid k fn w,
        .powerReqActive k fn w, .powerReqIdle k fn w, .powerReqStandby k fn w, .powerReqDeepSleep k fn w,
        .vcoreTargetWrite k fn w, .pwrLimitWrite k fn w, .hkaSelfCal k fn w, .hkaRefCal k fn w, .bbxClear k fn w,
        .bbxSnap k fn w, .hostTierRegister k fn x, .kvcReserveWrite k fn x],
      Gives c s (fun u => SameBut [.out, .now] [.CNT_PCIE_BAR_WR] s u)) ∧
    (∀ core pan, ∀ c ∈ [Instr.captureArm k fn core w, .refreshReq k fn pan w, .rakeReq k fn pan w],
      Gives c s (fun u => SameBut [.out, .now] [] s u))

/-- R389: a write that arrives while 256 writes are held for its processor is discarded, counted in HIF_EMU_DROPS, which
stays at its greatest value, and EMU_DROP is raised. -/
def Obligations.DroppedWrites : Prop :=
  ∀ (s : State) (k : Stamp) (fn : FnId) (off size : Nat) (v : W64) (p : HouseProc), s.fnLive fn.val = true →
    (size = 4 ∨ size = 8) → off % size = 0 → s.emulator fn.val off = p → s.restarting (procOf p) = true →
    256 ≤ (s.hif.held.filter (fun w => w.proc == p)).length →
    Gives (.registerWrite k fn 2 off size v) s (fun u => u.hif.held = s.hif.held ∧
      u.num .HIF_EMU_DROPS = min 0xFFFFFFFF (s.num .HIF_EMU_DROPS + 1) ∧ u.bit .HIF_INT_STATUS 1 fn.val = true ∧
      SameBut [.out, .now, .hif] [.HIF_EMU_DROPS, .HIF_INT_STATUS, .CNT_PCIE_BAR_WR] s u)

/-- R479: while CALIBRATED reads 1 each scan checks channel 48: the 256th in a row that departs from 1,250,000 µV by more
than 0.5 % clears CALIBRATED and raises REFIN_DRIFT; one that does not starts the count again; the scale stays, and between
the edges, apart from losses of supply and register writes, only a reference calibration changes it. -/
def Obligations.ReferenceDrift : Prop :=
  (∀ (s : State) (k : Stamp) (v : Int), s.pwr.scanDue = true → s.pwrLive = true →
    (BitVec.ofNat 32 (s.num .HKA_VALUE 0 48)).toInt = v →
    (∀ far : Bool, (far = true ↔ v < 1243750 ∨ 1256250 < v) → s.bit .HKA_STATUS 1 = true →
      Gives (.hkaScanComplete k) s (fun u => u.num .HKA_REF_SCALE = s.num .HKA_REF_SCALE ∧
        (far = true → 255 ≤ s.pwr.refScans → u.bit .HKA_STATUS 1 = false ∧ u.bit .PWR_STATUS 16 = false ∧
          u.bit .THM_STATUS 11 = false ∧ u.bit .HKA_INT_STATUS 2 = true ∧ u.pwr.refScans = 0) ∧
        (far = true → s.pwr.refScans < 255 → u.bit .HKA_STATUS 1 = true ∧ u.pwr.refScans = s.pwr.refScans + 1) ∧
        (far = false → u.bit .HKA_STATUS 1 = true ∧ u.pwr.refScans = 0))) ∧
    (s.bit .HKA_STATUS 1 = false → Gives (.hkaScanComplete k) s (fun u => u.bit .HKA_STATUS 1 = false ∧
      u.num .HKA_REF_SCALE = s.num .HKA_REF_SCALE ∧ u.pwr.refScans = 0))) ∧
  (∀ (c : Instr) (s u : State), outside c = false → (∀ k m, c ≠ .refCalDone k m) → exec c s = .next u →
    u.num .HKA_REF_SCALE = s.num .HKA_REF_SCALE)
end

