-- ==== Sys2Proof/Laws/Store.lean ====
section
/-! SUPPORT. The laws of the sparse stores: what a write leaves at every number, and that every operation keeps the
canonical form. -/

namespace Sys2Proof.Machine

variable {α : Type}

/-! ### Read after write -/

theorem Cells.get_erase (d : Nat → α) (c : Cells α) (k j : Nat) :
    Cells.get d (Cells.erase k c) j = if j = k then d j else Cells.get d c j := by
  induction c with
  | nil => simp [Cells.erase, Cells.get]
  | cons e c ih =>
    obtain ⟨i, v⟩ := e
    simp only [Cells.erase, Cells.get]
    split <;> rename_i h
    · rw [ih]; split <;> rename_i h'
      · rfl
      · rw [if_neg (by omega)]
    · simp only [Cells.get]; rw [ih]
      split <;> split <;> first | rfl | omega

theorem Cells.erase_free (c : Cells α) (k : Nat) : ∀ e ∈ Cells.erase k c, e.1 ≠ k := by
  induction c with
  | nil => simp [Cells.erase]
  | cons e c ih =>
    simp only [Cells.erase]
    split
    · exact ih
    · intro x hx
      rcases List.mem_cons.1 hx with rfl | hx
      · assumption
      · exact ih x hx

theorem Cells.get_ins (d : Nat → α) (c : Cells α) (k j : Nat) (v : α) (hc : ∀ e ∈ c, e.1 ≠ k) :
    Cells.get d (Cells.ins k v c) j = if j = k then v else Cells.get d c j := by
  induction c with
  | nil => simp only [Cells.ins, Cells.get]; split <;> split <;> first | rfl | omega
  | cons e c ih =>
    obtain ⟨i, w⟩ := e
    have hi : i ≠ k := hc (i, w) (by simp)
    simp only [Cells.ins]
    split
    · simp only [Cells.get]
      by_cases hj : j = k
      · subst hj; simp
      · rw [if_neg (Ne.symm hj), if_neg hj]
    · simp only [Cells.get]; rw [ih (fun x hx => hc x (by simp [hx]))]
      split <;> split <;> first | rfl | omega

/-- What a write leaves at every number. -/
theorem Cells.get_set [DecidableEq α] (d : Nat → α) (c : Cells α) (k j : Nat) (v : α) :
    Cells.get d (Cells.set d c k v) j = if j = k then v else Cells.get d c j := by
  unfold Cells.set
  split <;> rename_i h
  · rw [Cells.get_erase]; split <;> simp_all
  · rw [Cells.get_ins _ _ _ _ _ (Cells.erase_free c k), Cells.get_erase]; split <;> rfl

theorem Cells.get_set_same [DecidableEq α] (d : Nat → α) (c : Cells α) (k : Nat) (v : α) :
    Cells.get d (Cells.set d c k v) k = v := by rw [Cells.get_set, if_pos rfl]

theorem Cells.get_set_other [DecidableEq α] (d : Nat → α) (c : Cells α) (k j : Nat) (v : α) (h : j ≠ k) :
    Cells.get d (Cells.set d c k v) j = Cells.get d c j := by rw [Cells.get_set, if_neg h]

/-- A write leaves every other number as it was, whatever defaults the write and the read go by. -/
theorem Cells.get_set_far [DecidableEq α] (d d' : Nat → α) (c : Cells α) (k j : Nat) (v : α) (h : j ≠ k) :
    Cells.get d' (Cells.set d c k v) j = Cells.get d' c j := by
  unfold Cells.set
  split
  · rw [Cells.get_erase, if_neg h]
  · rw [Cells.get_ins _ _ _ _ _ (Cells.erase_free c k), if_neg h, Cells.get_erase, if_neg h]

/-- A map that keeps the defaults reads as the map of what was there. -/
theorem Cells.get_mapAll [DecidableEq α] (d : Nat → α) (f : Nat → α → α) (c : Cells α) (j : Nat)
    (hf : ∀ k, f k (d k) = d k) (hc : Cells.wf d c = true) :
    Cells.get d (Cells.mapAll d f c) j = f j (Cells.get d c j) := by
  have key : ∀ (lo : Option Nat) (c : Cells α), Cells.wfFrom d lo c = true →
      Cells.get d (Cells.mapAll d f c) j = f j (Cells.get d c j) ∧
      ((∃ l, lo = some l ∧ j ≤ l) → Cells.get d c j = d j) := by
    intro lo c
    induction c generalizing lo with
    | nil => intro _; simp [Cells.mapAll, Cells.get, hf]
    | cons e c ih =>
      obtain ⟨i, v⟩ := e
      intro h
      simp only [Cells.wfFrom, Bool.and_eq_true, decide_eq_true_eq] at h
      obtain ⟨⟨h1, h2⟩, h3⟩ := h
      have := ih (some i) h3
      refine ⟨?_, ?_⟩
      · simp only [Cells.mapAll, Cells.get]
        split <;> rename_i hd
        · split <;> rename_i hi
          · subst hi; rw [this.1, this.2 ⟨i, rfl, Nat.le_refl _⟩, hf, hd]
          · exact this.1
        · simp only [Cells.get]; split <;> rename_i hi
          · subst hi; rfl
          · exact this.1
      · rintro ⟨l, rfl, hl⟩
        simp only [decide_eq_true_eq] at h1
        simp only [Cells.get]
        rw [if_neg (by omega)]
        exact this.2 ⟨i, rfl, by omega⟩
  exact (key none c hc).1

theorem Pool.get_set [DecidableEq α] (p : Pool α) (k j : Nat) (v : α) :
    (p.set k v).get j = if j = k then v else p.get j := Cells.get_set _ _ _ _ _

theorem Pool.get_upd [DecidableEq α] (p : Pool α) (k j : Nat) (f : α → α) :
    (p.upd k f).get j = if j = k then f (p.get k) else p.get j := Cells.get_set _ _ _ _ _

/-! ### The canonical form -/

/-- A lower bound that a list's numbers keep may be lowered. -/
theorem Cells.wfFrom_mono [DecidableEq α] {d : Nat → α} {c : Cells α} {lo lo' : Option Nat}
    (h : Cells.wfFrom d lo c = true) (hl : ∀ l', lo' = some l' → ∃ l, lo = some l ∧ l' ≤ l) :
    Cells.wfFrom d lo' c = true := by
  cases c with
  | nil => rfl
  | cons e c =>
    simp only [Cells.wfFrom, Bool.and_eq_true, decide_eq_true_eq] at h ⊢
    obtain ⟨⟨h1, h2⟩, h3⟩ := h
    refine ⟨⟨?_, h2⟩, h3⟩
    cases lo' with
    | none => rfl
    | some l' =>
      obtain ⟨l, rfl, hle⟩ := hl l' rfl
      simp only [decide_eq_true_eq] at h1 ⊢; omega

theorem Cells.wfFrom_erase [DecidableEq α] {d : Nat → α} {c : Cells α} {lo : Option Nat} (k : Nat)
    (h : Cells.wfFrom d lo c = true) : Cells.wfFrom d lo (Cells.erase k c) = true := by
  induction c generalizing lo with
  | nil => rfl
  | cons e c ih =>
    obtain ⟨i, v⟩ := e
    simp only [Cells.wfFrom, Bool.and_eq_true, decide_eq_true_eq] at h
    obtain ⟨⟨h1, h2⟩, h3⟩ := h
    simp only [Cells.erase]
    split
    · refine ih (Cells.wfFrom_mono h3 ?_)
      rintro l' rfl
      simp only [decide_eq_true_eq] at h1
      exact ⟨i, rfl, by omega⟩
    · simp only [Cells.wfFrom, Bool.and_eq_true, decide_eq_true_eq]
      exact ⟨⟨h1, h2⟩, ih h3⟩

theorem Cells.wfFrom_ins [DecidableEq α] {d : Nat → α} {c : Cells α} {lo : Option Nat} {k : Nat} {v : α}
    (hv : v ≠ d k) (hk : ∀ l, lo = some l → l < k) (hc : ∀ e ∈ c, e.1 ≠ k) (h : Cells.wfFrom d lo c = true) :
    Cells.wfFrom d lo (Cells.ins k v c) = true := by
  induction c generalizing lo with
  | nil =>
    simp only [Cells.ins, Cells.wfFrom, Bool.and_eq_true, decide_eq_true_eq]
    exact ⟨⟨by cases lo <;> simp_all, hv⟩, trivial⟩
  | cons e c ih =>
    obtain ⟨i, w⟩ := e
    have hi : i ≠ k := hc (i, w) (by simp)
    simp only [Cells.wfFrom, Bool.and_eq_true, decide_eq_true_eq] at h
    obtain ⟨⟨h1, h2⟩, h3⟩ := h
    simp only [Cells.ins]
    split <;> rename_i hki
    · simp only [Cells.wfFrom, Bool.and_eq_true, decide_eq_true_eq]
      exact ⟨⟨by cases lo <;> simp_all, hv⟩, ⟨hki, h2⟩, h3⟩
    · simp only [Cells.wfFrom, Bool.and_eq_true, decide_eq_true_eq]
      have hik : i < k := by omega
      refine ⟨⟨h1, h2⟩, ih (fun l hl => by cases hl; exact hik) (fun x hx => hc x (by simp [hx])) h3⟩

theorem Cells.wf_set [DecidableEq α] {d : Nat → α} {c : Cells α} (k : Nat) (v : α) (h : Cells.wf d c = true) :
    Cells.wf d (Cells.set d c k v) = true := by
  unfold Cells.set
  split <;> rename_i hv
  · exact Cells.wfFrom_erase k h
  · exact Cells.wfFrom_ins hv (by simp) (Cells.erase_free c k) (Cells.wfFrom_erase k h)

theorem Cells.wf_upd [DecidableEq α] {d : Nat → α} {c : Cells α} (k : Nat) (f : α → α) (h : Cells.wf d c = true) :
    Cells.wf d (Cells.upd d c k f) = true := Cells.wf_set _ _ h

theorem Cells.wf_mapAll [DecidableEq α] {d d' : Nat → α} {c : Cells α} (f : Nat → α → α) (h : Cells.wf d c = true) :
    Cells.wf d' (Cells.mapAll d' f c) = true := by
  unfold Cells.wf at h ⊢
  generalize none = lo at h ⊢
  induction c generalizing lo with
  | nil => rfl
  | cons e c ih =>
    obtain ⟨i, v⟩ := e
    simp only [Cells.wfFrom, Bool.and_eq_true, decide_eq_true_eq] at h
    obtain ⟨⟨h1, h2⟩, h3⟩ := h
    simp only [Cells.mapAll]
    split <;> rename_i hd
    · refine ih (lo := lo) (Cells.wfFrom_mono h3 ?_)
      rintro l' rfl
      simp only [decide_eq_true_eq] at h1
      exact ⟨i, rfl, by omega⟩
    · simp only [Cells.wfFrom, Bool.and_eq_true, decide_eq_true_eq]
      exact ⟨⟨h1, hd⟩, ih (lo := some i) h3⟩

theorem Cells.wf_filter [DecidableEq α] {d : Nat → α} {c : Cells α} (q : Nat × α → Bool) (h : Cells.wf d c = true) :
    Cells.wf d (List.filter q c) = true := by
  unfold Cells.wf at h ⊢
  generalize none = lo at h ⊢
  induction c generalizing lo with
  | nil => rfl
  | cons e c ih =>
    obtain ⟨i, v⟩ := e
    simp only [Cells.wfFrom, Bool.and_eq_true, decide_eq_true_eq] at h
    obtain ⟨⟨h1, h2⟩, h3⟩ := h
    simp only [List.filter]
    split
    · simp only [Cells.wfFrom, Bool.and_eq_true, decide_eq_true_eq]
      exact ⟨⟨h1, h2⟩, ih (lo := some i) h3⟩
    · refine ih (lo := lo) (Cells.wfFrom_mono h3 ?_)
      rintro l' rfl
      simp only [decide_eq_true_eq] at h1
      exact ⟨i, rfl, by omega⟩

theorem Pool.wf_set [DecidableEq α] {p : Pool α} (k : Nat) (v : α) (h : p.wf = true) : (p.set k v).wf = true :=
  Cells.wf_set k v h
theorem Pool.wf_upd [DecidableEq α] {p : Pool α} (k : Nat) (f : α → α) (h : p.wf = true) : (p.upd k f).wf = true :=
  Cells.wf_set k _ h
theorem Pool.wf_map [DecidableEq α] {p : Pool α} (f : α → α) (h : p.wf = true) : (p.map f).wf = true :=
  Cells.wf_mapAll _ h

/-! ### Runs of values -/

theorem Cells.wfFrom_run [DecidableEq α] {d : Nat → α} {lo : Option Nat} (k : Nat) (l : List α)
    (hl : ∀ n, lo = some n → n < k) : Cells.wfFrom d lo (Cells.run d k l) = true := by
  induction l generalizing lo k with
  | nil => rfl
  | cons v l ih =>
    simp only [Cells.run]
    split <;> rename_i hv
    · exact ih (k + 1) (fun n hn => Nat.lt_succ_of_lt (hl n hn))
    · simp only [Cells.wfFrom, Bool.and_eq_true, decide_eq_true_eq]
      exact ⟨⟨by cases lo <;> simp_all, hv⟩, ih (k + 1) (fun n hn => by cases hn; exact Nat.lt_succ_self _)⟩

/-- Two canonical stores, the numbers of the first before those of the second, are one. -/
theorem Cells.wfFrom_append [DecidableEq α] {d : Nat → α} {a b : Cells α} {lo : Option Nat} (m : Nat)
    (ha : Cells.wfFrom d lo a = true) (hm : ∀ e ∈ a, e.1 < m) (hlo : ∀ n, lo = some n → n < m)
    (hb : Cells.wfFrom d none b = true) (hn : ∀ e ∈ b, m ≤ e.1) : Cells.wfFrom d lo (a ++ b) = true := by
  induction a generalizing lo with
  | nil =>
    cases b with
    | nil => rfl
    | cons e b =>
      simp only [Cells.wfFrom, Bool.and_eq_true, decide_eq_true_eq, List.nil_append] at hb ⊢
      refine ⟨⟨?_, hb.1.2⟩, hb.2⟩
      cases lo with
      | none => rfl
      | some n => exact decide_eq_true (Nat.lt_of_lt_of_le (hlo n rfl) (hn e (List.mem_cons_self ..)))
  | cons e a ih =>
    simp only [Cells.wfFrom, Bool.and_eq_true, List.cons_append] at ha ⊢
    exact ⟨ha.1, ih ha.2 (fun x hx => hm x (List.mem_cons_of_mem _ hx))
      (fun n h => by cases h; exact hm e (List.mem_cons_self ..))⟩

theorem Cells.run_bounds [DecidableEq α] {d : Nat → α} {k : Nat} {l : List α} :
    ∀ e ∈ Cells.run d k l, k ≤ e.1 ∧ e.1 < k + l.length := by
  induction l generalizing k with
  | nil => intro e h; cases h
  | cons v l ih =>
    intro e h
    simp only [Cells.run] at h
    rw [List.length_cons]
    split at h
    · have := ih e h; omega
    · rcases List.mem_cons.mp h with rfl | h
      · exact ⟨Nat.le_refl _, by simp⟩
      · have := ih e h; omega

/-- A run of values written keeps the canonical form. -/
theorem Cells.wf_write [DecidableEq α] {d : Nat → α} {c : Cells α} (k : Nat) (l : List α) (h : Cells.wf d c = true) :
    Cells.wf d (Cells.write d c k l) = true := by
  unfold Cells.write
  refine Cells.wfFrom_append k (Cells.wf_filter _ h) (fun e he => ?_) (fun _ e => by cases e) ?_ (fun e he => ?_)
  · simpa using (List.mem_filter.mp he).2
  · refine Cells.wfFrom_append (k + l.length) (Cells.wfFrom_run k l (fun _ e => by cases e)) (fun e he => (Cells.run_bounds e he).2)
      (fun _ e => by cases e) (Cells.wf_filter _ h) (fun e he => ?_)
    simpa using (List.mem_filter.mp he).2
  · rcases List.mem_append.mp he with he | he
    · exact (Cells.run_bounds e he).1
    · have : k + l.length ≤ e.1 := by simpa using (List.mem_filter.mp he).2
      omega

/-- A stretch cleared keeps the canonical form. -/
theorem Cells.wf_clear [DecidableEq α] {d : Nat → α} {c : Cells α} (k n : Nat) (h : Cells.wf d c = true) :
    Cells.wf d (Cells.clear c k n) = true := Cells.wf_filter _ h

theorem Cells.get_append (d : Nat → α) (a b : Cells α) (j : Nat) (h : ∀ e ∈ a, e.1 ≠ j) :
    Cells.get d (a ++ b) j = Cells.get d b j := by
  induction a with
  | nil => rfl
  | cons e a ih =>
    rw [List.cons_append, Cells.get, if_neg (h e (List.mem_cons_self ..))]
    exact ih (fun x hx => h x (List.mem_cons_of_mem _ hx))

theorem Cells.get_append_left (d : Nat → α) (a b : Cells α) (j : Nat) (h : ∀ e ∈ b, e.1 ≠ j) :
    Cells.get d (a ++ b) j = Cells.get d a j := by
  induction a with
  | nil =>
    induction b with
    | nil => rfl
    | cons e b ih =>
      simp only [List.nil_append, Cells.get] at ih ⊢
      rw [if_neg (h e (List.mem_cons_self ..))]
      exact ih (fun x hx => h x (List.mem_cons_of_mem _ hx))
  | cons e a ih => simp only [List.cons_append, Cells.get, ih]

theorem Cells.get_run [DecidableEq α] (d : Nat → α) (k : Nat) (l : List α) (i : Nat) (h : i < l.length) :
    Cells.get d (Cells.run d k l) (k + i) = l[i] := by
  induction l generalizing k i with
  | nil => cases h
  | cons v l ih =>
    simp only [Cells.run]
    cases i with
    | zero =>
      split <;> rename_i hv
      · have : Cells.get d ([] ++ Cells.run d (k + 1) l) (k + 0) = Cells.get d [] (k + 0) :=
          Cells.get_append_left d [] _ _ (fun e he => by have := (Cells.run_bounds e he).1; omega)
        rw [List.nil_append] at this
        rw [this, List.getElem_cons_zero, hv]; rfl
      · rw [Cells.get, if_pos (by omega), List.getElem_cons_zero]
    | succ i =>
      have h' : i < l.length := by simpa using h
      have e : k + (i + 1) = k + 1 + i := by omega
      split
      · rw [e, ih (k + 1) i h', List.getElem_cons_succ]
      · rw [Cells.get, if_neg (by omega), e, ih (k + 1) i h', List.getElem_cons_succ]

theorem Cells.get_filter (d : Nat → α) (q : Nat → Bool) (c : Cells α) (j : Nat) (h : q j = true) :
    Cells.get d (List.filter (fun e => q e.1) c) j = Cells.get d c j := by
  induction c with
  | nil => rfl
  | cons e c ih =>
    simp only [List.filter]
    split <;> rename_i hq
    · simp only [Cells.get, ih]
    · rw [ih, Cells.get, if_neg (fun e' => by rw [e', h] at hq; cases hq)]

/-- What a run of values written leaves at a number inside it. -/
theorem Cells.get_write_in [DecidableEq α] (d : Nat → α) (c : Cells α) (k : Nat) (l : List α) (i : Nat)
    (h : i < l.length) : Cells.get d (Cells.write d c k l) (k + i) = l[i] := by
  unfold Cells.write
  rw [Cells.get_append _ _ _ _ (fun e he => ?_), Cells.get_append_left _ _ _ _ (fun e he => ?_), Cells.get_run d k l i h]
  · have : k + l.length ≤ e.1 := by simpa using (List.mem_filter.mp he).2
    omega
  · have : e.1 < k := by simpa using (List.mem_filter.mp he).2
    omega

/-- What a run of values written leaves at a number outside it. -/
theorem Cells.get_write_out [DecidableEq α] (d : Nat → α) (c : Cells α) (k : Nat) (l : List α) (j : Nat)
    (h : j < k ∨ k + l.length ≤ j) : Cells.get d (Cells.write d c k l) j = Cells.get d c j := by
  unfold Cells.write
  rcases h with h | h
  · rw [Cells.get_append_left _ _ _ _ (fun e he => ?_), Cells.get_filter d (fun n => decide (n < k)) c j (decide_eq_true h)]
    rcases List.mem_append.mp he with he | he
    · have := (Cells.run_bounds e he).1; omega
    · have : k + l.length ≤ e.1 := by simpa using (List.mem_filter.mp he).2
      omega
  · rw [Cells.get_append _ _ _ _ (fun e he => ?_), Cells.get_append _ _ _ _ (fun e he => ?_),
      Cells.get_filter d (fun n => decide (k + l.length ≤ n)) c j (decide_eq_true h)]
    · have := (Cells.run_bounds e he).2; omega
    · have : e.1 < k := by simpa using (List.mem_filter.mp he).2
      omega

/-- What a stretch cleared leaves at a number outside it. -/
theorem Cells.get_clear_out (d : Nat → α) (c : Cells α) (k n j : Nat) (h : j < k ∨ k + n ≤ j) :
    Cells.get d (Cells.clear c k n) j = Cells.get d c j :=
  Cells.get_filter d (fun i => decide (i < k) || decide (k + n ≤ i)) c j (by simpa using h)

/-! ### Ascending numbers, of a store whose default depends on more than the number -/

theorem Cells.ascends_mono {c : Cells α} {lo lo' : Option Nat} (h : Cells.ascends lo c = true)
    (hl : ∀ l', lo' = some l' → ∃ l, lo = some l ∧ l' ≤ l) : Cells.ascends lo' c = true := by
  cases c with
  | nil => rfl
  | cons e c =>
    simp only [Cells.ascends, Bool.and_eq_true] at h ⊢
    obtain ⟨h1, h3⟩ := h
    refine ⟨?_, h3⟩
    cases lo' with
    | none => rfl
    | some l' =>
      obtain ⟨l, rfl, hle⟩ := hl l' rfl
      simp only [decide_eq_true_eq] at h1 ⊢; omega

theorem Cells.ascends_erase {c : Cells α} {lo : Option Nat} (k : Nat) (h : Cells.ascends lo c = true) :
    Cells.ascends lo (Cells.erase k c) = true := by
  induction c generalizing lo with
  | nil => rfl
  | cons e c ih =>
    obtain ⟨i, v⟩ := e
    simp only [Cells.ascends, Bool.and_eq_true] at h
    obtain ⟨h1, h3⟩ := h
    simp only [Cells.erase]
    split
    · refine ih (Cells.ascends_mono h3 ?_)
      rintro l' rfl
      simp only [decide_eq_true_eq] at h1
      exact ⟨i, rfl, by omega⟩
    · simp only [Cells.ascends, Bool.and_eq_true]
      exact ⟨h1, ih h3⟩

theorem Cells.ascends_ins {c : Cells α} {lo : Option Nat} {k : Nat} {v : α} (hk : ∀ l, lo = some l → l < k)
    (hc : ∀ e ∈ c, e.1 ≠ k) (h : Cells.ascends lo c = true) : Cells.ascends lo (Cells.ins k v c) = true := by
  induction c generalizing lo with
  | nil =>
    simp only [Cells.ins, Cells.ascends, Bool.and_eq_true]
    exact ⟨by cases lo <;> simp_all, trivial⟩
  | cons e c ih =>
    obtain ⟨i, w⟩ := e
    have hi : i ≠ k := hc (i, w) (by simp)
    simp only [Cells.ascends, Bool.and_eq_true] at h
    obtain ⟨h1, h3⟩ := h
    simp only [Cells.ins]
    split <;> rename_i hki
    · simp only [Cells.ascends, Bool.and_eq_true, decide_eq_true_eq]
      exact ⟨by cases lo <;> simp_all, hki, h3⟩
    · simp only [Cells.ascends, Bool.and_eq_true]
      have hik : i < k := by omega
      refine ⟨h1, ih (fun l hl => by cases hl; exact hik) (fun x hx => hc x (by simp [hx])) h3⟩

theorem Cells.ascends_set [DecidableEq α] {d : Nat → α} {c : Cells α} (k : Nat) (v : α)
    (h : Cells.ascends none c = true) : Cells.ascends none (Cells.set d c k v) = true := by
  unfold Cells.set
  split
  · exact Cells.ascends_erase k h
  · exact Cells.ascends_ins (by simp) (Cells.erase_free c k) (Cells.ascends_erase k h)

theorem Cells.ascends_filter {c : Cells α} {lo : Option Nat} (q : Nat × α → Bool)
    (h : Cells.ascends lo c = true) : Cells.ascends lo (List.filter q c) = true := by
  induction c generalizing lo with
  | nil => rfl
  | cons e c ih =>
    obtain ⟨i, v⟩ := e
    simp only [Cells.ascends, Bool.and_eq_true] at h
    obtain ⟨h1, h3⟩ := h
    simp only [List.filter]
    split
    · simp only [Cells.ascends, Bool.and_eq_true]
      exact ⟨h1, ih h3⟩
    · refine ih (Cells.ascends_mono h3 ?_)
      rintro l' rfl
      simp only [decide_eq_true_eq] at h1
      exact ⟨i, rfl, by omega⟩

end Sys2Proof.Machine
end

