-- ==== Sys2Proof/Laws/State.lean ====
section
/-! SUPPORT. What each named update of the state leaves in each field. -/

namespace Sys2Proof.Machine

variable (s : State)

/-! `State.enter` -/

@[simp] theorem State.enter_pending (t : Stamp) : (s.enter t).pending = s.pending := rfl
@[simp] theorem State.enter_out (t : Stamp) : (s.enter t).out = [] := rfl
@[simp] theorem State.enter_freeCtr (t : Stamp) : (s.enter t).freeCtr = s.freeCtr := rfl
@[simp] theorem State.enter_part (t : Stamp) : (s.enter t).part = s.part := rfl
@[simp] theorem State.enter_now (t : Stamp) : (s.enter t).now = max s.now t := rfl
@[simp] theorem State.enter_regs (t : Stamp) : (s.enter t).regs = s.regs := rfl
@[simp] theorem State.enter_aon (t : Stamp) : (s.enter t).aon = s.aon := rfl
@[simp] theorem State.enter_boot (t : Stamp) : (s.enter t).boot = s.boot := rfl
@[simp] theorem State.enter_mram (t : Stamp) : (s.enter t).mram = s.mram := rfl
@[simp] theorem State.enter_tide (t : Stamp) : (s.enter t).tide = s.tide := rfl
@[simp] theorem State.enter_pans (t : Stamp) : (s.enter t).pans = s.pans := rfl
@[simp] theorem State.enter_cores (t : Stamp) : (s.enter t).cores = s.cores := rfl
@[simp] theorem State.enter_clusters (t : Stamp) : (s.enter t).clusters = s.clusters := rfl
@[simp] theorem State.enter_phys (t : Stamp) : (s.enter t).phys = s.phys := rfl
@[simp] theorem State.enter_pool (t : Stamp) : (s.enter t).pool = s.pool := rfl
@[simp] theorem State.enter_wgt (t : Stamp) : (s.enter t).wgt = s.wgt := rfl
@[simp] theorem State.enter_qps (t : Stamp) : (s.enter t).qps = s.qps := rfl
@[simp] theorem State.enter_srv (t : Stamp) : (s.enter t).srv = s.srv := rfl
@[simp] theorem State.enter_shares (t : Stamp) : (s.enter t).shares = s.shares := rfl
@[simp] theorem State.enter_stages (t : Stamp) : (s.enter t).stages = s.stages := rfl
@[simp] theorem State.enter_plans (t : Stamp) : (s.enter t).plans = s.plans := rfl
@[simp] theorem State.enter_fab (t : Stamp) : (s.enter t).fab = s.fab := rfl
@[simp] theorem State.enter_hif (t : Stamp) : (s.enter t).hif = s.hif := rfl
@[simp] theorem State.enter_sec (t : Stamp) : (s.enter t).sec = s.sec := rfl
@[simp] theorem State.enter_hlt (t : Stamp) : (s.enter t).hlt = s.hlt := rfl
@[simp] theorem State.enter_pwr (t : Stamp) : (s.enter t).pwr = s.pwr := rfl
@[simp] theorem State.enter_evt (t : Stamp) : (s.enter t).evt = s.evt := rfl
@[simp] theorem State.enter_snaps (t : Stamp) : (s.enter t).snaps = s.snaps := rfl
@[simp] theorem State.enter_saved (t : Stamp) : (s.enter t).saved = s.saved := rfl
@[simp] theorem State.enter_mem (t : Stamp) : (s.enter t).mem = s.mem := rfl
@[simp] theorem State.enter_rings (t : Stamp) : (s.enter t).rings = s.rings := rfl

/-! `State.setReg` -/

@[simp] theorem State.setReg_pending (r : Reg) (v : W64) (u i : Nat) : (s.setReg r v u i).pending = s.pending := rfl
@[simp] theorem State.setReg_out (r : Reg) (v : W64) (u i : Nat) : (s.setReg r v u i).out = s.out := rfl
@[simp] theorem State.setReg_freeCtr (r : Reg) (v : W64) (u i : Nat) : (s.setReg r v u i).freeCtr = s.freeCtr := rfl
@[simp] theorem State.setReg_part (r : Reg) (v : W64) (u i : Nat) : (s.setReg r v u i).part = s.part := rfl
@[simp] theorem State.setReg_now (r : Reg) (v : W64) (u i : Nat) : (s.setReg r v u i).now = s.now := rfl
@[simp] theorem State.setReg_aon (r : Reg) (v : W64) (u i : Nat) : (s.setReg r v u i).aon = s.aon := rfl
@[simp] theorem State.setReg_boot (r : Reg) (v : W64) (u i : Nat) : (s.setReg r v u i).boot = s.boot := rfl
@[simp] theorem State.setReg_mram (r : Reg) (v : W64) (u i : Nat) : (s.setReg r v u i).mram = s.mram := rfl
@[simp] theorem State.setReg_tide (r : Reg) (v : W64) (u i : Nat) : (s.setReg r v u i).tide = s.tide := rfl
@[simp] theorem State.setReg_pans (r : Reg) (v : W64) (u i : Nat) : (s.setReg r v u i).pans = s.pans := rfl
@[simp] theorem State.setReg_cores (r : Reg) (v : W64) (u i : Nat) : (s.setReg r v u i).cores = s.cores := rfl
@[simp] theorem State.setReg_clusters (r : Reg) (v : W64) (u i : Nat) : (s.setReg r v u i).clusters = s.clusters := rfl
@[simp] theorem State.setReg_phys (r : Reg) (v : W64) (u i : Nat) : (s.setReg r v u i).phys = s.phys := rfl
@[simp] theorem State.setReg_pool (r : Reg) (v : W64) (u i : Nat) : (s.setReg r v u i).pool = s.pool := rfl
@[simp] theorem State.setReg_wgt (r : Reg) (v : W64) (u i : Nat) : (s.setReg r v u i).wgt = s.wgt := rfl
@[simp] theorem State.setReg_qps (r : Reg) (v : W64) (u i : Nat) : (s.setReg r v u i).qps = s.qps := rfl
@[simp] theorem State.setReg_srv (r : Reg) (v : W64) (u i : Nat) : (s.setReg r v u i).srv = s.srv := rfl
@[simp] theorem State.setReg_shares (r : Reg) (v : W64) (u i : Nat) : (s.setReg r v u i).shares = s.shares := rfl
@[simp] theorem State.setReg_stages (r : Reg) (v : W64) (u i : Nat) : (s.setReg r v u i).stages = s.stages := rfl
@[simp] theorem State.setReg_plans (r : Reg) (v : W64) (u i : Nat) : (s.setReg r v u i).plans = s.plans := rfl
@[simp] theorem State.setReg_fab (r : Reg) (v : W64) (u i : Nat) : (s.setReg r v u i).fab = s.fab := rfl
@[simp] theorem State.setReg_hif (r : Reg) (v : W64) (u i : Nat) : (s.setReg r v u i).hif = s.hif := rfl
@[simp] theorem State.setReg_sec (r : Reg) (v : W64) (u i : Nat) : (s.setReg r v u i).sec = s.sec := rfl
@[simp] theorem State.setReg_hlt (r : Reg) (v : W64) (u i : Nat) : (s.setReg r v u i).hlt = s.hlt := rfl
@[simp] theorem State.setReg_pwr (r : Reg) (v : W64) (u i : Nat) : (s.setReg r v u i).pwr = s.pwr := rfl
@[simp] theorem State.setReg_evt (r : Reg) (v : W64) (u i : Nat) : (s.setReg r v u i).evt = s.evt := rfl
@[simp] theorem State.setReg_snaps (r : Reg) (v : W64) (u i : Nat) : (s.setReg r v u i).snaps = s.snaps := rfl
@[simp] theorem State.setReg_saved (r : Reg) (v : W64) (u i : Nat) : (s.setReg r v u i).saved = s.saved := rfl
@[simp] theorem State.setReg_mem (r : Reg) (v : W64) (u i : Nat) : (s.setReg r v u i).mem = s.mem := rfl
@[simp] theorem State.setReg_rings (r : Reg) (v : W64) (u i : Nat) : (s.setReg r v u i).rings = s.rings := rfl

/-! `State.setNum` -/

@[simp] theorem State.setNum_pending (r : Reg) (n u i : Nat) : (s.setNum r n u i).pending = s.pending := rfl
@[simp] theorem State.setNum_out (r : Reg) (n u i : Nat) : (s.setNum r n u i).out = s.out := rfl
@[simp] theorem State.setNum_freeCtr (r : Reg) (n u i : Nat) : (s.setNum r n u i).freeCtr = s.freeCtr := rfl
@[simp] theorem State.setNum_part (r : Reg) (n u i : Nat) : (s.setNum r n u i).part = s.part := rfl
@[simp] theorem State.setNum_now (r : Reg) (n u i : Nat) : (s.setNum r n u i).now = s.now := rfl
@[simp] theorem State.setNum_aon (r : Reg) (n u i : Nat) : (s.setNum r n u i).aon = s.aon := rfl
@[simp] theorem State.setNum_boot (r : Reg) (n u i : Nat) : (s.setNum r n u i).boot = s.boot := rfl
@[simp] theorem State.setNum_mram (r : Reg) (n u i : Nat) : (s.setNum r n u i).mram = s.mram := rfl
@[simp] theorem State.setNum_tide (r : Reg) (n u i : Nat) : (s.setNum r n u i).tide = s.tide := rfl
@[simp] theorem State.setNum_pans (r : Reg) (n u i : Nat) : (s.setNum r n u i).pans = s.pans := rfl
@[simp] theorem State.setNum_cores (r : Reg) (n u i : Nat) : (s.setNum r n u i).cores = s.cores := rfl
@[simp] theorem State.setNum_clusters (r : Reg) (n u i : Nat) : (s.setNum r n u i).clusters = s.clusters := rfl
@[simp] theorem State.setNum_phys (r : Reg) (n u i : Nat) : (s.setNum r n u i).phys = s.phys := rfl
@[simp] theorem State.setNum_pool (r : Reg) (n u i : Nat) : (s.setNum r n u i).pool = s.pool := rfl
@[simp] theorem State.setNum_wgt (r : Reg) (n u i : Nat) : (s.setNum r n u i).wgt = s.wgt := rfl
@[simp] theorem State.setNum_qps (r : Reg) (n u i : Nat) : (s.setNum r n u i).qps = s.qps := rfl
@[simp] theorem State.setNum_srv (r : Reg) (n u i : Nat) : (s.setNum r n u i).srv = s.srv := rfl
@[simp] theorem State.setNum_shares (r : Reg) (n u i : Nat) : (s.setNum r n u i).shares = s.shares := rfl
@[simp] theorem State.setNum_stages (r : Reg) (n u i : Nat) : (s.setNum r n u i).stages = s.stages := rfl
@[simp] theorem State.setNum_plans (r : Reg) (n u i : Nat) : (s.setNum r n u i).plans = s.plans := rfl
@[simp] theorem State.setNum_fab (r : Reg) (n u i : Nat) : (s.setNum r n u i).fab = s.fab := rfl
@[simp] theorem State.setNum_hif (r : Reg) (n u i : Nat) : (s.setNum r n u i).hif = s.hif := rfl
@[simp] theorem State.setNum_sec (r : Reg) (n u i : Nat) : (s.setNum r n u i).sec = s.sec := rfl
@[simp] theorem State.setNum_hlt (r : Reg) (n u i : Nat) : (s.setNum r n u i).hlt = s.hlt := rfl
@[simp] theorem State.setNum_pwr (r : Reg) (n u i : Nat) : (s.setNum r n u i).pwr = s.pwr := rfl
@[simp] theorem State.setNum_evt (r : Reg) (n u i : Nat) : (s.setNum r n u i).evt = s.evt := rfl
@[simp] theorem State.setNum_snaps (r : Reg) (n u i : Nat) : (s.setNum r n u i).snaps = s.snaps := rfl
@[simp] theorem State.setNum_saved (r : Reg) (n u i : Nat) : (s.setNum r n u i).saved = s.saved := rfl
@[simp] theorem State.setNum_mem (r : Reg) (n u i : Nat) : (s.setNum r n u i).mem = s.mem := rfl
@[simp] theorem State.setNum_rings (r : Reg) (n u i : Nat) : (s.setNum r n u i).rings = s.rings := rfl

/-! `State.setF` -/

@[simp] theorem State.setF_pending (r : Reg) (lo w x u i : Nat) : (s.setF r lo w x u i).pending = s.pending := rfl
@[simp] theorem State.setF_out (r : Reg) (lo w x u i : Nat) : (s.setF r lo w x u i).out = s.out := rfl
@[simp] theorem State.setF_freeCtr (r : Reg) (lo w x u i : Nat) : (s.setF r lo w x u i).freeCtr = s.freeCtr := rfl
@[simp] theorem State.setF_part (r : Reg) (lo w x u i : Nat) : (s.setF r lo w x u i).part = s.part := rfl
@[simp] theorem State.setF_now (r : Reg) (lo w x u i : Nat) : (s.setF r lo w x u i).now = s.now := rfl
@[simp] theorem State.setF_aon (r : Reg) (lo w x u i : Nat) : (s.setF r lo w x u i).aon = s.aon := rfl
@[simp] theorem State.setF_boot (r : Reg) (lo w x u i : Nat) : (s.setF r lo w x u i).boot = s.boot := rfl
@[simp] theorem State.setF_mram (r : Reg) (lo w x u i : Nat) : (s.setF r lo w x u i).mram = s.mram := rfl
@[simp] theorem State.setF_tide (r : Reg) (lo w x u i : Nat) : (s.setF r lo w x u i).tide = s.tide := rfl
@[simp] theorem State.setF_pans (r : Reg) (lo w x u i : Nat) : (s.setF r lo w x u i).pans = s.pans := rfl
@[simp] theorem State.setF_cores (r : Reg) (lo w x u i : Nat) : (s.setF r lo w x u i).cores = s.cores := rfl
@[simp] theorem State.setF_clusters (r : Reg) (lo w x u i : Nat) : (s.setF r lo w x u i).clusters = s.clusters := rfl
@[simp] theorem State.setF_phys (r : Reg) (lo w x u i : Nat) : (s.setF r lo w x u i).phys = s.phys := rfl
@[simp] theorem State.setF_pool (r : Reg) (lo w x u i : Nat) : (s.setF r lo w x u i).pool = s.pool := rfl
@[simp] theorem State.setF_wgt (r : Reg) (lo w x u i : Nat) : (s.setF r lo w x u i).wgt = s.wgt := rfl
@[simp] theorem State.setF_qps (r : Reg) (lo w x u i : Nat) : (s.setF r lo w x u i).qps = s.qps := rfl
@[simp] theorem State.setF_srv (r : Reg) (lo w x u i : Nat) : (s.setF r lo w x u i).srv = s.srv := rfl
@[simp] theorem State.setF_shares (r : Reg) (lo w x u i : Nat) : (s.setF r lo w x u i).shares = s.shares := rfl
@[simp] theorem State.setF_stages (r : Reg) (lo w x u i : Nat) : (s.setF r lo w x u i).stages = s.stages := rfl
@[simp] theorem State.setF_plans (r : Reg) (lo w x u i : Nat) : (s.setF r lo w x u i).plans = s.plans := rfl
@[simp] theorem State.setF_fab (r : Reg) (lo w x u i : Nat) : (s.setF r lo w x u i).fab = s.fab := rfl
@[simp] theorem State.setF_hif (r : Reg) (lo w x u i : Nat) : (s.setF r lo w x u i).hif = s.hif := rfl
@[simp] theorem State.setF_sec (r : Reg) (lo w x u i : Nat) : (s.setF r lo w x u i).sec = s.sec := rfl
@[simp] theorem State.setF_hlt (r : Reg) (lo w x u i : Nat) : (s.setF r lo w x u i).hlt = s.hlt := rfl
@[simp] theorem State.setF_pwr (r : Reg) (lo w x u i : Nat) : (s.setF r lo w x u i).pwr = s.pwr := rfl
@[simp] theorem State.setF_evt (r : Reg) (lo w x u i : Nat) : (s.setF r lo w x u i).evt = s.evt := rfl
@[simp] theorem State.setF_snaps (r : Reg) (lo w x u i : Nat) : (s.setF r lo w x u i).snaps = s.snaps := rfl
@[simp] theorem State.setF_saved (r : Reg) (lo w x u i : Nat) : (s.setF r lo w x u i).saved = s.saved := rfl
@[simp] theorem State.setF_mem (r : Reg) (lo w x u i : Nat) : (s.setF r lo w x u i).mem = s.mem := rfl
@[simp] theorem State.setF_rings (r : Reg) (lo w x u i : Nat) : (s.setF r lo w x u i).rings = s.rings := rfl

/-! `State.bump` -/

@[simp] theorem State.bump_pending (r : Reg) (n u i : Nat) : (s.bump r n u i).pending = s.pending := rfl
@[simp] theorem State.bump_out (r : Reg) (n u i : Nat) : (s.bump r n u i).out = s.out := rfl
@[simp] theorem State.bump_freeCtr (r : Reg) (n u i : Nat) : (s.bump r n u i).freeCtr = s.freeCtr := rfl
@[simp] theorem State.bump_part (r : Reg) (n u i : Nat) : (s.bump r n u i).part = s.part := rfl
@[simp] theorem State.bump_now (r : Reg) (n u i : Nat) : (s.bump r n u i).now = s.now := rfl
@[simp] theorem State.bump_aon (r : Reg) (n u i : Nat) : (s.bump r n u i).aon = s.aon := rfl
@[simp] theorem State.bump_boot (r : Reg) (n u i : Nat) : (s.bump r n u i).boot = s.boot := rfl
@[simp] theorem State.bump_mram (r : Reg) (n u i : Nat) : (s.bump r n u i).mram = s.mram := rfl
@[simp] theorem State.bump_tide (r : Reg) (n u i : Nat) : (s.bump r n u i).tide = s.tide := rfl
@[simp] theorem State.bump_pans (r : Reg) (n u i : Nat) : (s.bump r n u i).pans = s.pans := rfl
@[simp] theorem State.bump_cores (r : Reg) (n u i : Nat) : (s.bump r n u i).cores = s.cores := rfl
@[simp] theorem State.bump_clusters (r : Reg) (n u i : Nat) : (s.bump r n u i).clusters = s.clusters := rfl
@[simp] theorem State.bump_phys (r : Reg) (n u i : Nat) : (s.bump r n u i).phys = s.phys := rfl
@[simp] theorem State.bump_pool (r : Reg) (n u i : Nat) : (s.bump r n u i).pool = s.pool := rfl
@[simp] theorem State.bump_wgt (r : Reg) (n u i : Nat) : (s.bump r n u i).wgt = s.wgt := rfl
@[simp] theorem State.bump_qps (r : Reg) (n u i : Nat) : (s.bump r n u i).qps = s.qps := rfl
@[simp] theorem State.bump_srv (r : Reg) (n u i : Nat) : (s.bump r n u i).srv = s.srv := rfl
@[simp] theorem State.bump_shares (r : Reg) (n u i : Nat) : (s.bump r n u i).shares = s.shares := rfl
@[simp] theorem State.bump_stages (r : Reg) (n u i : Nat) : (s.bump r n u i).stages = s.stages := rfl
@[simp] theorem State.bump_plans (r : Reg) (n u i : Nat) : (s.bump r n u i).plans = s.plans := rfl
@[simp] theorem State.bump_fab (r : Reg) (n u i : Nat) : (s.bump r n u i).fab = s.fab := rfl
@[simp] theorem State.bump_hif (r : Reg) (n u i : Nat) : (s.bump r n u i).hif = s.hif := rfl
@[simp] theorem State.bump_sec (r : Reg) (n u i : Nat) : (s.bump r n u i).sec = s.sec := rfl
@[simp] theorem State.bump_hlt (r : Reg) (n u i : Nat) : (s.bump r n u i).hlt = s.hlt := rfl
@[simp] theorem State.bump_pwr (r : Reg) (n u i : Nat) : (s.bump r n u i).pwr = s.pwr := rfl
@[simp] theorem State.bump_evt (r : Reg) (n u i : Nat) : (s.bump r n u i).evt = s.evt := rfl
@[simp] theorem State.bump_snaps (r : Reg) (n u i : Nat) : (s.bump r n u i).snaps = s.snaps := rfl
@[simp] theorem State.bump_saved (r : Reg) (n u i : Nat) : (s.bump r n u i).saved = s.saved := rfl
@[simp] theorem State.bump_mem (r : Reg) (n u i : Nat) : (s.bump r n u i).mem = s.mem := rfl
@[simp] theorem State.bump_rings (r : Reg) (n u i : Nat) : (s.bump r n u i).rings = s.rings := rfl

/-! `State.bumpSat` -/

@[simp] theorem State.bumpSat_pending (r : Reg) (u : Nat) : (s.bumpSat r u).pending = s.pending := rfl
@[simp] theorem State.bumpSat_out (r : Reg) (u : Nat) : (s.bumpSat r u).out = s.out := rfl
@[simp] theorem State.bumpSat_freeCtr (r : Reg) (u : Nat) : (s.bumpSat r u).freeCtr = s.freeCtr := rfl
@[simp] theorem State.bumpSat_part (r : Reg) (u : Nat) : (s.bumpSat r u).part = s.part := rfl
@[simp] theorem State.bumpSat_now (r : Reg) (u : Nat) : (s.bumpSat r u).now = s.now := rfl
@[simp] theorem State.bumpSat_aon (r : Reg) (u : Nat) : (s.bumpSat r u).aon = s.aon := rfl
@[simp] theorem State.bumpSat_boot (r : Reg) (u : Nat) : (s.bumpSat r u).boot = s.boot := rfl
@[simp] theorem State.bumpSat_mram (r : Reg) (u : Nat) : (s.bumpSat r u).mram = s.mram := rfl
@[simp] theorem State.bumpSat_tide (r : Reg) (u : Nat) : (s.bumpSat r u).tide = s.tide := rfl
@[simp] theorem State.bumpSat_pans (r : Reg) (u : Nat) : (s.bumpSat r u).pans = s.pans := rfl
@[simp] theorem State.bumpSat_cores (r : Reg) (u : Nat) : (s.bumpSat r u).cores = s.cores := rfl
@[simp] theorem State.bumpSat_clusters (r : Reg) (u : Nat) : (s.bumpSat r u).clusters = s.clusters := rfl
@[simp] theorem State.bumpSat_phys (r : Reg) (u : Nat) : (s.bumpSat r u).phys = s.phys := rfl
@[simp] theorem State.bumpSat_pool (r : Reg) (u : Nat) : (s.bumpSat r u).pool = s.pool := rfl
@[simp] theorem State.bumpSat_wgt (r : Reg) (u : Nat) : (s.bumpSat r u).wgt = s.wgt := rfl
@[simp] theorem State.bumpSat_qps (r : Reg) (u : Nat) : (s.bumpSat r u).qps = s.qps := rfl
@[simp] theorem State.bumpSat_srv (r : Reg) (u : Nat) : (s.bumpSat r u).srv = s.srv := rfl
@[simp] theorem State.bumpSat_shares (r : Reg) (u : Nat) : (s.bumpSat r u).shares = s.shares := rfl
@[simp] theorem State.bumpSat_stages (r : Reg) (u : Nat) : (s.bumpSat r u).stages = s.stages := rfl
@[simp] theorem State.bumpSat_plans (r : Reg) (u : Nat) : (s.bumpSat r u).plans = s.plans := rfl
@[simp] theorem State.bumpSat_fab (r : Reg) (u : Nat) : (s.bumpSat r u).fab = s.fab := rfl
@[simp] theorem State.bumpSat_hif (r : Reg) (u : Nat) : (s.bumpSat r u).hif = s.hif := rfl
@[simp] theorem State.bumpSat_sec (r : Reg) (u : Nat) : (s.bumpSat r u).sec = s.sec := rfl
@[simp] theorem State.bumpSat_hlt (r : Reg) (u : Nat) : (s.bumpSat r u).hlt = s.hlt := rfl
@[simp] theorem State.bumpSat_pwr (r : Reg) (u : Nat) : (s.bumpSat r u).pwr = s.pwr := rfl
@[simp] theorem State.bumpSat_evt (r : Reg) (u : Nat) : (s.bumpSat r u).evt = s.evt := rfl
@[simp] theorem State.bumpSat_snaps (r : Reg) (u : Nat) : (s.bumpSat r u).snaps = s.snaps := rfl
@[simp] theorem State.bumpSat_saved (r : Reg) (u : Nat) : (s.bumpSat r u).saved = s.saved := rfl
@[simp] theorem State.bumpSat_mem (r : Reg) (u : Nat) : (s.bumpSat r u).mem = s.mem := rfl
@[simp] theorem State.bumpSat_rings (r : Reg) (u : Nat) : (s.bumpSat r u).rings = s.rings := rfl

/-! `State.tick` -/

@[simp] theorem State.tick_pending : (s.tick).pending = s.pending := rfl
@[simp] theorem State.tick_out : (s.tick).out = s.out := rfl
@[simp] theorem State.tick_freeCtr : (s.tick).freeCtr = s.freeCtr + 1 := rfl
@[simp] theorem State.tick_part : (s.tick).part = s.part := rfl
@[simp] theorem State.tick_now : (s.tick).now = s.now := rfl
@[simp] theorem State.tick_regs : (s.tick).regs = s.regs := rfl
@[simp] theorem State.tick_aon : (s.tick).aon = s.aon := rfl
@[simp] theorem State.tick_boot : (s.tick).boot = s.boot := rfl
@[simp] theorem State.tick_mram : (s.tick).mram = s.mram := rfl
@[simp] theorem State.tick_tide : (s.tick).tide = s.tide := rfl
@[simp] theorem State.tick_pans : (s.tick).pans = s.pans := rfl
@[simp] theorem State.tick_cores : (s.tick).cores = s.cores := rfl
@[simp] theorem State.tick_clusters : (s.tick).clusters = s.clusters := rfl
@[simp] theorem State.tick_phys : (s.tick).phys = s.phys := rfl
@[simp] theorem State.tick_pool : (s.tick).pool = s.pool := rfl
@[simp] theorem State.tick_wgt : (s.tick).wgt = s.wgt := rfl
@[simp] theorem State.tick_qps : (s.tick).qps = s.qps := rfl
@[simp] theorem State.tick_srv : (s.tick).srv = s.srv := rfl
@[simp] theorem State.tick_shares : (s.tick).shares = s.shares := rfl
@[simp] theorem State.tick_stages : (s.tick).stages = s.stages := rfl
@[simp] theorem State.tick_plans : (s.tick).plans = s.plans := rfl
@[simp] theorem State.tick_fab : (s.tick).fab = s.fab := rfl
@[simp] theorem State.tick_hif : (s.tick).hif = s.hif := rfl
@[simp] theorem State.tick_sec : (s.tick).sec = s.sec := rfl
@[simp] theorem State.tick_hlt : (s.tick).hlt = s.hlt := rfl
@[simp] theorem State.tick_pwr : (s.tick).pwr = s.pwr := rfl
@[simp] theorem State.tick_evt : (s.tick).evt = s.evt := rfl
@[simp] theorem State.tick_snaps : (s.tick).snaps = s.snaps := rfl
@[simp] theorem State.tick_saved : (s.tick).saved = s.saved := rfl
@[simp] theorem State.tick_mem : (s.tick).mem = s.mem := rfl
@[simp] theorem State.tick_rings : (s.tick).rings = s.rings := rfl

/-! `State.emit` -/

@[simp] theorem State.emit_pending (o : Output) : (s.emit o).pending = s.pending := rfl
@[simp] theorem State.emit_out (o : Output) : (s.emit o).out = s.out ++ [o] := rfl
@[simp] theorem State.emit_freeCtr (o : Output) : (s.emit o).freeCtr = s.freeCtr := rfl
@[simp] theorem State.emit_part (o : Output) : (s.emit o).part = s.part := rfl
@[simp] theorem State.emit_now (o : Output) : (s.emit o).now = s.now := rfl
@[simp] theorem State.emit_regs (o : Output) : (s.emit o).regs = s.regs := rfl
@[simp] theorem State.emit_aon (o : Output) : (s.emit o).aon = s.aon := rfl
@[simp] theorem State.emit_boot (o : Output) : (s.emit o).boot = s.boot := rfl
@[simp] theorem State.emit_mram (o : Output) : (s.emit o).mram = s.mram := rfl
@[simp] theorem State.emit_tide (o : Output) : (s.emit o).tide = s.tide := rfl
@[simp] theorem State.emit_pans (o : Output) : (s.emit o).pans = s.pans := rfl
@[simp] theorem State.emit_cores (o : Output) : (s.emit o).cores = s.cores := rfl
@[simp] theorem State.emit_clusters (o : Output) : (s.emit o).clusters = s.clusters := rfl
@[simp] theorem State.emit_phys (o : Output) : (s.emit o).phys = s.phys := rfl
@[simp] theorem State.emit_pool (o : Output) : (s.emit o).pool = s.pool := rfl
@[simp] theorem State.emit_wgt (o : Output) : (s.emit o).wgt = s.wgt := rfl
@[simp] theorem State.emit_qps (o : Output) : (s.emit o).qps = s.qps := rfl
@[simp] theorem State.emit_srv (o : Output) : (s.emit o).srv = s.srv := rfl
@[simp] theorem State.emit_shares (o : Output) : (s.emit o).shares = s.shares := rfl
@[simp] theorem State.emit_stages (o : Output) : (s.emit o).stages = s.stages := rfl
@[simp] theorem State.emit_plans (o : Output) : (s.emit o).plans = s.plans := rfl
@[simp] theorem State.emit_fab (o : Output) : (s.emit o).fab = s.fab := rfl
@[simp] theorem State.emit_hif (o : Output) : (s.emit o).hif = s.hif := rfl
@[simp] theorem State.emit_sec (o : Output) : (s.emit o).sec = s.sec := rfl
@[simp] theorem State.emit_hlt (o : Output) : (s.emit o).hlt = s.hlt := rfl
@[simp] theorem State.emit_pwr (o : Output) : (s.emit o).pwr = s.pwr := rfl
@[simp] theorem State.emit_evt (o : Output) : (s.emit o).evt = s.evt := rfl
@[simp] theorem State.emit_snaps (o : Output) : (s.emit o).snaps = s.snaps := rfl
@[simp] theorem State.emit_saved (o : Output) : (s.emit o).saved = s.saved := rfl
@[simp] theorem State.emit_mem (o : Output) : (s.emit o).mem = s.mem := rfl
@[simp] theorem State.emit_rings (o : Output) : (s.emit o).rings = s.rings := rfl

/-! `State.event` -/

@[simp] theorem State.event_pending (code src p0 p1 p2 p3 flags : Nat) : (s.event code src p0 p1 p2 p3 flags).pending = s.pending := rfl
@[simp] theorem State.event_out (code src p0 p1 p2 p3 flags : Nat) : (s.event code src p0 p1 p2 p3 flags).out = s.out := rfl
@[simp] theorem State.event_freeCtr (code src p0 p1 p2 p3 flags : Nat) : (s.event code src p0 p1 p2 p3 flags).freeCtr = s.freeCtr := rfl
@[simp] theorem State.event_part (code src p0 p1 p2 p3 flags : Nat) : (s.event code src p0 p1 p2 p3 flags).part = s.part := rfl
@[simp] theorem State.event_now (code src p0 p1 p2 p3 flags : Nat) : (s.event code src p0 p1 p2 p3 flags).now = s.now := rfl
@[simp] theorem State.event_regs (code src p0 p1 p2 p3 flags : Nat) : (s.event code src p0 p1 p2 p3 flags).regs = s.regs := rfl
@[simp] theorem State.event_aon (code src p0 p1 p2 p3 flags : Nat) : (s.event code src p0 p1 p2 p3 flags).aon = s.aon := rfl
@[simp] theorem State.event_boot (code src p0 p1 p2 p3 flags : Nat) : (s.event code src p0 p1 p2 p3 flags).boot = s.boot := rfl
@[simp] theorem State.event_mram (code src p0 p1 p2 p3 flags : Nat) : (s.event code src p0 p1 p2 p3 flags).mram = s.mram := rfl
@[simp] theorem State.event_tide (code src p0 p1 p2 p3 flags : Nat) : (s.event code src p0 p1 p2 p3 flags).tide = s.tide := rfl
@[simp] theorem State.event_pans (code src p0 p1 p2 p3 flags : Nat) : (s.event code src p0 p1 p2 p3 flags).pans = s.pans := rfl
@[simp] theorem State.event_cores (code src p0 p1 p2 p3 flags : Nat) : (s.event code src p0 p1 p2 p3 flags).cores = s.cores := rfl
@[simp] theorem State.event_clusters (code src p0 p1 p2 p3 flags : Nat) : (s.event code src p0 p1 p2 p3 flags).clusters = s.clusters := rfl
@[simp] theorem State.event_phys (code src p0 p1 p2 p3 flags : Nat) : (s.event code src p0 p1 p2 p3 flags).phys = s.phys := rfl
@[simp] theorem State.event_pool (code src p0 p1 p2 p3 flags : Nat) : (s.event code src p0 p1 p2 p3 flags).pool = s.pool := rfl
@[simp] theorem State.event_wgt (code src p0 p1 p2 p3 flags : Nat) : (s.event code src p0 p1 p2 p3 flags).wgt = s.wgt := rfl
@[simp] theorem State.event_qps (code src p0 p1 p2 p3 flags : Nat) : (s.event code src p0 p1 p2 p3 flags).qps = s.qps := rfl
@[simp] theorem State.event_srv (code src p0 p1 p2 p3 flags : Nat) : (s.event code src p0 p1 p2 p3 flags).srv = s.srv := rfl
@[simp] theorem State.event_shares (code src p0 p1 p2 p3 flags : Nat) : (s.event code src p0 p1 p2 p3 flags).shares = s.shares := rfl
@[simp] theorem State.event_stages (code src p0 p1 p2 p3 flags : Nat) : (s.event code src p0 p1 p2 p3 flags).stages = s.stages := rfl
@[simp] theorem State.event_plans (code src p0 p1 p2 p3 flags : Nat) : (s.event code src p0 p1 p2 p3 flags).plans = s.plans := rfl
@[simp] theorem State.event_fab (code src p0 p1 p2 p3 flags : Nat) : (s.event code src p0 p1 p2 p3 flags).fab = s.fab := rfl
@[simp] theorem State.event_hif (code src p0 p1 p2 p3 flags : Nat) : (s.event code src p0 p1 p2 p3 flags).hif = s.hif := rfl
@[simp] theorem State.event_sec (code src p0 p1 p2 p3 flags : Nat) : (s.event code src p0 p1 p2 p3 flags).sec = s.sec := rfl
@[simp] theorem State.event_hlt (code src p0 p1 p2 p3 flags : Nat) : (s.event code src p0 p1 p2 p3 flags).hlt = s.hlt := rfl
@[simp] theorem State.event_pwr (code src p0 p1 p2 p3 flags : Nat) : (s.event code src p0 p1 p2 p3 flags).pwr = s.pwr := rfl
@[simp] theorem State.event_snaps (code src p0 p1 p2 p3 flags : Nat) : (s.event code src p0 p1 p2 p3 flags).snaps = s.snaps := rfl
@[simp] theorem State.event_saved (code src p0 p1 p2 p3 flags : Nat) : (s.event code src p0 p1 p2 p3 flags).saved = s.saved := rfl
@[simp] theorem State.event_mem (code src p0 p1 p2 p3 flags : Nat) : (s.event code src p0 p1 p2 p3 flags).mem = s.mem := rfl
@[simp] theorem State.event_rings (code src p0 p1 p2 p3 flags : Nat) : (s.event code src p0 p1 p2 p3 flags).rings = s.rings := rfl

/-! `State.setMsix` -/

@[simp] theorem State.setMsix_pending (fn v : Nat) (e : MsixEntry) : (s.setMsix fn v e).pending = s.pending := rfl
@[simp] theorem State.setMsix_out (fn v : Nat) (e : MsixEntry) : (s.setMsix fn v e).out = s.out := rfl
@[simp] theorem State.setMsix_freeCtr (fn v : Nat) (e : MsixEntry) : (s.setMsix fn v e).freeCtr = s.freeCtr := rfl
@[simp] theorem State.setMsix_part (fn v : Nat) (e : MsixEntry) : (s.setMsix fn v e).part = s.part := rfl
@[simp] theorem State.setMsix_now (fn v : Nat) (e : MsixEntry) : (s.setMsix fn v e).now = s.now := rfl
@[simp] theorem State.setMsix_regs (fn v : Nat) (e : MsixEntry) : (s.setMsix fn v e).regs = s.regs := rfl
@[simp] theorem State.setMsix_aon (fn v : Nat) (e : MsixEntry) : (s.setMsix fn v e).aon = s.aon := rfl
@[simp] theorem State.setMsix_boot (fn v : Nat) (e : MsixEntry) : (s.setMsix fn v e).boot = s.boot := rfl
@[simp] theorem State.setMsix_mram (fn v : Nat) (e : MsixEntry) : (s.setMsix fn v e).mram = s.mram := rfl
@[simp] theorem State.setMsix_tide (fn v : Nat) (e : MsixEntry) : (s.setMsix fn v e).tide = s.tide := rfl
@[simp] theorem State.setMsix_pans (fn v : Nat) (e : MsixEntry) : (s.setMsix fn v e).pans = s.pans := rfl
@[simp] theorem State.setMsix_cores (fn v : Nat) (e : MsixEntry) : (s.setMsix fn v e).cores = s.cores := rfl
@[simp] theorem State.setMsix_clusters (fn v : Nat) (e : MsixEntry) : (s.setMsix fn v e).clusters = s.clusters := rfl
@[simp] theorem State.setMsix_phys (fn v : Nat) (e : MsixEntry) : (s.setMsix fn v e).phys = s.phys := rfl
@[simp] theorem State.setMsix_pool (fn v : Nat) (e : MsixEntry) : (s.setMsix fn v e).pool = s.pool := rfl
@[simp] theorem State.setMsix_wgt (fn v : Nat) (e : MsixEntry) : (s.setMsix fn v e).wgt = s.wgt := rfl
@[simp] theorem State.setMsix_qps (fn v : Nat) (e : MsixEntry) : (s.setMsix fn v e).qps = s.qps := rfl
@[simp] theorem State.setMsix_srv (fn v : Nat) (e : MsixEntry) : (s.setMsix fn v e).srv = s.srv := rfl
@[simp] theorem State.setMsix_shares (fn v : Nat) (e : MsixEntry) : (s.setMsix fn v e).shares = s.shares := rfl
@[simp] theorem State.setMsix_stages (fn v : Nat) (e : MsixEntry) : (s.setMsix fn v e).stages = s.stages := rfl
@[simp] theorem State.setMsix_plans (fn v : Nat) (e : MsixEntry) : (s.setMsix fn v e).plans = s.plans := rfl
@[simp] theorem State.setMsix_fab (fn v : Nat) (e : MsixEntry) : (s.setMsix fn v e).fab = s.fab := rfl
@[simp] theorem State.setMsix_sec (fn v : Nat) (e : MsixEntry) : (s.setMsix fn v e).sec = s.sec := rfl
@[simp] theorem State.setMsix_hlt (fn v : Nat) (e : MsixEntry) : (s.setMsix fn v e).hlt = s.hlt := rfl
@[simp] theorem State.setMsix_pwr (fn v : Nat) (e : MsixEntry) : (s.setMsix fn v e).pwr = s.pwr := rfl
@[simp] theorem State.setMsix_evt (fn v : Nat) (e : MsixEntry) : (s.setMsix fn v e).evt = s.evt := rfl
@[simp] theorem State.setMsix_snaps (fn v : Nat) (e : MsixEntry) : (s.setMsix fn v e).snaps = s.snaps := rfl
@[simp] theorem State.setMsix_saved (fn v : Nat) (e : MsixEntry) : (s.setMsix fn v e).saved = s.saved := rfl
@[simp] theorem State.setMsix_mem (fn v : Nat) (e : MsixEntry) : (s.setMsix fn v e).mem = s.mem := rfl
@[simp] theorem State.setMsix_rings (fn v : Nat) (e : MsixEntry) : (s.setMsix fn v e).rings = s.rings := rfl

/-! `State.shutRecord` -/

@[simp] theorem State.shutRecord_pending (reason : Nat) : (s.shutRecord reason).pending = s.pending := rfl
@[simp] theorem State.shutRecord_out (reason : Nat) : (s.shutRecord reason).out = s.out := rfl
@[simp] theorem State.shutRecord_freeCtr (reason : Nat) : (s.shutRecord reason).freeCtr = s.freeCtr := rfl
@[simp] theorem State.shutRecord_part (reason : Nat) : (s.shutRecord reason).part = s.part := rfl
@[simp] theorem State.shutRecord_now (reason : Nat) : (s.shutRecord reason).now = s.now := rfl
@[simp] theorem State.shutRecord_regs (reason : Nat) : (s.shutRecord reason).regs = s.regs := rfl
@[simp] theorem State.shutRecord_aon (reason : Nat) : (s.shutRecord reason).aon = s.aon := rfl
@[simp] theorem State.shutRecord_boot (reason : Nat) : (s.shutRecord reason).boot = s.boot := rfl
@[simp] theorem State.shutRecord_tide (reason : Nat) : (s.shutRecord reason).tide = s.tide := rfl
@[simp] theorem State.shutRecord_pans (reason : Nat) : (s.shutRecord reason).pans = s.pans := rfl
@[simp] theorem State.shutRecord_cores (reason : Nat) : (s.shutRecord reason).cores = s.cores := rfl
@[simp] theorem State.shutRecord_clusters (reason : Nat) : (s.shutRecord reason).clusters = s.clusters := rfl
@[simp] theorem State.shutRecord_phys (reason : Nat) : (s.shutRecord reason).phys = s.phys := rfl
@[simp] theorem State.shutRecord_pool (reason : Nat) : (s.shutRecord reason).pool = s.pool := rfl
@[simp] theorem State.shutRecord_wgt (reason : Nat) : (s.shutRecord reason).wgt = s.wgt := rfl
@[simp] theorem State.shutRecord_qps (reason : Nat) : (s.shutRecord reason).qps = s.qps := rfl
@[simp] theorem State.shutRecord_srv (reason : Nat) : (s.shutRecord reason).srv = s.srv := rfl
@[simp] theorem State.shutRecord_shares (reason : Nat) : (s.shutRecord reason).shares = s.shares := rfl
@[simp] theorem State.shutRecord_stages (reason : Nat) : (s.shutRecord reason).stages = s.stages := rfl
@[simp] theorem State.shutRecord_plans (reason : Nat) : (s.shutRecord reason).plans = s.plans := rfl
@[simp] theorem State.shutRecord_fab (reason : Nat) : (s.shutRecord reason).fab = s.fab := rfl
@[simp] theorem State.shutRecord_hif (reason : Nat) : (s.shutRecord reason).hif = s.hif := rfl
@[simp] theorem State.shutRecord_sec (reason : Nat) : (s.shutRecord reason).sec = s.sec := rfl
@[simp] theorem State.shutRecord_hlt (reason : Nat) : (s.shutRecord reason).hlt = s.hlt := rfl
@[simp] theorem State.shutRecord_pwr (reason : Nat) : (s.shutRecord reason).pwr = s.pwr := rfl
@[simp] theorem State.shutRecord_evt (reason : Nat) : (s.shutRecord reason).evt = s.evt := rfl
@[simp] theorem State.shutRecord_snaps (reason : Nat) : (s.shutRecord reason).snaps = s.snaps := rfl
@[simp] theorem State.shutRecord_saved (reason : Nat) : (s.shutRecord reason).saved = s.saved := rfl
@[simp] theorem State.shutRecord_mem (reason : Nat) : (s.shutRecord reason).mem = s.mem := rfl
@[simp] theorem State.shutRecord_rings (reason : Nat) : (s.shutRecord reason).rings = s.rings := rfl

/-! `State.updQp` -/

@[simp] theorem State.updQp_pending (q : Nat) (f : Qp → Qp) : (s.updQp q f).pending = s.pending := rfl
@[simp] theorem State.updQp_out (q : Nat) (f : Qp → Qp) : (s.updQp q f).out = s.out := rfl
@[simp] theorem State.updQp_freeCtr (q : Nat) (f : Qp → Qp) : (s.updQp q f).freeCtr = s.freeCtr := rfl
@[simp] theorem State.updQp_part (q : Nat) (f : Qp → Qp) : (s.updQp q f).part = s.part := rfl
@[simp] theorem State.updQp_now (q : Nat) (f : Qp → Qp) : (s.updQp q f).now = s.now := rfl
@[simp] theorem State.updQp_regs (q : Nat) (f : Qp → Qp) : (s.updQp q f).regs = s.regs := rfl
@[simp] theorem State.updQp_aon (q : Nat) (f : Qp → Qp) : (s.updQp q f).aon = s.aon := rfl
@[simp] theorem State.updQp_boot (q : Nat) (f : Qp → Qp) : (s.updQp q f).boot = s.boot := rfl
@[simp] theorem State.updQp_mram (q : Nat) (f : Qp → Qp) : (s.updQp q f).mram = s.mram := rfl
@[simp] theorem State.updQp_tide (q : Nat) (f : Qp → Qp) : (s.updQp q f).tide = s.tide := rfl
@[simp] theorem State.updQp_pans (q : Nat) (f : Qp → Qp) : (s.updQp q f).pans = s.pans := rfl
@[simp] theorem State.updQp_cores (q : Nat) (f : Qp → Qp) : (s.updQp q f).cores = s.cores := rfl
@[simp] theorem State.updQp_clusters (q : Nat) (f : Qp → Qp) : (s.updQp q f).clusters = s.clusters := rfl
@[simp] theorem State.updQp_phys (q : Nat) (f : Qp → Qp) : (s.updQp q f).phys = s.phys := rfl
@[simp] theorem State.updQp_pool (q : Nat) (f : Qp → Qp) : (s.updQp q f).pool = s.pool := rfl
@[simp] theorem State.updQp_wgt (q : Nat) (f : Qp → Qp) : (s.updQp q f).wgt = s.wgt := rfl
@[simp] theorem State.updQp_qps (q : Nat) (f : Qp → Qp) : (s.updQp q f).qps = s.qps.upd q f := rfl
@[simp] theorem State.updQp_srv (q : Nat) (f : Qp → Qp) : (s.updQp q f).srv = s.srv := rfl
@[simp] theorem State.updQp_shares (q : Nat) (f : Qp → Qp) : (s.updQp q f).shares = s.shares := rfl
@[simp] theorem State.updQp_stages (q : Nat) (f : Qp → Qp) : (s.updQp q f).stages = s.stages := rfl
@[simp] theorem State.updQp_plans (q : Nat) (f : Qp → Qp) : (s.updQp q f).plans = s.plans := rfl
@[simp] theorem State.updQp_fab (q : Nat) (f : Qp → Qp) : (s.updQp q f).fab = s.fab := rfl
@[simp] theorem State.updQp_hif (q : Nat) (f : Qp → Qp) : (s.updQp q f).hif = s.hif := rfl
@[simp] theorem State.updQp_sec (q : Nat) (f : Qp → Qp) : (s.updQp q f).sec = s.sec := rfl
@[simp] theorem State.updQp_hlt (q : Nat) (f : Qp → Qp) : (s.updQp q f).hlt = s.hlt := rfl
@[simp] theorem State.updQp_pwr (q : Nat) (f : Qp → Qp) : (s.updQp q f).pwr = s.pwr := rfl
@[simp] theorem State.updQp_evt (q : Nat) (f : Qp → Qp) : (s.updQp q f).evt = s.evt := rfl
@[simp] theorem State.updQp_snaps (q : Nat) (f : Qp → Qp) : (s.updQp q f).snaps = s.snaps := rfl
@[simp] theorem State.updQp_saved (q : Nat) (f : Qp → Qp) : (s.updQp q f).saved = s.saved := rfl
@[simp] theorem State.updQp_mem (q : Nat) (f : Qp → Qp) : (s.updQp q f).mem = s.mem := rfl
@[simp] theorem State.updQp_rings (q : Nat) (f : Qp → Qp) : (s.updQp q f).rings = s.rings := rfl

/-! `State.updSess` -/

@[simp] theorem State.updSess_pending (q : Nat) (f : Session → Session) : (s.updSess q f).pending = s.pending := rfl
@[simp] theorem State.updSess_out (q : Nat) (f : Session → Session) : (s.updSess q f).out = s.out := rfl
@[simp] theorem State.updSess_freeCtr (q : Nat) (f : Session → Session) : (s.updSess q f).freeCtr = s.freeCtr := rfl
@[simp] theorem State.updSess_part (q : Nat) (f : Session → Session) : (s.updSess q f).part = s.part := rfl
@[simp] theorem State.updSess_now (q : Nat) (f : Session → Session) : (s.updSess q f).now = s.now := rfl
@[simp] theorem State.updSess_regs (q : Nat) (f : Session → Session) : (s.updSess q f).regs = s.regs := rfl
@[simp] theorem State.updSess_aon (q : Nat) (f : Session → Session) : (s.updSess q f).aon = s.aon := rfl
@[simp] theorem State.updSess_boot (q : Nat) (f : Session → Session) : (s.updSess q f).boot = s.boot := rfl
@[simp] theorem State.updSess_mram (q : Nat) (f : Session → Session) : (s.updSess q f).mram = s.mram := rfl
@[simp] theorem State.updSess_tide (q : Nat) (f : Session → Session) : (s.updSess q f).tide = s.tide := rfl
@[simp] theorem State.updSess_pans (q : Nat) (f : Session → Session) : (s.updSess q f).pans = s.pans := rfl
@[simp] theorem State.updSess_cores (q : Nat) (f : Session → Session) : (s.updSess q f).cores = s.cores := rfl
@[simp] theorem State.updSess_clusters (q : Nat) (f : Session → Session) : (s.updSess q f).clusters = s.clusters := rfl
@[simp] theorem State.updSess_phys (q : Nat) (f : Session → Session) : (s.updSess q f).phys = s.phys := rfl
@[simp] theorem State.updSess_pool (q : Nat) (f : Session → Session) : (s.updSess q f).pool = s.pool := rfl
@[simp] theorem State.updSess_wgt (q : Nat) (f : Session → Session) : (s.updSess q f).wgt = s.wgt := rfl
@[simp] theorem State.updSess_srv (q : Nat) (f : Session → Session) : (s.updSess q f).srv = s.srv := rfl
@[simp] theorem State.updSess_shares (q : Nat) (f : Session → Session) : (s.updSess q f).shares = s.shares := rfl
@[simp] theorem State.updSess_stages (q : Nat) (f : Session → Session) : (s.updSess q f).stages = s.stages := rfl
@[simp] theorem State.updSess_plans (q : Nat) (f : Session → Session) : (s.updSess q f).plans = s.plans := rfl
@[simp] theorem State.updSess_fab (q : Nat) (f : Session → Session) : (s.updSess q f).fab = s.fab := rfl
@[simp] theorem State.updSess_hif (q : Nat) (f : Session → Session) : (s.updSess q f).hif = s.hif := rfl
@[simp] theorem State.updSess_sec (q : Nat) (f : Session → Session) : (s.updSess q f).sec = s.sec := rfl
@[simp] theorem State.updSess_hlt (q : Nat) (f : Session → Session) : (s.updSess q f).hlt = s.hlt := rfl
@[simp] theorem State.updSess_pwr (q : Nat) (f : Session → Session) : (s.updSess q f).pwr = s.pwr := rfl
@[simp] theorem State.updSess_evt (q : Nat) (f : Session → Session) : (s.updSess q f).evt = s.evt := rfl
@[simp] theorem State.updSess_snaps (q : Nat) (f : Session → Session) : (s.updSess q f).snaps = s.snaps := rfl
@[simp] theorem State.updSess_saved (q : Nat) (f : Session → Session) : (s.updSess q f).saved = s.saved := rfl
@[simp] theorem State.updSess_mem (q : Nat) (f : Session → Session) : (s.updSess q f).mem = s.mem := rfl
@[simp] theorem State.updSess_rings (q : Nat) (f : Session → Session) : (s.updSess q f).rings = s.rings := rfl

/-! `State.setShare` -/

@[simp] theorem State.setShare_pending (fn : Nat) (x : Share) : (s.setShare fn x).pending = s.pending := rfl
@[simp] theorem State.setShare_out (fn : Nat) (x : Share) : (s.setShare fn x).out = s.out := rfl
@[simp] theorem State.setShare_freeCtr (fn : Nat) (x : Share) : (s.setShare fn x).freeCtr = s.freeCtr := rfl
@[simp] theorem State.setShare_part (fn : Nat) (x : Share) : (s.setShare fn x).part = s.part := rfl
@[simp] theorem State.setShare_now (fn : Nat) (x : Share) : (s.setShare fn x).now = s.now := rfl
@[simp] theorem State.setShare_regs (fn : Nat) (x : Share) : (s.setShare fn x).regs = s.regs := rfl
@[simp] theorem State.setShare_aon (fn : Nat) (x : Share) : (s.setShare fn x).aon = s.aon := rfl
@[simp] theorem State.setShare_boot (fn : Nat) (x : Share) : (s.setShare fn x).boot = s.boot := rfl
@[simp] theorem State.setShare_mram (fn : Nat) (x : Share) : (s.setShare fn x).mram = s.mram := rfl
@[simp] theorem State.setShare_tide (fn : Nat) (x : Share) : (s.setShare fn x).tide = s.tide := rfl
@[simp] theorem State.setShare_pans (fn : Nat) (x : Share) : (s.setShare fn x).pans = s.pans := rfl
@[simp] theorem State.setShare_cores (fn : Nat) (x : Share) : (s.setShare fn x).cores = s.cores := rfl
@[simp] theorem State.setShare_clusters (fn : Nat) (x : Share) : (s.setShare fn x).clusters = s.clusters := rfl
@[simp] theorem State.setShare_phys (fn : Nat) (x : Share) : (s.setShare fn x).phys = s.phys := rfl
@[simp] theorem State.setShare_pool (fn : Nat) (x : Share) : (s.setShare fn x).pool = s.pool := rfl
@[simp] theorem State.setShare_wgt (fn : Nat) (x : Share) : (s.setShare fn x).wgt = s.wgt := rfl
@[simp] theorem State.setShare_qps (fn : Nat) (x : Share) : (s.setShare fn x).qps = s.qps := rfl
@[simp] theorem State.setShare_srv (fn : Nat) (x : Share) : (s.setShare fn x).srv = s.srv := rfl
@[simp] theorem State.setShare_stages (fn : Nat) (x : Share) : (s.setShare fn x).stages = s.stages := rfl
@[simp] theorem State.setShare_plans (fn : Nat) (x : Share) : (s.setShare fn x).plans = s.plans := rfl
@[simp] theorem State.setShare_fab (fn : Nat) (x : Share) : (s.setShare fn x).fab = s.fab := rfl
@[simp] theorem State.setShare_hif (fn : Nat) (x : Share) : (s.setShare fn x).hif = s.hif := rfl
@[simp] theorem State.setShare_sec (fn : Nat) (x : Share) : (s.setShare fn x).sec = s.sec := rfl
@[simp] theorem State.setShare_hlt (fn : Nat) (x : Share) : (s.setShare fn x).hlt = s.hlt := rfl
@[simp] theorem State.setShare_pwr (fn : Nat) (x : Share) : (s.setShare fn x).pwr = s.pwr := rfl
@[simp] theorem State.setShare_evt (fn : Nat) (x : Share) : (s.setShare fn x).evt = s.evt := rfl
@[simp] theorem State.setShare_snaps (fn : Nat) (x : Share) : (s.setShare fn x).snaps = s.snaps := rfl
@[simp] theorem State.setShare_saved (fn : Nat) (x : Share) : (s.setShare fn x).saved = s.saved := rfl
@[simp] theorem State.setShare_mem (fn : Nat) (x : Share) : (s.setShare fn x).mem = s.mem := rfl
@[simp] theorem State.setShare_rings (fn : Nat) (x : Share) : (s.setShare fn x).rings = s.rings := rfl

/-! `State.updPhys` -/

@[simp] theorem State.updPhys_pending (p : Nat) (f : Phys → Phys) : (s.updPhys p f).pending = s.pending := rfl
@[simp] theorem State.updPhys_out (p : Nat) (f : Phys → Phys) : (s.updPhys p f).out = s.out := rfl
@[simp] theorem State.updPhys_freeCtr (p : Nat) (f : Phys → Phys) : (s.updPhys p f).freeCtr = s.freeCtr := rfl
@[simp] theorem State.updPhys_part (p : Nat) (f : Phys → Phys) : (s.updPhys p f).part = s.part := rfl
@[simp] theorem State.updPhys_now (p : Nat) (f : Phys → Phys) : (s.updPhys p f).now = s.now := rfl
@[simp] theorem State.updPhys_regs (p : Nat) (f : Phys → Phys) : (s.updPhys p f).regs = s.regs := rfl
@[simp] theorem State.updPhys_aon (p : Nat) (f : Phys → Phys) : (s.updPhys p f).aon = s.aon := rfl
@[simp] theorem State.updPhys_boot (p : Nat) (f : Phys → Phys) : (s.updPhys p f).boot = s.boot := rfl
@[simp] theorem State.updPhys_mram (p : Nat) (f : Phys → Phys) : (s.updPhys p f).mram = s.mram := rfl
@[simp] theorem State.updPhys_tide (p : Nat) (f : Phys → Phys) : (s.updPhys p f).tide = s.tide := rfl
@[simp] theorem State.updPhys_pans (p : Nat) (f : Phys → Phys) : (s.updPhys p f).pans = s.pans := rfl
@[simp] theorem State.updPhys_cores (p : Nat) (f : Phys → Phys) : (s.updPhys p f).cores = s.cores := rfl
@[simp] theorem State.updPhys_clusters (p : Nat) (f : Phys → Phys) : (s.updPhys p f).clusters = s.clusters := rfl
@[simp] theorem State.updPhys_phys (p : Nat) (f : Phys → Phys) : (s.updPhys p f).phys = s.phys.upd p f := rfl
@[simp] theorem State.updPhys_pool (p : Nat) (f : Phys → Phys) : (s.updPhys p f).pool = s.pool := rfl
@[simp] theorem State.updPhys_wgt (p : Nat) (f : Phys → Phys) : (s.updPhys p f).wgt = s.wgt := rfl
@[simp] theorem State.updPhys_qps (p : Nat) (f : Phys → Phys) : (s.updPhys p f).qps = s.qps := rfl
@[simp] theorem State.updPhys_srv (p : Nat) (f : Phys → Phys) : (s.updPhys p f).srv = s.srv := rfl
@[simp] theorem State.updPhys_shares (p : Nat) (f : Phys → Phys) : (s.updPhys p f).shares = s.shares := rfl
@[simp] theorem State.updPhys_stages (p : Nat) (f : Phys → Phys) : (s.updPhys p f).stages = s.stages := rfl
@[simp] theorem State.updPhys_plans (p : Nat) (f : Phys → Phys) : (s.updPhys p f).plans = s.plans := rfl
@[simp] theorem State.updPhys_fab (p : Nat) (f : Phys → Phys) : (s.updPhys p f).fab = s.fab := rfl
@[simp] theorem State.updPhys_hif (p : Nat) (f : Phys → Phys) : (s.updPhys p f).hif = s.hif := rfl
@[simp] theorem State.updPhys_sec (p : Nat) (f : Phys → Phys) : (s.updPhys p f).sec = s.sec := rfl
@[simp] theorem State.updPhys_hlt (p : Nat) (f : Phys → Phys) : (s.updPhys p f).hlt = s.hlt := rfl
@[simp] theorem State.updPhys_pwr (p : Nat) (f : Phys → Phys) : (s.updPhys p f).pwr = s.pwr := rfl
@[simp] theorem State.updPhys_evt (p : Nat) (f : Phys → Phys) : (s.updPhys p f).evt = s.evt := rfl
@[simp] theorem State.updPhys_snaps (p : Nat) (f : Phys → Phys) : (s.updPhys p f).snaps = s.snaps := rfl
@[simp] theorem State.updPhys_saved (p : Nat) (f : Phys → Phys) : (s.updPhys p f).saved = s.saved := rfl
@[simp] theorem State.updPhys_mem (p : Nat) (f : Phys → Phys) : (s.updPhys p f).mem = s.mem := rfl
@[simp] theorem State.updPhys_rings (p : Nat) (f : Phys → Phys) : (s.updPhys p f).rings = s.rings := rfl

/-! `State.setRing` -/

@[simp] theorem State.setRing_pending (a : Nat) (b : Byte) : (s.setRing a b).pending = s.pending := rfl
@[simp] theorem State.setRing_out (a : Nat) (b : Byte) : (s.setRing a b).out = s.out := rfl
@[simp] theorem State.setRing_freeCtr (a : Nat) (b : Byte) : (s.setRing a b).freeCtr = s.freeCtr := rfl
@[simp] theorem State.setRing_part (a : Nat) (b : Byte) : (s.setRing a b).part = s.part := rfl
@[simp] theorem State.setRing_now (a : Nat) (b : Byte) : (s.setRing a b).now = s.now := rfl
@[simp] theorem State.setRing_regs (a : Nat) (b : Byte) : (s.setRing a b).regs = s.regs := rfl
@[simp] theorem State.setRing_aon (a : Nat) (b : Byte) : (s.setRing a b).aon = s.aon := rfl
@[simp] theorem State.setRing_boot (a : Nat) (b : Byte) : (s.setRing a b).boot = s.boot := rfl
@[simp] theorem State.setRing_mram (a : Nat) (b : Byte) : (s.setRing a b).mram = s.mram := rfl
@[simp] theorem State.setRing_tide (a : Nat) (b : Byte) : (s.setRing a b).tide = s.tide := rfl
@[simp] theorem State.setRing_pans (a : Nat) (b : Byte) : (s.setRing a b).pans = s.pans := rfl
@[simp] theorem State.setRing_cores (a : Nat) (b : Byte) : (s.setRing a b).cores = s.cores := rfl
@[simp] theorem State.setRing_clusters (a : Nat) (b : Byte) : (s.setRing a b).clusters = s.clusters := rfl
@[simp] theorem State.setRing_phys (a : Nat) (b : Byte) : (s.setRing a b).phys = s.phys := rfl
@[simp] theorem State.setRing_pool (a : Nat) (b : Byte) : (s.setRing a b).pool = s.pool := rfl
@[simp] theorem State.setRing_wgt (a : Nat) (b : Byte) : (s.setRing a b).wgt = s.wgt := rfl
@[simp] theorem State.setRing_qps (a : Nat) (b : Byte) : (s.setRing a b).qps = s.qps := rfl
@[simp] theorem State.setRing_srv (a : Nat) (b : Byte) : (s.setRing a b).srv = s.srv := rfl
@[simp] theorem State.setRing_shares (a : Nat) (b : Byte) : (s.setRing a b).shares = s.shares := rfl
@[simp] theorem State.setRing_stages (a : Nat) (b : Byte) : (s.setRing a b).stages = s.stages := rfl
@[simp] theorem State.setRing_plans (a : Nat) (b : Byte) : (s.setRing a b).plans = s.plans := rfl
@[simp] theorem State.setRing_fab (a : Nat) (b : Byte) : (s.setRing a b).fab = s.fab := rfl
@[simp] theorem State.setRing_hif (a : Nat) (b : Byte) : (s.setRing a b).hif = s.hif := rfl
@[simp] theorem State.setRing_sec (a : Nat) (b : Byte) : (s.setRing a b).sec = s.sec := rfl
@[simp] theorem State.setRing_hlt (a : Nat) (b : Byte) : (s.setRing a b).hlt = s.hlt := rfl
@[simp] theorem State.setRing_pwr (a : Nat) (b : Byte) : (s.setRing a b).pwr = s.pwr := rfl
@[simp] theorem State.setRing_evt (a : Nat) (b : Byte) : (s.setRing a b).evt = s.evt := rfl
@[simp] theorem State.setRing_snaps (a : Nat) (b : Byte) : (s.setRing a b).snaps = s.snaps := rfl
@[simp] theorem State.setRing_saved (a : Nat) (b : Byte) : (s.setRing a b).saved = s.saved := rfl
@[simp] theorem State.setRing_mem (a : Nat) (b : Byte) : (s.setRing a b).mem = s.mem := rfl
@[simp] theorem State.setRing_rings (a : Nat) (b : Byte) : (s.setRing a b).rings = Cells.set (fun _ => 0) s.rings a b := rfl

/-! `State.memWrite` -/

@[simp] theorem State.memWrite_pending (a : Nat) (l : List Byte) : (s.memWrite a l).pending = s.pending := rfl
@[simp] theorem State.memWrite_out (a : Nat) (l : List Byte) : (s.memWrite a l).out = s.out := rfl
@[simp] theorem State.memWrite_freeCtr (a : Nat) (l : List Byte) : (s.memWrite a l).freeCtr = s.freeCtr := rfl
@[simp] theorem State.memWrite_part (a : Nat) (l : List Byte) : (s.memWrite a l).part = s.part := rfl
@[simp] theorem State.memWrite_now (a : Nat) (l : List Byte) : (s.memWrite a l).now = s.now := rfl
@[simp] theorem State.memWrite_regs (a : Nat) (l : List Byte) : (s.memWrite a l).regs = s.regs := rfl
@[simp] theorem State.memWrite_aon (a : Nat) (l : List Byte) : (s.memWrite a l).aon = s.aon := rfl
@[simp] theorem State.memWrite_boot (a : Nat) (l : List Byte) : (s.memWrite a l).boot = s.boot := rfl
@[simp] theorem State.memWrite_mram (a : Nat) (l : List Byte) : (s.memWrite a l).mram = s.mram := rfl
@[simp] theorem State.memWrite_tide (a : Nat) (l : List Byte) : (s.memWrite a l).tide = s.tide := rfl
@[simp] theorem State.memWrite_pans (a : Nat) (l : List Byte) : (s.memWrite a l).pans = s.pans := rfl
@[simp] theorem State.memWrite_cores (a : Nat) (l : List Byte) : (s.memWrite a l).cores = s.cores := rfl
@[simp] theorem State.memWrite_clusters (a : Nat) (l : List Byte) : (s.memWrite a l).clusters = s.clusters := rfl
@[simp] theorem State.memWrite_phys (a : Nat) (l : List Byte) : (s.memWrite a l).phys = s.phys := rfl
@[simp] theorem State.memWrite_pool (a : Nat) (l : List Byte) : (s.memWrite a l).pool = s.pool := rfl
@[simp] theorem State.memWrite_wgt (a : Nat) (l : List Byte) : (s.memWrite a l).wgt = s.wgt := rfl
@[simp] theorem State.memWrite_qps (a : Nat) (l : List Byte) : (s.memWrite a l).qps = s.qps := rfl
@[simp] theorem State.memWrite_srv (a : Nat) (l : List Byte) : (s.memWrite a l).srv = s.srv := rfl
@[simp] theorem State.memWrite_shares (a : Nat) (l : List Byte) : (s.memWrite a l).shares = s.shares := rfl
@[simp] theorem State.memWrite_stages (a : Nat) (l : List Byte) : (s.memWrite a l).stages = s.stages := rfl
@[simp] theorem State.memWrite_plans (a : Nat) (l : List Byte) : (s.memWrite a l).plans = s.plans := rfl
@[simp] theorem State.memWrite_fab (a : Nat) (l : List Byte) : (s.memWrite a l).fab = s.fab := rfl
@[simp] theorem State.memWrite_hif (a : Nat) (l : List Byte) : (s.memWrite a l).hif = s.hif := rfl
@[simp] theorem State.memWrite_sec (a : Nat) (l : List Byte) : (s.memWrite a l).sec = s.sec := rfl
@[simp] theorem State.memWrite_hlt (a : Nat) (l : List Byte) : (s.memWrite a l).hlt = s.hlt := rfl
@[simp] theorem State.memWrite_pwr (a : Nat) (l : List Byte) : (s.memWrite a l).pwr = s.pwr := rfl
@[simp] theorem State.memWrite_evt (a : Nat) (l : List Byte) : (s.memWrite a l).evt = s.evt := rfl
@[simp] theorem State.memWrite_snaps (a : Nat) (l : List Byte) : (s.memWrite a l).snaps = s.snaps := rfl
@[simp] theorem State.memWrite_saved (a : Nat) (l : List Byte) : (s.memWrite a l).saved = s.saved := rfl
@[simp] theorem State.memWrite_mem (a : Nat) (l : List Byte) : (s.memWrite a l).mem = Cells.write (fun _ => 0) s.mem a l := rfl
@[simp] theorem State.memWrite_rings (a : Nat) (l : List Byte) : (s.memWrite a l).rings = s.rings := rfl

/-! `State.updCore` -/

@[simp] theorem State.updCore_pending (c : Nat) (f : Core → Core) : (s.updCore c f).pending = s.pending := rfl
@[simp] theorem State.updCore_out (c : Nat) (f : Core → Core) : (s.updCore c f).out = s.out := rfl
@[simp] theorem State.updCore_freeCtr (c : Nat) (f : Core → Core) : (s.updCore c f).freeCtr = s.freeCtr := rfl
@[simp] theorem State.updCore_part (c : Nat) (f : Core → Core) : (s.updCore c f).part = s.part := rfl
@[simp] theorem State.updCore_now (c : Nat) (f : Core → Core) : (s.updCore c f).now = s.now := rfl
@[simp] theorem State.updCore_regs (c : Nat) (f : Core → Core) : (s.updCore c f).regs = s.regs := rfl
@[simp] theorem State.updCore_aon (c : Nat) (f : Core → Core) : (s.updCore c f).aon = s.aon := rfl
@[simp] theorem State.updCore_boot (c : Nat) (f : Core → Core) : (s.updCore c f).boot = s.boot := rfl
@[simp] theorem State.updCore_mram (c : Nat) (f : Core → Core) : (s.updCore c f).mram = s.mram := rfl
@[simp] theorem State.updCore_tide (c : Nat) (f : Core → Core) : (s.updCore c f).tide = s.tide := rfl
@[simp] theorem State.updCore_pans (c : Nat) (f : Core → Core) : (s.updCore c f).pans = s.pans := rfl
@[simp] theorem State.updCore_clusters (c : Nat) (f : Core → Core) : (s.updCore c f).clusters = s.clusters := rfl
@[simp] theorem State.updCore_phys (c : Nat) (f : Core → Core) : (s.updCore c f).phys = s.phys := rfl
@[simp] theorem State.updCore_pool (c : Nat) (f : Core → Core) : (s.updCore c f).pool = s.pool := rfl
@[simp] theorem State.updCore_wgt (c : Nat) (f : Core → Core) : (s.updCore c f).wgt = s.wgt := rfl
@[simp] theorem State.updCore_qps (c : Nat) (f : Core → Core) : (s.updCore c f).qps = s.qps := rfl
@[simp] theorem State.updCore_srv (c : Nat) (f : Core → Core) : (s.updCore c f).srv = s.srv := rfl
@[simp] theorem State.updCore_shares (c : Nat) (f : Core → Core) : (s.updCore c f).shares = s.shares := rfl
@[simp] theorem State.updCore_stages (c : Nat) (f : Core → Core) : (s.updCore c f).stages = s.stages := rfl
@[simp] theorem State.updCore_plans (c : Nat) (f : Core → Core) : (s.updCore c f).plans = s.plans := rfl
@[simp] theorem State.updCore_fab (c : Nat) (f : Core → Core) : (s.updCore c f).fab = s.fab := rfl
@[simp] theorem State.updCore_hif (c : Nat) (f : Core → Core) : (s.updCore c f).hif = s.hif := rfl
@[simp] theorem State.updCore_sec (c : Nat) (f : Core → Core) : (s.updCore c f).sec = s.sec := rfl
@[simp] theorem State.updCore_hlt (c : Nat) (f : Core → Core) : (s.updCore c f).hlt = s.hlt := rfl
@[simp] theorem State.updCore_pwr (c : Nat) (f : Core → Core) : (s.updCore c f).pwr = s.pwr := rfl
@[simp] theorem State.updCore_evt (c : Nat) (f : Core → Core) : (s.updCore c f).evt = s.evt := rfl
@[simp] theorem State.updCore_snaps (c : Nat) (f : Core → Core) : (s.updCore c f).snaps = s.snaps := rfl
@[simp] theorem State.updCore_saved (c : Nat) (f : Core → Core) : (s.updCore c f).saved = s.saved := rfl
@[simp] theorem State.updCore_mem (c : Nat) (f : Core → Core) : (s.updCore c f).mem = s.mem := rfl
@[simp] theorem State.updCore_rings (c : Nat) (f : Core → Core) : (s.updCore c f).rings = s.rings := rfl

/-! Reading what was written -/

/-- A register reads what was written, in as many bytes as it has. -/
theorem State.reg_setReg_same (r : Reg) (v : W64) (u i : Nat) :
    (s.setReg r v u i).reg r u i = BitVec.ofNat 64 (v.toNat % 2 ^ (8 * r.info.size)) :=
  Cells.get_set_same _ _ _ _

/-- Every other register is as it was. -/
theorem State.reg_setReg_other (r r' : Reg) (v : W64) (u u' i i' : Nat) (h : Reg.key u' r' i' ≠ Reg.key u r i) :
    (s.setReg r v u i).reg r' u' i' = s.reg r' u' i' :=
  Cells.get_set_far (fun _ => Reg.resetAt r i) (fun _ => Reg.resetAt r' i') s.regs (Reg.key u r i) (Reg.key u' r' i')
    (BitVec.ofNat 64 (v.toNat % 2 ^ (8 * r.info.size))) h

/-- A queue pair changed reads as changed, and every other one as it was. -/
theorem State.qp_updQp (q q' : Nat) (f : Qp → Qp) : (s.updQp q f).qp q' = if q' = q then f (s.qp q) else s.qp q' :=
  Pool.get_upd _ _ _ _

/-- A physical core changed reads as changed, and every other one as it was. -/
theorem State.ph_updPhys (p p' : Nat) (f : Phys → Phys) :
    (s.updPhys p f).ph p' = if p' = p then f (s.ph p) else s.ph p' := Pool.get_upd _ _ _ _

/-- A byte of the ring area written reads as written, and every other one as it was. -/
theorem State.ringByte_setRing (a a' : Nat) (b : Byte) :
    (s.setRing a b).ringByte a' = if a' = a then b else s.ringByte a' := Cells.get_set _ _ _ _ _

/-- Shares written read as written, and those of every other function as they were. -/
theorem State.share_setShare (fn fn' : Nat) (x : Share) :
    (s.setShare fn x).share fn' = if fn' = fn then x else s.share fn' := Cells.get_set _ _ _ _ _

/-- `when` where the condition holds and where it does not. -/
@[simp] theorem State.when_true (f : State → State) : s.when true f = f s := rfl
@[simp] theorem State.when_false (f : State → State) : s.when false f = s := rfl
@[simp] theorem State.each_nil {α : Type} (f : α → State → State) : s.each [] f = s := rfl
@[simp] theorem State.each_cons {α : Type} (a : α) (l : List α) (f : α → State → State) :
    s.each (a :: l) f = (f a s).each l f := rfl

end Sys2Proof.Machine
end

