-- ==== Sys2Proof/Laws/Keeps.lean ====
section
/-! SUPPORT. What no operation of the model touches, and what every one keeps: the queue, the part, the reference key,
the canonical form of the sparse stores; and time never goes back. `Keeps z s` says that of a state `s` come to from
`z`; the lemmas of this folder's Keeps files carry it through every operation, one lemma each. -/

namespace Sys2Proof.Machine

/-- From `z` to `s`: the queue, the part and the reference key are as they were, time has not gone back, and the sparse
stores are canonical if they were. -/
structure Keeps (z s : State) : Prop where
  pending : s.pending = z.pending
  part : s.part = z.part
  refKey : s.mram.refKeyId = z.mram.refKeyId
  now : z.now ≤ s.now
  canon : z.Canonical → s.Canonical

/-- The same without the sparse stores. -/
def State.fixed (s : State) := (s.pending, s.part, s.mram.refKeyId, s.now)

/-- The sparse stores. -/
def State.stores (s : State) :=
  (s.regs, s.mem, s.rings, s.pool, s.shares, s.hif.msix, s.fab.links, s.pans, s.cores, s.clusters, s.phys, s.qps)

variable {z s t a b : State}

theorem Keeps.refl (s : State) : Keeps s s := ⟨rfl, rfl, rfl, Nat.le_refl _, id⟩

theorem Keeps.trans (h : Keeps z s) (k : Keeps s t) : Keeps z t :=
  ⟨k.pending.trans h.pending, k.part.trans h.part, k.refKey.trans h.refKey, Nat.le_trans h.now k.now,
    fun c => k.canon (h.canon c)⟩

/-- A change of the stores. -/
theorem Keeps.chg (h : Keeps z s) (e : t.fixed = s.fixed) (c : s.Canonical → t.Canonical) : Keeps z t := by
  simp only [State.fixed, Prod.mk.injEq] at e
  obtain ⟨e1, e2, e3, e4⟩ := e
  exact h.trans ⟨e1, e2, e3, Nat.le_of_eq e4.symm, c⟩

/-- Equal stores are canonical together. -/
theorem State.Canonical.of_stores (c : s.Canonical) (e : t.stores = s.stores) : t.Canonical := by
  simp only [State.stores, Prod.mk.injEq] at e
  constructor <;> simp only [e] <;> first
    | exact c.regs | exact c.mem | exact c.rings | exact c.pool | exact c.shares | exact c.msix | exact c.links
    | exact c.pans | exact c.cores | exact c.clusters | exact c.phys | exact c.qps

/-- The stores are canonical after reset. -/
theorem State.reset_canonical : State.reset.Canonical := by constructor <;> rfl

/-- A change of what `Keeps` does not look at. -/
theorem Keeps.of (h : Keeps z s) (e : (t.fixed, t.stores) = (s.fixed, s.stores)) : Keeps z t :=
  h.chg (congrArg Prod.fst e) (fun c => c.of_stores (congrArg Prod.snd e))

theorem Keeps.ite {c : Prop} [Decidable c] (ha : Keeps z a) (hb : Keeps z b) : Keeps z (if c then a else b) := by
  split <;> assumption

theorem Keeps.le {k : State → State} (hk : ∀ {t}, Keeps z t → Keeps z (k t)) (h : Keeps z a) :
    Keeps z (let t := a; k t) := hk h

theorem Keeps.foldl {α : Type} {f : State → α → State} {l : List α} (h : Keeps z s)
    (hf : ∀ {t x}, Keeps z t → Keeps z (f t x)) : Keeps z (l.foldl f s) := by
  induction l generalizing s with
  | nil => exact h
  | cons x l ih => exact ih (hf h)

/-! ### Operations that answer a state and something besides, or perhaps a state -/

/-- The state of a pair. -/
def PKeeps {β : Type} (z : State) (r : State × β) : Prop := Keeps z r.1
theorem PKeeps.mk {β : Type} {x : β} (h : Keeps z s) : PKeeps z (s, x) := h
theorem PKeeps.fst {β : Type} {r : State × β} (h : PKeeps z r) : Keeps z r.1 := h
theorem PKeeps.fst' {β : Type} {r : State × β} {x : β} (h : PKeeps z r) (e : r = (s, x)) : Keeps z s := by
  subst e; exact h

theorem PKeeps.ite {β : Type} {c : Prop} [Decidable c] {r q : State × β} (hr : PKeeps z r) (hq : PKeeps z q) :
    PKeeps z (if c then r else q) := by split <;> assumption

/-- A state, if there is one. -/
def OKeeps (z : State) (r : Option State) : Prop := ∀ s, r = some s → Keeps z s
theorem OKeeps.none : OKeeps z .none := fun _ h => by cases h
theorem OKeeps.some (h : Keeps z s) : OKeeps z (.some s) := fun _ e => by cases e; exact h
theorem OKeeps.some' {r : Option State} (h : OKeeps z r) (e : r = .some s) : Keeps z s := h s e
theorem OKeeps.getD {r : Option State} (h : OKeeps z r) (k : Keeps z s) : Keeps z (r.getD s) := by
  cases r with
  | none => exact k
  | some t => exact h t rfl

/-- A served command. -/
def SKeeps (z : State) (r : Served) : Prop :=
  match r with
  | .record s _ _ => Keeps z s
  | .quiet s => Keeps z s
theorem SKeeps.record {c d} (h : Keeps z s) : SKeeps z (.record s c d) := h
theorem SKeeps.quiet (h : Keeps z s) : SKeeps z (.quiet s) := h

/-! ### Meanings -/

/-- Whatever a meaning answers as the next state, it keeps. -/
def Answered (s : State) (r : Res) : Prop := ∀ t, r = .next t → Keeps s t

theorem State.enter_keeps {t : Stamp} (h : Keeps z s) : Keeps z (s.enter t) :=
  h.trans ⟨rfl, rfl, rfl, Nat.le_max_left _ _, fun c => c.of_stores rfl⟩

theorem Answered.next (h : Keeps s t) : Answered s (.next t) := fun _ e => by cases e; exact h
theorem Answered.refused {r : Refusal} : Answered s (.refused r) := fun _ e => by cases e
theorem Answered.answer {t : Stamp} {f : State → State} (hf : ∀ {u}, Keeps s u → Keeps s (f u)) :
    Answered s (Machine.answer t s f) := .next (hf (State.enter_keeps (.refl s)))

end Sys2Proof.Machine
end

