-- ==== Sys2Proof/Laws/KeepsOps.lean ====
section
/-! SUPPORT. `Keeps` (Keeps.lean) through the shared operations, sync words, fabric and resilience: one lemma for each operation, in the order
of the model's files; `Answered` for each meaning. -/

namespace Sys2Proof.Machine

/-! Ops -/



theorem State.when_keeps {z s : State} {a1 a2} (h : Keeps z s) (hf2 : ∀ {t : State}, Keeps z t → Keeps z (a2 t)) : Keeps z (State.when s a1 a2) :=
  .ite (hf2 h) h

theorem State.each_keeps {z s : State} {α : Type} {l : List α} {f : α → State → State} (h : Keeps z s)
    (hf : ∀ {x} {t : State}, Keeps z t → Keeps z (f x t)) : Keeps z (s.each l f) := Keeps.foldl h hf

theorem State.setReg_keeps {z s : State} {r v u i} (h : Keeps z s) : Keeps z (s.setReg r v u i) :=
  h.chg rfl (fun c => { c with
    regs := Cells.ascends_set (α := W64) (d := fun _ => Reg.resetAt r i) (c := s.regs) (Reg.key u r i)
      (BitVec.ofNat 64 (v.toNat % 2 ^ (8 * r.info.size))) c.regs })

theorem State.setNum_keeps {z s : State} {a1 a2 a3 a4} (h : Keeps z s) : Keeps z (State.setNum s a1 a2 a3 a4) :=
  State.setReg_keeps h

theorem State.setF_keeps {z s : State} {a1 a2 a3 a4 a5 a6} (h : Keeps z s) : Keeps z (State.setF s a1 a2 a3 a4 a5 a6) :=
  State.setReg_keeps h

theorem State.bump_keeps {z s : State} {a1 a2 a3 a4} (h : Keeps z s) : Keeps z (State.bump s a1 a2 a3 a4) :=
  State.setNum_keeps h

theorem State.bumpSat_keeps {z s : State} {a1 a2} (h : Keeps z s) : Keeps z (State.bumpSat s a1 a2) :=
  State.setNum_keeps h

theorem State.tick_keeps {z s : State}  (h : Keeps z s) : Keeps z (State.tick s) :=
  .of h rfl

theorem State.emit_keeps {z s : State} {a1} (h : Keeps z s) : Keeps z (State.emit s a1) :=
  .of h rfl

theorem State.setMsix_keeps {z s : State} {a1 a2 a3} (h : Keeps z s) : Keeps z (State.setMsix s a1 a2 a3) :=
  .chg h rfl (fun c => { c with msix := Cells.wf_set _ _ c.msix })

theorem State.sendMsix_keeps {z s : State} {a1 a2} (h : Keeps z s) : Keeps z (State.sendMsix s a1 a2) := by
  unfold State.sendMsix
  extract_lets -merge -useContext -underBinder +onlyGivenNames v1
  clear_value v1
  exact .ite (State.setMsix_keeps h) (State.emit_keeps h)

theorem State.raise_keeps {z s : State} {a1 a2 a3 a4} (h : Keeps z s) : Keeps z (State.raise s a1 a2 a3 a4) := by
  unfold State.raise
  extract_lets -merge -useContext -underBinder +onlyGivenNames v1 v2
  clear_value v1 v2
  extract_lets -merge -useContext -underBinder +onlyGivenNames v3
  have h3 : Keeps z v3 := (by unfold v3; exact (State.setReg_keeps h))
  clear_value v3
  exact .ite h3 (State.sendMsix_keeps h3)

theorem State.event_keeps {z s : State} {a1 a2 a3 a4 a5 a6 a7} (h : Keeps z s) : Keeps z (State.event s a1 a2 a3 a4 a5 a6 a7) := by
  unfold State.event
  extract_lets -merge -useContext -underBinder +onlyGivenNames v1
  clear_value v1
  exact .of h rfl

theorem State.faultRec_keeps {z s : State} {a1 a2 a3 a4 a5 a6 a7 a8 a9 a10 a11 a12} (h : Keeps z s) : Keeps z (State.faultRec s a1 a2 a3 a4 a5 a6 a7 a8 a9 a10 a11 a12) := by
  unfold State.faultRec
  extract_lets -merge -useContext -underBinder +onlyGivenNames v1 v2 v3 v4 v5 v6
  clear_value v1 v2 v3 v4 v5 v6
  exact .ite (State.event_keeps (.of h rfl)) (State.event_keeps (State.raise_keeps (.of h rfl)))

theorem State.shutRecord_keeps {z s : State} {a1} (h : Keeps z s) : Keeps z (State.shutRecord s a1) := by
  unfold State.shutRecord
  extract_lets -merge -useContext -underBinder +onlyGivenNames v1 v2
  clear_value v1 v2
  exact .of h rfl

theorem State.setDevState_keeps {z s : State} {a1} (h : Keeps z s) : Keeps z (State.setDevState s a1) :=
  .ite h (State.event_keeps (State.each_keeps (State.setNum_keeps h) (fun h1 => (State.raise_keeps h1))))

theorem State.updQp_keeps {z s : State} {a1 a2} (h : Keeps z s) : Keeps z (State.updQp s a1 a2) :=
  .chg h rfl (fun c => { c with qps := Pool.wf_upd _ _ c.qps })

theorem State.updSess_keeps {z s : State} {a1 a2} (h : Keeps z s) : Keeps z (State.updSess s a1 a2) :=
  State.updQp_keeps h

theorem State.setShare_keeps {z s : State} {a1 a2} (h : Keeps z s) : Keeps z (State.setShare s a1 a2) :=
  .chg h rfl (fun c => { c with shares := Cells.wf_set _ _ c.shares })

theorem State.updPhys_keeps {z s : State} {a1 a2} (h : Keeps z s) : Keeps z (State.updPhys s a1 a2) :=
  .chg h rfl (fun c => { c with phys := Pool.wf_upd _ _ c.phys })

theorem State.bumpSrv_keeps {z s : State} {a1 a2 a3} (h : Keeps z s) : Keeps z (State.bumpSrv s a1 a2 a3) := by
  unfold State.bumpSrv
  extract_lets -merge -useContext -underBinder +onlyGivenNames v1
  have h1 : Keeps z v1 := (by unfold v1; exact (State.bump_keeps h))
  clear_value v1
  exact .ite h1 (State.bump_keeps h1)

theorem State.dropWaits_keeps {z s : State} {a1} (h : Keeps z s) : Keeps z (State.dropWaits s a1) := by
  unfold State.dropWaits
  extract_lets -merge -useContext -underBinder +onlyGivenNames v1 v2 v3
  clear_value v1 v2 v3
  exact .chg h rfl (fun c => { c with pool := Cells.wf_mapAll _ c.pool, cores := Cells.wf_mapAll _ c.cores })

theorem State.idleCtx_keeps {z s : State} {a1 a2 a3} (h : Keeps z s) : Keeps z (State.idleCtx s a1 a2 a3) := by
  unfold State.idleCtx
  extract_lets -merge -useContext -underBinder +onlyGivenNames v1
  clear_value v1
  extract_lets -merge -useContext -underBinder +onlyGivenNames v2
  have h2 : Keeps z v2 := (by unfold v2; exact (by split <;> [exact h; exact (State.bump_keeps h)]))
  clear_value v2
  exact .chg h2 rfl (fun c => { c with cores := Pool.wf_upd _ _ c.cores })

theorem State.idleStep_keeps {z s : State} {a1} (h : Keeps z s) : Keeps z (State.idleStep s a1) := by
  unfold State.idleStep
  extract_lets -merge -useContext -underBinder +onlyGivenNames v1
  clear_value v1
  exact State.each_keeps (State.dropWaits_keeps h) (fun h2 => (State.idleCtx_keeps h2))

theorem State.voidAt_keeps {z s : State} {a1 a2} (h : Keeps z s) : Keeps z (State.voidAt s a1 a2) := by
  unfold State.voidAt
  split <;> [exact h; exact (.ite h (by extract_lets -merge -useContext -underBinder +onlyGivenNames v1; have h1 : Keeps z v1 := (by unfold v1; exact (State.when_keeps h (fun h2 => (State.idleStep_keeps h2)))); clear_value v1; exact (by extract_lets -merge -useContext -underBinder +onlyGivenNames v2; have h2 : Keeps z v2 := (by unfold v2; exact (State.bumpSrv_keeps (State.updSess_keeps h1))); clear_value v2; exact (by extract_lets -merge -useContext -underBinder +onlyGivenNames v3; clear_value v3; exact (by extract_lets -merge -useContext -underBinder +onlyGivenNames v4; clear_value v4; exact (.of h2 rfl))))))]

theorem State.voidAll_keeps {z s : State} {a1} (h : Keeps z s) : Keeps z (State.voidAll s a1) := by
  unfold State.voidAll
  extract_lets -merge -useContext -underBinder +onlyGivenNames v1
  clear_value v1
  exact State.when_keeps (State.each_keeps h (fun h2 => (State.voidAt_keeps h2))) (fun h2 => (State.bump_keeps h2))

theorem State.setRing_keeps {z s : State} {a1 a2} (h : Keeps z s) : Keeps z (State.setRing s a1 a2) :=
  .chg h rfl (fun c => { c with rings := Cells.wf_set _ _ c.rings })

theorem State.ringWrite_keeps {z s : State} {a n v : Nat} (h : Keeps z s) : Keeps z (s.ringWrite a n v) := by
  induction n generalizing s a v with
  | zero => exact h
  | succ n ih => exact ih (State.setRing_keeps h)

/-! Mem -/

theorem State.memWrite_keeps {z s : State} {a1 a2} (h : Keeps z s) : Keeps z (State.memWrite s a1 a2) :=
  .chg h rfl (fun c => { c with mem := Cells.wf_write _ _ c.mem })

theorem State.clearParts_keeps {z s : State} {a1 a2 a3} (h : Keeps z s) : Keeps z (State.clearParts s a1 a2 a3) :=
  .chg h rfl (fun c => { c with mem := Cells.wf_clear _ _ c.mem })

theorem State.clearShards_keeps {z s : State} {a1} (h : Keeps z s) : Keeps z (State.clearShards s a1) :=
  State.clearParts_keeps h

theorem State.dropContent_keeps {z s : State} {a1} (h : Keeps z s) : Keeps z (State.dropContent s a1) :=
  State.clearShards_keeps (State.clearShards_keeps h)

theorem State.crossed_keeps {z s : State} {a1 a2 a3} (h : Keeps z s) : Keeps z (State.crossed s a1 a2 a3) := by
  unfold State.crossed
  split <;> [exact (by split <;> [exact (State.bump_keeps h); exact h]); exact (by split <;> [exact (State.bump_keeps h); exact h]); exact (by split <;> [exact (State.bump_keeps h); exact h]); exact (by split <;> [exact (State.bump_keeps h); exact h]); exact (by split <;> [exact (State.when_keeps h (fun h1 => (State.bump_keeps h1))); exact h])]

theorem State.moves_keeps {z s : State} {a1 a2 a3} (h : Keeps z s) : Keeps z (State.moves s a1 a2 a3) := by
  unfold State.moves
  extract_lets -merge -useContext -underBinder +onlyGivenNames v1
  have h1 : ∀ {x0} {x1} {t : State}, Keeps z t → Keeps z (v1 x0 x1 t) := (by intros; rename_i h0; unfold v1; exact (fun h2 => (by split <;> [exact (State.bump_keeps h2); exact (State.bump_keeps h2); exact h2])) h0)
  clear_value v1
  extract_lets -merge -useContext -underBinder +onlyGivenNames v2
  have h2 : Keeps z v2 := (by unfold v2; exact (State.crossed_keeps (h1 (h1 h))))
  clear_value v2
  split <;> [exact (.ite h2 (State.when_keeps (State.bump_keeps h2) (fun h3 => (State.bump_keeps h3)))); exact (State.bump_keeps h2)]

theorem State.storeRow_keeps {z s : State} {a1 a2 a3 a4} (h : Keeps z s) : Keeps z (State.storeRow s a1 a2 a3 a4) := by
  unfold State.storeRow
  extract_lets -merge -useContext -underBinder +onlyGivenNames v1 v2
  clear_value v1 v2
  exact State.moves_keeps (State.memWrite_keeps h)

theorem State.addWords_keeps {z s : State} {a1 a2 a3} (h : Keeps z s) : Keeps z (State.addWords s a1 a2 a3) := by
  unfold State.addWords
  extract_lets -merge -useContext -underBinder +onlyGivenNames v1 v2
  clear_value v1 v2
  exact State.memWrite_keeps h

theorem State.openBuf_keeps {z s : State} {a1 a2} (h : Keeps z s) : Keeps z (State.openBuf s a1 a2) := by
  unfold State.openBuf
  exact .ite h (by extract_lets -merge -useContext -underBinder +onlyGivenNames v1; clear_value v1; exact (.chg h rfl (fun c => { c with mem := Cells.wf_clear _ _ c.mem })))

theorem State.contributed_keeps {z s : State} {a1} (h : Keeps z s) : Keeps z (State.contributed s a1) := by
  unfold State.contributed
  extract_lets -merge -useContext -underBinder +onlyGivenNames v1
  clear_value v1
  exact .of h rfl

theorem State.addRow_keeps {z s : State} {a1 a2 a3 a4 a5} (h : Keeps z s) : Keeps z (State.addRow s a1 a2 a3 a4 a5) := by
  unfold State.addRow
  extract_lets -merge -useContext -underBinder +onlyGivenNames v1
  have h1 : Keeps z v1 := (by unfold v1; exact (State.openBuf_keeps h))
  clear_value v1
  extract_lets -merge -useContext -underBinder +onlyGivenNames v2 v3
  clear_value v2 v3
  exact State.moves_keeps (State.contributed_keeps (State.addWords_keeps h1))

/-! Pages -/

theorem State.putGroup_keeps {z s : State} {a1 a2 a3 a4 a5 a6 a7} (h : Keeps z s) : Keeps z (State.putGroup s a1 a2 a3 a4 a5 a6 a7) := by
  unfold State.putGroup
  split <;> [exact h; exact (by extract_lets -merge -useContext -underBinder +onlyGivenNames v1; clear_value v1; exact (State.memWrite_keeps (State.memWrite_keeps h)))]

theorem State.zeroBlock_keeps {z s : State} {a1 a2 a3 a4 a5 a6 a7} (h : Keeps z s) : Keeps z (State.zeroBlock s a1 a2 a3 a4 a5 a6 a7) := by
  unfold State.zeroBlock
  split <;> [exact h; exact (by extract_lets -merge -useContext -underBinder +onlyGivenNames v1; clear_value v1; exact (State.memWrite_keeps h))]

/-! Sync -/

theorem State.updCore_keeps {z s : State} {a1 a2} (h : Keeps z s) : Keeps z (State.updCore s a1 a2) :=
  .chg h rfl (fun c => { c with cores := Pool.wf_upd _ _ c.cores })

theorem State.updCtx_keeps {z s : State} {a1 a2 a3} (h : Keeps z s) : Keeps z (State.updCtx s a1 a2 a3) :=
  State.updCore_keeps h

theorem State.updHoist_keeps {z s : State} {a1 a2 a3} (h : Keeps z s) : Keeps z (State.updHoist s a1 a2 a3) :=
  State.updCore_keeps h

theorem State.dispatch_keeps {z s : State} {a1} (h : Keeps z s) : Keeps z (State.dispatch s a1) := by
  unfold State.dispatch
  exact .ite h (by split <;> [exact h; exact (.ite (State.bump_keeps (State.updCore_keeps (State.updCtx_keeps h))) h)])

theorem State.deschedule_keeps {z s : State} {a1 a2 a3} (h : Keeps z s) : Keeps z (State.deschedule s a1 a2 a3) :=
  State.dispatch_keeps (State.updCtx_keeps h)

theorem State.wakeCtx_keeps {z s : State} {a1 a2} (h : Keeps z s) : Keeps z (State.wakeCtx s a1 a2) := by
  unfold State.wakeCtx
  extract_lets -merge -useContext -underBinder +onlyGivenNames v1
  clear_value v1
  split <;> [exact h; exact (State.dispatch_keeps (State.bump_keeps (State.updCtx_keeps h)))]

theorem State.ctx3_keeps {z s : State} {a1} (h : Keeps z s) : Keeps z (State.ctx3 s a1) := by
  unfold State.ctx3
  extract_lets -merge -useContext -underBinder +onlyGivenNames v1
  clear_value v1
  exact .ite (.ite (State.dispatch_keeps (State.updCtx_keeps h)) h) (.ite h (State.dispatch_keeps (State.updCtx_keeps h)))

theorem State.testCtx_keeps {z s : State} {a1 a2} (h : Keeps z s) : Keeps z (State.testCtx s a1 a2) :=
  State.each_keeps h (fun h1 => (State.ctx3_keeps h1))

theorem State.vectorFree_keeps {z s : State} {a1} (h : Keeps z s) : Keeps z (State.vectorFree s a1) :=
  State.each_keeps h (fun h1 => (State.wakeCtx_keeps h1))

theorem State.setWord_keeps {z s : State} {a1 a2} (h : Keeps z s) : Keeps z (State.setWord s a1 a2) := by
  unfold State.setWord
  split <;> [exact (State.updCore_keeps h); exact (.chg h rfl (fun c => { c with pool := Cells.wf_set _ _ c.pool }))]

theorem State.wake_keeps {z s : State} {a1} (h : Keeps z s) : Keeps z (State.wake s a1) := by
  unfold State.wake
  split <;> [exact (State.wakeCtx_keeps h); exact (State.updHoist_keeps h)]

theorem State.writeWord_keeps {z s : State} {a1 a2 a3 a4} (h : Keeps z s) : Keeps z (State.writeWord s a1 a2 a3 a4) := by
  unfold State.writeWord
  extract_lets -merge -useContext -underBinder +onlyGivenNames v1 v2 v3
  clear_value v1 v2 v3
  exact State.each_keeps (State.setWord_keeps h) (fun h4 => (State.wake_keeps h4))

theorem State.countPool_keeps {z s : State} {a1} (h : Keeps z s) : Keeps z (State.countPool s a1) := by
  unfold State.countPool
  split <;> [exact (State.bump_keeps h); exact h]

theorem State.syncStore_keeps {z s : State} {a1 a2 a3} (h : Keeps z s) : Keeps z (State.syncStore s a1 a2 a3) :=
  State.writeWord_keeps (State.countPool_keeps h)

theorem State.syncAdd_keeps {z s : State} {a1 a2 a3} (h : Keeps z s) : Keeps z (State.syncAdd s a1 a2 a3) :=
  State.writeWord_keeps (State.countPool_keeps h)

theorem State.syncCas_keeps {z s : State} {a1 a2 a3 a4} (h : Keeps z s) : Keeps z (State.syncCas s a1 a2 a3 a4) :=
  .ite (State.writeWord_keeps (State.countPool_keeps h)) (State.countPool_keeps h)

theorem State.returns_keeps {z s : State} {a1 a2 a3} (h : Keeps z s) : Keeps z (State.returns s a1 a2 a3) :=
  State.emit_keeps (State.updCtx_keeps h)

theorem State.syncWait_keeps {z s : State} {a1 a2 a3 a4} (h : Keeps z s) : Keeps z (State.syncWait s a1 a2 a3 a4) := by
  unfold State.syncWait
  extract_lets -merge -useContext -underBinder +onlyGivenNames v1
  clear_value v1
  exact State.deschedule_keeps (State.updCtx_keeps (State.setWord_keeps h))

theorem execSyncWait_keeps {s : State} {a0 a1 a2 a3 a4 a5} : Answered s (execSyncWait a0 a1 a2 a3 a4 a5 s) :=
  .answer (fun h1 => (State.when_keeps h1 (fun h2 => (.ite h2 (State.syncWait_keeps h2)))))

theorem State.fence_keeps {z s : State} {a1 a2 a3} (h : Keeps z s) : Keeps z (State.fence s a1 a2 a3) :=
  State.deschedule_keeps (State.updCtx_keeps h)

theorem execFenceLocal_keeps {s : State} {a0 a1 a2} : Answered s (execFenceLocal a0 a1 a2 s) :=
  .answer (fun h1 => (State.when_keeps h1 (fun h2 => (State.fence_keeps h2))))

theorem execFenceDevice_keeps {s : State} {a0 a1 a2} : Answered s (execFenceDevice a0 a1 a2 s) :=
  .answer (fun h1 => (State.when_keeps h1 (fun h2 => (State.fence_keeps h2))))

theorem execFenceFabric_keeps {s : State} {a0 a1 a2} : Answered s (execFenceFabric a0 a1 a2 s) :=
  .answer (fun h1 => (State.when_keeps h1 (fun h2 => (State.fence_keeps h2))))

theorem execFenceComplete_keeps {s : State} {a0 a1 a2} : Answered s (execFenceComplete a0 a1 a2 s) := by
  unfold execFenceComplete
  exact .answer (fun h1 => (by extract_lets -merge -useContext -underBinder +onlyGivenNames v2; clear_value v2; exact (State.when_keeps h1 (fun h3 => (State.wakeCtx_keeps (State.bump_keeps h3))))))

theorem State.startHead_keeps {z s : State} {a1 a2} (h : Keeps z s) : Keeps z (State.startHead s a1 a2) := by
  unfold State.startHead
  split <;> [exact h; exact (.ite h (State.updHoist_keeps h))]

theorem State.queueTransfer_keeps {z s : State} {a1 a2 a3} (h : Keeps z s) : Keeps z (State.queueTransfer s a1 a2 a3) := by
  unfold State.queueTransfer
  extract_lets -merge -useContext -underBinder +onlyGivenNames v1
  have h1 : Keeps z v1 := (by unfold v1; exact (State.updHoist_keeps h))
  clear_value v1
  split <;> [exact h1; exact (by extract_lets -merge -useContext -underBinder +onlyGivenNames v2; clear_value v2; exact (State.setWord_keeps h1))]

theorem execHoistTransferStart_keeps {s : State} {a0 a1 a2 a3 a4 a5} : Answered s (execHoistTransferStart a0 a1 a2 a3 a4 a5 s) :=
  .answer (fun h1 => (State.when_keeps h1 (fun h2 => (.ite (State.startHead_keeps (State.queueTransfer_keeps h2)) (State.startHead_keeps h2)))))

theorem State.moved1_keeps {z s : State} {a1 a2 a3} (h : Keeps z s) : Keeps z (State.moved1 s a1 a2 a3) := by
  unfold State.moved1
  extract_lets -merge -useContext -underBinder +onlyGivenNames v1
  clear_value v1
  exact .ite (State.moves_keeps (State.tick_keeps h)) (by extract_lets -merge -useContext -underBinder +onlyGivenNames v2; have h2 : Keeps z v2 := (by unfold v2; exact (State.memWrite_keeps (State.moves_keeps (State.tick_keeps h)))); clear_value v2; exact (by split <;> [exact h2; exact (.chg h2 rfl (fun c => { c with pans := Pool.wf_upd _ _ c.pans }))]))

theorem execHoistTransferComplete_keeps {s : State} {a0 a1 a2 a3 a4} : Answered s (execHoistTransferComplete a0 a1 a2 a3 a4 s) := by
  unfold execHoistTransferComplete
  exact .answer (fun h1 => (by split <;> [exact h1; exact (by extract_lets -merge -useContext -underBinder +onlyGivenNames v2; have h2 : Keeps s v2 := (by unfold v2; exact (State.moved1_keeps (State.bump_keeps (State.updHoist_keeps h1)))); clear_value v2; exact (by extract_lets -merge -useContext -underBinder +onlyGivenNames v3; have h3 : Keeps s v3 := (by unfold v3; exact (by split <;> [exact h2; exact (.chg h2 rfl (fun c => { c with pans := Pool.wf_upd _ _ c.pans }))])); clear_value v3; exact (by extract_lets -merge -useContext -underBinder +onlyGivenNames v4; have h4 : Keeps s v4 := (by unfold v4; exact (State.when_keeps h3 (fun h5 => (State.raise_keeps (State.bump_keeps (State.voidAll_keeps h5)))))); clear_value v4; exact (by extract_lets -merge -useContext -underBinder +onlyGivenNames v5; have h5 : Keeps s v5 := (by unfold v5; exact (State.when_keeps h4 (fun h6 => (State.wakeCtx_keeps h6)))); clear_value v5; exact (State.startHead_keeps h5)))))]))

theorem execPoolHostStore_keeps {s : State} {a0 a1 a2 a3} : Answered s (execPoolHostStore a0 a1 a2 a3 s) := by
  unfold execPoolHostStore
  exact .answer (fun h1 => (State.when_keeps h1 (fun h2 => (by split <;> [exact h2; exact (State.syncStore_keeps h2)]))))

theorem execPoolHostAdd_keeps {s : State} {a0 a1 a2 a3} : Answered s (execPoolHostAdd a0 a1 a2 a3 s) := by
  unfold execPoolHostAdd
  exact .answer (fun h1 => (State.when_keeps h1 (fun h2 => (by split <;> [exact h2; exact (State.syncAdd_keeps h2)]))))

theorem State.shareApply_keeps {z s : State}  (h : Keeps z s) : Keeps z (State.shareApply s) := by
  unfold State.shareApply
  extract_lets -merge -useContext -underBinder +onlyGivenNames v1 v2 v3
  clear_value v1 v2 v3
  extract_lets -merge -useContext -underBinder +onlyGivenNames v4
  have h4 : Keeps z v4 := (by unfold v4; exact (State.setF_keeps h))
  clear_value v4
  exact .ite (State.raise_keeps h4) (State.raise_keeps (State.setShare_keeps h4))

/-! PowerOps -/

theorem State.setPwrState_keeps {z s : State} {a1} (h : Keeps z s) : Keeps z (State.setPwrState s a1) :=
  State.event_keeps (State.setF_keeps h)

theorem State.exitPower_keeps {z s : State}  (h : Keeps z s) : Keeps z (State.exitPower s) := by
  unfold State.exitPower
  exact .ite (by extract_lets -merge -useContext -underBinder +onlyGivenNames v1; clear_value v1; exact (by extract_lets -merge -useContext -underBinder +onlyGivenNames v2; have h2 : Keeps z v2 := (by unfold v2; exact (State.setNum_keeps (State.setPwrState_keeps h))); clear_value v2; exact (.of h2 rfl))) h

theorem State.volatileLost_keeps {z s : State} (h : Keeps z s) : Keeps z s.volatileLost :=
  h.chg rfl (fun c =>
    { State.reset_canonical with regs := Cells.ascends_filter _ c.regs })

theorem State.powerDown_keeps {z s : State} {a1} (h : Keeps z s) : Keeps z (State.powerDown s a1) := by
  unfold State.powerDown
  extract_lets -merge -useContext -underBinder +onlyGivenNames u1_0 v1 v2
  clear_value v1 v2
  extract_lets -merge -useContext -underBinder +onlyGivenNames v3
  have h3 : Keeps z v3 := (by unfold v3; exact (State.volatileLost_keeps h))
  clear_value v3
  exact .of h3 rfl

theorem State.stopOff_keeps {z s : State}  (h : Keeps z s) : Keeps z (State.stopOff s) :=
  State.powerDown_keeps (State.setF_keeps h)

/-! FabOps -/

theorem State.setLink_keeps {z s : State} {a1 a2} (h : Keeps z s) : Keeps z (State.setLink s a1 a2) :=
  .chg h rfl (fun c => { c with links := Cells.wf_set _ _ c.links })

theorem State.updLink_keeps {z s : State} {a1 a2} (h : Keeps z s) : Keeps z (State.updLink s a1 a2) :=
  State.setLink_keeps h

theorem State.bumpLink_keeps {z s : State} {a1 a2 a3} (h : Keeps z s) : Keeps z (State.bumpLink s a1 a2 a3) :=
  State.bump_keeps h

theorem State.fabStatus_keeps {z s : State}  (h : Keeps z s) : Keeps z (State.fabStatus s) := by
  unfold State.fabStatus
  extract_lets -merge -useContext -underBinder +onlyGivenNames v1 v2 v3 v4 v5
  clear_value v1 v2 v3 v4 v5
  extract_lets -merge -useContext -underBinder +onlyGivenNames v6
  have h6 : Keeps z v6 := (by unfold v6; exact (State.setF_keeps (State.setNum_keeps h)))
  clear_value v6
  exact .ite h6 (State.raise_keeps h6)

theorem State.transmit_keeps {z s : State} {a1 a2} (h : Keeps z s) : Keeps z (State.transmit s a1 a2) := by
  unfold State.transmit
  extract_lets -merge -useContext -underBinder +onlyGivenNames v1 v2
  clear_value v1 v2
  exact State.emit_keeps (State.bump_keeps (State.setLink_keeps h))

theorem State.sendOn_keeps {z s : State} {a1 a2} (h : Keeps z s) : Keeps z (State.sendOn s a1 a2) :=
  .ite (State.transmit_keeps h) (State.updLink_keeps h)

theorem State.sendList_keeps {z s : State} {n l kept} (h : Keeps z s) : Keeps z (s.sendList n l kept) := by
  induction l generalizing s kept with
  | nil => exact State.updLink_keeps h
  | cons p l ih => exact .ite (ih (State.transmit_keeps h)) (ih h)

theorem State.sendWaiting_keeps {z s : State} {a1} (h : Keeps z s) : Keeps z (State.sendWaiting s a1) :=
  State.sendList_keeps h

theorem State.sendCtrl_keeps {z s : State} {a1 a2 a3} (h : Keeps z s) : Keeps z (State.sendCtrl s a1 a2 a3) := by
  unfold State.sendCtrl
  extract_lets -merge -useContext -underBinder +onlyGivenNames v1
  clear_value v1
  exact .ite (State.emit_keeps h) (State.sendOn_keeps h)

theorem State.routePkt_keeps {z s : State} {a1 a2} (h : Keeps z s) : OKeeps z (State.routePkt s a1 a2) := by
  unfold State.routePkt
  split <;> [exact OKeeps.none; exact (by extract_lets -merge -useContext -underBinder +onlyGivenNames v1; clear_value v1; exact (by extract_lets -merge -useContext -underBinder +onlyGivenNames v2; have h2 : ∀ {t : State} {x1} {x2} {x3}, Keeps z t → Keeps z (v2 t x1 x2 x3) := (by intros; rename_i h0; unfold v2; exact (fun h3 => (by extract_lets -merge -useContext -underBinder +onlyGivenNames v4; clear_value v4; exact (by extract_lets -merge -useContext -underBinder +onlyGivenNames v5; clear_value v5; exact (by extract_lets -merge -useContext -underBinder +onlyGivenNames v6; clear_value v6; exact (State.sendOn_keeps (.of h3 rfl)))))) h0); clear_value v2; exact (by split <;> [exact (OKeeps.some (h2 h)); exact (by split <;> [exact OKeeps.none; exact (OKeeps.some (h2 (State.bump_keeps h)))])])))]

theorem State.treeSend_keeps {z s : State} {a1 a2 a3} (h : Keeps z s) : Keeps z (State.treeSend s a1 a2 a3) :=
  State.each_keeps h (fun h1 => (State.sendOn_keeps h1))

theorem State.bcast_keeps {z s : State} {a1 a2 a3 a4} (h : Keeps z s) : Keeps z (State.bcast s a1 a2 a3 a4) := by
  unfold State.bcast
  split <;> [exact h; exact (by extract_lets -merge -useContext -underBinder +onlyGivenNames v1; clear_value v1; exact (by extract_lets -merge -useContext -underBinder +onlyGivenNames v2; clear_value v2; exact (.ite h (by extract_lets -merge -useContext -underBinder +onlyGivenNames u3_0 v3; have h3 : Keeps z v3 := (by unfold v3; exact (.of h rfl)); clear_value v3; exact (State.treeSend_keeps h3)))))]

theorem State.bcastForward_keeps {z s : State} {a1 a2 a3 a4} (h : Keeps z s) : Keeps z (State.bcastForward s a1 a2 a3 a4) := by
  unfold State.bcastForward
  split <;> [exact h; exact (State.treeSend_keeps h)]

theorem State.rootSelf_keeps {z s : State}  (h : Keeps z s) : Keeps z (State.rootSelf s) := by
  unfold State.rootSelf
  exact .ite h (by extract_lets -merge -useContext -underBinder +onlyGivenNames v1; have h1 : Keeps z v1 := (by unfold v1; exact (.ite h (State.setNum_keeps h))); clear_value v1; exact (by extract_lets -merge -useContext -underBinder +onlyGivenNames v2; have h2 : Keeps z v2 := (by unfold v2; exact (State.when_keeps h1 (fun h3 => (State.setNum_keeps h3)))); clear_value v2; exact (.ite (.of h2 rfl) h2)))

theorem State.sendLsu_keeps {z s : State}  (h : Keeps z s) : Keeps z (State.sendLsu s) := by
  unfold State.sendLsu
  split <;> [exact h; exact (by extract_lets -merge -useContext -underBinder +onlyGivenNames v1; clear_value v1; exact (by extract_lets -merge -useContext -underBinder +onlyGivenNames v2; clear_value v2; exact (by extract_lets -merge -useContext -underBinder +onlyGivenNames v3; clear_value v3; exact (by extract_lets -merge -useContext -underBinder +onlyGivenNames v4; clear_value v4; exact (by extract_lets -merge -useContext -underBinder +onlyGivenNames v5; clear_value v5; exact (by extract_lets -merge -useContext -underBinder +onlyGivenNames v6; clear_value v6; exact (by extract_lets -merge -useContext -underBinder +onlyGivenNames u7_0 v7; have h7 : Keeps z v7 := (by unfold v7; exact (.of h rfl)); clear_value v7; exact (State.each_keeps h7 (fun h8 => (State.sendCtrl_keeps h8))))))))))]

theorem State.fabRetry_keeps {z s : State} {a1 a2} (h : Keeps z s) : Keeps z (State.fabRetry s a1 a2) := by
  unfold State.fabRetry
  extract_lets -merge -useContext -underBinder +onlyGivenNames v1 v2
  clear_value v1 v2
  extract_lets -merge -useContext -underBinder +onlyGivenNames u3_0 v3
  have h3 : Keeps z v3 := (by unfold v3; exact (.of h rfl))
  clear_value v3
  exact .ite (State.updSess_keeps h3) h3

theorem State.opFailed_keeps {z s : State} {a1 a2 a3} (h : Keeps z s) : Keeps z (State.opFailed s a1 a2 a3) := by
  unfold State.opFailed
  extract_lets -merge -useContext -underBinder +onlyGivenNames v1
  have h1 : Keeps z v1 := (by unfold v1; exact (State.when_keeps h (fun h2 => (State.raise_keeps (State.bump_keeps h2)))))
  clear_value v1
  split <;> [exact h1; exact (by extract_lets -merge -useContext -underBinder +onlyGivenNames v2; have h2 : Keeps z v2 := (by unfold v2; exact (State.voidAll_keeps h1)); clear_value v2; exact (.ite (State.updSess_keeps h2) (State.fabRetry_keeps h2)))]

theorem State.opDone_keeps {z s : State} {a1 a2} (h : Keeps z s) : Keeps z (State.opDone s a1 a2) := by
  unfold State.opDone
  split <;> [exact h; exact (.ite (.of h rfl) (State.opFailed_keeps (.of h rfl)))]

theorem State.ackTo_keeps {z s : State} {a1 a2 a3} (h : Keeps z s) : Keeps z (State.ackTo s a1 a2 a3) :=
  .ite (State.opDone_keeps h) (OKeeps.getD (State.routePkt_keeps h) h)

theorem State.indeterminate_keeps {z s : State} {a1} (h : Keeps z s) : Keeps z (State.indeterminate s a1) := by
  unfold State.indeterminate
  extract_lets -merge -useContext -underBinder +onlyGivenNames v1 v2
  clear_value v1 v2
  extract_lets -merge -useContext -underBinder +onlyGivenNames v3
  have h3 : Keeps z v3 := (by unfold v3; exact (State.setLink_keeps h))
  clear_value v3
  exact State.each_keeps h3 (fun h4 => (State.when_keeps (State.bumpLink_keeps h4) (fun h5 => (State.ackTo_keeps h5))))

theorem State.leaveUp_keeps {z s : State} {a1 a2} (h : Keeps z s) : Keeps z (State.leaveUp s a1 a2) :=
  .ite (State.fabStatus_keeps (State.raise_keeps (State.sendLsu_keeps h))) h

theorem State.hold_keeps {z s : State} {a1 a2} (h : Keeps z s) : Keeps z (State.hold s a1 a2) := by
  unfold State.hold
  extract_lets -merge -useContext -underBinder +onlyGivenNames v1
  clear_value v1
  exact State.event_keeps (State.raise_keeps (State.indeterminate_keeps (State.leaveUp_keeps (State.updLink_keeps h))))

theorem State.linkDown_keeps {z s : State} {a1} (h : Keeps z s) : Keeps z (State.linkDown s a1) := by
  unfold State.linkDown
  extract_lets -merge -useContext -underBinder +onlyGivenNames v1 v2
  clear_value v1 v2
  extract_lets -merge -useContext -underBinder +onlyGivenNames v3
  have h3 : Keeps z v3 := (by unfold v3; exact (State.updLink_keeps h))
  clear_value v3
  extract_lets -merge -useContext -underBinder +onlyGivenNames v4
  have h4 : Keeps z v4 := (by unfold v4; exact (.ite (State.event_keeps (State.raise_keeps (State.sendLsu_keeps h3))) h3))
  clear_value v4
  extract_lets -merge -useContext -underBinder +onlyGivenNames v5
  have h5 : Keeps z v5 := (by unfold v5; exact (State.updLink_keeps (State.indeterminate_keeps h4)))
  clear_value v5
  extract_lets -merge -useContext -underBinder +onlyGivenNames v6
  clear_value v6
  exact State.fabStatus_keeps (State.when_keeps h5 (fun h7 => (by extract_lets -merge -useContext -underBinder +onlyGivenNames v8; have h8 : Keeps z v8 := (by unfold v8; exact (State.setNum_keeps h7)); clear_value v8; exact (.of h8 rfl))))

theorem State.enterRetrain_keeps {z s : State} {a1} (h : Keeps z s) : Keeps z (State.enterRetrain s a1) :=
  State.bumpLink_keeps (State.updLink_keeps (State.indeterminate_keeps (State.leaveUp_keeps (State.updLink_keeps h))))

theorem State.sendLinkCtrl_keeps {z s : State} {a1 a2} (h : Keeps z s) : Keeps z (State.sendLinkCtrl s a1 a2) := by
  unfold State.sendLinkCtrl
  extract_lets -merge -useContext -underBinder +onlyGivenNames v1
  clear_value v1
  exact State.sendCtrl_keeps (State.setLink_keeps h)

theorem State.freeBuf_keeps {z s : State} {a1 a2 a3} (h : Keeps z s) : Keeps z (State.freeBuf s a1 a2 a3) :=
  State.updLink_keeps h

theorem State.accept_keeps {z s : State} {a1 a2 a3} (h : Keeps z s) : PKeeps z (State.accept s a1 a2 a3) := by
  unfold State.accept
  extract_lets -merge -useContext -underBinder +onlyGivenNames v1
  clear_value v1
  split <;> [exact (PKeeps.mk h); exact (by split <;> [exact (PKeeps.mk (State.sendLinkCtrl_keeps h)); exact (by extract_lets -merge -useContext -underBinder +onlyGivenNames v2; have h2 : Keeps z v2 := (by unfold v2; exact (State.bump_keeps (State.setLink_keeps h))); clear_value v2; exact (by extract_lets -merge -useContext -underBinder +onlyGivenNames v3; have h3 : Keeps z v3 := (by unfold v3; exact (State.when_keeps h2 (fun h4 => (State.sendLinkCtrl_keeps h4)))); clear_value v3; exact (by split <;> [exact (PKeeps.mk (State.bump_keeps (State.freeBuf_keeps h3))); exact (PKeeps.mk h3)])))])]

theorem State.forward_keeps {z s : State} {a1 a2} (h : Keeps z s) : Keeps z (State.forward s a1 a2) := by
  unfold State.forward
  split <;> [exact h; exact (by split <;> [exact h; exact (State.sendOn_keeps h)])]

/-! WaitGraph -/

theorem State.snapTrigger_keeps {z s : State} {a1 a2} (h : Keeps z s) : Keeps z (State.snapTrigger s a1 a2) := by
  unfold State.snapTrigger
  exact .ite (by extract_lets -merge -useContext -underBinder +onlyGivenNames v1; clear_value v1; exact (by extract_lets -merge -useContext -underBinder +onlyGivenNames v2; clear_value v2; exact (.of h rfl))) (State.raise_keeps (.of h rfl))

/-! Fabric -/

theorem State.bufWrite_keeps {z s : State} {a1 a2 a3 a4} (h : Keeps z s) : Keeps z (State.bufWrite s a1 a2 a3 a4) := by
  unfold State.bufWrite
  extract_lets -merge -useContext -underBinder +onlyGivenNames v1 v2
  clear_value v1 v2
  exact State.moves_keeps (State.memWrite_keeps h)

theorem State.bufAdd_keeps {z s : State} {a1 a2 a3 a4 a5 a6} (h : Keeps z s) : PKeeps z (State.bufAdd s a1 a2 a3 a4 a5 a6) := by
  unfold State.bufAdd
  extract_lets -merge -useContext -underBinder +onlyGivenNames v1
  have h1 : Keeps z v1 := (by unfold v1; exact (State.openBuf_keeps h))
  clear_value v1
  extract_lets -merge -useContext -underBinder +onlyGivenNames v2 v3
  clear_value v2 v3
  split <;> [exact (PKeeps.mk (State.moves_keeps (State.contributed_keeps (State.addWords_keeps h1)))); exact (by extract_lets -merge -useContext -underBinder +onlyGivenNames u4_0 v4; have h4 : Keeps z v4 := (by unfold v4; exact (.of h1 rfl)); clear_value v4; exact (PKeeps.mk (State.voidAll_keeps (State.event_keeps (State.raise_keeps (State.bump_keeps h4))))))]

theorem State.routeAll_keeps {z s : State} {core dst l} (h : Keeps z s) : OKeeps z (s.routeAll core dst l) := by
  induction l generalizing s with
  | nil => exact OKeeps.some h
  | cons p l ih =>
    unfold State.routeAll
    have r := State.routePkt_keeps (a1 := dst) (a2 := p.1) h
    split <;> rename_i hq <;> [exact OKeeps.none; exact ih (State.moves_keeps (r _ hq))]

theorem State.issueOp_keeps {z s : State} {core ctx kind dst type gen payload args} (h : Keeps z s) :
    Keeps z (s.issueOp core ctx kind dst type gen payload args) := by
  rw [State.issueOp]
  split <;> rename_i hq
  · exact State.opFailed_keeps h
  · exact ((State.routeAll_keeps h).some' hq).of rfl

theorem execFabricWrite_keeps {s : State} {a0 a1 a2 a3 a4 a5 a6} : Answered s (execFabricWrite a0 a1 a2 a3 a4 a5 a6 s) := by
  unfold execFabricWrite
  exact .answer (fun h1 => (State.when_keeps h1 (fun h2 => (by split <;> [exact (State.opFailed_keeps h2); exact (.ite (State.bufWrite_keeps h2) (State.issueOp_keeps h2))]))))

theorem execFabricReduceAdd_keeps {s : State} {a0 a1 a2 a3 a4 a5 a6} : Answered s (execFabricReduceAdd a0 a1 a2 a3 a4 a5 a6 s) := by
  unfold execFabricReduceAdd
  exact .answer (fun h1 => (State.when_keeps h1 (fun h2 => (by split <;> [exact (State.opFailed_keeps h2); exact (.ite (by extract_lets -merge -useContext -underBinder +onlyGivenNames v3; have h3 : PKeeps s v3 := (by unfold v3; exact (State.bufAdd_keeps h2)); clear_value v3; exact (.ite (PKeeps.fst h3) (State.opFailed_keeps (PKeeps.fst h3)))) (State.issueOp_keeps h2))]))))

theorem State.remoteSync_keeps {z s : State} {a1 a2 a3} (h : Keeps z s) : PKeeps z (State.remoteSync s a1 a2 a3) := by
  unfold State.remoteSync
  extract_lets -merge -useContext -underBinder +onlyGivenNames v1
  clear_value v1
  split <;> [exact (PKeeps.mk (State.bump_keeps h)); exact (by extract_lets -merge -useContext -underBinder +onlyGivenNames v2; clear_value v2; exact (by extract_lets -merge -useContext -underBinder +onlyGivenNames v3; have h3 : Keeps z v3 := (by unfold v3; exact (State.bump_keeps h)); clear_value v3; exact (by split <;> [exact (PKeeps.mk (State.countPool_keeps h3)); exact (PKeeps.mk (State.syncStore_keeps h3)); exact (PKeeps.mk (State.syncAdd_keeps h3)); exact (PKeeps.mk (State.syncCas_keeps h3))])))]

theorem State.syncRemote_keeps {z s : State} {a1 a2 a3 a4 a5} (h : Keeps z s) : Keeps z (State.syncRemote s a1 a2 a3 a4 a5) := by
  unfold State.syncRemote
  split <;> [exact (State.opFailed_keeps h); exact (by extract_lets -merge -useContext -underBinder +onlyGivenNames v1; clear_value v1; exact (.ite (by extract_lets -merge -useContext -underBinder +onlyGivenNames v2; have h2 : PKeeps z v2 := (by unfold v2; exact (State.remoteSync_keeps h)); clear_value v2; exact (.ite (State.opFailed_keeps (PKeeps.fst h2)) (State.when_keeps (PKeeps.fst h2) (fun h3 => (State.returns_keeps h3))))) (State.issueOp_keeps h)))]

theorem State.syncHere_keeps {z s : State} {a1 a2 a3 a4} (h : Keeps z s) : Keeps z (State.syncHere s a1 a2 a3 a4) := by
  unfold State.syncHere
  extract_lets -merge -useContext -underBinder +onlyGivenNames v1 v2
  clear_value v1 v2
  split <;> [exact (State.returns_keeps (State.countPool_keeps h)); exact (State.syncStore_keeps h); exact (State.returns_keeps (State.syncAdd_keeps h)); exact (State.returns_keeps (State.syncCas_keeps h))]

theorem State.syncOp_keeps {z s : State} {a1 a2 a3 a4} (h : Keeps z s) : Keeps z (State.syncOp s a1 a2 a3 a4) := by
  unfold State.syncOp
  exact State.when_keeps h (fun h1 => (by split <;> [exact (State.when_keeps h1 (fun h2 => (State.syncHere_keeps h2))); exact (State.syncRemote_keeps h1)]))

theorem execSyncLoad_keeps {s : State} {a0 a1 a2 a3} : Answered s (execSyncLoad a0 a1 a2 a3 s) :=
  .answer (fun h1 => (State.syncOp_keeps h1))

theorem execSyncStore_keeps {s : State} {a0 a1 a2 a3 a4} : Answered s (execSyncStore a0 a1 a2 a3 a4 s) :=
  .answer (fun h1 => (State.syncOp_keeps h1))

theorem execSyncAdd_keeps {s : State} {a0 a1 a2 a3 a4} : Answered s (execSyncAdd a0 a1 a2 a3 a4 s) :=
  .answer (fun h1 => (State.syncOp_keeps h1))

theorem execSyncCas_keeps {s : State} {a0 a1 a2 a3 a4 a5} : Answered s (execSyncCas a0 a1 a2 a3 a4 a5 s) :=
  .answer (fun h1 => (State.syncOp_keeps h1))

theorem execPresenceProbe_keeps {s : State} {a0 a1 a2} : Answered s (execPresenceProbe a0 a1 a2 s) := by
  unfold execPresenceProbe
  exact .answer (fun h1 => (State.when_keeps h1 (fun h2 => (by extract_lets -merge -useContext -underBinder +onlyGivenNames v3; clear_value v3; exact (by extract_lets -merge -useContext -underBinder +onlyGivenNames v4; have h4 : Keeps s v4 := (by unfold v4; exact (State.setLink_keeps h2)); clear_value v4; exact (.ite (State.updLink_keeps h4) (.ite (State.updLink_keeps h4) h4)))))))

theorem execDetectDebounceEnd_keeps {s : State} {a0 a1} : Answered s (execDetectDebounceEnd a0 a1 s) := by
  unfold execDetectDebounceEnd
  exact .answer (fun h1 => (by extract_lets -merge -useContext -underBinder +onlyGivenNames v2; clear_value v2; exact (State.when_keeps h1 (fun h3 => (State.setLink_keeps h3)))))

theorem execPresenceLoss_keeps {s : State} {a0 a1} : Answered s (execPresenceLoss a0 a1 s) :=
  .answer (fun h1 => (State.when_keeps h1 (fun h2 => (State.linkDown_keeps (State.updLink_keeps h2)))))

theorem State.sendHello_keeps {z s : State} {a1 a2 a3} (h : Keeps z s) : Keeps z (State.sendHello s a1 a2 a3) := by
  unfold State.sendHello
  extract_lets -merge -useContext -underBinder +onlyGivenNames v1 v2
  clear_value v1 v2
  exact State.emit_keeps (State.tick_keeps h)

theorem execTrainComplete_keeps {s : State} {a0 a1 a2} : Answered s (execTrainComplete a0 a1 a2 s) := by
  unfold execTrainComplete
  exact .answer (fun h1 => (by extract_lets -merge -useContext -underBinder +onlyGivenNames v2; clear_value v2; exact (State.when_keeps h1 (fun h3 => (State.sendHello_keeps (State.setLink_keeps h3))))))

theorem execTrainTimeout_keeps {s : State} {a0 a1} : Answered s (execTrainTimeout a0 a1 s) := by
  unfold execTrainTimeout
  exact .answer (fun h1 => (by extract_lets -merge -useContext -underBinder +onlyGivenNames v2; clear_value v2; exact (.ite (.ite (State.hold_keeps h1) (State.setLink_keeps h1)) (.ite (by extract_lets -merge -useContext -underBinder +onlyGivenNames v3; clear_value v3; exact (.ite (State.hold_keeps h1) (State.setLink_keeps h1))) h1))))

theorem State.takeAddress_keeps {z s : State} {a1} (h : Keeps z s) : Keeps z (State.takeAddress s a1) := by
  unfold State.takeAddress
  exact .ite (by extract_lets -merge -useContext -underBinder +onlyGivenNames v1; clear_value v1; exact (State.setReg_keeps (State.setNum_keeps (State.setNum_keeps h)))) h

theorem State.admitLink_keeps {z s : State} {a1 a2} (h : Keeps z s) : Keeps z (State.admitLink s a1 a2) := by
  unfold State.admitLink
  extract_lets -merge -useContext -underBinder +onlyGivenNames v1
  have h1 : Keeps z v1 := (by unfold v1; exact (State.takeAddress_keeps h))
  clear_value v1
  extract_lets -merge -useContext -underBinder +onlyGivenNames u2_0 v2
  have h2 : Keeps z v2 := (by unfold v2; exact (.of h1 rfl))
  clear_value v2
  exact State.fabStatus_keeps (State.setNum_keeps (State.updLink_keeps h2))

theorem execHelloReceived_keeps {s : State} {a0 a1 a2} : Answered s (execHelloReceived a0 a1 a2 s) := by
  unfold execHelloReceived
  exact .answer (fun h1 => (by extract_lets -merge -useContext -underBinder +onlyGivenNames v2; clear_value v2; exact (by extract_lets -merge -useContext -underBinder +onlyGivenNames v3; clear_value v3; exact (.ite (.ite (State.sendHello_keeps (State.setLink_keeps h1)) (.ite h1 (.ite (State.linkDown_keeps h1) (by split <;> [exact (State.hold_keeps (State.when_keeps h1 (fun h4 => (State.raise_keeps h4)))); exact (State.admitLink_keeps h1)])))) (.ite (State.setLink_keeps h1) h1)))))

theorem execHelloTimeout_keeps {s : State} {a0 a1} : Answered s (execHelloTimeout a0 a1 s) := by
  unfold execHelloTimeout
  exact .answer (fun h1 => (by extract_lets -merge -useContext -underBinder +onlyGivenNames v2; clear_value v2; exact (State.when_keeps h1 (fun h3 => (State.setLink_keeps h3)))))

theorem State.replay_keeps {z s : State} {a1 a2} (h : Keeps z s) : Keeps z (State.replay s a1 a2) := by
  unfold State.replay
  extract_lets -merge -useContext -underBinder +onlyGivenNames v1 v2 v3
  clear_value v1 v2 v3
  extract_lets -merge -useContext -underBinder +onlyGivenNames v4
  have h4 : Keeps z v4 := (by unfold v4; exact (State.bumpLink_keeps (State.setLink_keeps h)))
  clear_value v4
  exact .ite (State.enterRetrain_keeps h4) (State.each_keeps h4 (fun h5 => (State.emit_keeps h5)))

theorem execLinkCtrlReceived_keeps {s : State} {a0 a1 a2 a3 a4} : Answered s (execLinkCtrlReceived a0 a1 a2 a3 a4 s) := by
  unfold execLinkCtrlReceived
  exact .answer (fun h1 => (by extract_lets -merge -useContext -underBinder +onlyGivenNames v2; clear_value v2; exact (by extract_lets -merge -useContext -underBinder +onlyGivenNames v3; clear_value v3; exact (State.when_keeps h1 (fun h4 => (by extract_lets -merge -useContext -underBinder +onlyGivenNames v5; clear_value v5; exact (by extract_lets -merge -useContext -underBinder +onlyGivenNames v6; have h6 : Keeps s v6 := (by unfold v6; exact (State.setLink_keeps h4)); clear_value v6; exact (by extract_lets -merge -useContext -underBinder +onlyGivenNames v7; have h7 : Keeps s v7 := (by unfold v7; exact (by split <;> [exact h6; exact (State.replay_keeps h6)])); clear_value v7; exact (State.sendWaiting_keeps h7)))))))))

theorem execLinkSilence_keeps {s : State} {a0 a1} : Answered s (execLinkSilence a0 a1 s) :=
  .answer (fun h1 => (State.when_keeps h1 (fun h2 => (State.enterRetrain_keeps h2))))

theorem execLinkAckTimer_keeps {s : State} {a0 a1} : Answered s (execLinkAckTimer a0 a1 s) := by
  unfold execLinkAckTimer
  exact .answer (fun h1 => (by extract_lets -merge -useContext -underBinder +onlyGivenNames v2; clear_value v2; exact (State.when_keeps h1 (fun h3 => (State.sendLinkCtrl_keeps h3)))))

theorem State.arrival_keeps {z s : State} {a1 a2 a3 a4 a5 a6} (h : Keeps z s) (hf6 : ∀ {t : State}, Keeps z t → Keeps z (a6 t)) : Keeps z (State.arrival s a1 a2 a3 a4 a5 a6) := by
  unfold State.arrival
  extract_lets -merge -useContext -underBinder +onlyGivenNames v1
  have h1 : PKeeps z v1 := (by unfold v1; exact (State.accept_keeps h))
  clear_value v1
  exact .ite (PKeeps.fst h1) (by extract_lets -merge -useContext -underBinder +onlyGivenNames v2; have h2 : Keeps z v2 := (by unfold v2; exact (by split <;> [exact (PKeeps.fst h1); exact (State.bcastForward_keeps (PKeeps.fst h1))])); clear_value v2; exact (.ite (State.exitPower_keeps (.of h2 rfl)) (hf6 (State.freeBuf_keeps h2))))

theorem State.rootSysver_keeps {z s : State}  (h : Keeps z s) : Keeps z (State.rootSysver s) := by
  unfold State.rootSysver
  extract_lets -merge -useContext -underBinder +onlyGivenNames v1
  clear_value v1
  exact .ite (.of h rfl) h

theorem execLsuReceived_keeps {s : State} {a0 a1 a2 a3} : Answered s (execLsuReceived a0 a1 a2 a3 s) := by
  unfold execLsuReceived
  exact .answer (fun h1 => (State.arrival_keeps h1 (fun h2 => (by extract_lets -merge -useContext -underBinder +onlyGivenNames v3; clear_value v3; exact (State.when_keeps h2 (fun h4 => (by extract_lets -merge -useContext -underBinder +onlyGivenNames v5; clear_value v5; exact (by extract_lets -merge -useContext -underBinder +onlyGivenNames u6_0 u6_1 v6; have h6 : Keeps s v6 := (by unfold v6; exact (.of (State.bump_keeps h4) rfl)); clear_value v6; exact (by extract_lets -merge -useContext -underBinder +onlyGivenNames v7; clear_value v7; exact (State.fabStatus_keeps (State.rootSysver_keeps (State.each_keeps h6 (fun h8 => (State.sendCtrl_keeps h8))))))))))))))

theorem execDelayExchange_keeps {s : State} {a0 a1} : Answered s (execDelayExchange a0 a1 s) := by
  unfold execDelayExchange
  exact .answer (fun h1 => (by extract_lets -merge -useContext -underBinder +onlyGivenNames v2; clear_value v2; exact (State.when_keeps h1 (fun h3 => (State.sendCtrl_keeps h3)))))

theorem execDelayReceived_keeps {s : State} {a0 a1 a2 a3 a4 a5 a6} : Answered s (execDelayReceived a0 a1 a2 a3 a4 a5 a6 s) :=
  .answer (fun h1 => (State.arrival_keeps h1 (fun h2 => (State.setNum_keeps h2))))

theorem State.takeSyncReq_keeps {z s : State} {a1 a2 a3 a4} (h : Keeps z s) : Keeps z (State.takeSyncReq s a1 a2 a3 a4) := by
  unfold State.takeSyncReq
  extract_lets -merge -useContext -underBinder +onlyGivenNames v1
  have h1 : PKeeps z v1 := (by unfold v1; exact (State.remoteSync_keeps h))
  clear_value v1
  exact OKeeps.getD (State.routePkt_keeps (PKeeps.fst h1)) (PKeeps.fst h1)

theorem State.takeWrite_keeps {z s : State} {a1 a2 a3 a4 a5 a6} (h : Keeps z s) : Keeps z (State.takeWrite s a1 a2 a3 a4 a5 a6) :=
  State.ackTo_keeps (State.bufWrite_keeps h)

theorem State.takeReduceAdd_keeps {z s : State} {a1 a2 a3 a4 a5 a6} (h : Keeps z s) : Keeps z (State.takeReduceAdd s a1 a2 a3 a4 a5 a6) := by
  unfold State.takeReduceAdd
  extract_lets -merge -useContext -underBinder +onlyGivenNames v1
  have h1 : PKeeps z v1 := (by unfold v1; exact (State.bufAdd_keeps h))
  clear_value v1
  exact State.ackTo_keeps (PKeeps.fst h1)

theorem execSyncReqReceived_keeps {s : State} {a0 a1 a2 a3 a4 a5} : Answered s (execSyncReqReceived a0 a1 a2 a3 a4 a5 s) :=
  .answer (fun h1 => (State.arrival_keeps h1 (fun h2 => (State.takeSyncReq_keeps h2))))

theorem execSyncRespReceived_keeps {s : State} {a0 a1 a2 a3 a4 a5} : Answered s (execSyncRespReceived a0 a1 a2 a3 a4 a5 s) := by
  unfold execSyncRespReceived
  exact .answer (fun h1 => (State.arrival_keeps h1 (fun h2 => (by extract_lets -merge -useContext -underBinder +onlyGivenNames v3; have h3 : Keeps s v3 := (by unfold v3; exact (State.opDone_keeps h2)); clear_value v3; exact (by split <;> [exact h3; exact (State.when_keeps h3 (fun h4 => (State.returns_keeps h4)))])))))

theorem execWriteReceived_keeps {s : State} {a0 a1 a2 a3 a4 a5 a6} : Answered s (execWriteReceived a0 a1 a2 a3 a4 a5 a6 s) :=
  .answer (fun h1 => (State.arrival_keeps h1 (fun h2 => (State.takeWrite_keeps h2))))

theorem execReduceAddReceived_keeps {s : State} {a0 a1 a2 a3 a4 a5 a6} : Answered s (execReduceAddReceived a0 a1 a2 a3 a4 a5 a6 s) :=
  .answer (fun h1 => (State.arrival_keeps h1 (fun h2 => (State.takeReduceAdd_keeps h2))))

theorem execAckReceived_keeps {s : State} {a0 a1 a2 a3 a4} : Answered s (execAckReceived a0 a1 a2 a3 a4 s) :=
  .answer (fun h1 => (State.arrival_keeps h1 (fun h2 => (State.opDone_keeps h2))))

theorem execOpTimeout_keeps {s : State} {a0 a1} : Answered s (execOpTimeout a0 a1 s) := by
  unfold execOpTimeout
  exact .answer (fun h1 => (by split <;> [exact h1; exact (State.when_keeps h1 (fun h2 => (State.opDone_keeps h2)))]))

theorem State.mapRead_keeps {z s : State} {a1} (h : Keeps z s) : Keeps z (State.mapRead s a1) := by
  unfold State.mapRead
  extract_lets -merge -useContext -underBinder +onlyGivenNames v1 v2 v3
  clear_value v1 v2 v3
  exact .ite h (by extract_lets -merge -useContext -underBinder +onlyGivenNames v4; clear_value v4; exact (by extract_lets -merge -useContext -underBinder +onlyGivenNames u5_0 u5_1 v5; have h5 : Keeps z v5 := (by unfold v5; exact (.of (State.setNum_keeps h) rfl)); clear_value v5; exact (by split <;> [exact (State.fabStatus_keeps (State.sendLsu_keeps (State.rootSelf_keeps (State.setNum_keeps (State.setNum_keeps (State.setNum_keeps (.of h5 rfl))))))); exact (State.fabStatus_keeps (State.setNum_keeps (.of h5 rfl)))])))

theorem execPacketCrcFail_keeps {s : State} {a0 a1 a2} : Answered s (execPacketCrcFail a0 a1 a2 s) := by
  unfold execPacketCrcFail
  exact .answer (fun h1 => (by extract_lets -merge -useContext -underBinder +onlyGivenNames v2; clear_value v2; exact (by extract_lets -merge -useContext -underBinder +onlyGivenNames v3; clear_value v3; exact (State.when_keeps h1 (fun h4 => (by extract_lets -merge -useContext -underBinder +onlyGivenNames v5; have h5 : Keeps s v5 := (by unfold v5; exact (by split <;> [exact (State.bumpLink_keeps h4); exact (State.bumpLink_keeps (State.bumpLink_keeps h4)); exact h4])); clear_value v5; exact (State.sendLinkCtrl_keeps h5)))))))

theorem execReservedTypePacket_keeps {s : State} {a0 a1 a2 a3} : Answered s (execReservedTypePacket a0 a1 a2 a3 s) :=
  .answer (fun h1 => (State.when_keeps h1 (fun h2 => (State.arrival_keeps h2 (fun h3 => (State.bump_keeps h3))))))

theorem State.takeTransit_keeps {z s : State} {a1 a2 a3 a4 a5 a6} (h : Keeps z s) : Keeps z (State.takeTransit s a1 a2 a3 a4 a5 a6) := by
  unfold State.takeTransit
  extract_lets -merge -useContext -underBinder +onlyGivenNames v1
  clear_value v1
  exact .ite (by split <;> [exact h; exact (State.forward_keeps h)]) (State.forward_keeps h)

theorem execTransitPacket_keeps {s : State} {a0 a1 a2 a3 a4 a5 a6} : Answered s (execTransitPacket a0 a1 a2 a3 a4 a5 a6 s) :=
  .answer (fun h1 => (State.arrival_keeps h1 (fun h2 => (State.takeTransit_keeps h2))))

/-! ResilOps -/

theorem State.updWslot_keeps {z s : State} {a1 a2} (h : Keeps z s) : Keeps z (State.updWslot s a1 a2) :=
  .ite (.of h rfl) (.of h rfl)

theorem State.updPslot_keeps {z s : State} {a1 a2} (h : Keeps z s) : Keeps z (State.updPslot s a1 a2) :=
  .ite (.of h rfl) (.of h rfl)

theorem State.updPan_keeps {z s : State} {a1 a2} (h : Keeps z s) : Keeps z (State.updPan s a1 a2) :=
  .chg h rfl (fun c => { c with pans := Pool.wf_upd _ _ c.pans })

theorem State.tellFailed_keeps {z s : State}  (h : Keeps z s) : Keeps z (State.tellFailed s) := by
  unfold State.tellFailed
  extract_lets -merge -useContext -underBinder +onlyGivenNames v1
  clear_value v1
  exact State.each_keeps h (fun h2 => (State.raise_keeps h2))

theorem State.closeLoad_keeps {z s : State}  (h : Keeps z s) : Keeps z (State.closeLoad s) :=
  State.when_keeps h (fun h1 => (State.setF_keeps (State.setF_keeps h1)))

theorem State.closeAll_keeps {z s : State} {a1} (h : Keeps z s) : Keeps z (State.closeAll s a1) := by
  unfold State.closeAll
  extract_lets -merge -useContext -underBinder +onlyGivenNames v1
  have h1 : Keeps z v1 := (by unfold v1; exact (State.closeLoad_keeps (State.tellFailed_keeps h)))
  clear_value v1
  extract_lets -merge -useContext -underBinder +onlyGivenNames v2
  clear_value v2
  exact .chg h1 rfl (fun c => { c with mem := Cells.wf_clear _ _ c.mem, pans := Pool.wf_map _ c.pans, cores := Pool.wf_map _ c.cores, qps := Pool.wf_map _ c.qps })

theorem State.keepAdmin_keeps {z s : State} {a1} (h : Keeps z s) : Keeps z (State.keepAdmin s a1) := by
  unfold State.keepAdmin
  extract_lets -merge -useContext -underBinder +onlyGivenNames v1
  clear_value v1
  exact State.updQp_keeps h

theorem State.enterSafe_keeps {z s : State} {a1 a2} (h : Keeps z s) : Keeps z (State.enterSafe s a1 a2) := by
  unfold State.enterSafe
  exact .ite (by extract_lets -merge -useContext -underBinder +onlyGivenNames v1; have h1 : Keeps z v1 := (by unfold v1; exact (State.raise_keeps (State.setDevState_keeps (State.setF_keeps h)))); clear_value v1; exact (State.keepAdmin_keeps (State.closeAll_keeps (State.shutRecord_keeps (State.snapTrigger_keeps (State.event_keeps h1)))))) h

theorem State.uncontained_keeps {z s : State} {a1 a2 a3 a4} (h : Keeps z s) : Keeps z (State.uncontained s a1 a2 a3 a4) :=
  State.enterSafe_keeps (State.faultRec_keeps h)

theorem State.lastFault_keeps {z s : State} {a1 a2} (h : Keeps z s) : Keeps z (State.lastFault s a1 a2) :=
  State.updPhys_keeps h

theorem State.listRetired_keeps {z s : State} {a1} (h : Keeps z s) : Keeps z (State.listRetired s a1) :=
  .ite (.of h rfl) (State.raise_keeps h)

theorem State.unstage_keeps {z s : State}  (h : Keeps z s) : Keeps z (State.unstage s) := by
  unfold State.unstage
  extract_lets -merge -useContext -underBinder +onlyGivenNames v1
  clear_value v1
  exact .of h rfl

theorem State.moveStaged_keeps {z s : State} {a1 a2} (h : Keeps z s) : Keeps z (State.moveStaged s a1 a2) := by
  unfold State.moveStaged
  extract_lets -merge -useContext -underBinder +onlyGivenNames v1 v2
  clear_value v1 v2
  extract_lets -merge -useContext -underBinder +onlyGivenNames u3_0 u3_1 v3
  have h3 : Keeps z v3 := (by unfold v3; exact (.of h rfl))
  clear_value v3
  exact State.each_keeps h3 (fun h4 => (by extract_lets -merge -useContext -underBinder +onlyGivenNames v5; clear_value v5; exact (by extract_lets -merge -useContext -underBinder +onlyGivenNames v6; have h6 : Keeps z v6 := (by unfold v6; exact (State.updPan_keeps h4)); clear_value v6; exact (State.when_keeps h6 (fun h7 => (State.updPan_keeps h7))))))

theorem State.clearPans_keeps {z s : State} {a1} (h : Keeps z s) : Keeps z (State.clearPans s a1) :=
  State.each_keeps h (fun h1 => (State.updPan_keeps h1))

theorem State.moveActive_keeps {z s : State} {a1 a2} (h : Keeps z s) : Keeps z (State.moveActive s a1 a2) := by
  unfold State.moveActive
  exact State.each_keeps h (fun h1 => (by extract_lets -merge -useContext -underBinder +onlyGivenNames v2; clear_value v2; exact (State.updPan_keeps h1)))

theorem State.replace_keeps {z s : State} {k core} (h : Keeps z s) : PKeeps z (s.replace k core) := by
  unfold State.replace
  extract_lets -merge -useContext -underBinder +onlyGivenNames p
  cases List.find? (fun e => e.goal == core) p.place with
  | none => exact PKeeps.mk h
  | some e =>
    dsimp -zeta only
    extract_lets -merge -useContext -underBinder +onlyGivenNames t p' u u' w
    have hw : Keeps z w := by
      unfold w
      exact .ite (h.of rfl) (h.of rfl)
    clear_value w
    refine PKeeps.ite (PKeeps.mk hw) ?_
    extract_lets x
    have hx : Keeps z x := State.when_keeps hw (fun k => State.clearPans_keeps k)
    clear_value x
    cases t with
    | none => exact PKeeps.mk hx
    | some t => exact PKeeps.mk (State.moveActive_keeps hx)

theorem State.countReplace_keeps {z s : State} {a1} (h : Keeps z s) : Keeps z (State.countReplace s a1) :=
  State.when_keeps h (fun h1 => (State.bump_keeps h1))

theorem State.degrade_keeps {z s : State} {a1 a2} (h : Keeps z s) : Keeps z (State.degrade s a1 a2) := by
  unfold State.degrade
  exact .ite h (by extract_lets -merge -useContext -underBinder +onlyGivenNames u1_0 v1; have h1 : Keeps z v1 := (by unfold v1; exact (State.raise_keeps (State.faultRec_keeps (.of h rfl)))); clear_value v1; exact (by extract_lets -merge -useContext -underBinder +onlyGivenNames v2; have h2 : Keeps z v2 := (by unfold v2; exact (State.countReplace_keeps h1)); clear_value v2; exact (by extract_lets -merge -useContext -underBinder +onlyGivenNames v3; have h3 : Keeps z v3 := (by unfold v3; exact (State.each_keeps h2 (fun h4 => (State.when_keeps h4 (fun h5 => (State.updPan_keeps h5)))))); clear_value v3; exact (by split <;> [(rename_i hq; have h4 := PKeeps.fst' (State.replace_keeps h3) hq; exact (by split <;> [(rename_i hq; have h5 := PKeeps.fst' (State.replace_keeps h4) hq; exact (by split <;> [exact (by split <;> [exact h5; exact (State.moveStaged_keeps h5)])]))]))]))))

theorem State.remap_keeps {z s : State} {a1 a2} (h : Keeps z s) : Keeps z (State.remap s a1 a2) := by
  unfold State.remap
  extract_lets -merge -useContext -underBinder +onlyGivenNames v1
  have h1 : Keeps z v1 := (by unfold v1; exact (State.unstage_keeps h))
  clear_value v1
  split <;> [exact (State.each_keeps (State.updPhys_keeps (State.countReplace_keeps h1)) (fun h2 => (State.updPan_keeps h2))); exact (State.degrade_keeps h1)]

theorem State.retire_keeps {z s : State} {a1 a2} (h : Keeps z s) : Keeps z (State.retire s a1 a2) := by
  unfold State.retire
  exact .ite h (by extract_lets -merge -useContext -underBinder +onlyGivenNames v1; clear_value v1; exact (by extract_lets -merge -useContext -underBinder +onlyGivenNames v2; clear_value v2; exact (by extract_lets -merge -useContext -underBinder +onlyGivenNames v3; have h3 : Keeps z v3 := (by unfold v3; exact (by split <;> [exact h; exact (State.when_keeps h (fun h4 => (State.voidAll_keeps h4)))])); clear_value v3; exact (by extract_lets -merge -useContext -underBinder +onlyGivenNames v4; have h4 : Keeps z v4 := (by unfold v4; exact (State.updPhys_keeps h3)); clear_value v4; exact (by extract_lets -merge -useContext -underBinder +onlyGivenNames v5; have h5 : Keeps z v5 := (by unfold v5; exact (State.raise_keeps (State.faultRec_keeps (State.listRetired_keeps (State.bump_keeps h4))))); clear_value v5; exact (by split <;> [exact h5; exact (.ite h5 (State.remap_keeps h5))]))))))

theorem State.charge_keeps {z s : State} {a1 a2} (h : Keeps z s) : Keeps z (State.charge s a1 a2) := by
  unfold State.charge
  exact .ite h (by extract_lets -merge -useContext -underBinder +onlyGivenNames v1; clear_value v1; exact (by extract_lets -merge -useContext -underBinder +onlyGivenNames v2; have h2 : Keeps z v2 := (by unfold v2; exact (State.lastFault_keeps (State.updPhys_keeps h))); clear_value v2; exact (.ite (State.retire_keeps h2) h2)))

theorem State.panEvent_keeps {z s : State} {a1 a2 a3 a4 a5 a6} (h : Keeps z s) : Keeps z (State.panEvent s a1 a2 a3 a4 a5 a6) := by
  unfold State.panEvent
  extract_lets -merge -useContext -underBinder +onlyGivenNames v1
  have h1 : Keeps z v1 := (by unfold v1; exact (State.faultRec_keeps h))
  clear_value v1
  split <;> [exact h1; exact (State.charge_keeps h1)]

theorem State.suspectPan_keeps {z s : State} {a1} (h : Keeps z s) : Keeps z (State.suspectPan s a1) := by
  unfold State.suspectPan
  split <;> [exact h; exact (State.updPhys_keeps h)]

theorem State.satFault_keeps {z s : State} {a1 a2 a3 a4} (h : Keeps z s) : Keeps z (State.satFault s a1 a2 a3 a4) :=
  State.panEvent_keeps (State.voidAll_keeps (State.event_keeps h))

theorem State.chkTrip_keeps {z s : State} {a1 a2 a3} (h : Keeps z s) : Keeps z (State.chkTrip s a1 a2 a3) := by
  unfold State.chkTrip
  extract_lets -merge -useContext -underBinder +onlyGivenNames v1 v2
  clear_value v1 v2
  extract_lets -merge -useContext -underBinder +onlyGivenNames v3
  have h3 : Keeps z v3 := (by unfold v3; exact (State.updPan_keeps (State.voidAll_keeps h)))
  clear_value v3
  extract_lets -merge -useContext -underBinder +onlyGivenNames v4
  have h4 : Keeps z v4 := (by unfold v4; exact (State.faultRec_keeps (State.bump_keeps h3)))
  clear_value v4
  extract_lets -merge -useContext -underBinder +onlyGivenNames u5_0 v5
  have h5 : Keeps z v5 := (by unfold v5; exact (.of h4 rfl))
  clear_value v5
  exact .ite (State.panEvent_keeps h5) h5

/-! LoadOps -/

theorem State.releaseBounce_keeps {z s : State}  (h : Keeps z s) : Keeps z (State.releaseBounce s) := by
  unfold State.releaseBounce
  extract_lets -merge -useContext -underBinder +onlyGivenNames v1
  clear_value v1
  exact .ite h (by extract_lets -merge -useContext -underBinder +onlyGivenNames v2; clear_value v2; exact (by extract_lets -merge -useContext -underBinder +onlyGivenNames v3; clear_value v3; exact (State.each_keeps (.of h rfl) (fun h4 => (State.clearParts_keeps h4)))))

theorem State.startHold_keeps {z s : State}  (h : Keeps z s) : Keeps z (State.startHold s) := by
  unfold State.startHold
  split <;> [exact h; exact (.of h rfl)]

theorem State.failLoad_keeps {z s : State} {a1 a2} (h : Keeps z s) : Keeps z (State.failLoad s a1 a2) := by
  unfold State.failLoad
  split <;> [exact h; exact (by extract_lets -merge -useContext -underBinder +onlyGivenNames u1_0 v1; have h1 : Keeps z v1 := (by unfold v1; exact (.of h rfl)); clear_value v1; exact (by extract_lets -merge -useContext -underBinder +onlyGivenNames v2; have h2 : Keeps z v2 := (by unfold v2; exact (.ite h1 (State.clearShards_keeps (State.updWslot_keeps h1)))); clear_value v2; exact (by extract_lets -merge -useContext -underBinder +onlyGivenNames v3; have h3 : Keeps z v3 := (by unfold v3; exact (State.clearParts_keeps (State.clearShards_keeps h2))); clear_value v3; exact (by extract_lets -merge -useContext -underBinder +onlyGivenNames v4; have h4 : Keeps z v4 := (by unfold v4; exact (State.setF_keeps (State.setF_keeps (State.setF_keeps h3)))); clear_value v4; exact (by extract_lets -merge -useContext -underBinder +onlyGivenNames v5; have h5 : Keeps z v5 := (by unfold v5; exact (State.when_keeps h4 (fun h6 => (State.bcast_keeps h6)))); clear_value v5; exact (State.startHold_keeps (State.event_keeps (State.raise_keeps h5))))))))]

theorem State.failPlan_keeps {z s : State} {a1} (h : Keeps z s) : Keeps z (State.failPlan s a1) := by
  unfold State.failPlan
  split <;> [exact h; exact (by extract_lets -merge -useContext -underBinder +onlyGivenNames u1_0 v1; have h1 : Keeps z v1 := (by unfold v1; exact (State.updPslot_keeps (.of h rfl))); clear_value v1; exact (State.raise_keeps (State.setF_keeps (State.setF_keeps h1))))]

/-! Resilience -/

theorem State.forceRefresh_keeps {z s : State} {a1} (h : Keeps z s) : Keeps z (State.forceRefresh s a1) := by
  unfold State.forceRefresh
  split <;> [exact h; exact (State.updPan_keeps h)]

theorem State.gradeFail_keeps {z s : State} {a1 a2 a3} (h : Keeps z s) : Keeps z (State.gradeFail s a1 a2 a3) := by
  unfold State.gradeFail
  extract_lets -merge -useContext -underBinder +onlyGivenNames v1
  have h1 : Keeps z v1 := (by unfold v1; exact (State.raise_keeps (State.bump_keeps h)))
  clear_value v1
  extract_lets -merge -useContext -underBinder +onlyGivenNames v2
  have h2 : Keeps z v2 := (by unfold v2; exact (by split <;> [exact h1; exact (State.updPhys_keeps h1)]))
  clear_value v2
  extract_lets -merge -useContext -underBinder +onlyGivenNames v3
  have h3 : Keeps z v3 := (by unfold v3; exact (State.suspectPan_keeps (State.voidAll_keeps h2)))
  clear_value v3
  exact State.panEvent_keeps (State.forceRefresh_keeps h3)

theorem execGradeVerdict_keeps {s : State} {a0 a1} : Answered s (execGradeVerdict a0 a1 s) := by
  unfold execGradeVerdict
  exact .answer (fun h1 => (by split <;> [exact h1; exact (by extract_lets -merge -useContext -underBinder +onlyGivenNames v2; clear_value v2; exact (by extract_lets -merge -useContext -underBinder +onlyGivenNames v3; have h3 : Keeps s v3 := (by unfold v3; exact (State.ctx3_keeps (State.updPan_keeps h1))); clear_value v3; exact (by extract_lets -merge -useContext -underBinder +onlyGivenNames v4; have h4 : Keeps s v4 := (by unfold v4; exact (State.bump_keeps (State.releaseBounce_keeps h3))); clear_value v4; exact (by extract_lets -merge -useContext -underBinder +onlyGivenNames v5; have h5 : Keeps s v5 := (by unfold v5; exact (by split <;> [exact h4; exact (State.updPhys_keeps h4)])); clear_value v5; exact (.ite h5 (State.gradeFail_keeps h5))))))]))

theorem State.sweepBeds_keeps {z s : State} {a1} (h : Keeps z s) : Keeps z (State.sweepBeds s a1) := by
  unfold State.sweepBeds
  exact State.each_keeps h (fun h1 => (by extract_lets -merge -useContext -underBinder +onlyGivenNames v2; clear_value v2; exact (State.when_keeps (State.updPan_keeps h1) (fun h3 => (State.bump_keeps h3)))))

theorem execSweepRun_keeps {s : State} {a0 a1 a2} : Answered s (execSweepRun a0 a1 a2 s) := by
  unfold execSweepRun
  exact .answer (fun h1 => (by extract_lets -merge -useContext -underBinder +onlyGivenNames v2; clear_value v2; exact (State.when_keeps h1 (fun h3 => (by extract_lets -merge -useContext -underBinder +onlyGivenNames v4; have h4 : Keeps s v4 := (by unfold v4; exact (State.updPhys_keeps (State.updPhys_keeps h3))); clear_value v4; exact (by extract_lets -merge -useContext -underBinder +onlyGivenNames v5; have h5 : Keeps s v5 := (by unfold v5; exact (by split <;> [exact h4; exact (State.sweepBeds_keeps h4)])); clear_value v5; exact (State.testCtx_keeps h5)))))))

theorem State.sweepPassed_keeps {z s : State} {a1} (h : Keeps z s) : Keeps z (State.sweepPassed s a1) :=
  State.updPhys_keeps h

theorem State.sweepMismatch_keeps {z s : State}  (h : Keeps z s) : Keeps z (State.sweepMismatch s) :=
  State.raise_keeps (State.bump_keeps h)

theorem execSweepVerdict_keeps {s : State} {a0 a1 a2} : Answered s (execSweepVerdict a0 a1 a2 s) := by
  unfold execSweepVerdict
  exact .answer (fun h1 => (by split <;> [exact h1; exact (by extract_lets -merge -useContext -underBinder +onlyGivenNames v2; have h2 : Keeps s v2 := (by unfold v2; exact (State.updPhys_keeps (State.updPhys_keeps h1))); clear_value v2; exact (by extract_lets -merge -useContext -underBinder +onlyGivenNames v3; have h3 : Keeps s v3 := (by unfold v3; exact (by split <;> [exact h2; exact (State.each_keeps h2 (fun h4 => (State.updPan_keeps h4)))])); clear_value v3; exact (by extract_lets -merge -useContext -underBinder +onlyGivenNames v4; have h4 : Keeps s v4 := (by unfold v4; exact (State.testCtx_keeps h3)); clear_value v4; exact (by extract_lets -merge -useContext -underBinder +onlyGivenNames v5; have h5 : ∀ {t : State}, Keeps s t → Keeps s (v5 t) := (by intros; rename_i h0; unfold v5; exact (fun h6 => (State.updPhys_keeps (State.bump_keeps h6))) h0); clear_value v5; exact (by split <;> [exact (State.sweepPassed_keeps (h5 h4)); exact (State.updPhys_keeps h4); exact (by extract_lets -merge -useContext -underBinder +onlyGivenNames v6; have h6 : Keeps s v6 := (by unfold v6; exact (State.sweepMismatch_keeps (h5 h4))); clear_value v6; exact (by extract_lets -merge -useContext -underBinder +onlyGivenNames v7; have h7 : Keeps s v7 := (by unfold v7; exact (.ite (State.updPhys_keeps h6) (State.sweepPassed_keeps h6))); clear_value v7; exact (State.retire_keeps (State.lastFault_keeps (State.faultRec_keeps h7))))); exact (by extract_lets -merge -useContext -underBinder +onlyGivenNames v6; have h6 : Keeps s v6 := (by unfold v6; exact (State.updPhys_keeps (State.sweepMismatch_keeps (h5 h4)))); clear_value v6; exact (by extract_lets -merge -useContext -underBinder +onlyGivenNames v7; have h7 : Keeps s v7 := (by unfold v7; exact (by split <;> [exact h6; exact (State.forceRefresh_keeps (State.suspectPan_keeps (State.voidAll_keeps h6)))])); clear_value v7; exact (State.charge_keeps (State.faultRec_keeps h7))))])))))]))

theorem execConfigScrub_keeps {s : State} {a0 a1 a2} : Answered s (execConfigScrub a0 a1 a2 s) := by
  unfold execConfigScrub
  exact .answer (fun h1 => (State.when_keeps h1 (fun h2 => (State.each_keeps h2 (fun h3 => (by extract_lets -merge -useContext -underBinder +onlyGivenNames v4; clear_value v4; exact (by extract_lets -merge -useContext -underBinder +onlyGivenNames v5; have h5 : Keeps s v5 := (by unfold v5; exact (State.raise_keeps (State.bump_keeps h3))); clear_value v5; exact (by extract_lets -merge -useContext -underBinder +onlyGivenNames v6; have h6 : Keeps s v6 := (by unfold v6; exact (by split <;> [exact h5; exact (State.voidAll_keeps h5)])); clear_value v6; exact (State.charge_keeps (State.faultRec_keeps h6))))))))))

theorem State.kvDamaged_keeps {z s : State} {a1 a2 a3 a4 a5 a6 a7} (h : Keeps z s) : Keeps z (State.kvDamaged s a1 a2 a3 a4 a5 a6 a7) := by
  unfold State.kvDamaged
  extract_lets -merge -useContext -underBinder +onlyGivenNames v1
  have h1 : Keeps z v1 := (by unfold v1; exact (State.bump_keeps h))
  clear_value v1
  extract_lets -merge -useContext -underBinder +onlyGivenNames v2
  clear_value v2
  extract_lets -merge -useContext -underBinder +onlyGivenNames v3
  have h3 : Keeps z v3 := (by unfold v3; exact (State.faultRec_keeps h1))
  clear_value v3
  split <;> [exact h3; exact (by split <;> [exact h3; exact (State.zeroBlock_keeps h3)])]

theorem execMemoryError_keeps {s : State} {a0 a1 a2 a3} : Answered s (execMemoryError a0 a1 a2 a3 s) := by
  unfold execMemoryError
  exact .answer (fun h1 => (State.when_keeps h1 (fun h2 => (by extract_lets -merge -useContext -underBinder +onlyGivenNames v3; clear_value v3; exact (.ite (State.updPhys_keeps (State.bump_keeps h2)) (by extract_lets -merge -useContext -underBinder +onlyGivenNames v4; have h4 : Keeps s v4 := (by unfold v4; exact (State.raise_keeps (State.updPhys_keeps (State.bump_keeps h2)))); clear_value v4; exact (by extract_lets -merge -useContext -underBinder +onlyGivenNames v5; have h5 : ∀ {t : State} {x1}, Keeps s t → Keeps s (v5 t x1) := (by intros; rename_i h0; unfold v5; exact (fun h6 => (State.charge_keeps (State.faultRec_keeps (State.voidAll_keeps h6)))) h0); clear_value v5; exact (by split <;> [exact (h5 h4); exact (h5 h4); exact (h5 h4); exact (State.kvDamaged_keeps h4); exact (State.voidAll_keeps h4); exact (State.uncontained_keeps h4); exact (State.uncontained_keeps h4); exact (State.uncontained_keeps h4); exact (State.uncontained_keeps h4); exact (State.uncontained_keeps h4)]))))))))

theorem execUncontainedFault_keeps {s : State} {t k} : Answered s (execUncontainedFault t k s) := by
  unfold execUncontainedFault
  refine .answer (fun h1 => State.when_keeps h1 (fun h2 => ?_))
  cases k with
  | stackDown x => exact State.uncontained_keeps (State.setF_keeps h2)
  | ingress => exact State.uncontained_keeps h2
  | poolStore => exact State.uncontained_keeps h2
  | router c => exact State.uncontained_keeps ((State.setF_keeps h2).chg rfl
      (fun c => { c with clusters := Pool.wf_upd _ _ c.clusters }))
  | reduction c => exact State.uncontained_keeps ((State.setF_keeps h2).chg rfl
      (fun c => { c with clusters := Pool.wf_upd _ _ c.clusters }))

theorem State.hltRequest_keeps {z s : State}  (h : Keeps z s) : Keeps z (State.hltRequest s) := by
  unfold State.hltRequest
  extract_lets -merge -useContext -underBinder +onlyGivenNames v1 v2 v3 v4 v5
  clear_value v1 v2 v3 v4 v5
  extract_lets -merge -useContext -underBinder +onlyGivenNames u6_0 v6
  have h6 : Keeps z v6 := (by unfold v6; exact (.ite h (.ite (.of h rfl) (State.updPhys_keeps h))))
  clear_value v6
  exact State.raise_keeps (State.setF_keeps (State.setNum_keeps h6))

end Sys2Proof.Machine
end

