-- ==== Sys2Proof/Laws/KeepsWork.lean ====
section
/-! SUPPORT. `Keeps` (Keeps.lean) through products, beds, weights, plans, queue pairs, sessions and steps: one lemma for each operation, in the order
of the model's files; `Answered` for each meaning. -/

namespace Sys2Proof.Machine

/-! Products -/

theorem State.countPan_keeps {z s : State} {a1 a2 a3 a4 a5 a6} (h : Keeps z s) : Keeps z (State.countPan s a1 a2 a3 a4 a5 a6) :=
  State.bump_keeps (State.bump_keeps (State.bump_keeps h))

theorem State.demand_keeps {z s : State} {a1 a2 a3} (h : Keeps z s) : Keeps z (State.demand s a1 a2 a3) := by
  unfold State.demand
  exact .ite h (by extract_lets -merge -useContext -underBinder +onlyGivenNames v1; clear_value v1; exact (State.startHead_keeps (State.bump_keeps (State.bump_keeps (State.updHoist_keeps h)))))

theorem State.useDraw_keeps {z s : State} {a1} (h : Keeps z s) : Keeps z (State.useDraw s a1) :=
  .ite (State.updPan_keeps h) (State.updCore_keeps h)

theorem State.record_keeps {z s : State} {a1 a2 a3 a4} (h : Keeps z s) : Keeps z (State.record s a1 a2 a3 a4) := by
  unfold State.record
  extract_lets -merge -useContext -underBinder +onlyGivenNames v1
  have h1 : Keeps z v1 := (by unfold v1; exact (State.bump_keeps (State.moves_keeps (State.memWrite_keeps h))))
  clear_value v1
  exact .of h1 rfl

theorem State.saveLane_keeps {z s : State} {a1 a2 a3} (h : Keeps z s) : Keeps z (State.saveLane s a1 a2 a3) := by
  unfold State.saveLane
  extract_lets -merge -useContext -underBinder +onlyGivenNames v1 v2 v3 v4
  clear_value v1 v2 v3 v4
  extract_lets -merge -useContext -underBinder +onlyGivenNames v5
  have h5 : Keeps z v5 := (by unfold v5; exact (State.record_keeps h))
  clear_value v5
  extract_lets -merge -useContext -underBinder +onlyGivenNames v6
  have h6 : Keeps z v6 := (by unfold v6; exact (State.updPan_keeps h5))
  clear_value v6
  exact State.updCore_keeps h6

theorem State.saveSets_keeps {z s : State} {a1 a2} (h : Keeps z s) : Keeps z (State.saveSets s a1 a2) :=
  State.each_keeps h (fun h1 => (State.when_keeps h1 (fun h2 => (State.saveLane_keeps h2))))

theorem State.setSlot_keeps {z s : State} {a1 a2 a3} (h : Keeps z s) : Keeps z (State.setSlot s a1 a2 a3) :=
  .chg h rfl (fun c => { c with clusters := Pool.wf_upd _ _ c.clusters })

theorem State.saveSlot_keeps {z s : State} {a1 a2} (h : Keeps z s) : Keeps z (State.saveSlot s a1 a2) := by
  unfold State.saveSlot
  extract_lets -merge -useContext -underBinder +onlyGivenNames v1 v2
  clear_value v1 v2
  exact State.setSlot_keeps (State.record_keeps h)

theorem State.laneWait_keeps {z s : State} {a1 a2 a3} (h : Keeps z s) : Keeps z (State.laneWait s a1 a2 a3) := by
  unfold State.laneWait
  split <;> [exact h; exact (State.deschedule_keeps h)]

theorem State.laneFree_keeps {z s : State} {a1} (h : Keeps z s) : Keeps z (State.laneFree s a1) :=
  State.each_keeps h (fun h1 => (State.when_keeps h1 (fun h2 => (State.wakeCtx_keeps h2))))

theorem State.issue_keeps {z s : State} {a1 a2 a3} (h : Keeps z s) : Keeps z (State.issue s a1 a2 a3) := by
  unfold State.issue
  extract_lets -merge -useContext -underBinder +onlyGivenNames v1 v2 v3 v4 v5 v6 v7 v8 u9_0 v9 v10
  clear_value v1 v2 v3 v4 v5 v6 v7 v8 v9 v10
  extract_lets -merge -useContext -underBinder +onlyGivenNames v11
  have h11 : Keeps z v11 := (by unfold v11; exact (State.updPan_keeps h))
  clear_value v11
  extract_lets -merge -useContext -underBinder +onlyGivenNames v12
  have h12 : Keeps z v12 := (by unfold v12; exact (State.bump_keeps (State.updCore_keeps h11)))
  clear_value v12
  exact State.demand_keeps (State.when_keeps h12 (fun h13 => (State.useDraw_keeps h13)))

theorem execProductIssue_keeps {s : State} {t pan p} : Answered s (execProductIssue t pan p s) := by
  unfold execProductIssue
  split
  · refine .answer (fun h => ?_)
    extract_lets x
    split
    · exact h
    · refine .ite h (.ite (State.laneWait_keeps (State.updPan_keeps h)) (.ite (State.laneWait_keeps h) ?_))
      exact State.issue_keeps (State.when_keeps h State.saveSets_keeps)
  · exact .refused

theorem State.updConv_keeps {z s : State} {a1 a2} (h : Keeps z s) : Keeps z (State.updConv s a1 a2) :=
  State.updPan_keeps h

theorem State.nextProduct_keeps {z s : State} {a1} (h : Keeps z s) : Keeps z (State.nextProduct s a1) := by
  unfold State.nextProduct
  extract_lets -merge -useContext -underBinder +onlyGivenNames v1 v2
  clear_value v1 v2
  exact .ite (State.updCore_keeps (State.updPan_keeps h)) h

theorem State.splitPass_keeps {z s : State} {a1 a2 a3 a4 a5} (h : Keeps z s) : Keeps z (State.splitPass s a1 a2 a3 a4 a5) := by
  unfold State.splitPass
  extract_lets -merge -useContext -underBinder +onlyGivenNames v1 v2
  clear_value v1 v2
  extract_lets -merge -useContext -underBinder +onlyGivenNames v3
  have h3 : Keeps z v3 := (by unfold v3; exact (State.updConv_keeps h))
  clear_value v3
  extract_lets -merge -useContext -underBinder +onlyGivenNames v4
  have h4 : Keeps z v4 := (by unfold v4; exact (State.countPan_keeps h3))
  clear_value v4
  exact State.when_keeps h4 (fun h5 => (State.countPan_keeps h5))

theorem State.satAbandon_keeps {z s : State} {a1 a2 a3 a4} (h : Keeps z s) : Keeps z (State.satAbandon s a1 a2 a3 a4) := by
  unfold State.satAbandon
  extract_lets -merge -useContext -underBinder +onlyGivenNames v1
  clear_value v1
  extract_lets -merge -useContext -underBinder +onlyGivenNames v2
  have h2 : Keeps z v2 := (by unfold v2; exact (State.when_keeps h (fun h3 => (State.countPan_keeps h3))))
  clear_value v2
  extract_lets -merge -useContext -underBinder +onlyGivenNames v3
  have h3 : Keeps z v3 := (by unfold v3; exact (State.updConv_keeps h2))
  clear_value v3
  extract_lets -merge -useContext -underBinder +onlyGivenNames v4
  have h4 : Keeps z v4 := (by unfold v4; exact (State.when_keeps h3 (fun h5 => (State.updPan_keeps h5))))
  clear_value v4
  exact State.nextProduct_keeps (State.satFault_keeps (State.bump_keeps (State.bump_keeps h4)))

theorem State.mismatch_keeps {z s : State} {a1 a2 a3} (h : Keeps z s) : Keeps z (State.mismatch s a1 a2 a3) := by
  unfold State.mismatch
  extract_lets -merge -useContext -underBinder +onlyGivenNames v1 v2
  clear_value v1 v2
  extract_lets -merge -useContext -underBinder +onlyGivenNames v3
  have h3 : Keeps z v3 := (by unfold v3; exact (State.updPan_keeps (State.bump_keeps h)))
  clear_value v3
  exact State.when_keeps h3 (fun h4 => (State.chkTrip_keeps h4))

theorem State.deliver_keeps {z s : State} {a1 a2 a3 a4 a5 a6} (h : Keeps z s) : Keeps z (State.deliver s a1 a2 a3 a4 a5 a6) := by
  unfold State.deliver
  extract_lets -merge -useContext -underBinder +onlyGivenNames v1 v2 v3 v4 v5 v6
  clear_value v1 v2 v3 v4 v5 v6
  extract_lets -merge -useContext -underBinder +onlyGivenNames v7
  have h7 : Keeps z v7 := (by unfold v7; exact (State.updConv_keeps h))
  clear_value v7
  extract_lets -merge -useContext -underBinder +onlyGivenNames v8
  have h8 : Keeps z v8 := (by unfold v8; exact (State.when_keeps h7 (fun h9 => (State.bump_keeps (State.bump_keeps (State.countPan_keeps h9))))))
  clear_value v8
  extract_lets -merge -useContext -underBinder +onlyGivenNames v9
  have h9 : Keeps z v9 := (by unfold v9; exact (State.when_keeps h8 (fun h10 => (State.nextProduct_keeps h10))))
  clear_value v9
  extract_lets -merge -useContext -underBinder +onlyGivenNames v10
  clear_value v10
  exact State.each_keeps h9 (fun h11 => (State.mismatch_keeps h11))

theorem execPassComplete_keeps {s : State} {a0 a1 a2} : Answered s (execPassComplete a0 a1 a2 s) := by
  unfold execPassComplete
  exact .answer (fun h1 => (by split <;> [exact (by split <;> [exact h1; exact (by extract_lets -merge -useContext -underBinder +onlyGivenNames v2; clear_value v2; exact (by extract_lets -merge -useContext -underBinder +onlyGivenNames v3; clear_value v3; exact (.ite (State.deliver_keeps h1) (.ite (State.splitPass_keeps h1) (State.satAbandon_keeps h1)))))]); exact h1]))

theorem execSluiceQReady_keeps {s : State} {a0 a1} : Answered s (execSluiceQReady a0 a1 s) := by
  unfold execSluiceQReady
  exact .answer (fun h1 => (by split <;> [exact (.ite h1 (by extract_lets -merge -useContext -underBinder +onlyGivenNames v2; clear_value v2; exact (by extract_lets -merge -useContext -underBinder +onlyGivenNames v3; clear_value v3; exact (by extract_lets -merge -useContext -underBinder +onlyGivenNames v4; have h4 : Keeps s v4 := (by unfold v4; exact (State.updPan_keeps h1)); clear_value v4; exact (State.bump_keeps (State.bump_keeps (State.bump_keeps h4))))))); exact h1]))

theorem State.stage4Done_keeps {z s : State} {a1 a2} (h : Keeps z s) : Keeps z (State.stage4Done s a1 a2) := by
  unfold State.stage4Done
  extract_lets -merge -useContext -underBinder +onlyGivenNames v1
  have h1 : Keeps z v1 := (by unfold v1; exact (State.bump_keeps h))
  clear_value v1
  split <;> [exact h1; exact (State.laneFree_keeps (State.updPan_keeps (State.bump_keeps h1)))]

theorem State.repeatProduct_keeps {z s : State} {a1 a2 a3 a4 a5} (h : Keeps z s) : Keeps z (State.repeatProduct s a1 a2 a3 a4 a5) := by
  unfold State.repeatProduct
  extract_lets -merge -useContext -underBinder +onlyGivenNames v1 v2
  clear_value v1 v2
  extract_lets -merge -useContext -underBinder +onlyGivenNames v3
  have h3 : Keeps z v3 := (by unfold v3; exact (State.updPan_keeps h))
  clear_value v3
  exact State.when_keeps (State.bump_keeps (State.bump_keeps (State.bump_keeps h3))) (fun h4 => (State.nextProduct_keeps h4))

theorem State.capture_keeps {z s : State} {a1 a2 a3 a4} (h : Keeps z s) : Keeps z (State.capture s a1 a2 a3 a4) := by
  unfold State.capture
  extract_lets -merge -useContext -underBinder +onlyGivenNames v1 v2
  clear_value v1 v2
  exact State.setF_keeps (State.setF_keeps (State.setF_keeps (State.updCore_keeps h)))

theorem State.countOwner_keeps {z s : State} {a1} (h : Keeps z s) : Keeps z (State.countOwner s a1) := by
  unfold State.countOwner
  split <;> [exact h; exact (State.bump_keeps h)]

theorem State.keepGraded_keeps {z s : State} {a1 a2 a3} (h : Keeps z s) : Keeps z (State.keepGraded s a1 a2 a3) :=
  State.when_keeps h (fun h1 => (State.ctx3_keeps (State.updPan_keeps h1)))

theorem State.completeProduct_keeps {z s : State} {a1 a2 a3 a4 a5 a6 a7} (h : Keeps z s) : Keeps z (State.completeProduct s a1 a2 a3 a4 a5 a6 a7) := by
  unfold State.completeProduct
  extract_lets -merge -useContext -underBinder +onlyGivenNames v1 v2
  clear_value v1 v2
  extract_lets -merge -useContext -underBinder +onlyGivenNames v3
  have h3 : Keeps z v3 := (by unfold v3; exact (State.bump_keeps (State.updPan_keeps h)))
  clear_value v3
  extract_lets -merge -useContext -underBinder +onlyGivenNames v4
  have h4 : Keeps z v4 := (by unfold v4; exact (State.when_keeps h3 (fun h5 => (State.countOwner_keeps (State.countPan_keeps h5)))))
  clear_value v4
  extract_lets -merge -useContext -underBinder +onlyGivenNames v5
  have h5 : Keeps z v5 := (by unfold v5; exact (State.when_keeps h4 (fun h6 => (State.event_keeps (State.bump_keeps (State.bump_keeps h6))))))
  clear_value v5
  extract_lets -merge -useContext -underBinder +onlyGivenNames v6
  have h6 : Keeps z v6 := (by unfold v6; exact (State.keepGraded_keeps (State.when_keeps h5 (fun h7 => (State.capture_keeps h7)))))
  clear_value v6
  exact State.laneFree_keeps (State.when_keeps h6 (fun h7 => (State.updPan_keeps h7)))

theorem execStage5Complete_keeps {s : State} {a0 a1} : Answered s (execStage5Complete a0 a1 s) := by
  unfold execStage5Complete
  exact .answer (fun h1 => (by split <;> [exact (by extract_lets -merge -useContext -underBinder +onlyGivenNames v2; clear_value v2; exact (.ite h1 (by extract_lets -merge -useContext -underBinder +onlyGivenNames v3; clear_value v3; exact (by extract_lets -merge -useContext -underBinder +onlyGivenNames v4; clear_value v4; exact (by extract_lets -merge -useContext -underBinder +onlyGivenNames v5; clear_value v5; exact (by extract_lets -merge -useContext -underBinder +onlyGivenNames v6; have h6 : Keeps s v6 := (by unfold v6; exact (State.stage4Done_keeps (State.when_keeps h1 (fun h7 => (State.bump_keeps h7))))); clear_value v6; exact (.ite (State.completeProduct_keeps h6) (.ite (State.repeatProduct_keeps h6) (State.completeProduct_keeps h6))))))))); exact h1]))

theorem State.slotAdd_keeps {z s : State} {a1 a2 a3 a4 a5} (h : Keeps z s) : Keeps z (State.slotAdd s a1 a2 a3 a4 a5) := by
  unfold State.slotAdd
  extract_lets -merge -useContext -underBinder +onlyGivenNames v1 v2 v3
  clear_value v1 v2 v3
  split <;> [exact h; exact (by extract_lets -merge -useContext -underBinder +onlyGivenNames v4; clear_value v4; exact (by extract_lets -merge -useContext -underBinder +onlyGivenNames v5; clear_value v5; exact (by extract_lets -merge -useContext -underBinder +onlyGivenNames v6; clear_value v6; exact (by extract_lets -merge -useContext -underBinder +onlyGivenNames v7; clear_value v7; exact (by extract_lets -merge -useContext -underBinder +onlyGivenNames v8; clear_value v8; exact (by extract_lets -merge -useContext -underBinder +onlyGivenNames v9; have h9 : Keeps z v9 := (by unfold v9; exact (State.bump_keeps (State.bump_keeps h))); clear_value v9; exact (.ite (State.storeRow_keeps (State.setSlot_keeps h9)) (State.setSlot_keeps h9))))))))]

theorem State.reduce_keeps {z s : State} {a1 a2 a3 a4 a5} (h : Keeps z s) : Keeps z (State.reduce s a1 a2 a3 a4 a5) := by
  unfold State.reduce
  split <;> [exact h; exact (.ite (State.storeRow_keeps h) (.ite (State.slotAdd_keeps h) (State.addRow_keeps h)))]

theorem execAccumulatorDrainDone_keeps {s : State} {a0 a1} : Answered s (execAccumulatorDrainDone a0 a1 s) := by
  unfold execAccumulatorDrainDone
  exact .answer (fun h1 => (by extract_lets -merge -useContext -underBinder +onlyGivenNames v2; clear_value v2; exact (by extract_lets -merge -useContext -underBinder +onlyGivenNames v3; clear_value v3; exact (by extract_lets -merge -useContext -underBinder +onlyGivenNames v4; clear_value v4; exact (.ite h1 (by extract_lets -merge -useContext -underBinder +onlyGivenNames v5; clear_value v5; exact (by extract_lets -merge -useContext -underBinder +onlyGivenNames v6; have h6 : Keeps s v6 := (by unfold v6; exact (State.laneFree_keeps (State.bump_keeps (State.updPan_keeps h1)))); clear_value v6; exact (by split <;> [exact (by extract_lets -merge -useContext -underBinder +onlyGivenNames v7; clear_value v7; exact (by extract_lets -merge -useContext -underBinder +onlyGivenNames v8; clear_value v8; exact (by extract_lets -merge -useContext -underBinder +onlyGivenNames v9; clear_value v9; exact (by extract_lets -merge -useContext -underBinder +onlyGivenNames v10; clear_value v10; exact (.ite (State.updCore_keeps h6) (State.reduce_keeps (State.updCore_keeps h6)))))))]))))))))

theorem execAccSave_keeps {s : State} {a0 a1} : Answered s (execAccSave a0 a1 s) := by
  unfold execAccSave
  exact .answer (fun h1 => (by split <;> [exact (by extract_lets -merge -useContext -underBinder +onlyGivenNames v2; clear_value v2; exact (.ite h1 (State.saveLane_keeps h1))); exact (State.when_keeps h1 (fun h2 => (State.saveSlot_keeps h2)))]))

theorem State.restore_keeps {z s : State} {a1} (h : Keeps z s) : Keeps z (State.restore s a1) := by
  unfold State.restore
  extract_lets -merge -useContext -underBinder +onlyGivenNames u1_0 v1
  have h1 : Keeps z v1 := (by unfold v1; exact (.of (State.bump_keeps h) rfl))
  clear_value v1
  split <;> [exact (by extract_lets -merge -useContext -underBinder +onlyGivenNames v2; clear_value v2; exact (by extract_lets -merge -useContext -underBinder +onlyGivenNames v3; clear_value v3; exact (State.laneFree_keeps (State.updPan_keeps (State.moves_keeps h1))))); exact (State.setSlot_keeps (State.moves_keeps h1))]

theorem execAccRestore_keeps {s : State} {a0 a1} : Answered s (execAccRestore a0 a1 s) := by
  unfold execAccRestore
  exact .answer (fun h1 => (by split <;> [exact h1; exact (State.restore_keeps h1)]))

theorem State.saveRolled_keeps {z s : State}  (h : Keeps z s) : Keeps z (State.saveRolled s) := by
  unfold State.saveRolled
  extract_lets -merge -useContext -underBinder +onlyGivenNames v1
  have h1 : Keeps z v1 := (by unfold v1; exact (State.each_keeps h (fun h2 => (State.each_keeps h2 (fun h3 => (by extract_lets -merge -useContext -underBinder +onlyGivenNames v4; clear_value v4; exact (State.when_keeps h3 (fun h5 => (State.saveLane_keeps h5)))))))))
  clear_value v1
  exact State.each_keeps h1 (fun h2 => (State.when_keeps h2 (fun h3 => (State.each_keeps h3 (fun h4 => (State.when_keeps h4 (fun h5 => (State.saveSlot_keeps h5))))))))

theorem State.restoreMoved_keeps {z s : State} {a1} (h : Keeps z s) : Keeps z (State.restoreMoved s a1) :=
  State.each_keeps h (fun h1 => (State.restore_keeps h1))

/-! Staging -/

theorem State.tryStage_keeps {z s : State}  (h : Keeps z s) : Keeps z (State.tryStage s) := by
  unfold State.tryStage
  extract_lets -merge -useContext -underBinder +onlyGivenNames v1
  have h1 : Keeps z v1 := (by unfold v1; exact (State.each_keeps h (fun h2 => (.ite (by extract_lets -merge -useContext -underBinder +onlyGivenNames v3; have h3 : Keeps z v3 := (by unfold v3; exact (State.raise_keeps (State.updWslot_keeps h2))); clear_value v3; exact (State.each_keeps h3 (fun h4 => (State.when_keeps h4 (fun h5 => (State.raise_keeps (State.updPslot_keeps h5))))))) h2))))
  clear_value v1
  exact State.each_keeps h1 (fun h2 => (by extract_lets -merge -useContext -underBinder +onlyGivenNames v3; clear_value v3; exact (State.when_keeps h2 (fun h4 => (State.raise_keeps (State.updPslot_keeps h4))))))

theorem State.endStaging_keeps {z s : State} {a1} (h : Keeps z s) : Keeps z (State.endStaging s a1) := by
  unfold State.endStaging
  exact State.each_keeps h (fun h1 => (by extract_lets -merge -useContext -underBinder +onlyGivenNames v2; clear_value v2; exact (by extract_lets -merge -useContext -underBinder +onlyGivenNames v3; clear_value v3; exact (by extract_lets -merge -useContext -underBinder +onlyGivenNames v4; clear_value v4; exact (by extract_lets -merge -useContext -underBinder +onlyGivenNames v5; have h5 : Keeps z v5 := (by unfold v5; exact (State.when_keeps h1 (fun h6 => (State.bump_keeps h6)))); clear_value v5; exact (State.updPan_keeps h5))))))

theorem State.claimStaged_keeps {z s : State} {a1} (h : Keeps z s) : Keeps z (State.claimStaged s a1) :=
  State.each_keeps h (fun h1 => (State.updPan_keeps h1))

theorem State.startStaging_keeps {z s : State} {a1 a2} (h : Keeps z s) : Keeps z (State.startStaging s a1 a2) := by
  unfold State.startStaging
  split <;> [exact h; exact (by extract_lets -merge -useContext -underBinder +onlyGivenNames v1; have h1 : Keeps z v1 := (by unfold v1; exact (State.endStaging_keeps h)); clear_value v1; exact (.ite (by extract_lets -merge -useContext -underBinder +onlyGivenNames v2; clear_value v2; exact (by extract_lets -merge -useContext -underBinder +onlyGivenNames v3; have h3 : Keeps z v3 := (by unfold v3; exact (State.setF_keeps (State.updWslot_keeps h1))); clear_value v3; exact (by extract_lets -merge -useContext -underBinder +onlyGivenNames v4; have h4 : Keeps z v4 := (by unfold v4; exact (State.when_keeps h3 (fun h5 => (State.updPslot_keeps h5)))); clear_value v4; exact (State.tryStage_keeps (State.claimStaged_keeps h4))))) (by extract_lets -merge -useContext -underBinder +onlyGivenNames v2; have h2 : Keeps z v2 := (by unfold v2; exact (State.dropContent_keeps (State.updWslot_keeps h1))); clear_value v2; exact (by extract_lets -merge -useContext -underBinder +onlyGivenNames v3; have h3 : Keeps z v3 := (by unfold v3; exact (State.when_keeps h2 (fun h4 => (State.updPslot_keeps h4)))); clear_value v3; exact (State.raise_keeps (State.setF_keeps h3))))))]

theorem State.bindFails_keeps {z s : State} {a1 a2} (h : Keeps z s) : Keeps z (State.bindFails s a1 a2) :=
  State.raise_keeps (State.setF_keeps (State.updPslot_keeps h))

theorem State.stageAlone_keeps {z s : State} {a1 a2} (h : Keeps z s) : Keeps z (State.stageAlone s a1 a2) := by
  unfold State.stageAlone
  split <;> [exact h; exact (.ite (by extract_lets -merge -useContext -underBinder +onlyGivenNames v1; clear_value v1; exact (by extract_lets -merge -useContext -underBinder +onlyGivenNames v2; have h2 : Keeps z v2 := (by unfold v2; exact (State.updPslot_keeps h)); clear_value v2; exact (State.tryStage_keeps (State.claimStaged_keeps h2)))) (State.bindFails_keeps h))]

theorem State.bindPlan_keeps {z s : State} {k fuel} (h : Keeps z s) : Keeps z (s.bindPlan k fuel) := by
  induction fuel generalizing s with
  | zero => exact h
  | succ n ih =>
    unfold State.bindPlan
    split
    · assumption
    · assumption
    · rename_i e _
      cases e
      split
      · exact State.updPslot_keeps h
      · refine .ite (State.bindFails_keeps h) (.ite (State.stageAlone_keeps h) ?_)
        have hv := State.startStaging_keeps (a1 := ‹Nat›) (a2 := k) h
        exact .ite (ih hv) hv

theorem State.meetPlans_keeps {z s : State} {a1} (h : Keeps z s) : Keeps z (State.meetPlans s a1) := by
  unfold State.meetPlans
  extract_lets -merge -useContext -underBinder +onlyGivenNames v1 v2
  clear_value v1 v2
  extract_lets -merge -useContext -underBinder +onlyGivenNames v3
  have h3 : ∀ {t : State}, Keeps z t → Keeps z (v3 t) := (by intros; rename_i h0; unfold v3; exact (fun h4 => (.ite (State.setF_keeps h4) h4)) h0)
  clear_value v3
  split <;> [exact (h3 (State.bindPlan_keeps h)); exact (by split <;> [exact (State.startStaging_keeps h); exact (h3 h)])]

/-! Beds -/

theorem execBedWriteStart_keeps {s : State} {a0 a1} : Answered s (execBedWriteStart a0 a1 s) := by
  unfold execBedWriteStart
  exact .answer (fun h1 => (by extract_lets -merge -useContext -underBinder +onlyGivenNames v2; clear_value v2; exact (by split <;> [exact h1; exact (.ite h1 (.ite (by extract_lets -merge -useContext -underBinder +onlyGivenNames v3; clear_value v3; exact (by extract_lets -merge -useContext -underBinder +onlyGivenNames v4; clear_value v4; exact (State.updPan_keeps h1))) (by extract_lets -merge -useContext -underBinder +onlyGivenNames v3; have h3 : Keeps s v3 := (by unfold v3; exact (State.when_keeps h1 (fun h4 => (State.bump_keeps h4)))); clear_value v3; exact (by extract_lets -merge -useContext -underBinder +onlyGivenNames v4; clear_value v4; exact (by extract_lets -merge -useContext -underBinder +onlyGivenNames v5; clear_value v5; exact (by extract_lets -merge -useContext -underBinder +onlyGivenNames u6_0 v6; have h6 : Keeps s v6 := (by unfold v6; exact (.of h3 rfl)); clear_value v6; exact (State.updPan_keeps h6)))))))])))

theorem State.tookCopy_keeps {z s : State} {a1 a2} (h : Keeps z s) : Keeps z (State.tookCopy s a1 a2) :=
  .of h rfl

theorem execBedWriteComplete_keeps {s : State} {a0 a1} : Answered s (execBedWriteComplete a0 a1 s) := by
  unfold execBedWriteComplete
  exact .answer (fun h1 => (by extract_lets -merge -useContext -underBinder +onlyGivenNames v2; clear_value v2; exact (.ite h1 (by extract_lets -merge -useContext -underBinder +onlyGivenNames v3; clear_value v3; exact (by extract_lets -merge -useContext -underBinder +onlyGivenNames u4_0 v4; clear_value v4; exact (by extract_lets -merge -useContext -underBinder +onlyGivenNames v5; have h5 : Keeps s v5 := (by unfold v5; exact (State.bump_keeps (State.bump_keeps (State.updPan_keeps h1)))); clear_value v5; exact (by extract_lets -merge -useContext -underBinder +onlyGivenNames v6; clear_value v6; exact (State.tryStage_keeps (State.when_keeps (State.tookCopy_keeps h5) (fun h7 => (State.bump_keeps h7)))))))))))

theorem State.stopSweep_keeps {z s : State} {a1} (h : Keeps z s) : Keeps z (State.stopSweep s a1) := by
  unfold State.stopSweep
  split <;> [exact h; exact (by split <;> [exact h; exact (State.testCtx_keeps (State.updPhys_keeps (State.updPhys_keeps h)))])]

theorem execBedWriteAbort_keeps {s : State} {a0 a1} : Answered s (execBedWriteAbort a0 a1 s) := by
  unfold execBedWriteAbort
  exact .answer (fun h1 => (by extract_lets -merge -useContext -underBinder +onlyGivenNames v2; clear_value v2; exact (State.when_keeps h1 (fun h3 => (by extract_lets -merge -useContext -underBinder +onlyGivenNames v4; have h4 : Keeps s v4 := (by unfold v4; exact (State.when_keeps h3 (fun h5 => (State.stopSweep_keeps h5)))); clear_value v4; exact (State.bump_keeps (State.updPan_keeps h4)))))))

theorem execRakeStart_keeps {s : State} {a0 a1} : Answered s (execRakeStart a0 a1 s) := by
  unfold execRakeStart
  exact .answer (fun h1 => (by extract_lets -merge -useContext -underBinder +onlyGivenNames v2; clear_value v2; exact (by split <;> [exact h1; exact (State.when_keeps h1 (fun h3 => (State.ctx3_keeps (State.updPan_keeps h3))))])))

theorem State.rakeOver_keeps {z s : State} {a1} (h : Keeps z s) : Keeps z (State.rakeOver s a1) :=
  State.vectorFree_keeps (State.ctx3_keeps h)

theorem execRakeAbort_keeps {s : State} {a0 a1} : Answered s (execRakeAbort a0 a1 s) := by
  unfold execRakeAbort
  exact .answer (fun h1 => (by extract_lets -merge -useContext -underBinder +onlyGivenNames v2; clear_value v2; exact (State.when_keeps h1 (fun h3 => (State.rakeOver_keeps (State.bump_keeps (State.updPan_keeps h3)))))))

theorem State.rakeFailed_keeps {z s : State} {a1 a2} (h : Keeps z s) : Keeps z (State.rakeFailed s a1 a2) := by
  unfold State.rakeFailed
  extract_lets -merge -useContext -underBinder +onlyGivenNames v1 v2 v3
  clear_value v1 v2 v3
  exact .ite (by extract_lets -merge -useContext -underBinder +onlyGivenNames v4; clear_value v4; exact (by extract_lets -merge -useContext -underBinder +onlyGivenNames v5; have h5 : Keeps z v5 := (by unfold v5; exact (State.updPan_keeps h)); clear_value v5; exact (by extract_lets -merge -useContext -underBinder +onlyGivenNames v6; have h6 : Keeps z v6 := (by unfold v6; exact (State.bump_keeps h5)); clear_value v6; exact (by extract_lets -merge -useContext -underBinder +onlyGivenNames u7_0 v7; have h7 : Keeps z v7 := (by unfold v7; exact (.of h6 rfl)); clear_value v7; exact (State.each_keeps h7 (fun h8 => (State.faultRec_keeps h8))))))) (by extract_lets -merge -useContext -underBinder +onlyGivenNames v4; have h4 : Keeps z v4 := (by unfold v4; exact (State.updPan_keeps h)); clear_value v4; exact (by extract_lets -merge -useContext -underBinder +onlyGivenNames v5; have h5 : Keeps z v5 := (by unfold v5; exact (State.updPan_keeps h4)); clear_value v5; exact (by split <;> [exact h5; exact (State.retire_keeps (State.faultRec_keeps h5))])))

theorem execRakeComplete_keeps {s : State} {a0 a1 a2} : Answered s (execRakeComplete a0 a1 a2 s) := by
  unfold execRakeComplete
  exact .answer (fun h1 => (by extract_lets -merge -useContext -underBinder +onlyGivenNames v2; clear_value v2; exact (by split <;> [exact h1; exact (.ite h1 (by extract_lets -merge -useContext -underBinder +onlyGivenNames v3; clear_value v3; exact (by split <;> [exact (by extract_lets -merge -useContext -underBinder +onlyGivenNames v4; clear_value v4; exact (by extract_lets -merge -useContext -underBinder +onlyGivenNames v5; clear_value v5; exact (by extract_lets -merge -useContext -underBinder +onlyGivenNames v6; clear_value v6; exact (by extract_lets -merge -useContext -underBinder +onlyGivenNames u7_0 v7; clear_value v7; exact (by extract_lets -merge -useContext -underBinder +onlyGivenNames v8; have h8 : Keeps s v8 := (by unfold v8; exact (State.countPan_keeps (State.bump_keeps h1))); clear_value v8; exact (by extract_lets -merge -useContext -underBinder +onlyGivenNames v9; have h9 : Keeps s v9 := (by unfold v9; exact (State.countPan_keeps h8)); clear_value v9; exact (by extract_lets -merge -useContext -underBinder +onlyGivenNames v10; clear_value v10; exact (by extract_lets -merge -useContext -underBinder +onlyGivenNames v11; have h11 : Keeps s v11 := (by unfold v11; exact (.ite (State.tryStage_keeps (State.tick_keeps (State.updPan_keeps h9))) (.ite (State.updPan_keeps h9) (State.rakeFailed_keeps (State.updPan_keeps h9))))); clear_value v11; exact (State.rakeOver_keeps h11)))))))))])))])))

theorem State.streamWait_keeps {z s : State} {a1} (h : Keeps z s) : Keeps z (State.streamWait s a1) := by
  unfold State.streamWait
  extract_lets -merge -useContext -underBinder +onlyGivenNames v1
  have h1 : Keeps z v1 := (by unfold v1; exact (State.updPan_keeps h))
  clear_value v1
  extract_lets -merge -useContext -underBinder +onlyGivenNames u2_0 v2
  have h2 : Keeps z v2 := (by unfold v2; exact (.of h1 rfl))
  clear_value v2
  split <;> [exact h2; exact (.ite h2 (.of h2 rfl))]

theorem State.endStall_keeps {z s : State}  (h : Keeps z s) : Keeps z (State.endStall s) := by
  unfold State.endStall
  split <;> [exact h; exact (.ite h (State.bump_keeps (.of h rfl)))]

theorem State.leaveLayer_keeps {z s : State} {a1} (h : Keeps z s) : Keeps z (State.leaveLayer s a1) :=
  .of h rfl

theorem execStreamedSwap_keeps {s : State} {a0 a1} : Answered s (execStreamedSwap a0 a1 s) := by
  unfold execStreamedSwap
  exact .answer (fun h1 => (by extract_lets -merge -useContext -underBinder +onlyGivenNames v2; clear_value v2; exact (.ite h1 (.ite (State.endStall_keeps (State.releaseBounce_keeps (State.leaveLayer_keeps (State.updPan_keeps h1)))) (State.streamWait_keeps h1)))))

theorem State.panRequest_keeps {z s : State} {a1 a2} (h : Keeps z s) : Keeps z (State.panRequest s a1 a2) := by
  unfold State.panRequest
  exact State.when_keeps h (fun h1 => (by split <;> [exact h1; exact (State.updPan_keeps h1)]))

theorem State.refreshReq_keeps {z s : State} {a1} (h : Keeps z s) : Keeps z (State.refreshReq s a1) :=
  State.panRequest_keeps h

theorem State.rakeReq_keeps {z s : State} {a1} (h : Keeps z s) : Keeps z (State.rakeReq s a1) :=
  State.panRequest_keeps h

/-! Weights -/

theorem State.refuseLoad_keeps {z s : State} {a1} (h : Keeps z s) : Keeps z (State.refuseLoad s a1) :=
  State.raise_keeps (State.setF_keeps (State.setF_keeps h))

theorem State.loadStart_keeps {z s : State}  (h : Keeps z s) : Keeps z (State.loadStart s) := by
  unfold State.loadStart
  split <;> [exact (State.refuseLoad_keeps h); exact (by extract_lets -merge -useContext -underBinder +onlyGivenNames v1; clear_value v1; exact (by extract_lets -merge -useContext -underBinder +onlyGivenNames v2; clear_value v2; exact (by extract_lets -merge -useContext -underBinder +onlyGivenNames v3; clear_value v3; exact (by extract_lets -merge -useContext -underBinder +onlyGivenNames v4; have h4 : Keeps z v4 := (by unfold v4; exact (.ite h (State.updWslot_keeps h))); clear_value v4; exact (by extract_lets -merge -useContext -underBinder +onlyGivenNames u5_0 v5; have h5 : Keeps z v5 := (by unfold v5; exact (.of h4 rfl)); clear_value v5; exact (State.setNum_keeps (State.setNum_keeps (State.setF_keeps (State.setF_keeps h5)))))))))]

theorem State.loadAbort_keeps {z s : State}  (h : Keeps z s) : Keeps z (State.loadAbort s) := by
  unfold State.loadAbort
  split <;> [exact (State.setF_keeps h); exact (by extract_lets -merge -useContext -underBinder +onlyGivenNames v1; have h1 : Keeps z v1 := (by unfold v1; exact (State.setF_keeps h)); clear_value v1; exact (.ite (State.failLoad_keeps h1) (.of h1 rfl)))]

theorem State.sendPart_keeps {z s : State} {a1 a2} (h : Keeps z s) : Keeps z (State.sendPart s a1 a2) := by
  unfold State.sendPart
  extract_lets -merge -useContext -underBinder +onlyGivenNames v1
  clear_value v1
  exact State.each_keeps h (fun h2 => (State.bcast_keeps h2))

theorem State.requestShard_keeps {z s : State} {a1 a2 a3} (h : Keeps z s) : Keeps z (State.requestShard s a1 a2 a3) := by
  unfold State.requestShard
  extract_lets -merge -useContext -underBinder +onlyGivenNames v1 v2 v3
  clear_value v1 v2 v3
  exact .ite (by split <;> [exact h; exact (OKeeps.getD (State.routePkt_keeps h) h)]) (by split <;> [exact h; exact (by split <;> [exact h; exact (State.sendOn_keeps h)])])

theorem State.want_keeps {z s : State} {a1 a2} (h : Keeps z s) : Keeps z (State.want s a1 a2) := by
  unfold State.want
  extract_lets -merge -useContext -underBinder +onlyGivenNames v1 v2
  clear_value v1 v2
  exact State.each_keeps (.of h rfl) (fun h3 => (State.requestShard_keeps h3))

theorem State.nextRequest_keeps {z s : State} {a1 a2} (h : Keeps z s) : Keeps z (State.nextRequest s a1 a2) := by
  unfold State.nextRequest
  split <;> [exact h; exact (by extract_lets -merge -useContext -underBinder +onlyGivenNames v1; clear_value v1; exact (State.requestShard_keeps (.of h rfl)))]

theorem State.loadVerified_keeps {z s : State} {a1 a2} (h : Keeps z s) : Keeps z (State.loadVerified s a1 a2) := by
  unfold State.loadVerified
  extract_lets -merge -useContext -underBinder +onlyGivenNames u1_0 v1
  have h1 : Keeps z v1 := (by unfold v1; exact (State.clearParts_keeps (.of h rfl)))
  clear_value v1
  extract_lets -merge -useContext -underBinder +onlyGivenNames v2
  have h2 : Keeps z v2 := (by unfold v2; exact (State.setF_keeps (State.setF_keeps (State.setF_keeps h1))))
  clear_value v2
  extract_lets -merge -useContext -underBinder +onlyGivenNames v3
  have h3 : Keeps z v3 := (by unfold v3; exact (State.startHold_keeps (State.event_keeps (State.raise_keeps h2))))
  clear_value v3
  split <;> [exact (.of h3 rfl); exact (by extract_lets -merge -useContext -underBinder +onlyGivenNames v4; clear_value v4; exact (State.meetPlans_keeps (State.updWslot_keeps h3)))]

theorem State.shardFailed_keeps {z s : State} {a1 a2 a3} (h : Keeps z s) : Keeps z (State.shardFailed s a1 a2 a3) := by
  unfold State.shardFailed
  split <;> [exact (by extract_lets -merge -useContext -underBinder +onlyGivenNames v1; clear_value v1; exact (by extract_lets -merge -useContext -underBinder +onlyGivenNames u2_0 u2_1 v2; have h2 : Keeps z v2 := (by unfold v2; exact (.of (State.bump_keeps h) rfl)); clear_value v2; exact (.ite (State.failLoad_keeps h2) h2))); exact (State.nextRequest_keeps (State.bump_keeps h)); exact (State.want_keeps h)]

theorem State.storeShard_keeps {z s : State} {a1 a2 a3 a4} (h : Keeps z s) : Keeps z (State.storeShard s a1 a2 a3 a4) :=
  .ite (State.memWrite_keeps h) (State.moves_keeps (State.memWrite_keeps h))

theorem State.holdShard_keeps {z s : State} {a1 a2 a3} (h : Keeps z s) : Keeps z (State.holdShard s a1 a2 a3) := by
  unfold State.holdShard
  extract_lets -merge -useContext -underBinder +onlyGivenNames v1
  clear_value v1
  exact .ite h (by extract_lets -merge -useContext -underBinder +onlyGivenNames v2; clear_value v2; exact (State.memWrite_keeps (.of h rfl)))

theorem State.shardTaken_keeps {z s : State} {a1 a2 a3 a4 a5 a6} (h : Keeps z s) : Keeps z (State.shardTaken s a1 a2 a3 a4 a5 a6) := by
  unfold State.shardTaken
  extract_lets -merge -useContext -underBinder +onlyGivenNames v1
  clear_value v1
  extract_lets -merge -useContext -underBinder +onlyGivenNames u2_0 u2_1 v2
  have h2 : Keeps z v2 := (by unfold v2; exact (.of (State.bump_keeps (State.storeShard_keeps h)) rfl))
  clear_value v2
  extract_lets -merge -useContext -underBinder +onlyGivenNames v3
  have h3 : Keeps z v3 := (by unfold v3; exact (State.when_keeps (State.holdShard_keeps h2) (fun h4 => (State.sendPart_keeps h4))))
  clear_value v3
  exact .ite (State.loadVerified_keeps (State.when_keeps h3 (fun h4 => (State.bcast_keeps h4)))) h3

theorem State.shard_keeps {z s : State} {a1 a2 a3 a4} (h : Keeps z s) : Keeps z (State.shard s a1 a2 a3 a4) := by
  unfold State.shard
  split <;> [exact h; exact (by split <;> [exact (by split <;> [exact h; exact (.ite h (by extract_lets -merge -useContext -underBinder +onlyGivenNames v1; have h1 : Keeps z v1 := (by unfold v1; exact (State.when_keeps h (fun h2 => (State.bump_keeps (State.bump_keeps h2))))); clear_value v1; exact (by split <;> [exact (.ite (State.failLoad_keeps h1) (State.shardFailed_keeps h1)); exact (.ite (State.failLoad_keeps h1) (.ite (State.failLoad_keeps h1) (State.shardTaken_keeps h1)))])))]); exact h])]

theorem State.front_keeps {z s : State} {a1} (h : Keeps z s) : Keeps z (State.front s a1) := by
  unfold State.front
  split <;> [exact h; exact (by extract_lets -merge -useContext -underBinder +onlyGivenNames v1; clear_value v1; exact (.ite h (.ite (State.failLoad_keeps h) (.ite (State.failLoad_keeps h) (by split <;> [exact (State.failLoad_keeps h); exact (by split <;> [exact (State.failLoad_keeps h); exact (by extract_lets -merge -useContext -underBinder +onlyGivenNames v2; clear_value v2; exact (by extract_lets -merge -useContext -underBinder +onlyGivenNames v3; clear_value v3; exact (by extract_lets -merge -useContext -underBinder +onlyGivenNames u4_0 v4; have h4 : Keeps z v4 := (by unfold v4; exact (.of h rfl)); clear_value v4; exact (by extract_lets -merge -useContext -underBinder +onlyGivenNames v5; have h5 : Keeps z v5 := (by unfold v5; exact (State.when_keeps h4 (fun h6 => (by extract_lets -merge -useContext -underBinder +onlyGivenNames v7; have h7 : Keeps z v7 := (by unfold v7; exact (State.clearShards_keeps h6)); clear_value v7; exact (.of h7 rfl))))); clear_value v5; exact (by extract_lets -merge -useContext -underBinder +onlyGivenNames v6; clear_value v6; exact (by extract_lets -merge -useContext -underBinder +onlyGivenNames v7; have h7 : Keeps z v7 := (by unfold v7; exact (State.when_keeps h5 (fun h8 => (State.bump_keeps (State.bump_keeps h8))))); clear_value v7; exact (by extract_lets -merge -useContext -underBinder +onlyGivenNames v8; have h8 : Keeps z v8 := (by unfold v8; exact (State.when_keeps h7 (fun h9 => (State.sendPart_keeps (State.sendPart_keeps (State.sendPart_keeps h9)))))); clear_value v8; exact (State.setNum_keeps (State.setF_keeps h8)))))))))])])))))]

theorem execShardReadDone_keeps {s : State} {a0 a1} : Answered s (execShardReadDone a0 a1 s) := by
  unfold execShardReadDone
  exact .answer (fun h1 => (by split <;> [exact h1; exact (.ite h1 (by split <;> [exact (State.front_keeps h1); exact (State.shard_keeps (State.when_keeps h1 (fun h2 => (State.raise_keeps (State.bump_keeps h2)))))]))]))

theorem execBroadcastAnnounce_keeps {s : State} {a0} : Answered s (execBroadcastAnnounce a0 s) := by
  unfold execBroadcastAnnounce
  exact .answer (fun h1 => (by split <;> [exact h1; exact (State.when_keeps h1 (fun h2 => (State.bcast_keeps h2)))]))

theorem State.arrivePart_keeps {z s : State} {a1 a2 a3 a4} (h : Keeps z s) : Keeps z (State.arrivePart s a1 a2 a3 a4) := by
  unfold State.arrivePart
  extract_lets -merge -useContext -underBinder +onlyGivenNames v1
  clear_value v1
  exact State.memWrite_keeps (.of h rfl)

theorem State.dropParts_keeps {z s : State} {a1} (h : Keeps z s) : Keeps z (State.dropParts s a1) := by
  unfold State.dropParts
  extract_lets -merge -useContext -underBinder +onlyGivenNames v1
  have h1 : Keeps z v1 := (by unfold v1; exact (State.each_keeps h (fun h2 => (State.clearParts_keeps h2))))
  clear_value v1
  exact .of h1 rfl

theorem State.takeShards_keeps {z s : State}  (h : Keeps z s) : Keeps z (State.takeShards s) := by
  unfold State.takeShards
  split <;> [exact h; exact (by split <;> [exact h; exact (State.each_keeps h (fun h1 => (State.when_keeps h1 (fun h2 => (by extract_lets -merge -useContext -underBinder +onlyGivenNames v3; clear_value v3; exact (State.shard_keeps (State.dropParts_keeps h2)))))))])]

theorem State.takeFront_keeps {z s : State}  (h : Keeps z s) : Keeps z (State.takeFront s) := by
  unfold State.takeFront
  split <;> [exact h; exact (.ite h (by split <;> [exact h; exact (by extract_lets -merge -useContext -underBinder +onlyGivenNames v1; clear_value v1; exact (.ite (State.dropParts_keeps h) (State.front_keeps h)))]))]

theorem State.wantMissing_keeps {z s : State} {a1} (h : Keeps z s) : Keeps z (State.wantMissing s a1) := by
  unfold State.wantMissing
  split <;> [exact (State.want_keeps h); exact (State.want_keeps h)]

theorem execBcastAnnouncement_keeps {s : State} {a0 a1 a2 a3 a4} : Answered s (execBcastAnnouncement a0 a1 a2 a3 a4 s) := by
  unfold execBcastAnnouncement
  exact .answer (fun h1 => (State.arrival_keeps h1 (fun h2 => (by split <;> [exact h2; exact (.ite (.of h2 rfl) h2)]))))

theorem State.takeBcast_keeps {z s : State} {a1 a2 a3 a4} (h : Keeps z s) : Keeps z (State.takeBcast s a1 a2 a3 a4) := by
  unfold State.takeBcast
  split <;> [exact h; exact (.ite h (by extract_lets -merge -useContext -underBinder +onlyGivenNames v1; have h1 : Keeps z v1 := (by unfold v1; exact (State.arrivePart_keeps h)); clear_value v1; exact (by extract_lets -merge -useContext -underBinder +onlyGivenNames v2; have h2 : Keeps z v2 := (by unfold v2; exact (State.takeFront_keeps h1)); clear_value v2; exact (by extract_lets -merge -useContext -underBinder +onlyGivenNames u3_0 v3; have h3 : Keeps z v3 := (by unfold v3; exact (.of h2 rfl)); clear_value v3; exact (State.takeShards_keeps h3)))))]

theorem execBcastDataReceived_keeps {s : State} {a0 a1 a2 a3 a4 a5} : Answered s (execBcastDataReceived a0 a1 a2 a3 a4 a5 s) :=
  .answer (fun h1 => (State.arrival_keeps h1 (fun h2 => (State.takeBcast_keeps h2))))

theorem State.takeEnd_keeps {z s : State} {a1} (h : Keeps z s) : Keeps z (State.takeEnd s a1) := by
  unfold State.takeEnd
  split <;> [exact h; exact (.ite (State.wantMissing_keeps h) h)]

theorem execBcastEnd_keeps {s : State} {a0 a1 a2} : Answered s (execBcastEnd a0 a1 a2 s) :=
  .answer (fun h1 => (State.arrival_keeps h1 (fun h2 => (State.takeEnd_keeps h2))))

theorem State.takeAbort_keeps {z s : State} {a1} (h : Keeps z s) : Keeps z (State.takeAbort s a1) := by
  unfold State.takeAbort
  split <;> [exact h; exact (.ite (State.failLoad_keeps h) h)]

theorem execBcastAbort_keeps {s : State} {a0 a1 a2} : Answered s (execBcastAbort a0 a1 a2 s) :=
  .answer (fun h1 => (State.arrival_keeps h1 (fun h2 => (State.takeAbort_keeps h2))))

theorem execBcastSilence_keeps {s : State} {a0} : Answered s (execBcastSilence a0 s) := by
  unfold execBcastSilence
  exact .answer (fun h1 => (by split <;> [exact h1; exact (.ite (State.wantMissing_keeps h1) h1)]))

theorem execRecvWaitExpiry_keeps {s : State} {a0} : Answered s (execRecvWaitExpiry a0 s) := by
  unfold execRecvWaitExpiry
  exact .answer (fun h1 => (by split <;> [exact h1; exact (.ite (State.failLoad_keeps h1) h1)]))

theorem execShardRequestWaitExpiry_keeps {s : State} {a0 a1} : Answered s (execShardRequestWaitExpiry a0 a1 s) := by
  unfold execShardRequestWaitExpiry
  exact .answer (fun h1 => (by split <;> [exact h1; exact (.ite (State.nextRequest_keeps (State.bump_keeps h1)) h1)]))

theorem State.takeResp_keeps {z s : State} {a1 a2} (h : Keeps z s) : Keeps z (State.takeResp s a1 a2) := by
  unfold State.takeResp
  split <;> [exact h; exact (.ite h (by split <;> [exact (State.nextRequest_keeps (State.bump_keeps h)); exact (.ite (State.shard_keeps h) (by extract_lets -merge -useContext -underBinder +onlyGivenNames v1; have h1 : Keeps z v1 := (by unfold v1; exact (State.arrivePart_keeps (State.dropParts_keeps h))); clear_value v1; exact (by extract_lets -merge -useContext -underBinder +onlyGivenNames v2; have h2 : Keeps z v2 := (by unfold v2; exact (State.takeShards_keeps (State.takeFront_keeps h1))); clear_value v2; exact (by split <;> [exact h2; exact (.ite (State.wantMissing_keeps h2) h2)]))))]))]

theorem execShardRespReceived_keeps {s : State} {a0 a1 a2 a3 a4} : Answered s (execShardRespReceived a0 a1 a2 a3 a4 s) :=
  .answer (fun h1 => (State.arrival_keeps h1 (fun h2 => (State.takeResp_keeps h2))))

theorem execShardTimeout_keeps {s : State} {a0 a1} : Answered s (execShardTimeout a0 a1 s) := by
  unfold execShardTimeout
  exact .answer (fun h1 => (by split <;> [exact h1; exact (by split <;> [exact h1; exact (.ite (State.failLoad_keeps h1) h1)])]))

theorem State.takeReq_keeps {z s : State} {a1 a2 a3} (h : Keeps z s) : Keeps z (State.takeReq s a1 a2 a3) := by
  unfold State.takeReq
  extract_lets -merge -useContext -underBinder +onlyGivenNames v1
  clear_value v1
  split <;> [exact (OKeeps.getD (State.routePkt_keeps h) h); exact (by extract_lets -merge -useContext -underBinder +onlyGivenNames v2; clear_value v2; exact (by extract_lets -merge -useContext -underBinder +onlyGivenNames v3; have h3 : Keeps z v3 := (by unfold v3; exact (State.when_keeps h (fun h4 => (State.bump_keeps (State.bump_keeps h4))))); clear_value v3; exact (by extract_lets -merge -useContext -underBinder +onlyGivenNames v4; clear_value v4; exact (State.each_keeps (State.bump_keeps h3) (fun h5 => (OKeeps.getD (State.routePkt_keeps h5) h5))))))]

theorem execShardReqReceived_keeps {s : State} {a0 a1 a2 a3 a4} : Answered s (execShardReqReceived a0 a1 a2 a3 a4 s) :=
  .answer (fun h1 => (State.arrival_keeps h1 (fun h2 => (State.takeReq_keeps h2))))

theorem execHoldExpiry_keeps {s : State} {a0} : Answered s (execHoldExpiry a0 s) := by
  unfold execHoldExpiry
  exact .answer (fun h1 => (by split <;> [exact h1; exact (by split <;> [exact h1; exact (.ite (State.raise_keeps (State.clearShards_keeps (.of h1 rfl))) h1)])]))

theorem State.takeStandby_keeps {z s : State}  (h : Keeps z s) : Keeps z (State.takeStandby s) := by
  unfold State.takeStandby
  extract_lets -merge -useContext -underBinder +onlyGivenNames v1
  clear_value v1
  exact State.each_keeps (.of h rfl) (fun h2 => (by split <;> [exact (State.takeSyncReq_keeps (State.freeBuf_keeps h2)); exact (State.takeWrite_keeps (State.freeBuf_keeps h2)); exact (State.takeReduceAdd_keeps (State.freeBuf_keeps h2)); exact (State.takeTransit_keeps (State.freeBuf_keeps h2)); exact (by extract_lets -merge -useContext -underBinder +onlyGivenNames v3; have h3 : Keeps z v3 := (by unfold v3; exact (State.freeBuf_keeps h2)); clear_value v3; exact (by split <;> [exact h3; exact (.ite (.of h3 rfl) h3)])); exact (State.takeBcast_keeps (State.freeBuf_keeps h2)); exact (State.takeEnd_keeps (State.freeBuf_keeps h2)); exact (State.takeAbort_keeps (State.freeBuf_keeps h2)); exact (State.takeReq_keeps (State.freeBuf_keeps h2)); exact (State.takeResp_keeps (State.freeBuf_keeps h2)); exact h2]))

theorem State.failSteps_keeps {z s : State} {a1} (h : Keeps z s) : Keeps z (State.failSteps s a1) :=
  State.each_keeps h (fun h1 => (State.updSess_keeps h1))

theorem State.tierFailed_keeps {z s : State} {a1} (h : Keeps z s) : Keeps z (State.tierFailed s a1) :=
  State.failSteps_keeps (State.event_keeps (State.raise_keeps (.of h rfl)))

theorem State.tierRead_keeps {z s : State} {a1 a2} (h : Keeps z s) : Keeps z (State.tierRead s a1 a2) := by
  unfold State.tierRead
  extract_lets -merge -useContext -underBinder +onlyGivenNames v1
  clear_value v1
  extract_lets -merge -useContext -underBinder +onlyGivenNames u2_0 v2
  have h2 : Keeps z v2 := (by unfold v2; exact (.of h rfl))
  clear_value v2
  extract_lets -merge -useContext -underBinder +onlyGivenNames v3
  have h3 : Keeps z v3 := (by unfold v3; exact (State.each_keeps h2 (fun h4 => (State.moves_keeps (State.memWrite_keeps h4)))))
  clear_value v3
  exact State.bump_keeps h3

theorem execHostTierReadDone_keeps {s : State} {a0 a1 a2} : Answered s (execHostTierReadDone a0 a1 a2 s) := by
  unfold execHostTierReadDone
  exact .answer (fun h1 => (.ite h1 (by extract_lets -merge -useContext -underBinder +onlyGivenNames v2; clear_value v2; exact (by extract_lets -merge -useContext -underBinder +onlyGivenNames v3; clear_value v3; exact (by extract_lets -merge -useContext -underBinder +onlyGivenNames v4; clear_value v4; exact (by extract_lets -merge -useContext -underBinder +onlyGivenNames v5; have h5 : Keeps s v5 := (by unfold v5; exact (State.bump_keeps (State.bump_keeps h1))); clear_value v5; exact (by split <;> [exact (State.tierRead_keeps h5); exact (by extract_lets -merge -useContext -underBinder +onlyGivenNames v6; clear_value v6; exact (by extract_lets -merge -useContext -underBinder +onlyGivenNames u7_0 u7_1 v7; have h7 : Keeps s v7 := (by unfold v7; exact (.of (State.bump_keeps h5) rfl)); clear_value v7; exact (.ite (State.tierFailed_keeps h7) h7)))])))))))

theorem State.restage_keeps {z s : State}  (h : Keeps z s) : Keeps z (State.restage s) := by
  unfold State.restage
  extract_lets -merge -useContext -underBinder +onlyGivenNames v1
  clear_value v1
  extract_lets -merge -useContext -underBinder +onlyGivenNames v2
  have h2 : Keeps z v2 := (by unfold v2; exact (State.setF_keeps h))
  clear_value v2
  exact .ite (State.meetPlans_keeps (State.updWslot_keeps h2)) h2

theorem State.unbind_keeps {z s : State} {a1} (h : Keeps z s) : Keeps z (State.unbind s a1) :=
  State.each_keeps h (fun h1 => (.ite (State.bindPlan_keeps h1) h1))

theorem State.wgtRelease_keeps {z s : State}  (h : Keeps z s) : Keeps z (State.wgtRelease s) := by
  unfold State.wgtRelease
  extract_lets -merge -useContext -underBinder +onlyGivenNames v1
  clear_value v1
  extract_lets -merge -useContext -underBinder +onlyGivenNames v2
  have h2 : Keeps z v2 := (by unfold v2; exact (State.setF_keeps h))
  clear_value v2
  split <;> [exact (State.dropContent_keeps (State.updWslot_keeps h2)); exact (State.dropContent_keeps (State.updWslot_keeps h2)); exact (State.dropContent_keeps (State.updWslot_keeps h2)); exact (by extract_lets -merge -useContext -underBinder +onlyGivenNames v3; have h3 : Keeps z v3 := (by unfold v3; exact (State.endStaging_keeps h2)); clear_value v3; exact (State.unbind_keeps (State.dropContent_keeps (State.updWslot_keeps (.of h3 rfl))))); exact (by extract_lets -merge -useContext -underBinder +onlyGivenNames v3; have h3 : Keeps z v3 := (by unfold v3; exact (State.endStaging_keeps h2)); clear_value v3; exact (State.unbind_keeps (State.dropContent_keeps (State.updWslot_keeps (.of h3 rfl))))); exact h2; exact h2; exact h2]

theorem State.adapterUnload_keeps {z s : State}  (h : Keeps z s) : Keeps z (State.adapterUnload s) := by
  unfold State.adapterUnload
  extract_lets -merge -useContext -underBinder +onlyGivenNames v1
  clear_value v1
  extract_lets -merge -useContext -underBinder +onlyGivenNames v2
  have h2 : Keeps z v2 := (by unfold v2; exact (State.setF_keeps h))
  clear_value v2
  exact .of h2 rfl

theorem State.trustSet_keeps {z s : State} {a1} (h : Keeps z s) : Keeps z (State.trustSet s a1) :=
  .ite h (.of h rfl)

theorem State.tierWritten_keeps {z s : State}  (h : Keeps z s) : Keeps z (State.tierWritten s) :=
  State.setF_keeps (.of h rfl)

/-! Plan -/

theorem State.planStart_keeps {z s : State}  (h : Keeps z s) : Keeps z (State.planStart s) := by
  unfold State.planStart
  extract_lets -merge -useContext -underBinder +onlyGivenNames v1 v2 v3 v4
  clear_value v1 v2 v3 v4
  exact .ite (State.raise_keeps (State.setF_keeps (State.setF_keeps h))) (by extract_lets -merge -useContext -underBinder +onlyGivenNames v5; have h5 : Keeps z v5 := (by unfold v5; exact (State.setNum_keeps (State.updPslot_keeps h))); clear_value v5; exact (.of h5 rfl))

theorem State.planAbort_keeps {z s : State}  (h : Keeps z s) : Keeps z (State.planAbort s) := by
  unfold State.planAbort
  split <;> [exact (State.setF_keeps h); exact (by extract_lets -merge -useContext -underBinder +onlyGivenNames v1; have h1 : Keeps z v1 := (by unfold v1; exact (State.setF_keeps h)); clear_value v1; exact (.of h1 rfl))]

theorem State.releaseBound_keeps {z s : State} {a1} (h : Keeps z s) : Keeps z (State.releaseBound s a1) := by
  unfold State.releaseBound
  split <;> [exact h; exact (.ite (State.meetPlans_keeps (State.updWslot_keeps (State.endStaging_keeps h))) h)]

theorem State.planRelease_keeps {z s : State}  (h : Keeps z s) : Keeps z (State.planRelease s) := by
  unfold State.planRelease
  extract_lets -merge -useContext -underBinder +onlyGivenNames v1
  clear_value v1
  extract_lets -merge -useContext -underBinder +onlyGivenNames v2
  have h2 : Keeps z v2 := (by unfold v2; exact (State.setF_keeps h))
  clear_value v2
  extract_lets -merge -useContext -underBinder +onlyGivenNames v3
  clear_value v3
  exact .ite h2 (.ite (State.setF_keeps (State.setF_keeps (State.updPslot_keeps (.of h2 rfl)))) (State.releaseBound_keeps (State.updPslot_keeps (State.endStaging_keeps h2))))

theorem State.planDump_keeps {z s : State}  (h : Keeps z s) : Keeps z (State.planDump s) :=
  .of h rfl

theorem State.planFails_keeps {z s : State} {a1} (h : Keeps z s) : Keeps z (State.planFails s a1) := by
  unfold State.planFails
  extract_lets -merge -useContext -underBinder +onlyGivenNames v1
  have h1 : Keeps z v1 := (by unfold v1; exact (State.setNum_keeps (State.setNum_keeps (State.failPlan_keeps h))))
  clear_value v1
  exact State.setF_keeps h1

theorem execPlanLoadDone_keeps {s : State} {a0 a1} : Answered s (execPlanLoadDone a0 a1 s) := by
  unfold execPlanLoadDone
  exact .answer (fun h1 => (by split <;> [exact h1; exact (by extract_lets -merge -useContext -underBinder +onlyGivenNames v2; have h2 : Keeps s v2 := (by unfold v2; exact (State.when_keeps h1 (fun h3 => (State.raise_keeps (State.bump_keeps h3))))); clear_value v2; exact (.ite (State.setF_keeps (State.failPlan_keeps h2)) (by split <;> [exact (State.planFails_keeps h2); exact (by extract_lets -merge -useContext -underBinder +onlyGivenNames v3; clear_value v3; exact (by split <;> [exact (State.planFails_keeps h2); exact (by extract_lets -merge -useContext -underBinder +onlyGivenNames u4_0 v4; have h4 : Keeps s v4 := (by unfold v4; exact (State.updPslot_keeps (.of h2 rfl))); clear_value v4; exact (by extract_lets -merge -useContext -underBinder +onlyGivenNames v5; have h5 : Keeps s v5 := (by unfold v5; exact (State.bump_keeps (State.bump_keeps h4))); clear_value v5; exact (State.bindPlan_keeps (State.raise_keeps (State.setF_keeps (State.setNum_keeps h5))))))]))])))]))

/-! KvOps -/

theorem State.judgeBudget_keeps {z s : State}  (h : Keeps z s) : Keeps z (State.judgeBudget s) :=
  State.setF_keeps (State.setNum_keeps h)

theorem State.allocate_keeps {z s : State} {a1 a2} (h : Keeps z s) : Keeps z (State.allocate s a1 a2) :=
  State.each_keeps h (fun h1 => (State.updSess_keeps h1))

theorem State.carve_keeps {z s : State}  (h : Keeps z s) : Keeps z (State.carve s) :=
  .of h rfl

theorem State.kvcReserve_keeps {z s : State} {a1} (h : Keeps z s) : Keeps z (State.kvcReserve s a1) := by
  unfold State.kvcReserve
  extract_lets -merge -useContext -underBinder +onlyGivenNames v1 v2 v3 v4 v5
  clear_value v1 v2 v3 v4 v5
  exact .ite (State.setReg_keeps h) (State.raise_keeps h)

theorem State.slideOne_keeps {z s : State} {a1} (h : Keeps z s) : Keeps z (State.slideOne s a1) :=
  State.raise_keeps (State.bump_keeps (State.bump_keeps (State.updSess_keeps h)))

theorem State.slideTo_keeps {z s : State} {q first last fuel} (h : Keeps z s) :
    Keeps z (s.slideTo q first last fuel) := by
  induction fuel generalizing s with
  | zero => exact h
  | succ n ih =>
    unfold State.slideTo
    split <;> [exact h; exact .ite (ih (State.slideOne_keeps h)) h]

theorem State.slideFor_keeps {z s : State} {n fuel} (h : Keeps z s) : Keeps z (s.slideFor n fuel) := by
  induction fuel generalizing s with
  | zero => exact h
  | succ k ih =>
    unfold State.slideFor
    refine .ite h ?_
    split <;> [exact h; exact ih (State.setF_keeps (State.slideOne_keeps h))]

/-! Vector -/

theorem State.putFloats_keeps {z s : State} {a1 a2 a3} (h : Keeps z s) : Keeps z (State.putFloats s a1 a2 a3) :=
  State.memWrite_keeps h

theorem State.useScale_keeps {z s : State} {a1 a2 a3} (h : Keeps z s) : PKeeps z (State.useScale s a1 a2 a3) := by
  unfold State.useScale
  split <;> [exact (PKeeps.mk h); exact (PKeeps.mk (State.event_keeps h))]

theorem State.satCodes_keeps {z s : State} {a1 a2 a3} (h : Keeps z s) : Keeps z (State.satCodes s a1 a2 a3) :=
  State.bump_keeps (State.bump_keeps h)

theorem State.writeGroup_keeps {z s : State} {a1 a2 a3 a4 a5 a6 a7 a8 a9} (h : Keeps z s) : Keeps z (State.writeGroup s a1 a2 a3 a4 a5 a6 a7 a8 a9) := by
  unfold State.writeGroup
  exact .ite (by extract_lets -merge -useContext -underBinder +onlyGivenNames v1; clear_value v1; exact (State.when_keeps (State.putGroup_keeps h) (fun h2 => (State.satCodes_keeps h2)))) h

theorem State.dequantTile_keeps {z s : State} {a1 a2 a3 a4 a5 a6} (h : Keeps z s) : Keeps z (State.dequantTile s a1 a2 a3 a4 a5 a6) := by
  unfold State.dequantTile
  extract_lets -merge -useContext -underBinder +onlyGivenNames v1
  clear_value v1
  split <;> [(rename_i hq; have h2 := PKeeps.fst' (State.useScale_keeps h) hq; exact (by extract_lets -merge -useContext -underBinder +onlyGivenNames v3; clear_value v3; exact (by extract_lets -merge -useContext -underBinder +onlyGivenNames v4; clear_value v4; exact (State.moves_keeps (State.putFloats_keeps h2)))))]

theorem State.weightsIn_keeps {z s : State} {a1 a2} (h : Keeps z s) : Keeps z (State.weightsIn s a1 a2) :=
  State.moves_keeps h

theorem State.adapterOp_keeps {z s : State} {a1 a2 a3 a4 a5 a6} (h : Keeps z s) : Keeps z (State.adapterOp s a1 a2 a3 a4 a5 a6) := by
  unfold State.adapterOp
  split <;> [exact h; exact (by split <;> [(rename_i hq; have h1 := PKeeps.fst' (State.useScale_keeps h) hq; exact (by split <;> [exact h1; exact (State.weightsIn_keeps (State.putFloats_keeps h1))]))])]

theorem State.wideOp_keeps {z s : State} {a1 a2 a3 a4 a5 a6 a7} (h : Keeps z s) : Keeps z (State.wideOp s a1 a2 a3 a4 a5 a6 a7) := by
  unfold State.wideOp
  split <;> [exact h; exact (State.weightsIn_keeps (State.putFloats_keeps h))]

theorem State.embedOp_keeps {z s : State} {a1 a2 a3 a4 a5} (h : Keeps z s) : Keeps z (State.embedOp s a1 a2 a3 a4 a5) := by
  unfold State.embedOp
  split <;> [exact h; exact (State.weightsIn_keeps (State.putFloats_keeps h))]

theorem State.weightsOp_keeps {z s : State} {a1 a2 a3 a4 a5 a6} (h : Keeps z s) : Keeps z (State.weightsOp s a1 a2 a3 a4 a5 a6) := by
  unfold State.weightsOp
  extract_lets -merge -useContext -underBinder +onlyGivenNames v1
  clear_value v1
  split <;> [exact h; exact (State.weightsIn_keeps (State.putFloats_keeps h))]

theorem State.vecOp_keeps {z s : State} {a1 a2 a3 a4 a5 a6 a7 a8} (h : Keeps z s) : PKeeps z (State.vecOp s a1 a2 a3 a4 a5 a6 a7 a8) := by
  unfold State.vecOp
  split <;> [exact (by split <;> [exact (PKeeps.mk h); exact (PKeeps.mk (State.dequantTile_keeps h))]); exact (by split <;> [exact (PKeeps.mk h); exact (PKeeps.mk (State.adapterOp_keeps h))]); exact (by extract_lets -merge -useContext -underBinder +onlyGivenNames v1; clear_value v1; exact (by extract_lets -merge -useContext -underBinder +onlyGivenNames v2; have h2 : Keeps z v2 := (by unfold v2; exact (State.memWrite_keeps (State.memWrite_keeps h))); clear_value v2; exact (by split <;> [exact (PKeeps.mk (State.satCodes_keeps h2)); exact (PKeeps.mk h2)]))); exact (by split <;> [exact (PKeeps.mk h); exact (PKeeps.mk (State.wideOp_keeps h))]); exact (by split <;> [exact (PKeeps.mk h); exact (PKeeps.mk (State.embedOp_keeps h))]); exact (by split <;> [exact (PKeeps.mk h); exact (PKeeps.mk (State.weightsOp_keeps h))]); exact (PKeeps.mk (State.putFloats_keeps h)); exact (PKeeps.mk (State.putFloats_keeps h)); exact (PKeeps.mk (State.putFloats_keeps h)); exact (PKeeps.mk (State.putFloats_keeps h)); exact (PKeeps.mk (State.writeGroup_keeps h)); exact (by extract_lets -merge -useContext -underBinder +onlyGivenNames v1; clear_value v1; exact (PKeeps.mk (State.putFloats_keeps h))); exact (PKeeps.mk h)]

theorem State.runOps_keeps {z s : State} {q m x p i l out} (h : Keeps z s) : PKeeps z (s.runOps q m x p i l out) := by
  induction l generalizing s out with
  | nil => exact h
  | cons e l ih => exact ih (PKeeps.fst (State.vecOp_keeps h))

/-! Queue -/

theorem State.dmaWr_keeps {z s : State} {a1 a2} (h : Keeps z s) : Keeps z (State.dmaWr s a1 a2) :=
  State.bump_keeps (State.bump_keeps h)

theorem State.dmaRd_keeps {z s : State} {a1 a2} (h : Keeps z s) : Keeps z (State.dmaRd s a1 a2) :=
  State.bump_keeps (State.bump_keeps h)

theorem State.post_keeps {z s : State} {a1 a2} (h : Keeps z s) : Keeps z (State.post s a1 a2) :=
  State.updQp_keeps h

theorem State.queueError_keeps {z s : State} {a1 a2} (h : Keeps z s) : Keeps z (State.queueError s a1 a2) := by
  unfold State.queueError
  extract_lets -merge -useContext -underBinder +onlyGivenNames v1 v2
  clear_value v1 v2
  extract_lets -merge -useContext -underBinder +onlyGivenNames v3
  have h3 : Keeps z v3 := (by unfold v3; exact (State.updQp_keeps h))
  clear_value v3
  extract_lets -merge -useContext -underBinder +onlyGivenNames u4_0 v4
  have h4 : Keeps z v4 := (by unfold v4; exact (.of h3 rfl))
  clear_value v4
  exact State.raise_keeps (State.event_keeps h4)

theorem State.dbIgnored_keeps {z s : State} {a1} (h : Keeps z s) : Keeps z (State.dbIgnored s a1) :=
  State.raise_keeps (State.bumpSrv_keeps h)

theorem State.sqRing_keeps {z s : State} {a1 a2} (h : Keeps z s) : Keeps z (State.sqRing s a1 a2) := by
  unfold State.sqRing
  extract_lets -merge -useContext -underBinder +onlyGivenNames v1 v2
  clear_value v1 v2
  exact .ite (State.queueError_keeps h) (State.updQp_keeps h)

theorem State.cqRing_keeps {z s : State} {a1 a2} (h : Keeps z s) : Keeps z (State.cqRing s a1 a2) := by
  unfold State.cqRing
  extract_lets -merge -useContext -underBinder +onlyGivenNames v1 v2
  clear_value v1 v2
  exact .ite (State.queueError_keeps h) (State.updQp_keeps h)

theorem State.doorbell_keeps {z s : State} {a1 a2} (h : Keeps z s) : Keeps z (State.doorbell s a1 a2) := by
  unfold State.doorbell
  extract_lets -merge -useContext -underBinder +onlyGivenNames v1 v2 v3 v4 v5
  clear_value v1 v2 v3 v4 v5
  extract_lets -merge -useContext -underBinder +onlyGivenNames v6
  have h6 : Keeps z v6 := (by unfold v6; exact (State.when_keeps h (fun h7 => (State.exitPower_keeps h7))))
  clear_value v6
  exact .ite (State.dbIgnored_keeps h6) (.ite h6 (.ite (State.cqRing_keeps h6) (State.sqRing_keeps h6)))

theorem State.setLatch_keeps {z s : State} {a1 a2} (h : Keeps z s) : Keeps z (State.setLatch s a1 a2) :=
  .of h rfl

theorem State.doorbellWrite_keeps {z s : State} {a1 a2} (h : Keeps z s) : Keeps z (State.doorbellWrite s a1 a2) := by
  unfold State.doorbellWrite
  split <;> [exact (State.doorbell_keeps h); exact (by split <;> [exact (State.dbIgnored_keeps h); exact (State.doorbell_keeps (State.setLatch_keeps h))])]

theorem execDoorbellLowerWrite_keeps {s : State} {a0 a1 a2} : Answered s (execDoorbellLowerWrite a0 a1 a2 s) :=
  .answer (fun h1 => (State.when_keeps h1 (fun h2 => (State.setLatch_keeps h2))))

theorem execSqDoorbell_keeps {s : State} {a0 a1 a2} : Answered s (execSqDoorbell a0 a1 a2 s) :=
  .answer (fun h1 => (State.when_keeps h1 (fun h2 => (State.doorbellWrite_keeps h2))))

theorem execCqDoorbell_keeps {s : State} {a0 a1 a2} : Answered s (execCqDoorbell a0 a1 a2 s) :=
  .answer (fun h1 => (State.when_keeps h1 (fun h2 => (State.doorbellWrite_keeps h2))))

theorem State.admqWrite_keeps {z s : State} {a1 a2} (h : Keeps z s) : Keeps z (State.admqWrite s a1 a2) := by
  unfold State.admqWrite
  extract_lets -merge -useContext -underBinder +onlyGivenNames v1 v2 v3
  clear_value v1 v2 v3
  exact .ite (.ite h (by extract_lets -merge -useContext -underBinder +onlyGivenNames v4; clear_value v4; exact (by extract_lets -merge -useContext -underBinder +onlyGivenNames v5; have h5 : Keeps z v5 := (by unfold v5; exact (State.updQp_keeps (State.setNum_keeps h))); clear_value v5; exact (.of h5 rfl)))) (.ite h (.ite (.ite (State.updQp_keeps (State.setNum_keeps h)) h) (State.setNum_keeps h)))

theorem State.admitAll_keeps {z s : State} {a1} (h : Keeps z s) : Keeps z (State.admitAll s a1) := by
  unfold State.admitAll
  extract_lets -merge -useContext -underBinder +onlyGivenNames v1
  clear_value v1
  exact State.each_keeps h (fun h2 => (by extract_lets -merge -useContext -underBinder +onlyGivenNames v3; clear_value v3; exact (by extract_lets -merge -useContext -underBinder +onlyGivenNames v4; clear_value v4; exact (by extract_lets -merge -useContext -underBinder +onlyGivenNames v5; clear_value v5; exact (by extract_lets -merge -useContext -underBinder +onlyGivenNames v6; clear_value v6; exact (by extract_lets -merge -useContext -underBinder +onlyGivenNames v7; have h7 : Keeps z v7 := (by unfold v7; exact (State.bumpSrv_keeps (State.updQp_keeps h2))); clear_value v7; exact (.of h7 rfl)))))))

theorem State.take_keeps {z s : State} {q op : Nat} {c : SrvCmd} {bad : State → List (Nat × Bool)}
    {f : State → Served} (h : Keeps z s) (hf : ∀ {t : State}, Keeps z t → SKeeps z (f t)) :
    Keeps z (s.take q op c bad f) := by
  unfold State.take
  split
  · exact h
  · refine .ite h ?_
    extract_lets -merge -useContext -underBinder +onlyGivenNames u v
    have hv : Keeps z v := h.of rfl
    clear_value v
    extract_lets -merge -useContext -underBinder +onlyGivenNames w
    have hw : Keeps z w := State.when_keeps hv (fun k => State.dmaRd_keeps k)
    clear_value w
    extract_lets -merge -useContext -underBinder +onlyGivenNames out
    have ho : SKeeps z out := by
      unfold out
      split
      · exact SKeeps.record hw
      · split <;> [exact SKeeps.record hw; exact hf hw]
    clear_value out
    cases out with
    | record t st d => exact State.post_keeps ho
    | quiet t => exact ho

theorem execCreateQp_keeps {s : State} {a0 a1 a2} : Answered s (execCreateQp a0 a1 a2 s) := by
  unfold execCreateQp
  exact .answer (fun h1 => (State.take_keeps h1 (fun h2 => (by split <;> [exact (SKeeps.record h2); exact (SKeeps.record (State.updQp_keeps h2))]))))

theorem State.dropPages_keeps {z s : State} {a1} (h : Keeps z s) : Keeps z (State.dropPages s a1) :=
  .of h rfl

theorem execDeleteQp_keeps {s : State} {a0 a1 a2} : Answered s (execDeleteQp a0 a1 a2 s) := by
  unfold execDeleteQp
  exact .answer (fun h1 => (State.take_keeps h1 (fun h2 => (by extract_lets -merge -useContext -underBinder +onlyGivenNames v3; clear_value v3; exact (by extract_lets -merge -useContext -underBinder +onlyGivenNames v4; clear_value v4; exact (by split <;> [exact (SKeeps.record h2); exact (by extract_lets -merge -useContext -underBinder +onlyGivenNames v5; have h5 : Keeps s v5 := (by unfold v5; exact (by split <;> [exact h2; exact (State.dropPages_keeps h2)])); clear_value v5; exact (by extract_lets -merge -useContext -underBinder +onlyGivenNames u6_0 v6; have h6 : Keeps s v6 := (by unfold v6; exact (.of h5 rfl)); clear_value v6; exact (SKeeps.record (State.updQp_keeps h6))))]))))))

theorem execSetRefMode_keeps {s : State} {a0 a1 a2} : Answered s (execSetRefMode a0 a1 a2 s) := by
  unfold execSetRefMode
  exact .answer (fun h1 => (State.take_keeps h1 (fun h2 => (by split <;> [exact (SKeeps.record h2); exact (SKeeps.record (State.each_keeps (State.setF_keeps h2) (fun h3 => (State.raise_keeps h3))))]))))

theorem execQuerySession_keeps {s : State} {a0 a1 a2} : Answered s (execQuerySession a0 a1 a2 s) :=
  .answer (fun h1 => (State.take_keeps h1 (fun h2 => (SKeeps.record (State.updQp_keeps h2)))))

theorem execUnknownOpcode_keeps {s : State} {a0 a1 a2} : Answered s (execUnknownOpcode a0 a1 a2 s) :=
  .answer (fun h1 => (State.when_keeps h1 (fun h2 => (State.take_keeps h2 (fun h3 => (SKeeps.record h3))))))

/-! Sessions -/

theorem State.refused_keeps {z s : State} {a1 a2} (h : Keeps z s) : Keeps z (State.refused s a1 a2) := by
  unfold State.refused
  extract_lets -merge -useContext -underBinder +onlyGivenNames v1
  have h1 : Keeps z v1 := (by unfold v1; exact (State.bump_keeps h))
  clear_value v1
  exact State.when_keeps h1 (fun h2 => (State.raise_keeps (State.bump_keeps h2)))

theorem State.openSession_keeps {z s : State} {a1 a2} (h : Keeps z s) : SKeeps z (State.openSession s a1 a2) := by
  unfold State.openSession
  extract_lets -merge -useContext -underBinder +onlyGivenNames v1
  clear_value v1
  split <;> [exact (SKeeps.record h); exact (by split <;> [exact (SKeeps.record (State.refused_keeps h)); exact (by split <;> [exact (SKeeps.record (State.refused_keeps h)); exact (SKeeps.record (State.refused_keeps h)); exact (SKeeps.record (State.updQp_keeps (State.exitPower_keeps h)))])])]

theorem execOpenSession_keeps {s : State} {a0 a1 a2} : Answered s (execOpenSession a0 a1 a2 s) :=
  .answer (fun h1 => (State.take_keeps h1 (fun h2 => (State.openSession_keeps h2))))

theorem State.enqueue_keeps {z s : State} {a1 a2} (h : Keeps z s) : SKeeps z (State.enqueue s a1 a2) :=
  SKeeps.quiet (State.updSess_keeps h)

theorem execAudioIn_keeps {s : State} {a0 a1 a2 a3} : Answered s (execAudioIn a0 a1 a2 a3 s) := by
  unfold execAudioIn
  exact .answer (fun h1 => (State.take_keeps h1 (fun h2 => (by split <;> [exact (SKeeps.record h2); exact (State.enqueue_keeps (State.dmaRd_keeps (State.exitPower_keeps h2)))]))))

theorem execTextIn_keeps {s : State} {a0 a1 a2 a3} : Answered s (execTextIn a0 a1 a2 a3 s) :=
  .answer (fun h1 => (State.take_keeps h1 (fun h2 => (State.enqueue_keeps (State.dmaRd_keeps (State.exitPower_keeps h2))))))

theorem execPrompt_keeps {s : State} {a0 a1 a2} : Answered s (execPrompt a0 a1 a2 s) :=
  .answer (fun h1 => (State.take_keeps h1 (fun h2 => (State.enqueue_keeps h2))))

theorem execGenerate_keeps {s : State} {a0 a1 a2} : Answered s (execGenerate a0 a1 a2 s) :=
  .answer (fun h1 => (State.take_keeps h1 (fun h2 => (State.enqueue_keeps h2))))

theorem execCancel_keeps {s : State} {a0 a1 a2} : Answered s (execCancel a0 a1 a2 s) := by
  unfold execCancel
  exact .answer (fun h1 => (State.take_keeps h1 (fun h2 => (by split <;> [exact (SKeeps.record h2); exact (by extract_lets -merge -useContext -underBinder +onlyGivenNames v3; clear_value v3; exact (by extract_lets -merge -useContext -underBinder +onlyGivenNames v4; have h4 : Keeps s v4 := (by unfold v4; exact (State.when_keeps h2 (fun h5 => (State.dropPages_keeps h5)))); clear_value v4; exact (SKeeps.record (State.bumpSrv_keeps (State.updSess_keeps h4)))))]))))

theorem execClose_keeps {s : State} {a0 a1 a2} : Answered s (execClose a0 a1 a2 s) :=
  .answer (fun h1 => (State.take_keeps h1 (fun h2 => (SKeeps.quiet (State.updSess_keeps h2)))))

theorem execSetAdapter_keeps {s : State} {a0 a1 a2} : Answered s (execSetAdapter a0 a1 a2 s) := by
  unfold execSetAdapter
  exact .answer (fun h1 => (State.take_keeps h1 (fun h2 => (by split <;> [exact (SKeeps.record (State.updSess_keeps h2)); exact (SKeeps.record h2)]))))

theorem execSetSampling_keeps {s : State} {a0 a1 a2} : Answered s (execSetSampling a0 a1 a2 s) :=
  .answer (fun h1 => (State.take_keeps h1 (fun h2 => (SKeeps.record (State.updSess_keeps h2)))))

/-! Steps -/

theorem State.spend_keeps {z s : State} {a1 a2 a3} (h : Keeps z s) : Keeps z (State.spend s a1 a2 a3) := by
  unfold State.spend
  extract_lets -merge -useContext -underBinder +onlyGivenNames u1_0 u1_1 v1
  have h1 : Keeps z v1 := (by unfold v1; exact (.ite (.of h rfl) (.of h rfl)))
  clear_value v1
  exact State.bump_keeps (State.bump_keeps (.of h1 rfl))

theorem State.groupsOut_keeps {z s : State} {a1 a2 a3 a4} (h : Keeps z s) : Keeps z (State.groupsOut s a1 a2 a3 a4) := by
  unfold State.groupsOut
  extract_lets -merge -useContext -underBinder +onlyGivenNames v1
  clear_value v1
  exact State.each_keeps h (fun h2 => (State.each_keeps h2 (fun h3 => (by extract_lets -merge -useContext -underBinder +onlyGivenNames v4; clear_value v4; exact (by split <;> [exact h3; exact (State.moves_keeps h3)])))))

theorem State.moved_keeps {z s : State} {a1 a2 a3} (h : Keeps z s) : Keeps z (State.moved s a1 a2 a3) := by
  unfold State.moved
  split <;> [exact (by extract_lets -merge -useContext -underBinder +onlyGivenNames v1; clear_value v1; exact (by extract_lets -merge -useContext -underBinder +onlyGivenNames v2; clear_value v2; exact (by extract_lets -merge -useContext -underBinder +onlyGivenNames v3; clear_value v3; exact (by extract_lets -merge -useContext -underBinder +onlyGivenNames v4; clear_value v4; exact (by extract_lets -merge -useContext -underBinder +onlyGivenNames v5; have h5 : Keeps z v5 := (by unfold v5; exact (State.bump_keeps (State.bump_keeps h))); clear_value v5; exact (by extract_lets -merge -useContext -underBinder +onlyGivenNames v6; have h6 : Keeps z v6 := (by unfold v6; exact (State.bump_keeps (State.bump_keeps h5))); clear_value v6; exact (State.groupsOut_keeps (State.bump_keeps h6)))))))); exact h]

theorem State.endCur_keeps {z s : State} {a1 a2} (h : Keeps z s) : Keeps z (State.endCur s a1 a2) :=
  State.updSess_keeps h

theorem State.endPrompt_keeps {z s : State} {a1 a2} (h : Keeps z s) : Keeps z (State.endPrompt s a1 a2) :=
  State.updSess_keeps h

theorem State.planStep_keeps {z s : State} {a1 a2 a3} (h : Keeps z s) : Keeps z (State.planStep s a1 a2 a3) := by
  unfold State.planStep
  extract_lets -merge -useContext -underBinder +onlyGivenNames v1
  have h1 : Keeps z v1 := (by unfold v1; exact (State.slideTo_keeps h))
  clear_value v1
  extract_lets -merge -useContext -underBinder +onlyGivenNames v2
  clear_value v2
  extract_lets -merge -useContext -underBinder +onlyGivenNames v3
  have h3 : Keeps z v3 := (by unfold v3; exact (State.spend_keeps (State.allocate_keeps h1)))
  clear_value v3
  extract_lets -merge -useContext -underBinder +onlyGivenNames v4 v5
  clear_value v4 v5
  extract_lets -merge -useContext -underBinder +onlyGivenNames u6_0 v6
  have h6 : Keeps z v6 := (by unfold v6; exact (.of h3 rfl))
  clear_value v6
  exact State.updSess_keeps h6

theorem State.holdStep_keeps {z s : State} {a1} (h : Keeps z s) : Keeps z (State.holdStep s a1) := by
  unfold State.holdStep
  extract_lets -merge -useContext -underBinder +onlyGivenNames v1
  have h1 : Keeps z v1 := (by unfold v1; exact (State.setF_keeps (State.raise_keeps (State.bump_keeps h))))
  clear_value v1
  extract_lets -merge -useContext -underBinder +onlyGivenNames v2
  have h2 : Keeps z v2 := (by unfold v2; exact (State.updSess_keeps h1))
  clear_value v2
  exact .of h2 rfl

theorem State.pausePrompt_keeps {z s : State} {a1} (h : Keeps z s) : Keeps z (State.pausePrompt s a1) := by
  unfold State.pausePrompt
  extract_lets -merge -useContext -underBinder +onlyGivenNames v1
  have h1 : Keeps z v1 := (by unfold v1; exact (State.updSess_keeps h))
  clear_value v1
  exact .ite h1 (State.raise_keeps (State.bump_keeps (State.setF_keeps h1)))

theorem State.stopStep_keeps {z s : State} {a1 a2 a3} (h : Keeps z s) : Keeps z (State.stopStep s a1 a2 a3) :=
  .ite (State.updSess_keeps h) (.ite (State.endCur_keeps h) (State.updSess_keeps (State.endPrompt_keeps h)))

theorem State.planOne_keeps {z s : State} {a1 a2 a3} (h : Keeps z s) : PKeeps z (State.planOne s a1 a2 a3) := by
  unfold State.planOne
  split <;> [exact (PKeeps.mk h); exact (by extract_lets -merge -useContext -underBinder +onlyGivenNames v1; clear_value v1; exact (by extract_lets -merge -useContext -underBinder +onlyGivenNames v2; clear_value v2; exact (by extract_lets -merge -useContext -underBinder +onlyGivenNames v3; clear_value v3; exact (by extract_lets -merge -useContext -underBinder +onlyGivenNames v4; have h4 : ∀ {t : State}, Keeps z t → Keeps z (v4 t) := (by intros; rename_i h0; unfold v4; exact (fun h5 => (State.updSess_keeps h5)) h0); clear_value v4; exact (by split <;> [exact (PKeeps.mk (State.endCur_keeps h)); exact (by split <;> [exact (PKeeps.mk (.ite (State.stopStep_keeps h) (h4 h))); exact (by split <;> [exact (PKeeps.mk (.ite (State.stopStep_keeps h) (.ite (State.pausePrompt_keeps h) (.ite (State.holdStep_keeps h) (h4 h))))); exact (by split <;> [exact (PKeeps.mk (State.pausePrompt_keeps h)); exact (by split <;> [exact (PKeeps.mk h); exact (PKeeps.mk (State.planStep_keeps h))])])])])])))))]

theorem State.planList_keeps {z s : State} {round l} (h : Keeps z s) : PKeeps z (s.planList round l) := by
  induction l generalizing s with
  | nil => exact h
  | cons e l ih =>
    unfold State.planList
    have r := State.planOne_keeps (a1 := e.1) (a2 := e.2) (a3 := round) h
    split <;> rename_i hq
    · exact ih (r.fst' hq)
    · exact r.fst' hq

theorem State.planRounds_keeps {z s : State} {m cls round fuel} (h : Keeps z s) :
    Keeps z (s.planRounds m cls round fuel) := by
  induction fuel generalizing s round with
  | zero => exact h
  | succ n ih =>
    unfold State.planRounds
    split
    rename_i v cut hq
    extract_lets -merge -useContext -underBinder +onlyGivenNames w
    have hw : Keeps z w := State.when_keeps ((State.planList_keeps h).fst' hq)
      (fun k => State.raise_keeps (State.bump_keeps k))
    clear_value w
    extract_lets -merge -useContext -underBinder +onlyGivenNames r u
    have hu : Keeps z u := hw.of rfl
    clear_value u
    exact .ite hu (ih hu)

theorem State.takeUp_keeps {z s : State}  (h : Keeps z s) : Keeps z (State.takeUp s) := by
  unfold State.takeUp
  split <;> [exact (State.each_keeps h (fun h1 => (by split <;> [exact h1; exact (State.each_keeps h1 (fun h2 => (by extract_lets -merge -useContext -underBinder +onlyGivenNames v3; clear_value v3; exact (.ite h2 (State.updCtx_keeps h2)))))]))); exact h]

theorem State.expire_keeps {z s : State}  (h : Keeps z s) : Keeps z (State.expire s) :=
  State.each_keeps h (fun h1 => (State.updSess_keeps h1))

theorem State.refitRolled_keeps {z s : State}  (h : Keeps z s) : Keeps z (State.refitRolled s) := by
  unfold State.refitRolled
  exact State.each_keeps h (fun h1 => (State.each_keeps h1 (fun h2 => (by split <;> [exact h2; exact (by extract_lets -merge -useContext -underBinder +onlyGivenNames v3; clear_value v3; exact (.ite (State.updSess_keeps h2) (State.updSess_keeps (State.allocate_keeps h2))))]))))

theorem State.chargeRolled_keeps {z s : State}  (h : Keeps z s) : Keeps z (State.chargeRolled s) :=
  State.each_keeps h (fun h1 => (State.each_keeps h1 (fun h2 => (State.spend_keeps h2))))

theorem State.planTide_keeps {z s : State}  (h : Keeps z s) : Keeps z (State.planTide s) := by
  unfold State.planTide
  extract_lets -merge -useContext -underBinder +onlyGivenNames u1_0 v1
  have h1 : Keeps z v1 := (by unfold v1; exact (.of h rfl))
  clear_value v1
  extract_lets -merge -useContext -underBinder +onlyGivenNames v2
  have h2 : Keeps z v2 := (by unfold v2; exact (State.chargeRolled_keeps (State.refitRolled_keeps (State.expire_keeps (State.setF_keeps (State.tick_keeps h1))))))
  clear_value v2
  split <;> [exact h2; exact (by extract_lets -merge -useContext -underBinder +onlyGivenNames v3; clear_value v3; exact (by extract_lets -merge -useContext -underBinder +onlyGivenNames v4; clear_value v4; exact (by extract_lets -merge -useContext -underBinder +onlyGivenNames u5_0 u5_1 v5; have h5 : Keeps z v5 := (by unfold v5; exact (.of (State.slideFor_keeps h2) rfl)); clear_value v5; exact (by extract_lets -merge -useContext -underBinder +onlyGivenNames v6; have h6 : Keeps z v6 := (by unfold v6; exact (State.planRounds_keeps h5)); clear_value v6; exact (State.takeUp_keeps (State.tick_keeps (.ite (State.planRounds_keeps h6) h6)))))))]

theorem State.endSched_keeps {z s : State} {a1 a2} (h : Keeps z s) : Keeps z (State.endSched s a1 a2) := by
  unfold State.endSched
  extract_lets -merge -useContext -underBinder +onlyGivenNames v1
  clear_value v1
  extract_lets -merge -useContext -underBinder +onlyGivenNames v2
  have h2 : Keeps z v2 := (by unfold v2; exact (State.updCore_keeps h))
  clear_value v2
  extract_lets -merge -useContext -underBinder +onlyGivenNames v3 v4 v5
  clear_value v3 v4 v5
  split <;> [exact (State.updCtx_keeps h2); exact (State.updCtx_keeps h2); exact (State.updCtx_keeps h2)]

theorem State.cfgUe_keeps {z s : State} {a1 a2 a3 a4} (h : Keeps z s) : Keeps z (State.cfgUe s a1 a2 a3 a4) := by
  unfold State.cfgUe
  extract_lets -merge -useContext -underBinder +onlyGivenNames v1
  clear_value v1
  extract_lets -merge -useContext -underBinder +onlyGivenNames v2
  have h2 : Keeps z v2 := (by unfold v2; exact (State.faultRec_keeps (State.voidAll_keeps h)))
  clear_value v2
  split <;> [exact h2; exact (State.charge_keeps h2)]

theorem State.cfgRead_keeps {z s : State} {a1 a2 a3} (h : Keeps z s) : Keeps z (State.cfgRead s a1 a2 a3) := by
  unfold State.cfgRead
  split <;> [exact h; exact (State.bump_keeps h); exact (State.cfgUe_keeps h)]

theorem execStepStart_keeps {s : State} {a0 a1 a2} : Answered s (execStepStart a0 a1 a2 s) := by
  unfold execStepStart
  exact .answer (fun h1 => (State.when_keeps h1 (fun h2 => (by extract_lets -merge -useContext -underBinder +onlyGivenNames v3; clear_value v3; exact (by extract_lets -merge -useContext -underBinder +onlyGivenNames v4; clear_value v4; exact (by extract_lets -merge -useContext -underBinder +onlyGivenNames v5; have h5 : Keeps s v5 := (by unfold v5; exact (by split <;> [exact h2; exact (.ite (State.updCtx_keeps h2) (State.endSched_keeps h2))])); clear_value v5; exact (by split <;> [exact h5; exact (by extract_lets -merge -useContext -underBinder +onlyGivenNames v6; have h6 : Keeps s v6 := (by unfold v6; exact (State.updCore_keeps (State.updCtx_keeps h5))); clear_value v6; exact (by extract_lets -merge -useContext -underBinder +onlyGivenNames v7; have h7 : Keeps s v7 := (by unfold v7; exact (State.when_keeps h6 (fun h8 => (State.bump_keeps h8)))); clear_value v7; exact (.ite h7 (by extract_lets -merge -useContext -underBinder +onlyGivenNames v8; have h8 : Keeps s v8 := (by unfold v8; exact (State.cfgRead_keeps h7)); clear_value v8; exact (by extract_lets -merge -useContext -underBinder +onlyGivenNames v9; have h9 : Keeps s v9 := (by unfold v9; exact (State.when_keeps h8 (fun h10 => (State.deschedule_keeps h10)))); clear_value v9; exact (State.when_keeps h9 (fun h10 => (State.deschedule_keeps h10))))))))])))))))

theorem State.attention_keeps {z s : State} {a1 a2 a3} (h : Keeps z s) : Keeps z (State.attention s a1 a2 a3) := by
  unfold State.attention
  extract_lets -merge -useContext -underBinder +onlyGivenNames v1 v2 v3
  clear_value v1 v2 v3
  extract_lets -merge -useContext -underBinder +onlyGivenNames v4
  have h4 : Keeps z v4 := (by unfold v4; exact (State.each_keeps h (fun h5 => (State.event_keeps h5))))
  clear_value v4
  exact State.bump_keeps h4

theorem State.deliverStep_keeps {z s : State} {a1 a2 a3 a4 a5 a6} (h : Keeps z s) : Keeps z (State.deliverStep s a1 a2 a3 a4 a5 a6) := by
  unfold State.deliverStep
  extract_lets -merge -useContext -underBinder +onlyGivenNames v1 v2
  clear_value v1 v2
  exact .ite (State.bumpSrv_keeps (State.endCur_keeps h)) (by extract_lets -merge -useContext -underBinder +onlyGivenNames v3; clear_value v3; exact (by extract_lets -merge -useContext -underBinder +onlyGivenNames v4; clear_value v4; exact (by extract_lets -merge -useContext -underBinder +onlyGivenNames v5; clear_value v5; exact (by extract_lets -merge -useContext -underBinder +onlyGivenNames v6; clear_value v6; exact (by extract_lets -merge -useContext -underBinder +onlyGivenNames v7; have h7 : Keeps z v7 := (by unfold v7; exact (State.updSess_keeps h)); clear_value v7; exact (by extract_lets -merge -useContext -underBinder +onlyGivenNames v8; have h8 : Keeps z v8 := (by unfold v8; exact (State.bumpSrv_keeps (State.bumpSrv_keeps h7))); clear_value v8; exact (State.when_keeps h8 (fun h9 => (State.dmaWr_keeps (State.emit_keeps h9))))))))))

theorem execStepComplete_keeps {s : State} {t qid r} : Answered s (execStepComplete t qid r s) := by
  unfold execStepComplete
  split
  · exact .refused
  · refine .answer (fun h => State.when_keeps h (fun h => ?_))
    split
    · split
      · exact h
      · refine State.when_keeps h (fun h => ?_)
        extract_lets -merge -useContext -underBinder +onlyGivenNames q
        split
        rename_i u o hq
        have hu : Keeps s u := (State.runOps_keeps h).fst' hq
        clear hq
        extract_lets -merge -useContext -underBinder +onlyGivenNames v w l y
        have hv : Keeps s v := State.attention_keeps (State.moved_keeps hu)
        clear_value v
        have hw : Keeps s w := State.updSess_keeps hv
        clear_value w
        have hy : Keeps s y := State.each_keeps hw (fun k => State.idleCtx_keeps k)
        clear_value y
        extract_lets -merge -useContext -underBinder +onlyGivenNames g
        have hg : Keeps s g := by
          unfold g
          split <;> [exact State.deliverStep_keeps hy; exact hy]
        clear_value g
        exact State.takeUp_keeps (State.updSess_keeps hg)
    · exact h

end Sys2Proof.Machine
end

