-- ==== Sys2Proof/Laws/KeepsHost.lean ====
section
/-! SUPPORT. `Keeps` (Keeps.lean) through publishing, records, the seal, power, start-up, resets, firmware, the host and registers: one lemma for each operation, in the order
of the model's files; `Answered` for each meaning. -/

namespace Sys2Proof.Machine

/-! Publish -/

theorem State.rollOver_keeps {z s : State} {a1 a2} (h : Keeps z s) : Keeps z (State.rollOver s a1 a2) := by
  unfold State.rollOver
  split <;> [exact (State.updSess_keeps h); exact (by extract_lets -merge -useContext -underBinder +onlyGivenNames v1; clear_value v1; exact (by extract_lets -merge -useContext -underBinder +onlyGivenNames v2; clear_value v2; exact (by extract_lets -merge -useContext -underBinder +onlyGivenNames v3; have h3 : Keeps z v3 := (by unfold v3; exact (State.moved_keeps (State.tick_keeps h))); clear_value v3; exact (by extract_lets -merge -useContext -underBinder +onlyGivenNames v4; have h4 : Keeps z v4 := (by unfold v4; exact (State.bump_keeps (State.bump_keeps h3))); clear_value v4; exact (State.updSess_keeps h4)))))]

theorem State.endTide_keeps {z s : State} {a1} (h : Keeps z s) : Keeps z (State.endTide s a1) := by
  unfold State.endTide
  extract_lets -merge -useContext -underBinder +onlyGivenNames v1
  clear_value v1
  extract_lets -merge -useContext -underBinder +onlyGivenNames v2
  have h2 : Keeps z v2 := (by unfold v2; exact (State.setNum_keeps (State.each_keeps h (fun h3 => (State.rollOver_keeps h3)))))
  clear_value v2
  extract_lets -merge -useContext -underBinder +onlyGivenNames v3
  have h3 : Keeps z v3 := (by unfold v3; exact (State.when_keeps h2 (fun h4 => (State.raise_keeps h4))))
  clear_value v3
  exact State.each_keeps h3 (fun h4 => (State.updSess_keeps h4))

theorem State.commitSession_keeps {z s : State} {a1 a2} (h : Keeps z s) : Keeps z (State.commitSession s a1 a2) := by
  unfold State.commitSession
  extract_lets -merge -useContext -underBinder +onlyGivenNames v1 v2 v3 v4
  clear_value v1 v2 v3 v4
  split <;> [exact (by extract_lets -merge -useContext -underBinder +onlyGivenNames v5; clear_value v5; exact (by extract_lets -merge -useContext -underBinder +onlyGivenNames v6; clear_value v6; exact (by extract_lets -merge -useContext -underBinder +onlyGivenNames v7; clear_value v7; exact (by extract_lets -merge -useContext -underBinder +onlyGivenNames v8; clear_value v8; exact (by extract_lets -merge -useContext -underBinder +onlyGivenNames v9; clear_value v9; exact (by extract_lets -merge -useContext -underBinder +onlyGivenNames v10; clear_value v10; exact (by extract_lets -merge -useContext -underBinder +onlyGivenNames v11; clear_value v11; exact (by extract_lets -merge -useContext -underBinder +onlyGivenNames v12; clear_value v12; exact (by extract_lets -merge -useContext -underBinder +onlyGivenNames v13; clear_value v13; exact (by extract_lets -merge -useContext -underBinder +onlyGivenNames v14; have h14 : Keeps z v14 := (by unfold v14; exact (State.updQp_keeps h)); clear_value v14; exact (by extract_lets -merge -useContext -underBinder +onlyGivenNames v15; have h15 : Keeps z v15 := (by unfold v15; exact (State.when_keeps h14 (fun h16 => (State.raise_keeps h16)))); clear_value v15; exact (by extract_lets -merge -useContext -underBinder +onlyGivenNames u16_0 v16; have h16 : Keeps z v16 := (by unfold v16; exact (.of h15 rfl)); clear_value v16; exact (by extract_lets -merge -useContext -underBinder +onlyGivenNames v17; have h17 : Keeps z v17 := (by unfold v17; exact (State.bumpSrv_keeps (State.bumpSrv_keeps h16))); clear_value v17; exact (by extract_lets -merge -useContext -underBinder +onlyGivenNames v18; have h18 : Keeps z v18 := (by unfold v18; exact (.ite (State.bumpSrv_keeps h17) (State.bumpSrv_keeps h17))); clear_value v18; exact (by extract_lets -merge -useContext -underBinder +onlyGivenNames v19; have h19 : Keeps z v19 := (by unfold v19; exact (State.when_keeps h18 (fun h20 => (.of h20 rfl)))); clear_value v19; exact (by split <;> [exact h19; exact (State.when_keeps h19 (fun h20 => (State.dmaWr_keeps (State.emit_keeps h20))))]))))))))))))))))]

theorem State.writeStatus_keeps {z s : State} {a1 a2} (h : Keeps z s) : Keeps z (State.writeStatus s a1 a2) := by
  unfold State.writeStatus
  split <;> [exact h; exact (by extract_lets -merge -useContext -underBinder +onlyGivenNames v1; clear_value v1; exact (.ite h (by extract_lets -merge -useContext -underBinder +onlyGivenNames v2; clear_value v2; exact (State.updSess_keeps (State.dmaWr_keeps (State.emit_keeps h))))))]

theorem State.answerQueries_keeps {z s : State} {a1 a2} (h : Keeps z s) : Keeps z (State.answerQueries s a1 a2) := by
  unfold State.answerQueries
  extract_lets -merge -useContext -underBinder +onlyGivenNames v1
  have h1 : Keeps z v1 := (by unfold v1; exact (State.each_keeps h (fun h2 => (by extract_lets -merge -useContext -underBinder +onlyGivenNames v3; clear_value v3; exact (State.dmaWr_keeps (State.emit_keeps h2))))))
  clear_value v1
  exact State.updQp_keeps h1

theorem State.writeCpl_keeps {z s : State} {a1 a2 a3 a4} (h : Keeps z s) : Keeps z (State.writeCpl s a1 a2 a3 a4) := by
  unfold State.writeCpl
  extract_lets -merge -useContext -underBinder +onlyGivenNames v1 v2 v3
  clear_value v1 v2 v3
  extract_lets -merge -useContext -underBinder +onlyGivenNames v4
  have h4 : Keeps z v4 := (by unfold v4; exact (.ite (State.tick_keeps h) h))
  clear_value v4
  extract_lets -merge -useContext -underBinder +onlyGivenNames v5
  have h5 : Keeps z v5 := (by unfold v5; exact (.ite (State.ringWrite_keeps h4) (State.dmaWr_keeps h4)))
  clear_value v5
  exact State.updQp_keeps (State.emit_keeps h5)

theorem State.publishQp_keeps {z s : State} {a1 a2 a3} (h : Keeps z s) : Keeps z (State.publishQp s a1 a2 a3) := by
  unfold State.publishQp
  extract_lets -merge -useContext -underBinder +onlyGivenNames v1 v2 v3
  clear_value v1 v2 v3
  extract_lets -merge -useContext -underBinder +onlyGivenNames v4
  have h4 : Keeps z v4 := (by unfold v4; exact (State.each_keeps h (fun h5 => (State.writeCpl_keeps h5))))
  clear_value v4
  extract_lets -merge -useContext -underBinder +onlyGivenNames v5
  have h5 : Keeps z v5 := (by unfold v5; exact (State.updQp_keeps h4))
  clear_value v5
  extract_lets -merge -useContext -underBinder +onlyGivenNames v6
  clear_value v6
  extract_lets -merge -useContext -underBinder +onlyGivenNames v7
  have h7 : Keeps z v7 := (by unfold v7; exact (State.updQp_keeps h5))
  clear_value v7
  exact State.when_keeps h7 (fun h8 => (State.bumpSrv_keeps h8))

theorem State.freeClosed_keeps {z s : State} {a1} (h : Keeps z s) : Keeps z (State.freeClosed s a1) := by
  unfold State.freeClosed
  split <;> [exact h; exact (.ite (State.updQp_keeps (State.dropPages_keeps h)) h)]

theorem State.coalesce_keeps {z s : State} {a1 a2} (h : Keeps z s) : Keeps z (State.coalesce s a1 a2) := by
  unfold State.coalesce
  extract_lets -merge -useContext -underBinder +onlyGivenNames v1 v2 v3
  clear_value v1 v2 v3
  exact .ite h (State.sendMsix_keeps (State.each_keeps h (fun h4 => (State.updQp_keeps h4))))

theorem State.signalAll_keeps {z s : State}  (h : Keeps z s) : Keeps z (State.signalAll s) := by
  unfold State.signalAll
  extract_lets -merge -useContext -underBinder +onlyGivenNames v1
  clear_value v1
  exact State.each_keeps h (fun h2 => (State.coalesce_keeps h2))

theorem State.publish_keeps {z s : State} {a1 a2} (h : Keeps z s) : Keeps z (State.publish s a1 a2) := by
  unfold State.publish
  exact .ite h (by extract_lets -merge -useContext -underBinder +onlyGivenNames v1; have h1 : Keeps z v1 := (by unfold v1; exact (State.each_keeps h (fun h2 => (State.commitSession_keeps h2)))); clear_value v1; exact (by extract_lets -merge -useContext -underBinder +onlyGivenNames v2; clear_value v2; exact (by extract_lets -merge -useContext -underBinder +onlyGivenNames v3; have h3 : Keeps z v3 := (by unfold v3; exact (State.each_keeps h1 (fun h4 => (State.answerQueries_keeps (State.writeStatus_keeps h4))))); clear_value v3; exact (by extract_lets -merge -useContext -underBinder +onlyGivenNames v4; have h4 : Keeps z v4 := (by unfold v4; exact (State.each_keeps h3 (fun h5 => (State.when_keeps h5 (fun h6 => (State.publishQp_keeps h6)))))); clear_value v4; exact (State.signalAll_keeps (State.each_keeps h4 (fun h5 => (State.freeClosed_keeps h5))))))))

/-! Records -/

theorem State.storeRec_keeps {z s : State} {a1} (h : Keeps z s) : Keeps z (State.storeRec s a1) := by
  unfold State.storeRec
  extract_lets -merge -useContext -underBinder +onlyGivenNames v1
  clear_value v1
  exact .ite (State.bump_keeps h) (.ite (.of h rfl) (by extract_lets -merge -useContext -underBinder +onlyGivenNames v2; clear_value v2; exact (State.when_keeps (State.setF_keeps (State.bump_keeps h)) (fun h3 => (State.raise_keeps h3)))))

theorem State.tailRec_keeps {z s : State} {e} (h : Keeps z s) : Keeps z (s.tailRec e) := by
  rw [State.tailRec]
  exact h.of rfl

theorem State.arrive_keeps {z s : State} {a1} (h : Keeps z s) : Keeps z (State.arrive s a1) := by
  unfold State.arrive
  split <;> [exact h; exact (by extract_lets -merge -useContext -underBinder +onlyGivenNames v1; clear_value v1; exact (by extract_lets -merge -useContext -underBinder +onlyGivenNames v2; clear_value v2; exact (by extract_lets -merge -useContext -underBinder +onlyGivenNames u3_0 v3; clear_value v3; exact (State.tailRec_keeps (State.storeRec_keeps (State.bump_keeps (.of h rfl)))))))]

theorem execEventRecordArrival_keeps {s : State} {a0 a1} : Answered s (execEventRecordArrival a0 a1 s) :=
  .answer (fun h1 => (State.arrive_keeps h1))

theorem State.clearedRec_keeps {z s : State}  (h : Keeps z s) : Keeps z (State.clearedRec s) := by
  unfold State.clearedRec
  split <;> [exact h; exact (.ite h (by extract_lets -merge -useContext -underBinder +onlyGivenNames v1; clear_value v1; exact (by extract_lets -merge -useContext -underBinder +onlyGivenNames u2_0 v2; have h2 : Keeps z v2 := (by unfold v2; exact (.of h rfl)); clear_value v2; exact (State.tailRec_keeps (State.bump_keeps h2)))))]

theorem State.evtFreeze_keeps {z s : State} {a1} (h : Keeps z s) : Keeps z (State.evtFreeze s a1) := by
  unfold State.evtFreeze
  extract_lets -merge -useContext -underBinder +onlyGivenNames u1_0 v1
  have h1 : Keeps z v1 := (by unfold v1; exact (.ite (.of h rfl) h))
  clear_value v1
  exact State.clearedRec_keeps (State.setF_keeps h1)

theorem State.evtClear_keeps {z s : State}  (h : Keeps z s) : Keeps z (State.evtClear s) := by
  unfold State.evtClear
  extract_lets -merge -useContext -underBinder +onlyGivenNames v1 v2 v3 v4 v5 v6 u7_0 v7
  clear_value v1 v2 v3 v4 v5 v6 v7
  exact State.clearedRec_keeps (State.setF_keeps (State.setNum_keeps (.of h rfl)))

theorem State.wfgTrigger_keeps {z s : State} {a1 a2} (h : Keeps z s) : Keeps z (State.wfgTrigger s a1 a2) :=
  .ite h (.of h rfl)

theorem State.wfgReq_keeps {z s : State}  (h : Keeps z s) : Keeps z (State.wfgReq s) :=
  State.wfgTrigger_keeps (State.setF_keeps h)

theorem State.wfgAtSeal_keeps {z s : State}  (h : Keeps z s) : Keeps z (State.wfgAtSeal s) := by
  unfold State.wfgAtSeal
  extract_lets -merge -useContext -underBinder +onlyGivenNames v1 v2
  clear_value v1 v2
  extract_lets -merge -useContext -underBinder +onlyGivenNames u3_0 v3
  have h3 : Keeps z v3 := (by unfold v3; exact (.chg h rfl (fun c => { c with qps := Cells.wf_mapAll _ c.qps })))
  clear_value v3
  split <;> [exact h3; exact (.ite h3 (.of h3 rfl))]

theorem execWfgWriteDone_keeps {s : State} {a0} : Answered s (execWfgWriteDone a0 s) := by
  unfold execWfgWriteDone
  exact .answer (fun h1 => (by split <;> [exact h1; exact (by extract_lets -merge -useContext -underBinder +onlyGivenNames v2; clear_value v2; exact (by extract_lets -merge -useContext -underBinder +onlyGivenNames v3; clear_value v3; exact (by extract_lets -merge -useContext -underBinder +onlyGivenNames v4; clear_value v4; exact (by extract_lets -merge -useContext -underBinder +onlyGivenNames u5_0 v5; have h5 : Keeps s v5 := (by unfold v5; exact (.of h1 rfl)); clear_value v5; exact (by extract_lets -merge -useContext -underBinder +onlyGivenNames v6; have h6 : Keeps s v6 := (by unfold v6; exact (State.setF_keeps (State.setNum_keeps h5))); clear_value v6; exact (by extract_lets -merge -useContext -underBinder +onlyGivenNames v7; have h7 : Keeps s v7 := (by unfold v7; exact (State.when_keeps h6 (fun h8 => (State.dmaWr_keeps (State.emit_keeps h8))))); clear_value v7; exact (State.event_keeps (State.raise_keeps h7))))))))]))

theorem State.bbxEmpty_keeps {z s : State}  (h : Keeps z s) : Keeps z (State.bbxEmpty s) := by
  unfold State.bbxEmpty
  extract_lets -merge -useContext -underBinder +onlyGivenNames v1
  clear_value v1
  extract_lets -merge -useContext -underBinder +onlyGivenNames u2_0 v2
  have h2 : Keeps z v2 := (by unfold v2; exact (.of h rfl))
  clear_value v2
  exact State.event_keeps (State.setF_keeps h2)

theorem State.bbxClear_keeps {z s : State}  (h : Keeps z s) : Keeps z (State.bbxClear s) :=
  .ite h (.ite (State.bbxEmpty_keeps h) (State.setF_keeps h))

theorem State.bbxSnap_keeps {z s : State}  (h : Keeps z s) : Keeps z (State.bbxSnap s) := by
  unfold State.bbxSnap
  extract_lets -merge -useContext -underBinder +onlyGivenNames v1
  clear_value v1
  extract_lets -merge -useContext -underBinder +onlyGivenNames v2
  have h2 : Keeps z v2 := (by unfold v2; exact (State.snapTrigger_keeps h))
  clear_value v2
  exact .ite h2 (State.setF_keeps h2)

theorem execSnapshotDone_keeps {s : State} {a0} : Answered s (execSnapshotDone a0 s) := by
  unfold execSnapshotDone
  exact .answer (fun h1 => (by split <;> [exact h1; exact (by extract_lets -merge -useContext -underBinder +onlyGivenNames v2; clear_value v2; exact (by extract_lets -merge -useContext -underBinder +onlyGivenNames v3; clear_value v3; exact (by extract_lets -merge -useContext -underBinder +onlyGivenNames u4_0 v4; have h4 : Keeps s v4 := (by unfold v4; exact (.of h1 rfl)); clear_value v4; exact (by extract_lets -merge -useContext -underBinder +onlyGivenNames v5; have h5 : Keeps s v5 := (by unfold v5; exact (State.when_keeps h4 (fun h6 => (State.setF_keeps h6)))); clear_value v5; exact (by extract_lets -merge -useContext -underBinder +onlyGivenNames v6; have h6 : Keeps s v6 := (by unfold v6; exact (State.event_keeps (State.raise_keeps h5))); clear_value v6; exact (by extract_lets -merge -useContext -underBinder +onlyGivenNames v7; have h7 : Keeps s v7 := (by unfold v7; exact (State.when_keeps h6 (fun h8 => (State.bbxEmpty_keeps h8)))); clear_value v7; exact (State.when_keeps h7 (fun h8 => (State.stopOff_keeps h8)))))))))]))

/-! SealOps -/

theorem State.stopPans_keeps {z s : State}  (h : Keeps z s) : Keeps z (State.stopPans s) := by
  unfold State.stopPans
  exact State.each_keeps h (fun h1 => (by extract_lets -merge -useContext -underBinder +onlyGivenNames v2; clear_value v2; exact (State.when_keeps h1 (fun h3 => (State.bump_keeps (State.updPan_keeps h3))))))

theorem State.sealWork_keeps {z s : State}  (h : Keeps z s) : Keeps z (State.sealWork s) :=
  .ite h (State.stopPans_keeps (.of h rfl))

/-! Power -/

theorem State.pwrCode_keeps {z s : State} {a1} (h : Keeps z s) : Keeps z (State.pwrCode s a1) :=
  State.setF_keeps h

theorem State.powerRequest_keeps {z s : State}  (h : Keeps z s) : Keeps z (State.powerRequest s) :=
  .ite (State.exitPower_keeps (State.setF_keeps h)) (State.setF_keeps h)

theorem State.vcoreTarget_keeps {z s : State} {a1} (h : Keeps z s) : Keeps z (State.vcoreTarget s a1) :=
  .ite (State.setNum_keeps h) (State.pwrCode_keeps h)

theorem State.pwrLimit_keeps {z s : State} {a1} (h : Keeps z s) : Keeps z (State.pwrLimit s a1) :=
  .ite (State.setNum_keeps h) (State.pwrCode_keeps h)

theorem State.startCal_keeps {z s : State} {a1} (h : Keeps z s) : Keeps z (State.startCal s a1) := by
  unfold State.startCal
  exact .ite (State.setF_keeps h) (by extract_lets -merge -useContext -underBinder +onlyGivenNames v1; have h1 : Keeps z v1 := (by unfold v1; exact (State.setF_keeps (State.setF_keeps h))); clear_value v1; exact (.of h1 rfl))

theorem State.sensorRead_keeps {z s : State} {a1 a2} (h : Keeps z s) : Keeps z (State.sensorRead s a1 a2) := by
  unfold State.sensorRead
  extract_lets -merge -useContext -underBinder +onlyGivenNames v1 v2
  clear_value v1 v2
  extract_lets -merge -useContext -underBinder +onlyGivenNames u3_0 v3
  have h3 : Keeps z v3 := (by unfold v3; exact (.of h rfl))
  clear_value v3
  exact State.when_keeps h3 (fun h4 => (State.setNum_keeps h4))

theorem execHkaConversion_keeps {s : State} {a0 a1} : Answered s (execHkaConversion a0 a1 s) := by
  unfold execHkaConversion
  exact .answer (fun h1 => (.ite h1 (by extract_lets -merge -useContext -underBinder +onlyGivenNames v2; clear_value v2; exact (by extract_lets -merge -useContext -underBinder +onlyGivenNames v3; clear_value v3; exact (by extract_lets -merge -useContext -underBinder +onlyGivenNames v4; clear_value v4; exact (by extract_lets -merge -useContext -underBinder +onlyGivenNames v5; have h5 : Keeps s v5 := (by unfold v5; exact (State.setNum_keeps (State.setNum_keeps h1))); clear_value v5; exact (by extract_lets -merge -useContext -underBinder +onlyGivenNames v6; have h6 : Keeps s v6 := (by unfold v6; exact (State.when_keeps h5 (fun h7 => (State.sensorRead_keeps h7)))); clear_value v6; exact (.of h6 rfl))))))))

theorem State.orderlyStop_keeps {z s : State} {a1 a2} (h : Keeps z s) : Keeps z (State.orderlyStop s a1 a2) := by
  unfold State.orderlyStop
  exact .ite h (by extract_lets -merge -useContext -underBinder +onlyGivenNames v1; have h1 : Keeps z v1 := (by unfold v1; exact (State.raise_keeps (State.setDevState_keeps (State.setF_keeps h)))); clear_value v1; exact (State.sealWork_keeps (by extract_lets -merge -useContext -underBinder +onlyGivenNames v2; have h2 : Keeps z v2 := (by unfold v2; exact (State.event_keeps h1)); clear_value v2; exact (.of h2 rfl))))

theorem State.judgeWarn_keeps {z s : State} {a1 a2} (h : Keeps z s) : Keeps z (State.judgeWarn s a1 a2) := by
  unfold State.judgeWarn
  extract_lets -merge -useContext -underBinder +onlyGivenNames v1
  clear_value v1
  extract_lets -merge -useContext -underBinder +onlyGivenNames u2_0 u2_1 v2
  have h2 : Keeps z v2 := (by unfold v2; exact (.of (State.setF_keeps h) rfl))
  clear_value v2
  extract_lets -merge -useContext -underBinder +onlyGivenNames v3
  have h3 : Keeps z v3 := (by unfold v3; exact (State.when_keeps h2 (fun h4 => (State.raise_keeps h4))))
  clear_value v3
  exact State.when_keeps h3 (fun h4 => (State.event_keeps (State.bump_keeps (State.raise_keeps h4))))

theorem State.judgeThrottle_keeps {z s : State} {a1} (h : Keeps z s) : Keeps z (State.judgeThrottle s a1) := by
  unfold State.judgeThrottle
  extract_lets -merge -useContext -underBinder +onlyGivenNames v1
  clear_value v1
  extract_lets -merge -useContext -underBinder +onlyGivenNames u2_0 u2_1 v2
  have h2 : Keeps z v2 := (by unfold v2; exact (.of (State.setF_keeps h) rfl))
  clear_value v2
  exact State.when_keeps (State.when_keeps h2 (fun h3 => (State.raise_keeps h3))) (fun h3 => (State.raise_keeps h3))

theorem State.judgeThermal_keeps {z s : State}  (h : Keeps z s) : Keeps z (State.judgeThermal s) := by
  unfold State.judgeThermal
  split <;> [exact h; exact (by extract_lets -merge -useContext -underBinder +onlyGivenNames v1; have h1 : Keeps z v1 := (by unfold v1; exact (State.judgeThrottle_keeps (State.judgeWarn_keeps (State.setNum_keeps h)))); clear_value v1; exact (State.when_keeps h1 (fun h2 => (State.orderlyStop_keeps h2))))]

theorem State.judgeRails_keeps {z s : State}  (h : Keeps z s) : Keeps z (State.judgeRails s) := by
  unfold State.judgeRails
  extract_lets -merge -useContext -underBinder +onlyGivenNames v1 v2
  clear_value v1 v2
  extract_lets -merge -useContext -underBinder +onlyGivenNames u3_0 v3
  have h3 : Keeps z v3 := (by unfold v3; exact (.of h rfl))
  clear_value v3
  exact State.when_keeps h3 (fun h4 => (State.uncontained_keeps h4))

theorem State.setCalibrated_keeps {z s : State} {a1} (h : Keeps z s) : Keeps z (State.setCalibrated s a1) :=
  State.setF_keeps (State.setF_keeps (State.setF_keeps h))

theorem State.judgeRefin_keeps {z s : State}  (h : Keeps z s) : Keeps z (State.judgeRefin s) := by
  unfold State.judgeRefin
  exact .ite (.of h rfl) (by extract_lets -merge -useContext -underBinder +onlyGivenNames v1; clear_value v1; exact (by extract_lets -merge -useContext -underBinder +onlyGivenNames v2; clear_value v2; exact (.ite (.of h rfl) (by extract_lets -merge -useContext -underBinder +onlyGivenNames u3_0 v3; have h3 : Keeps z v3 := (by unfold v3; exact (.of h rfl)); clear_value v3; exact (State.event_keeps (State.raise_keeps (State.setF_keeps (State.setCalibrated_keeps h3))))))))

theorem State.sampleCore_keeps {z s : State}  (h : Keeps z s) : Keeps z (State.sampleCore s) := by
  unfold State.sampleCore
  extract_lets -merge -useContext -underBinder +onlyGivenNames v1 v2
  clear_value v1 v2
  exact .of h rfl

theorem execHkaScanComplete_keeps {s : State} {a0} : Answered s (execHkaScanComplete a0 s) := by
  unfold execHkaScanComplete
  exact .answer (fun h1 => (.ite h1 (by extract_lets -merge -useContext -underBinder +onlyGivenNames u2_0 v2; have h2 : Keeps s v2 := (by unfold v2; exact (State.bump_keeps (.of h1 rfl))); clear_value v2; exact (.ite h2 (by extract_lets -merge -useContext -underBinder +onlyGivenNames v3; have h3 : Keeps s v3 := (by unfold v3; exact (State.judgeThermal_keeps (State.sampleCore_keeps h2))); clear_value v3; exact (State.judgeRefin_keeps (State.when_keeps h3 (fun h4 => (State.judgeRails_keeps h4)))))))))

theorem execThermalDwellEnd_keeps {s : State} {a0 a1} : Answered s (execThermalDwellEnd a0 a1 s) := by
  unfold execThermalDwellEnd
  exact .answer (fun h1 => (.ite h1 (.ite (State.when_keeps h1 (fun h2 => (State.raise_keeps (by extract_lets -merge -useContext -underBinder +onlyGivenNames v3; have h3 : Keeps s v3 := (by unfold v3; exact (State.setF_keeps h2)); clear_value v3; exact (.of h3 rfl))))) (State.when_keeps h1 (fun h2 => (State.raise_keeps (by extract_lets -merge -useContext -underBinder +onlyGivenNames v3; have h3 : Keeps s v3 := (by unfold v3; exact (State.setF_keeps h2)); clear_value v3; exact (.of h3 rfl))))))))

theorem State.stopNow_keeps {z s : State}  (h : Keeps z s) : Keeps z (State.stopNow s) := by
  unfold State.stopNow
  exact .ite h (by extract_lets -merge -useContext -underBinder +onlyGivenNames v1; have h1 : Keeps z v1 := (by unfold v1; exact (State.snapTrigger_keeps (State.shutRecord_keeps h))); clear_value v1; exact (.ite h1 (State.stopOff_keeps h1)))

theorem execOrderlyStopDeadline_keeps {s : State} {a0} : Answered s (execOrderlyStopDeadline a0 s) := by
  unfold execOrderlyStopDeadline
  exact .answer (fun h1 => (by split <;> [exact h1; exact (State.when_keeps h1 (fun h2 => (State.stopNow_keeps h2)))]))

theorem State.closeMs_keeps {z s : State} {a1} (h : Keeps z s) : Keeps z (State.closeMs s a1) := by
  unfold State.closeMs
  extract_lets -merge -useContext -underBinder +onlyGivenNames v1 v2 v3 v4
  clear_value v1 v2 v3 v4
  extract_lets -merge -useContext -underBinder +onlyGivenNames v5
  have h5 : Keeps z v5 := (by unfold v5; exact (.of h rfl))
  clear_value v5
  exact State.bump_keeps (State.setNum_keeps (State.setNum_keeps h5))

theorem execBrakeEvaluation_keeps {s : State} {a0 a1} : Answered s (execBrakeEvaluation a0 a1 s) := by
  unfold execBrakeEvaluation
  exact .answer (fun h1 => (.ite h1 (by extract_lets -merge -useContext -underBinder +onlyGivenNames v2; have h2 : Keeps s v2 := (by unfold v2; exact (State.closeMs_keeps h1)); clear_value v2; exact (by split <;> [exact h2; exact (.ite h2 (by extract_lets -merge -useContext -underBinder +onlyGivenNames u3_0 u3_1 v3; have h3 : Keeps s v3 := (by unfold v3; exact (.of (State.setF_keeps h2) rfl)); clear_value v3; exact (State.event_keeps (State.raise_keeps (State.bump_keeps h3)))))]))))

theorem execPmbAlert_keeps {s : State} {a0 a1} : Answered s (execPmbAlert a0 a1 s) := by
  unfold execPmbAlert
  exact .answer (fun h1 => (.ite h1 (by split <;> [exact (by extract_lets -merge -useContext -underBinder +onlyGivenNames v2; have h2 : Keeps s v2 := (by unfold v2; exact (State.raise_keeps (State.bump_keeps h1))); clear_value v2; exact (.of h2 rfl)); exact (State.uncontained_keeps h1)])))

theorem State.calEnd_keeps {z s : State} {a1} (h : Keeps z s) : Keeps z (State.calEnd s a1) := by
  unfold State.calEnd
  exact State.raise_keeps (by extract_lets -merge -useContext -underBinder +onlyGivenNames v1; have h1 : Keeps z v1 := (by unfold v1; exact (State.setF_keeps (State.setF_keeps h))); clear_value v1; exact (.of h1 rfl))

theorem State.calChannel_keeps {z s : State} {a1 a2 a3} (h : Keeps z s) : Keeps z (State.calChannel s a1 a2 a3) := by
  unfold State.calChannel
  split <;> [exact h; exact (State.setNum_keeps (State.setNum_keeps h))]

theorem execSelfCalDone_keeps {s : State} {a0 a1} : Answered s (execSelfCalDone a0 a1 s) := by
  unfold execSelfCalDone
  exact .answer (fun h1 => (.ite h1 (by extract_lets -merge -useContext -underBinder +onlyGivenNames v2; have h2 : Keeps s v2 := (by unfold v2; exact (State.each_keeps h1 (fun h3 => (State.calChannel_keeps h3)))); clear_value v2; exact (by extract_lets -merge -useContext -underBinder +onlyGivenNames v3; have h3 : Keeps s v3 := (by unfold v3; exact (State.calEnd_keeps h2)); clear_value v3; exact (.ite (State.startCal_keeps (State.setF_keeps h3)) h3)))))

theorem execRefCalDone_keeps {s : State} {a0 a1} : Answered s (execRefCalDone a0 a1 s) := by
  unfold execRefCalDone
  exact .answer (fun h1 => (.ite h1 (by extract_lets -merge -useContext -underBinder +onlyGivenNames v2; clear_value v2; exact (by extract_lets -merge -useContext -underBinder +onlyGivenNames v3; have h3 : Keeps s v3 := (by unfold v3; exact (State.setNum_keeps h1)); clear_value v3; exact (by extract_lets -merge -useContext -underBinder +onlyGivenNames v4; have h4 : Keeps s v4 := (by unfold v4; exact (.ite (State.setF_keeps (State.setCalibrated_keeps (State.setNum_keeps h3))) (State.event_keeps (State.raise_keeps (State.setF_keeps (State.setCalibrated_keeps (State.setNum_keeps h3))))))); clear_value v4; exact (by extract_lets -merge -useContext -underBinder +onlyGivenNames v5; have h5 : Keeps s v5 := (by unfold v5; exact (State.calEnd_keeps h4)); clear_value v5; exact (.ite (State.setF_keeps h5) h5)))))))

theorem execPowerExitComplete_keeps {s : State} {a0} : Answered s (execPowerExitComplete a0 s) := by
  unfold execPowerExitComplete
  exact .answer (fun h1 => (by split <;> [exact h1; exact (.ite h1 (by extract_lets -merge -useContext -underBinder +onlyGivenNames v2; clear_value v2; exact (by extract_lets -merge -useContext -underBinder +onlyGivenNames v3; have h3 : Keeps s v3 := (by unfold v3; exact (State.setPwrState_keeps (State.tick_keeps h1))); clear_value v3; exact (by extract_lets -merge -useContext -underBinder +onlyGivenNames u4_0 v4; have h4 : Keeps s v4 := (by unfold v4; exact (.chg h3 rfl (fun c => { c with pans := Pool.wf_map _ c.pans }))); clear_value v4; exact (by extract_lets -merge -useContext -underBinder +onlyGivenNames v5; have h5 : Keeps s v5 := (by unfold v5; exact (State.each_keeps h4 (fun h6 => (State.updPan_keeps h6)))); clear_value v5; exact (State.raise_keeps h5))))))]))

theorem execHbmSelfRefreshExit_keeps {s : State} {a0} : Answered s (execHbmSelfRefreshExit a0 s) :=
  .answer (fun h1 => (State.when_keeps h1 (fun h2 => (.of h2 rfl))))

theorem State.powerLevelEdge_keeps {z s : State} {a1} (h : Keeps z s) : Keeps z (State.powerLevelEdge s a1) := by
  unfold State.powerLevelEdge
  extract_lets -merge -useContext -underBinder +onlyGivenNames v1 v2 v3 v4 v5 v6
  clear_value v1 v2 v3 v4 v5 v6
  extract_lets -merge -useContext -underBinder +onlyGivenNames u7_0 v7
  have h7 : Keeps z v7 := (by unfold v7; exact (.of (State.setF_keeps h) rfl))
  clear_value v7
  exact .ite h7 (State.raise_keeps h7)

theorem State.thermLevelEdge_keeps {z s : State}  (h : Keeps z s) : Keeps z (State.thermLevelEdge s) := by
  unfold State.thermLevelEdge
  extract_lets -merge -useContext -underBinder +onlyGivenNames v1 v2 v3 v4
  clear_value v1 v2 v3 v4
  exact .of h rfl

theorem State.showLevels_keeps {z s : State}  (h : Keeps z s) : Keeps z (State.showLevels s) := by
  unfold State.showLevels
  extract_lets -merge -useContext -underBinder +onlyGivenNames v1
  clear_value v1
  extract_lets -merge -useContext -underBinder +onlyGivenNames v2
  have h2 : Keeps z v2 := (by unfold v2; exact (State.setF_keeps h))
  clear_value v2
  exact .ite h2 (State.raise_keeps h2)

theorem State.powerEdge_keeps {z s : State} {a1 a2} (h : Keeps z s) : Keeps z (State.powerEdge s a1 a2) := by
  unfold State.powerEdge
  extract_lets -merge -useContext -underBinder +onlyGivenNames v1
  have h1 : Keeps z v1 := (by unfold v1; exact (State.when_keeps h (fun h2 => (State.showLevels_keeps (State.thermLevelEdge_keeps (State.powerLevelEdge_keeps h2))))))
  clear_value v1
  extract_lets -merge -useContext -underBinder +onlyGivenNames u2_0 u2_1 v2
  have h2 : Keeps z v2 := (by unfold v2; exact (.of (State.setF_keeps h1) rfl))
  clear_value v2
  extract_lets -merge -useContext -underBinder +onlyGivenNames v3
  have h3 : Keeps z v3 := (by unfold v3; exact (State.when_keeps h2 (fun h4 => (State.setNum_keeps h4))))
  clear_value v3
  exact State.when_keeps h3 (fun h4 => (State.bump_keeps h4))

theorem State.rest_keeps {z s : State} {a1} (h : Keeps z s) : Keeps z (State.rest s a1) := by
  unfold State.rest
  extract_lets -merge -useContext -underBinder +onlyGivenNames v1
  clear_value v1
  extract_lets -merge -useContext -underBinder +onlyGivenNames u2_0 v2
  have h2 : Keeps z v2 := (by unfold v2; exact (.chg h rfl (fun c => { c with pans := Pool.wf_map _ c.pans })))
  clear_value v2
  exact State.raise_keeps (State.setNum_keeps (State.setPwrState_keeps h2))

theorem State.sleepGrant_keeps {z s : State}  (h : Keeps z s) : Keeps z (State.sleepGrant s) := by
  unfold State.sleepGrant
  extract_lets -merge -useContext -underBinder +onlyGivenNames v1
  have h1 : Keeps z v1 := (by unfold v1; exact (State.each_keeps (State.shutRecord_keeps h) (fun h2 => (State.linkDown_keeps h2))))
  clear_value v1
  extract_lets -merge -useContext -underBinder +onlyGivenNames v2
  have h2 : Keeps z v2 := (by unfold v2; exact (State.raise_keeps (State.event_keeps (State.setF_keeps h1))))
  clear_value v2
  exact .of h2 rfl

theorem State.judgePower_keeps {z s : State}  (h : Keeps z s) : Keeps z (State.judgePower s) := by
  unfold State.judgePower
  exact .ite h (.ite (by extract_lets -merge -useContext -underBinder +onlyGivenNames v1; have h1 : Keeps z v1 := (by unfold v1; exact (State.setF_keeps h)); clear_value v1; exact (by extract_lets -merge -useContext -underBinder +onlyGivenNames v2; clear_value v2; exact (.ite (State.raise_keeps (State.pwrCode_keeps h1)) (.ite (State.sleepGrant_keeps h1) (.ite h1 (State.rest_keeps h1)))))) (.ite (by extract_lets -merge -useContext -underBinder +onlyGivenNames v1; clear_value v1; exact (.ite (State.rest_keeps h) (.of h rfl))) (.of h rfl)))

/-! PowerUp -/

/-- A cold start keeps what no command touches, but begins time anew. -/
theorem State.cold_keeps (s : State) : s.cold.pending = s.pending ∧ s.cold.part = s.part ∧
    s.cold.mram = s.mram ∧ s.cold.Canonical :=
  ⟨rfl, rfl, rfl, State.reset_canonical.of_stores rfl⟩



theorem State.cmpOut_keeps {z s : State} {a1 a2} (h : Keeps z s) : Keeps z (State.cmpOut s a1 a2) :=
  State.setF_keeps h

theorem State.seqFail_keeps {z s : State}  (h : Keeps z s) : Keeps z (State.seqFail s) := by
  unfold State.seqFail
  extract_lets -merge -useContext -underBinder +onlyGivenNames v1
  clear_value v1
  exact .of h rfl

theorem execVioCheck_keeps {s : State} {a0 a1} : Answered s (execVioCheck a0 a1 s) := by
  unfold execVioCheck
  exact .answer (fun h1 => (.ite h1 (by extract_lets -merge -useContext -underBinder +onlyGivenNames v2; clear_value v2; exact (by extract_lets -merge -useContext -underBinder +onlyGivenNames v3; have h3 : Keeps s v3 := (by unfold v3; exact (State.cmpOut_keeps h1)); clear_value v3; exact (.ite (.of h3 rfl) (State.seqFail_keeps h3))))))

theorem execVcoreCheck_keeps {s : State} {a0 a1} : Answered s (execVcoreCheck a0 a1 s) := by
  unfold execVcoreCheck
  exact .answer (fun h1 => (.ite h1 (by extract_lets -merge -useContext -underBinder +onlyGivenNames v2; clear_value v2; exact (by extract_lets -merge -useContext -underBinder +onlyGivenNames v3; have h3 : Keeps s v3 := (by unfold v3; exact (State.cmpOut_keeps h1)); clear_value v3; exact (.ite (.of h3 rfl) (State.seqFail_keeps h3))))))

theorem execPowerSequenceRetry_keeps {s : State} {a0} : Answered s (execPowerSequenceRetry a0 s) :=
  .answer (fun h1 => (State.when_keeps h1 (fun h2 => (.of h2 rfl))))

theorem execBrownOut_keeps {s : State} {t} : Answered s (execBrownOut t s) :=
  .answer (fun h => h.trans ⟨rfl, rfl, rfl, Nat.le_refl _, fun _ => State.reset_canonical.of_stores rfl⟩)

theorem State.romRegs_keeps {z s : State}  (h : Keeps z s) : Keeps z (State.romRegs s) := by
  unfold State.romRegs
  extract_lets -merge -useContext -underBinder +onlyGivenNames v1
  clear_value v1
  exact State.tick_keeps (State.setNum_keeps (State.setNum_keeps (State.setNum_keeps (State.setNum_keeps (State.setNum_keeps h)))))

theorem execHouseDieResetRelease_keeps {s : State} {a0 a1 a2} : Answered s (execHouseDieResetRelease a0 a1 a2 s) := by
  unfold execHouseDieResetRelease
  exact .answer (fun h1 => (.ite h1 (by extract_lets -merge -useContext -underBinder +onlyGivenNames u2_0 v2; have h2 : Keeps s v2 := (by unfold v2; exact (.of h1 rfl)); clear_value v2; exact (State.setF_keeps (State.setF_keeps (State.romRegs_keeps h2))))))

theorem State.setIdentity_keeps {z s : State} {a1 a2} (h : Keeps z s) : Keeps z (State.setIdentity s a1 a2) := by
  unfold State.setIdentity
  extract_lets -merge -useContext -underBinder +onlyGivenNames v1
  clear_value v1
  extract_lets -merge -useContext -underBinder +onlyGivenNames u2_0 v2
  have h2 : Keeps z v2 := (by unfold v2; exact (.of h rfl))
  clear_value v2
  exact State.setF_keeps (State.setNum_keeps (State.setNum_keeps (State.setNum_keeps h2)))

theorem execIdentityDerived_keeps {s : State} {a0 a1 a2 a3 a4} : Answered s (execIdentityDerived a0 a1 a2 a3 a4 s) := by
  unfold execIdentityDerived
  exact .answer (fun h1 => (.ite h1 (by extract_lets -merge -useContext -underBinder +onlyGivenNames v2; have h2 : Keeps s v2 := (by unfold v2; exact (State.setNum_keeps (State.setF_keeps h1))); clear_value v2; exact (.ite (State.setF_keeps (State.setIdentity_keeps h2)) (State.enterSafe_keeps h2)))))

theorem State.stRegs_keeps {z s : State} {a1} (h : Keeps z s) : Keeps z (State.stRegs s a1) := by
  unfold State.stRegs
  extract_lets -merge -useContext -underBinder +onlyGivenNames u1_0 v1
  have h1 : Keeps z v1 := (by unfold v1; exact (.of h rfl))
  clear_value v1
  extract_lets -merge -useContext -underBinder +onlyGivenNames v2
  have h2 : Keeps z v2 := (by unfold v2; exact (State.setNum_keeps (State.setNum_keeps h1)))
  clear_value v2
  extract_lets -merge -useContext -underBinder +onlyGivenNames v3
  have h3 : Keeps z v3 := (by unfold v3; exact (State.setNum_keeps h2))
  clear_value v3
  exact State.each_keeps h3 (fun h4 => (State.setNum_keeps h4))

theorem State.repair_keeps {z s : State} {a1} (h : Keeps z s) : Keeps z (State.repair s a1) :=
  State.each_keeps h (fun h1 => (State.updPan_keeps h1))

theorem execRomSelfTestDone_keeps {s : State} {a0 a1} : Answered s (execRomSelfTestDone a0 a1 s) := by
  unfold execRomSelfTestDone
  exact .answer (fun h1 => (.ite h1 (by extract_lets -merge -useContext -underBinder +onlyGivenNames v2; clear_value v2; exact (by extract_lets -merge -useContext -underBinder +onlyGivenNames v3; have h3 : Keeps s v3 := (by unfold v3; exact (State.repair_keeps (State.stRegs_keeps h1))); clear_value v3; exact (.ite (State.enterSafe_keeps h3) (by extract_lets -merge -useContext -underBinder +onlyGivenNames v4; have h4 : Keeps s v4 := (by unfold v4; exact (State.setF_keeps h3)); clear_value v4; exact (.ite (State.raise_keeps (State.setF_keeps h4)) h4)))))))

theorem State.fwpLoad_keeps {z s : State}  (h : Keeps z s) : Keeps z (State.fwpLoad s) :=
  State.when_keeps h (fun h1 => (State.setF_keeps (State.setF_keeps h1)))

theorem execFirmwareVerified_keeps {s : State} {a0 a1} : Answered s (execFirmwareVerified a0 a1 s) := by
  unfold execFirmwareVerified
  exact .answer (fun h1 => (.ite h1 (by extract_lets -merge -useContext -underBinder +onlyGivenNames v2; clear_value v2; exact (by extract_lets -merge -useContext -underBinder +onlyGivenNames u3_0 v3; have h3 : Keeps s v3 := (by unfold v3; exact (State.setF_keeps (.of h1 rfl))); clear_value v3; exact (by extract_lets -merge -useContext -underBinder +onlyGivenNames v4; have h4 : Keeps s v4 := (by unfold v4; exact (State.setF_keeps h3)); clear_value v4; exact (.ite (State.setF_keeps (State.setF_keeps (State.setNum_keeps h4))) (State.enterSafe_keeps h4)))))))

theorem State.fwRegs_keeps {z s : State} {a1} (h : Keeps z s) : Keeps z (State.fwRegs s a1) := by
  unfold State.fwRegs
  extract_lets -merge -useContext -underBinder +onlyGivenNames v1 v2
  clear_value v1 v2
  extract_lets -merge -useContext -underBinder +onlyGivenNames v3
  have h3 : Keeps z v3 := (by unfold v3; exact (State.each_keeps h (fun h4 => (State.setNum_keeps h4))))
  clear_value v3
  extract_lets -merge -useContext -underBinder +onlyGivenNames v4
  have h4 : Keeps z v4 := (by unfold v4; exact (State.setNum_keeps (State.setNum_keeps h3)))
  clear_value v4
  extract_lets -merge -useContext -underBinder +onlyGivenNames v5
  have h5 : Keeps z v5 := (by unfold v5; exact (State.setNum_keeps h4))
  clear_value v5
  exact State.setNum_keeps h5

theorem State.applyList_keeps {z s : State}  (h : Keeps z s) : Keeps z (State.applyList s) := by
  unfold State.applyList
  extract_lets -merge -useContext -underBinder +onlyGivenNames v1 v2 v3
  clear_value v1 v2 v3
  extract_lets -merge -useContext -underBinder +onlyGivenNames u4_0 v4
  have h4 : Keeps z v4 := (by unfold v4; exact (.chg h rfl (fun c => { c with phys := Pool.wf_map _ c.phys })))
  clear_value v4
  extract_lets -merge -useContext -underBinder +onlyGivenNames v5
  have h5 : Keeps z v5 := (by unfold v5; exact (State.each_keeps h4 (fun h6 => (State.updPhys_keeps h6))))
  clear_value v5
  extract_lets -merge -useContext -underBinder +onlyGivenNames v6
  clear_value v6
  exact State.each_keeps h5 (fun h7 => (by split <;> [exact (State.updPhys_keeps h7); exact (.of h7 rfl)]))

theorem State.startTimer_keeps {z s : State}  (h : Keeps z s) : Keeps z (State.startTimer s) := by
  unfold State.startTimer
  exact .ite h (by extract_lets -merge -useContext -underBinder +onlyGivenNames v1; clear_value v1; exact (by extract_lets -merge -useContext -underBinder +onlyGivenNames v2; clear_value v2; exact (by extract_lets -merge -useContext -underBinder +onlyGivenNames v3; clear_value v3; exact (by extract_lets -merge -useContext -underBinder +onlyGivenNames v4; have h4 : Keeps z v4 := (by unfold v4; exact (.of h rfl)); clear_value v4; exact (.ite (State.setNum_keeps h4) h4)))))

theorem State.tripRecord_keeps {z s : State}  (h : Keeps z s) : Keeps z (State.tripRecord s) := by
  unfold State.tripRecord
  split <;> [exact h; exact (by extract_lets -merge -useContext -underBinder +onlyGivenNames u1_0 v1; clear_value v1; exact (.of h rfl))]

theorem execFirmwareStarted_keeps {s : State} {a0 a1 a2 a3} : Answered s (execFirmwareStarted a0 a1 a2 a3 s) := by
  unfold execFirmwareStarted
  exact .answer (fun h1 => (.ite h1 (by extract_lets -merge -useContext -underBinder +onlyGivenNames u2_0 u2_1 v2; have h2 : Keeps s v2 := (by unfold v2; exact (.of h1 rfl)); clear_value v2; exact (by extract_lets -merge -useContext -underBinder +onlyGivenNames v3; have h3 : Keeps s v3 := (by unfold v3; exact (State.tripRecord_keeps (State.startTimer_keeps (State.applyList_keeps (State.fwRegs_keeps h2))))); clear_value v3; exact (by extract_lets -merge -useContext -underBinder +onlyGivenNames v4; clear_value v4; exact (by extract_lets -merge -useContext -underBinder +onlyGivenNames v5; have h5 : Keeps s v5 := (by unfold v5; exact (State.stRegs_keeps h3)); clear_value v5; exact (by extract_lets -merge -useContext -underBinder +onlyGivenNames v6; have h6 : Keeps s v6 := (by unfold v6; exact (.ite (.chg h5 rfl (fun c => { c with phys := Pool.wf_map _ c.phys })) h5)); clear_value v6; exact (by extract_lets -merge -useContext -underBinder +onlyGivenNames u7_0 v7; have h7 : Keeps s v7 := (by unfold v7; exact (.of h6 rfl)); clear_value v7; exact (.ite (State.enterSafe_keeps h7) (State.startCal_keeps (State.setF_keeps h7)))))))))))

theorem execStartRakeDone_keeps {s : State} {t failed} : Answered s (execStartRakeDone t failed s) := by
  unfold execStartRakeDone
  refine .answer (fun h => .ite h ?_)
  extract_lets -merge -useContext -underBinder +onlyGivenNames id v p w
  have hw : Keeps s w := (State.tick_keeps h).chg rfl
    (fun c => { c with pans := Pool.wf_map (fun x => x.startRaked id p.tideIdx) c.pans })
  clear_value w
  extract_lets -merge -useContext -underBinder +onlyGivenNames x
  exact .ite (State.setF_keeps hw) (State.enterSafe_keeps (State.stRegs_keeps hw))

theorem execStartupPublish_keeps {s : State} {a0} : Answered s (execStartupPublish a0 s) := by
  unfold execStartupPublish
  exact .answer (fun h1 => (State.when_keeps h1 (fun h2 => (by extract_lets -merge -useContext -underBinder +onlyGivenNames v3; clear_value v3; exact (State.admitAll_keeps (State.signalAll_keeps (State.each_keeps h2 (fun h4 => (State.publishQp_keeps h4)))))))))

theorem execHardwareTrip_keeps {s : State} {a0} : Answered s (execHardwareTrip a0 s) := by
  unfold execHardwareTrip
  exact .answer (fun h1 => (State.when_keeps h1 (fun h2 => (by extract_lets -merge -useContext -underBinder +onlyGivenNames v3; have h3 : Keeps s v3 := (by unfold v3; exact (State.setF_keeps (State.setF_keeps (State.cmpOut_keeps h2)))); clear_value v3; exact (by extract_lets -merge -useContext -underBinder +onlyGivenNames v4; clear_value v4; exact (by extract_lets -merge -useContext -underBinder +onlyGivenNames v5; have h5 : Keeps s v5 := (by unfold v5; exact (State.powerDown_keeps h3)); clear_value v5; exact (.of h5 rfl)))))))

theorem State.wakeUp_keeps {z s : State} {a1} (h : Keeps z s) : Keeps z (State.wakeUp s a1) := by
  unfold State.wakeUp
  exact .ite (by extract_lets -merge -useContext -underBinder +onlyGivenNames v1; have h1 : Keeps z v1 := (by unfold v1; exact (State.setF_keeps h)); clear_value v1; exact (.of h1 rfl)) (.ite (by extract_lets -merge -useContext -underBinder +onlyGivenNames v1; have h1 : Keeps z v1 := (by unfold v1; exact (State.setF_keeps h)); clear_value v1; exact (.of h1 rfl)) h)

theorem execTimerWake_keeps {s : State} {a0} : Answered s (execTimerWake a0 s) :=
  .answer (fun h1 => (State.when_keeps h1 (fun h2 => (State.wakeUp_keeps h2))))

theorem execLinkPresenceWake_keeps {s : State} {a0} : Answered s (execLinkPresenceWake a0 s) :=
  .answer (fun h1 => (State.when_keeps h1 (fun h2 => (State.when_keeps (State.cmpOut_keeps h2) (fun h3 => (State.wakeUp_keeps h3))))))

theorem execWakeIn_keeps {s : State} {a0 a1} : Answered s (execWakeIn a0 a1 s) :=
  .answer (fun h1 => (State.when_keeps (State.cmpOut_keeps h1) (fun h2 => (State.wakeUp_keeps h2))))

theorem execDeepSleepPowerOff_keeps {s : State} {a0} : Answered s (execDeepSleepPowerOff a0 s) :=
  .answer (fun h1 => (State.when_keeps h1 (fun h2 => (State.powerDown_keeps (State.bump_keeps h2)))))

theorem State.clearLatches_keeps {z s : State}  (h : Keeps z s) : Keeps z (State.clearLatches s) := by
  unfold State.clearLatches
  extract_lets -merge -useContext -underBinder +onlyGivenNames v1
  have h1 : Keeps z v1 := (by unfold v1; exact (State.setF_keeps h))
  clear_value v1
  exact .of h1 rfl

/-! Resets -/

theorem State.resetRegs_keeps {z s : State} {a1} (h : Keeps z s) : Keeps z (State.resetRegs s a1) := by
  unfold State.resetRegs
  extract_lets -merge -useContext -underBinder +onlyGivenNames v1
  clear_value v1
  exact State.each_keeps h (fun h2 => (State.each_keeps h2 (fun h3 => (State.setNum_keeps h3))))

theorem State.resetCounters_keeps {z s : State} {a1} (h : Keeps z s) : Keeps z (State.resetCounters s a1) := by
  unfold State.resetCounters
  extract_lets -merge -useContext -underBinder +onlyGivenNames v1
  clear_value v1
  extract_lets -merge -useContext -underBinder +onlyGivenNames v2
  have h2 : Keeps z v2 := (by unfold v2; exact (State.each_keeps h (fun h3 => (State.setNum_keeps h3))))
  clear_value v2
  exact State.each_keeps h2 (fun h3 => (State.setNum_keeps h3))

theorem State.zeroShare_keeps {z s : State} {a1} (h : Keeps z s) : Keeps z (State.zeroShare s a1) := by
  unfold State.zeroShare
  extract_lets -merge -useContext -underBinder +onlyGivenNames v1 v2
  clear_value v1 v2
  exact State.each_keeps h (fun h3 => (State.when_keeps h3 (fun h4 => (State.writeWord_keeps h4))))

theorem State.freeQp_keeps {z s : State} {a1} (h : Keeps z s) : Keeps z (State.freeQp s a1) := by
  unfold State.freeQp
  extract_lets -merge -useContext -underBinder +onlyGivenNames v1
  have h1 : Keeps z v1 := (by unfold v1; exact (by split <;> [exact h; exact (State.dropPages_keeps h)]))
  clear_value v1
  extract_lets -merge -useContext -underBinder +onlyGivenNames v2
  have h2 : Keeps z v2 := (by unfold v2; exact (State.updQp_keeps h1))
  clear_value v2
  exact .of h2 rfl

theorem State.fnReset_keeps {z s : State} {fn} (h : Keeps z s) : Keeps z (s.fnReset fn) := by
  unfold State.fnReset
  extract_lets -merge -useContext -underBinder +onlyGivenNames qs v mine k b
  have hv : Keeps z v := State.zeroShare_keeps (State.each_keeps h (fun k => State.freeQp_keeps k))
  refine State.resetRegs_keeps (State.setLatch_keeps (hv.chg rfl
    (fun c => { c with msix := Cells.wf_filter (fun e => e.1 / 2048 != fn) c.msix })))

theorem State.resetAll_keeps {z s : State}  (h : Keeps z s) : Keeps z (State.resetAll s) := by
  unfold State.resetAll
  exact .ite (by extract_lets -merge -useContext -underBinder +onlyGivenNames v1; have h1 : Keeps z v1 := (by unfold v1; exact (State.each_keeps h (fun h2 => (State.fnReset_keeps h2)))); clear_value v1; exact (State.failPlan_keeps (State.failLoad_keeps (.of h1 rfl)))) h

theorem execPerstAssert_keeps {s : State} {a0} : Answered s (execPerstAssert a0 s) := by
  unfold execPerstAssert
  exact .answer (fun h1 => (by extract_lets -merge -useContext -underBinder +onlyGivenNames v2; have h2 : Keeps s v2 := (by unfold v2; exact (State.cmpOut_keeps h1)); clear_value v2; exact (State.resetAll_keeps (.of h2 rfl))))

theorem execPerstDeassert_keeps {s : State} {a0 a1} : Answered s (execPerstDeassert a0 a1 s) := by
  unfold execPerstDeassert
  exact .answer (fun h1 => (by extract_lets -merge -useContext -underBinder +onlyGivenNames v2; clear_value v2; exact (by extract_lets -merge -useContext -underBinder +onlyGivenNames v3; clear_value v3; exact (by extract_lets -merge -useContext -underBinder +onlyGivenNames v4; have h4 : Keeps s v4 := (by unfold v4; exact (State.cmpOut_keeps h1)); clear_value v4; exact (by extract_lets -merge -useContext -underBinder +onlyGivenNames u5_0 v5; have h5 : Keeps s v5 := (by unfold v5; exact (.of h4 rfl)); clear_value v5; exact (.ite h5 (.ite (State.wakeUp_keeps h5) (.ite (by extract_lets -merge -useContext -underBinder +onlyGivenNames v6; clear_value v6; exact (by extract_lets -merge -useContext -underBinder +onlyGivenNames v7; have h7 : Keeps s v7 := (by unfold v7; exact (State.setF_keeps h5)); clear_value v7; exact (.ite (by extract_lets -merge -useContext -underBinder +onlyGivenNames v8; have h8 : Keeps s v8 := (by unfold v8; exact (State.setF_keeps h7)); clear_value v8; exact (.of h8 rfl)) (State.bump_keeps h7)))) h5))))))))

theorem execHotReset_keeps {s : State} {a0} : Answered s (execHotReset a0 s) :=
  .answer (fun h1 => (State.resetAll_keeps h1))

theorem execPcieLinkDisable_keeps {s : State} {a0} : Answered s (execPcieLinkDisable a0 s) :=
  .answer (fun h1 => (State.resetAll_keeps h1))

theorem execPcieLinkDown_keeps {s : State} {a0} : Answered s (execPcieLinkDown a0 s) :=
  .answer (fun h1 => (State.resetAll_keeps h1))

theorem execPfFlr_keeps {s : State} {a0} : Answered s (execPfFlr a0 s) :=
  .answer (fun h1 => (State.resetAll_keeps h1))

theorem execVfFlr_keeps {s : State} {a0 a1} : Answered s (execVfFlr a0 a1 s) :=
  .answer (fun h1 => (State.when_keeps h1 (fun h2 => (State.resetCounters_keeps (State.fnReset_keeps h2)))))

theorem execVfEnable_keeps {s : State} {a0 a1} : Answered s (execVfEnable a0 a1 s) := by
  unfold execVfEnable
  exact .answer (fun h1 => (State.when_keeps h1 (fun h2 => (by extract_lets -merge -useContext -underBinder +onlyGivenNames v3; clear_value v3; exact (by extract_lets -merge -useContext -underBinder +onlyGivenNames v4; have h4 : Keeps s v4 := (by unfold v4; exact (State.each_keeps h2 (fun h5 => (State.resetCounters_keeps (State.fnReset_keeps h5))))); clear_value v4; exact (.of h4 rfl))))))

/-! Firmware -/

theorem State.stopCluster_keeps {z s : State} {a1} (h : Keeps z s) : Keeps z (State.stopCluster s a1) := by
  unfold State.stopCluster
  extract_lets -merge -useContext -underBinder +onlyGivenNames v1
  have h1 : Keeps z v1 := (by unfold v1; exact (.chg h rfl (fun c => { c with clusters := Pool.wf_upd _ _ c.clusters })))
  clear_value v1
  extract_lets -merge -useContext -underBinder +onlyGivenNames v2
  have h2 : Keeps z v2 := (by unfold v2; exact (State.setF_keeps h1))
  clear_value v2
  exact State.each_keeps h2 (fun h3 => (State.degrade_keeps h3))

theorem State.restartEffect_keeps {z s : State} {a1} (h : Keeps z s) : Keeps z (State.restartEffect s a1) := by
  unfold State.restartEffect
  split <;> [exact (by extract_lets -merge -useContext -underBinder +onlyGivenNames v1; clear_value v1; exact (by extract_lets -merge -useContext -underBinder +onlyGivenNames u2_0 v2; have h2 : Keeps z v2 := (by unfold v2; exact (.of h rfl)); clear_value v2; exact (State.failLoad_keeps (State.when_keeps h2 (fun h3 => (State.raise_keeps h3)))))); exact h]

theorem State.restartProc_keeps {z s : State} {a1 a2} (h : Keeps z s) : Keeps z (State.restartProc s a1 a2) := by
  unfold State.restartProc
  exact .ite h (by extract_lets -merge -useContext -underBinder +onlyGivenNames u1_0 v1; have h1 : Keeps z v1 := (by unfold v1; exact (.of h rfl)); clear_value v1; exact (by extract_lets -merge -useContext -underBinder +onlyGivenNames v2; clear_value v2; exact (by extract_lets -merge -useContext -underBinder +onlyGivenNames v3; have h3 : Keeps z v3 := (by unfold v3; exact (State.event_keeps (State.raise_keeps (State.bump_keeps h1)))); clear_value v3; exact (by extract_lets -merge -useContext -underBinder +onlyGivenNames v4; have h4 : Keeps z v4 := (by unfold v4; exact (State.restartEffect_keeps h3)); clear_value v4; exact (by split <;> [exact (.ite (State.setF_keeps (State.stopCluster_keeps h4)) (.of h4 rfl)); exact (by extract_lets -merge -useContext -underBinder +onlyGivenNames u5_0 v5; have h5 : Keeps z v5 := (by unfold v5; exact (.of h4 rfl)); clear_value v5; exact (by extract_lets -merge -useContext -underBinder +onlyGivenNames v6; have h6 : Keeps z v6 := (by unfold v6; exact (State.each_keeps h5 (fun h7 => (State.raise_keeps h7)))); clear_value v6; exact (.ite (State.enterSafe_keeps h6) h6)))])))))

theorem execWatchdogExpiry_keeps {s : State} {a0 a1} : Answered s (execWatchdogExpiry a0 a1 s) :=
  .answer (fun h1 => (State.when_keeps h1 (fun h2 => (State.restartProc_keeps (State.wfgTrigger_keeps h2)))))

theorem State.restartRequest_keeps {z s : State}  (h : Keeps z s) : Keeps z (State.restartRequest s) := by
  unfold State.restartRequest
  extract_lets -merge -useContext -underBinder +onlyGivenNames v1
  clear_value v1
  exact .ite (State.restartProc_keeps (State.setF_keeps h)) h

theorem State.commitSvn_keeps {z s : State}  (h : Keeps z s) : Keeps z (State.commitSvn s) :=
  State.when_keeps h (fun h1 => (State.raise_keeps (.of h1 rfl)))

theorem State.restartDevice_keeps {z s : State} {a1} (h : Keeps z s) : Keeps z (State.restartDevice s a1) := by
  unfold State.restartDevice
  extract_lets -merge -useContext -underBinder +onlyGivenNames v1
  have h1 : Keeps z v1 := (by unfold v1; exact (State.keepAdmin_keeps (State.closeAll_keeps h)))
  clear_value v1
  extract_lets -merge -useContext -underBinder +onlyGivenNames u2_0 v2 u3_0 v3
  clear_value v2 v3
  extract_lets -merge -useContext -underBinder +onlyGivenNames u4_0 v4
  have h4 : Keeps z v4 := (by unfold v4; exact (.of h1 rfl))
  clear_value v4
  extract_lets -merge -useContext -underBinder +onlyGivenNames v5
  have h5 : Keeps z v5 := (by unfold v5; exact (State.setF_keeps (State.setF_keeps (State.setF_keeps h4))))
  clear_value v5
  exact State.setDevState_keeps (State.setF_keeps (State.setF_keeps (State.setF_keeps (State.setF_keeps h5))))

theorem State.retireFailed_keeps {z s : State}  (h : Keeps z s) : Keeps z (State.retireFailed s) := by
  unfold State.retireFailed
  extract_lets -merge -useContext -underBinder +onlyGivenNames v1
  clear_value v1
  extract_lets -merge -useContext -underBinder +onlyGivenNames v2
  have h2 : ∀ {x0} {x1} {t : State}, Keeps z t → Keeps z (v2 x0 x1 t) := (by intros; rename_i h0; unfold v2; exact (fun h3 => (.ite h3 (State.listRetired_keeps (State.tick_keeps h3)))) h0)
  clear_value v2
  extract_lets -merge -useContext -underBinder +onlyGivenNames v3
  have h3 : Keeps z v3 := (by unfold v3; exact (State.each_keeps h (fun h4 => (h2 h4))))
  clear_value v3
  exact State.each_keeps h3 (fun h4 => (h2 h4))

theorem State.internal_keeps {z s : State} {a1 a2} (h : Keeps z s) : Keeps z (State.internal s a1 a2) :=
  State.post_keeps (State.event_keeps h)

theorem State.fwRecord_keeps {z s : State} {a1 a2 a3 a4} (h : Keeps z s) : Keeps z (State.fwRecord s a1 a2 a3 a4) :=
  State.when_keeps h (fun h1 => (State.post_keeps h1))

theorem State.runFw_keeps {z s : State} {a1 a2 a3} (h : Keeps z s) : Keeps z (State.runFw s a1 a2 a3) := by
  unfold State.runFw
  split <;> [exact (by extract_lets -merge -useContext -underBinder +onlyGivenNames v1; clear_value v1; exact (by extract_lets -merge -useContext -underBinder +onlyGivenNames v2; have h2 : Keeps z v2 := (by unfold v2; exact (State.setF_keeps (State.dmaRd_keeps h))); clear_value v2; exact (.ite (State.fwRecord_keeps h2) (by extract_lets -merge -useContext -underBinder +onlyGivenNames v3; have h3 : Keeps z v3 := (by unfold v3; exact (State.setF_keeps h2)); clear_value v3; exact (.of h3 rfl))))); exact (.ite (State.fwRecord_keeps (State.stRegs_keeps h)) (State.internal_keeps h)); exact (State.fwRecord_keeps (State.restartDevice_keeps (State.retireFailed_keeps h))); exact (State.fwRecord_keeps (State.restartDevice_keeps h))]

theorem State.takeFw_keeps {z s : State} {a1 a2 a3 a4} (h : Keeps z s) : Keeps z (State.takeFw s a1 a2 a3 a4) := by
  unfold State.takeFw
  exact State.take_keeps h (fun h1 => (by split <;> [exact (SKeeps.quiet (.of h1 rfl)); exact (SKeeps.quiet (State.runFw_keeps h1))]))

theorem execFwFlash_keeps {s : State} {a0 a1 a2 a3} : Answered s (execFwFlash a0 a1 a2 a3 s) :=
  .answer (fun h1 => (State.takeFw_keeps h1))

theorem execSelfTest_keeps {s : State} {a0 a1 a2 a3} : Answered s (execSelfTest a0 a1 a2 a3 s) :=
  .answer (fun h1 => (State.takeFw_keeps h1))

theorem execRetireFailed_keeps {s : State} {a0 a1 a2} : Answered s (execRetireFailed a0 a1 a2 s) :=
  .answer (fun h1 => (State.takeFw_keeps h1))

theorem execRestartDevice_keeps {s : State} {a0 a1 a2} : Answered s (execRestartDevice a0 a1 a2 s) :=
  .answer (fun h1 => (State.takeFw_keeps h1))

theorem State.runWaiting_keeps {z s : State} {l} (h : Keeps z s) : Keeps z (s.runWaiting l) := by
  induction l generalizing s with
  | nil => exact h.of rfl
  | cons e l ih =>
    unfold State.runWaiting
    extract_lets v
    have k : Keeps z v := by
      unfold v; split <;> [exact State.fwRecord_keeps h; exact State.runFw_keeps h]
    exact .ite (k.of rfl) (ih k)

theorem execFlashWriteDone_keeps {s : State} {a0 a1} : Answered s (execFlashWriteDone a0 a1 s) := by
  unfold execFlashWriteDone
  exact .answer (fun h1 => (by split <;> [exact h1; exact (by extract_lets -merge -useContext -underBinder +onlyGivenNames u2_0 v2; have h2 : Keeps s v2 := (by unfold v2; exact (State.setF_keeps (.of h1 rfl))); clear_value v2; exact (by extract_lets -merge -useContext -underBinder +onlyGivenNames v3; clear_value v3; exact (by extract_lets -merge -useContext -underBinder +onlyGivenNames v4; have h4 : Keeps s v4 := (by unfold v4; exact (.ite (State.raise_keeps (State.fwRecord_keeps h2)) (State.raise_keeps (State.internal_keeps (State.setF_keeps h2))))); clear_value v4; exact (State.runWaiting_keeps h4))))]))

/-! Host -/

theorem State.dmaErr_keeps {z s : State} {a1} (h : Keeps z s) : Keeps z (State.dmaErr s a1) :=
  State.raise_keeps (State.bump_keeps h)

theorem State.commandDma_keeps {z s : State} {a1 a2} (h : Keeps z s) : Keeps z (State.commandDma s a1 a2) := by
  unfold State.commandDma
  extract_lets -merge -useContext -underBinder +onlyGivenNames v1
  clear_value v1
  exact .ite (State.updSess_keeps h) (State.take_keeps h (fun h2 => (SKeeps.record h2)))

theorem execDmaError_keeps {s : State} {a0 a1 a2} : Answered s (execDmaError a0 a1 a2 s) := by
  unfold execDmaError
  exact .answer (fun h1 => (State.when_keeps h1 (fun h2 => (by extract_lets -merge -useContext -underBinder +onlyGivenNames v3; have h3 : Keeps s v3 := (by unfold v3; exact (State.dmaErr_keeps h2)); clear_value v3; exact (by split <;> [exact (State.commandDma_keeps h3); exact (State.when_keeps h3 (fun h4 => (State.shard_keeps h4))); exact (State.when_keeps h3 (fun h4 => (State.setF_keeps (State.failPlan_keeps h4)))); exact (.ite (State.enterSafe_keeps (State.setF_keeps (State.setF_keeps h3))) h3); exact h3])))))

theorem State.logAer_keeps {z s : State} {a1 a2} (h : Keeps z s) : Keeps z (State.logAer s a1 a2) :=
  .ite h (.of h rfl)

theorem execPoisonedWrite_keeps {s : State} {a0 a1} : Answered s (execPoisonedWrite a0 a1 s) :=
  .answer (fun h1 => (State.when_keeps h1 (fun h2 => (State.logAer_keeps h2))))

theorem execIdeCheckFail_keeps {s : State} {a0} : Answered s (execIdeCheckFail a0 s) := by
  unfold execIdeCheckFail
  exact .answer (fun h1 => (State.when_keeps h1 (fun h2 => (State.logAer_keeps (by extract_lets -merge -useContext -underBinder +onlyGivenNames v3; have h3 : Keeps s v3 := (by unfold v3; exact (State.setF_keeps h2)); clear_value v3; exact (.of h3 rfl))))))

theorem State.setStage_keeps {z s : State} {a1 a2} (h : Keeps z s) : Keeps z (State.setStage s a1 a2) :=
  .of h rfl

theorem State.spdmError_keeps {z s : State} {a1} (h : Keeps z s) : Keeps z (State.spdmError s a1) :=
  State.emit_keeps (State.raise_keeps (State.bump_keeps h))

theorem State.spdm_keeps {z s : State} {a1 a2 a3} (h : Keeps z s) (hf3 : ∀ {t : State}, Keeps z t → Keeps z (a3 t)) : Keeps z (State.spdm s a1 a2 a3) :=
  .ite h (.ite (State.spdmError_keeps h) (.ite (State.spdmError_keeps h) (hf3 h)))

theorem execGetVersion_keeps {s : State} {a0 a1} : Answered s (execGetVersion a0 a1 s) :=
  .answer (fun h1 => (State.spdm_keeps h1 (fun h2 => (State.emit_keeps (State.setStage_keeps h2)))))

theorem execGetCapabilities_keeps {s : State} {a0 a1} : Answered s (execGetCapabilities a0 a1 s) :=
  .answer (fun h1 => (State.spdm_keeps h1 (fun h2 => (State.emit_keeps (State.setStage_keeps h2)))))

theorem execNegotiateAlgorithms_keeps {s : State} {a0 a1} : Answered s (execNegotiateAlgorithms a0 a1 s) :=
  .answer (fun h1 => (State.spdm_keeps h1 (fun h2 => (State.emit_keeps (State.setStage_keeps h2)))))

theorem execGetDigests_keeps {s : State} {a0 a1} : Answered s (execGetDigests a0 a1 s) :=
  .answer (fun h1 => (State.spdm_keeps h1 (fun h2 => (State.emit_keeps h2))))

theorem execGetCertificate_keeps {s : State} {a0 a1 a2 a3 a4} : Answered s (execGetCertificate a0 a1 a2 a3 a4 s) := by
  unfold execGetCertificate
  exact .answer (fun h1 => (State.spdm_keeps h1 (fun h2 => (by extract_lets -merge -useContext -underBinder +onlyGivenNames v3; clear_value v3; exact (.ite (State.spdmError_keeps h2) (by extract_lets -merge -useContext -underBinder +onlyGivenNames v4; clear_value v4; exact (State.emit_keeps h2)))))))

theorem execChallenge_keeps {s : State} {a0 a1 a2} : Answered s (execChallenge a0 a1 a2 s) :=
  .answer (fun h1 => (State.spdm_keeps h1 (fun h2 => (State.emit_keeps (State.tick_keeps h2)))))

theorem execGetMeasurements_keeps {s : State} {a0 a1 a2} : Answered s (execGetMeasurements a0 a1 a2 s) :=
  .answer (fun h1 => (State.spdm_keeps h1 (fun h2 => (.ite (State.emit_keeps h2) (.ite (State.emit_keeps h2) (.ite (State.emit_keeps h2) (State.spdmError_keeps h2)))))))

theorem execKeyExchange_keeps {s : State} {a0 a1} : Answered s (execKeyExchange a0 a1 s) := by
  unfold execKeyExchange
  exact .answer (fun h1 => (State.spdm_keeps h1 (fun h2 => (.ite (State.spdmError_keeps h2) (by extract_lets -merge -useContext -underBinder +onlyGivenNames v3; clear_value v3; exact (State.emit_keeps (.of h2 rfl)))))))

theorem State.dropSession_keeps {z s : State} {a1} (h : Keeps z s) : Keeps z (State.dropSession s a1) :=
  .of h rfl

theorem State.updSession_keeps {z s : State} {a1 a2} (h : Keeps z s) : Keeps z (State.updSession s a1 a2) :=
  .of h rfl

theorem execFinish_keeps {s : State} {a0 a1 a2 a3} : Answered s (execFinish a0 a1 a2 a3 s) := by
  unfold execFinish
  exact .answer (fun h1 => (State.spdm_keeps h1 (fun h2 => (by split <;> [exact (State.spdmError_keeps h2); exact (.ite (State.spdmError_keeps h2) (.ite (State.emit_keeps (State.raise_keeps (State.updSession_keeps h2))) (State.spdmError_keeps (State.dropSession_keeps h2))))]))))

theorem State.inSession_keeps {z s : State} {a1 a2 a3} (h : Keeps z s) (hf3 : ∀ {t : State}, Keeps z t → Keeps z (a3 t)) : Keeps z (State.inSession s a1 a2 a3) := by
  unfold State.inSession
  exact State.spdm_keeps h (fun h1 => (by split <;> [exact (State.spdmError_keeps h1); exact (.ite (hf3 h1) (State.spdmError_keeps h1))]))

theorem execHeartbeat_keeps {s : State} {a0 a1 a2} : Answered s (execHeartbeat a0 a1 a2 s) :=
  .answer (fun h1 => (State.inSession_keeps h1 (fun h2 => (State.emit_keeps (State.updSession_keeps h2)))))

theorem execKeyUpdate_keeps {s : State} {a0 a1 a2} : Answered s (execKeyUpdate a0 a1 a2 s) :=
  .answer (fun h1 => (State.inSession_keeps h1 (fun h2 => (State.emit_keeps (State.updSession_keeps h2)))))

theorem execEndSession_keeps {s : State} {a0 a1 a2} : Answered s (execEndSession a0 a1 a2 s) :=
  .answer (fun h1 => (State.inSession_keeps h1 (fun h2 => (State.emit_keeps (State.raise_keeps (State.dropSession_keeps h2))))))

theorem execIdeKm_keeps {s : State} {a0 a1 a2} : Answered s (execIdeKm a0 a1 a2 s) := by
  unfold execIdeKm
  exact .answer (fun h1 => (State.inSession_keeps h1 (fun h2 => (.ite (State.spdmError_keeps h2) (by extract_lets -merge -useContext -underBinder +onlyGivenNames v3; have h3 : Keeps s v3 := (by unfold v3; exact (State.setF_keeps h2)); clear_value v3; exact (.of h3 rfl))))))

theorem execDoeDiscovery_keeps {s : State} {a0 a1 a2} : Answered s (execDoeDiscovery a0 a1 a2 s) :=
  .answer (fun h1 => (State.when_keeps h1 (fun h2 => (.ite (State.emit_keeps h2) (.ite (State.emit_keeps h2) (.ite (State.emit_keeps h2) (State.emit_keeps h2)))))))

theorem State.horeno_keeps {z s : State} {a1 a2 a3 a4 a5 a6} (h : Keeps z s) (hf6 : ∀ {t : State}, Keeps z t → Keeps z (a6 t)) : Keeps z (State.horeno s a1 a2 a3 a4 a5 a6) :=
  .ite h (.ite (State.emit_keeps h) (.ite (State.emit_keeps h) (.ite (State.emit_keeps h) (.ite (State.emit_keeps h) (hf6 h)))))

theorem execHorId_keeps {s : State} {a0 a1 a2} : Answered s (execHorId a0 a1 a2 s) := by
  unfold execHorId
  exact .answer (fun h1 => (State.horeno_keeps h1 (fun h2 => (by extract_lets -merge -useContext -underBinder +onlyGivenNames v3; clear_value v3; exact (by extract_lets -merge -useContext -underBinder +onlyGivenNames v4; clear_value v4; exact (State.emit_keeps (State.tick_keeps h2)))))))

theorem execHorState_keeps {s : State} {a0 a1 a2} : Answered s (execHorState a0 a1 a2 s) := by
  unfold execHorState
  exact .answer (fun h1 => (State.horeno_keeps h1 (fun h2 => (by extract_lets -merge -useContext -underBinder +onlyGivenNames v3; clear_value v3; exact (State.emit_keeps (State.tick_keeps h2))))))

theorem execHorTemp_keeps {s : State} {a0 a1 a2} : Answered s (execHorTemp a0 a1 a2 s) := by
  unfold execHorTemp
  exact .answer (fun h1 => (State.horeno_keeps h1 (fun h2 => (by extract_lets -merge -useContext -underBinder +onlyGivenNames v3; clear_value v3; exact (State.emit_keeps (State.tick_keeps h2))))))

theorem execHorPower_keeps {s : State} {a0 a1 a2} : Answered s (execHorPower a0 a1 a2 s) :=
  .answer (fun h1 => (State.horeno_keeps h1 (fun h2 => (State.emit_keeps h2))))

theorem execHorFaults_keeps {s : State} {a0 a1 a2} : Answered s (execHorFaults a0 a1 a2 s) := by
  unfold execHorFaults
  exact .answer (fun h1 => (State.horeno_keeps h1 (fun h2 => (by extract_lets -merge -useContext -underBinder +onlyGivenNames v3; clear_value v3; exact (State.emit_keeps (State.tick_keeps h2))))))

theorem execHorCperRead_keeps {s : State} {a0 a1 a2} : Answered s (execHorCperRead a0 a1 a2 s) := by
  unfold execHorCperRead
  exact .answer (fun h1 => (State.horeno_keeps h1 (fun h2 => (by extract_lets -merge -useContext -underBinder +onlyGivenNames v3; clear_value v3; exact (by extract_lets -merge -useContext -underBinder +onlyGivenNames v4; clear_value v4; exact (by extract_lets -merge -useContext -underBinder +onlyGivenNames v5; clear_value v5; exact (by split <;> [exact (State.emit_keeps h2); exact (.ite (State.emit_keeps h2) (by extract_lets -merge -useContext -underBinder +onlyGivenNames v6; clear_value v6; exact (by extract_lets -merge -useContext -underBinder +onlyGivenNames v7; clear_value v7; exact (State.emit_keeps h2))))])))))))

theorem execHorLimits_keeps {s : State} {a0 a1 a2} : Answered s (execHorLimits a0 a1 a2 s) := by
  unfold execHorLimits
  exact .answer (fun h1 => (State.horeno_keeps h1 (fun h2 => (by extract_lets -merge -useContext -underBinder +onlyGivenNames v3; clear_value v3; exact (State.emit_keeps h2)))))

theorem execHorUnknown_keeps {s : State} {a0 a1 a2 a3} : Answered s (execHorUnknown a0 a1 a2 a3 s) :=
  .answer (fun h1 => (State.when_keeps h1 (fun h2 => (State.horeno_keeps h2 (fun h3 => (State.emit_keeps h3))))))

/-! RegRead -/

theorem State.badAccess_keeps {z s : State} {a1} (h : Keeps z s) : Keeps z (State.badAccess s a1) :=
  State.raise_keeps (State.bump_keeps h)

theorem State.read32_keeps {z s : State} {a1 a2 a3} (h : Keeps z s) : PKeeps z (State.read32 s a1 a2 a3) := by
  unfold State.read32
  extract_lets -merge -useContext -underBinder +onlyGivenNames v1 v2
  clear_value v1 v2
  split <;> [exact (by split <;> [exact (PKeeps.mk h); exact (by split <;> [exact (by extract_lets -merge -useContext -underBinder +onlyGivenNames v3; clear_value v3; exact (PKeeps.mk (.of h rfl))); exact (by split <;> [exact (PKeeps.mk h); exact (PKeeps.mk (.of h rfl))])])]); exact (PKeeps.mk h)]

theorem State.barRead_keeps {z s : State} {a1 a2 a3 a4} (h : Keeps z s) : PKeeps z (State.barRead s a1 a2 a3 a4) := by
  unfold State.barRead
  split <;> [exact (PKeeps.mk (State.badAccess_keeps h)); exact (by split <;> [exact (by extract_lets -merge -useContext -underBinder +onlyGivenNames v1; clear_value v1; exact (PKeeps.mk (State.setF_keeps h))); exact (by split <;> [exact (State.read32_keeps h); exact (by split <;> [exact (by split <;> [exact (PKeeps.mk h); exact (PKeeps.mk (State.countPool_keeps h))]); exact (PKeeps.mk h)])])])]

theorem State.hostRead_keeps {z s : State} {a1 a2 a3 a4} (h : Keeps z s) : PKeeps z (State.hostRead s a1 a2 a3 a4) := by
  unfold State.hostRead
  split <;> [exact (State.barRead_keeps h); exact (by split <;> [exact (by split <;> [exact (PKeeps.mk h); exact (PKeeps.mk (State.badAccess_keeps h))]); exact (PKeeps.mk h)])]

theorem execRegisterRead_keeps {s : State} {a0 a1 a2 a3 a4} : Answered s (execRegisterRead a0 a1 a2 a3 a4 s) := by
  unfold execRegisterRead
  exact .answer (fun h1 => (.ite (by extract_lets -merge -useContext -underBinder +onlyGivenNames v2; have h2 : PKeeps s v2 := (by unfold v2; exact (State.hostRead_keeps h1)); clear_value v2; exact (State.emit_keeps (PKeeps.fst h2))) (State.emit_keeps h1)))

/-! RegWrite -/

theorem State.writeRw_keeps {z s : State} {a1 a2 a3 a4} (h : Keeps z s) : Keeps z (State.writeRw s a1 a2 a3 a4) := by
  unfold State.writeRw
  extract_lets -merge -useContext -underBinder +onlyGivenNames v1
  clear_value v1
  exact .ite (State.setNum_keeps h) h

theorem State.writeFields_keeps {z s : State} {a1 a2 a3 a4} (h : Keeps z s) : Keeps z (State.writeFields s a1 a2 a3 a4) :=
  State.each_keeps h (fun h1 => (State.setF_keeps h1))

theorem State.tdeCtrl_keeps {z s : State} {a1} (h : Keeps z s) : Keeps z (State.tdeCtrl s a1) :=
  .ite h (State.when_keeps (State.setF_keeps h) (fun h1 => (State.setF_keeps h1)))

theorem State.panCtrl_keeps {z s : State} {a1 a2} (h : Keeps z s) : Keeps z (State.panCtrl s a1 a2) :=
  State.when_keeps (State.when_keeps h (fun h1 => (State.refreshReq_keeps h1))) (fun h1 => (State.rakeReq_keeps h1))

theorem State.captureCtrl_keeps {z s : State} {a1 a2} (h : Keeps z s) : Keeps z (State.captureCtrl s a1 a2) :=
  State.when_keeps (State.setF_keeps h) (fun h1 => (State.setF_keeps h1))

theorem State.wgtCtrl_keeps {z s : State} {a1} (h : Keeps z s) : Keeps z (State.wgtCtrl s a1) := by
  unfold State.wgtCtrl
  extract_lets -merge -useContext -underBinder +onlyGivenNames v1
  have h1 : Keeps z v1 := (by unfold v1; exact (State.writeFields_keeps h))
  clear_value v1
  extract_lets -merge -useContext -underBinder +onlyGivenNames v2
  have h2 : Keeps z v2 := (by unfold v2; exact (State.when_keeps h1 (fun h3 => (by extract_lets -merge -useContext -underBinder +onlyGivenNames v4; have h4 : Keeps z v4 := (by unfold v4; exact (State.loadStart_keeps (State.setF_keeps h3))); clear_value v4; exact (.ite (State.exitPower_keeps h4) h4)))))
  clear_value v2
  extract_lets -merge -useContext -underBinder +onlyGivenNames v3
  have h3 : Keeps z v3 := (by unfold v3; exact (State.when_keeps h2 (fun h4 => (State.loadAbort_keeps h4))))
  clear_value v3
  extract_lets -merge -useContext -underBinder +onlyGivenNames v4
  have h4 : Keeps z v4 := (by unfold v4; exact (State.when_keeps h3 (fun h5 => (State.restage_keeps h5))))
  clear_value v4
  extract_lets -merge -useContext -underBinder +onlyGivenNames v5
  have h5 : Keeps z v5 := (by unfold v5; exact (State.when_keeps h4 (fun h6 => (State.wgtRelease_keeps h6))))
  clear_value v5
  exact State.when_keeps h5 (fun h6 => (State.adapterUnload_keeps h6))

theorem State.trustCtrl_keeps {z s : State} {a1} (h : Keeps z s) : Keeps z (State.trustCtrl s a1) := by
  unfold State.trustCtrl
  extract_lets -merge -useContext -underBinder +onlyGivenNames v1
  have h1 : Keeps z v1 := (by unfold v1; exact (State.setF_keeps h))
  clear_value v1
  extract_lets -merge -useContext -underBinder +onlyGivenNames v2
  have h2 : Keeps z v2 := (by unfold v2; exact (State.when_keeps h1 (fun h3 => (State.trustSet_keeps h3))))
  clear_value v2
  exact State.when_keeps h2 (fun h3 => (State.trustSet_keeps h3))

theorem State.bplCtrl_keeps {z s : State} {a1} (h : Keeps z s) : Keeps z (State.bplCtrl s a1) := by
  unfold State.bplCtrl
  extract_lets -merge -useContext -underBinder +onlyGivenNames v1
  have h1 : Keeps z v1 := (by unfold v1; exact (State.writeFields_keeps h))
  clear_value v1
  extract_lets -merge -useContext -underBinder +onlyGivenNames v2
  have h2 : Keeps z v2 := (by unfold v2; exact (State.when_keeps h1 (fun h3 => (by extract_lets -merge -useContext -underBinder +onlyGivenNames v4; have h4 : Keeps z v4 := (by unfold v4; exact (State.planStart_keeps (State.setF_keeps h3))); clear_value v4; exact (.ite (State.exitPower_keeps h4) h4)))))
  clear_value v2
  extract_lets -merge -useContext -underBinder +onlyGivenNames v3
  have h3 : Keeps z v3 := (by unfold v3; exact (State.when_keeps h2 (fun h4 => (State.planAbort_keeps h4))))
  clear_value v3
  extract_lets -merge -useContext -underBinder +onlyGivenNames v4
  have h4 : Keeps z v4 := (by unfold v4; exact (State.when_keeps h3 (fun h5 => (State.planRelease_keeps h5))))
  clear_value v4
  exact State.when_keeps h4 (fun h5 => (State.planDump_keeps (State.setF_keeps h5)))

theorem State.allocCtrl_keeps {z s : State} {a1} (h : Keeps z s) : Keeps z (State.allocCtrl s a1) := by
  unfold State.allocCtrl
  extract_lets -merge -useContext -underBinder +onlyGivenNames v1
  have h1 : Keeps z v1 := (by unfold v1; exact (State.writeFields_keeps h))
  clear_value v1
  exact State.when_keeps h1 (fun h2 => (State.shareApply_keeps h2))

theorem State.fabCtrl_keeps {z s : State} {a1} (h : Keeps z s) : Keeps z (State.fabCtrl s a1) := by
  unfold State.fabCtrl
  extract_lets -merge -useContext -underBinder +onlyGivenNames v1
  have h1 : Keeps z v1 := (by unfold v1; exact (State.writeFields_keeps h))
  clear_value v1
  extract_lets -merge -useContext -underBinder +onlyGivenNames v2
  have h2 : Keeps z v2 := (by unfold v2; exact (State.when_keeps h1 (fun h3 => (State.each_keeps h3 (fun h4 => (State.linkDown_keeps h4))))))
  clear_value v2
  extract_lets -merge -useContext -underBinder +onlyGivenNames v3
  have h3 : Keeps z v3 := (by unfold v3; exact (State.when_keeps h2 (fun h4 => (State.setF_keeps h4))))
  clear_value v3
  exact State.fabStatus_keeps (State.rootSelf_keeps h3)

theorem State.linkCtrl_keeps {z s : State} {a1} (h : Keeps z s) : Keeps z (State.linkCtrl s a1) := by
  unfold State.linkCtrl
  extract_lets -merge -useContext -underBinder +onlyGivenNames v1
  clear_value v1
  extract_lets -merge -useContext -underBinder +onlyGivenNames v2
  have h2 : Keeps z v2 := (by unfold v2; exact (State.updLink_keeps h))
  clear_value v2
  extract_lets -merge -useContext -underBinder +onlyGivenNames v3
  have h3 : Keeps z v3 := (by unfold v3; exact (State.when_keeps h2 (fun h4 => (State.enterRetrain_keeps h4))))
  clear_value v3
  extract_lets -merge -useContext -underBinder +onlyGivenNames v4
  have h4 : Keeps z v4 := (by unfold v4; exact (State.when_keeps h3 (fun h5 => (State.linkDown_keeps h5))))
  clear_value v4
  exact State.when_keeps h4 (fun h5 => (State.linkDown_keeps h5))

theorem State.stageShare_keeps {z s : State} {a1} (h : Keeps z s) : Keeps z (State.stageShare s a1) := by
  unfold State.stageShare
  extract_lets -merge -useContext -underBinder +onlyGivenNames v1
  clear_value v1
  exact .of h rfl

theorem State.fnApply_keeps {z s : State}  (h : Keeps z s) : Keeps z (State.fnApply s) := by
  unfold State.fnApply
  extract_lets -merge -useContext -underBinder +onlyGivenNames v1 v2
  clear_value v1 v2
  exact .ite (State.raise_keeps h) (State.raise_keeps (State.setShare_keeps (.of h rfl)))

theorem State.fwpCtrl_keeps {z s : State} {a1} (h : Keeps z s) : Keeps z (State.fwpCtrl s a1) := by
  unfold State.fwpCtrl
  extract_lets -merge -useContext -underBinder +onlyGivenNames v1
  have h1 : Keeps z v1 := (by unfold v1; exact (State.writeFields_keeps h))
  clear_value v1
  extract_lets -merge -useContext -underBinder +onlyGivenNames v2
  have h2 : Keeps z v2 := (by unfold v2; exact (State.when_keeps h1 (fun h3 => (State.fwpLoad_keeps h3))))
  clear_value v2
  extract_lets -merge -useContext -underBinder +onlyGivenNames v3
  have h3 : Keeps z v3 := (by unfold v3; exact (State.when_keeps h2 (fun h4 => (State.commitSvn_keeps h4))))
  clear_value v3
  exact State.when_keeps h3 (fun h4 => (State.restartRequest_keeps h4))

theorem State.hltCtrl_keeps {z s : State} {a1} (h : Keeps z s) : Keeps z (State.hltCtrl s a1) :=
  State.when_keeps (State.writeFields_keeps h) (fun h1 => (State.hltRequest_keeps h1))

theorem State.pwrCtrl_keeps {z s : State} {a1} (h : Keeps z s) : Keeps z (State.pwrCtrl s a1) :=
  State.when_keeps (State.writeFields_keeps h) (fun h1 => (State.powerRequest_keeps h1))

theorem State.hkaCtrl_keeps {z s : State} {a1} (h : Keeps z s) : Keeps z (State.hkaCtrl s a1) :=
  State.when_keeps (State.when_keeps h (fun h1 => (State.startCal_keeps h1))) (fun h1 => (State.startCal_keeps h1))

theorem State.wakeEn_keeps {z s : State} {a1} (h : Keeps z s) : Keeps z (State.wakeEn s a1) :=
  State.setNum_keeps h

theorem State.cmpWrite_keeps {z s : State} {a1 a2} (h : Keeps z s) : Keeps z (State.cmpWrite s a1 a2) :=
  State.when_keeps h (fun h1 => (State.writeRw_keeps h1))

theorem State.bbxCtrl_keeps {z s : State} {a1} (h : Keeps z s) : Keeps z (State.bbxCtrl s a1) :=
  State.when_keeps (State.when_keeps h (fun h1 => (State.bbxClear_keeps h1))) (fun h1 => (State.bbxSnap_keeps h1))

theorem State.evtCtrl_keeps {z s : State} {a1} (h : Keeps z s) : Keeps z (State.evtCtrl s a1) :=
  State.when_keeps (State.when_keeps (State.evtFreeze_keeps h) (fun h1 => (State.evtClear_keeps h1))) (fun h1 => (State.wfgReq_keeps h1))

theorem State.writeOwn_keeps {z s : State} {a1 a2 a3 a4 a5} (h : Keeps z s) : OKeeps z (State.writeOwn s a1 a2 a3 a4 a5) := by
  unfold State.writeOwn
  split <;> [exact (OKeeps.some (State.tdeCtrl_keeps h)); exact (OKeeps.some (State.panCtrl_keeps h)); exact (OKeeps.some (State.captureCtrl_keeps h)); exact (OKeeps.some (State.wgtCtrl_keeps h)); exact (OKeeps.some (State.tierWritten_keeps (State.setNum_keeps h))); exact (OKeeps.some (State.when_keeps h (fun h1 => (State.setNum_keeps h1)))); exact (OKeeps.some (State.when_keeps h (fun h1 => (State.setNum_keeps h1)))); exact (OKeeps.some (State.trustCtrl_keeps h)); exact (OKeeps.some (State.when_keeps h (fun h1 => (State.setNum_keeps h1)))); exact (OKeeps.some (State.kvcReserve_keeps h)); exact (OKeeps.some (State.admqWrite_keeps h)); exact (OKeeps.some (State.bplCtrl_keeps h)); exact (OKeeps.some (State.allocCtrl_keeps h)); exact (OKeeps.some (State.fabCtrl_keeps h)); exact (OKeeps.some (State.when_keeps h (fun h1 => (State.writeRw_keeps h1)))); exact (OKeeps.some (State.when_keeps h (fun h1 => (State.writeRw_keeps h1)))); exact (OKeeps.some (State.linkCtrl_keeps h)); exact (OKeeps.some (State.setNum_keeps h)); exact (OKeeps.some (State.stageShare_keeps h)); exact (OKeeps.some (State.stageShare_keeps h)); exact (OKeeps.some (State.stageShare_keeps h)); exact (OKeeps.some (State.when_keeps h (fun h1 => (State.fnApply_keeps h1)))); exact OKeeps.none]

theorem State.writeOther_keeps {z s : State} {a1 a2 a3} (h : Keeps z s) : OKeeps z (State.writeOther s a1 a2 a3) := by
  unfold State.writeOther
  split <;> [exact (OKeeps.some (State.fwpCtrl_keeps h)); exact (OKeeps.some (State.hltCtrl_keeps h)); exact (OKeeps.some (State.pwrCtrl_keeps h)); exact (OKeeps.some (State.vcoreTarget_keeps h)); exact (OKeeps.some (State.pwrLimit_keeps h)); exact (OKeeps.some (State.hkaCtrl_keeps h)); exact (OKeeps.some (State.when_keeps h (fun h1 => (State.clearLatches_keeps h1)))); exact (OKeeps.some (State.wakeEn_keeps h)); exact (OKeeps.some (State.cmpWrite_keeps h)); exact (OKeeps.some (State.bbxCtrl_keeps h)); exact (OKeeps.some (State.evtCtrl_keeps h)); exact OKeeps.none]

theorem State.writeReg_keeps {z s : State} {a1 a2 a3 a4 a5} (h : Keeps z s) : Keeps z (State.writeReg s a1 a2 a3 a4 a5) := by
  unfold State.writeReg
  split <;> [(rename_i hq; have h1 := OKeeps.some' (State.writeOwn_keeps h) hq; exact h1); exact (by split <;> [(rename_i hq; have h1 := OKeeps.some' (State.writeOther_keeps h) hq; exact h1); exact (by split <;> [exact (State.writeRw_keeps h); exact (State.setReg_keeps h); exact h; exact h])])]

theorem State.msixWrite_keeps {z s : State} {a1 a2 a3 a4} (h : Keeps z s) : Keeps z (State.msixWrite s a1 a2 a3 a4) := by
  unfold State.msixWrite
  exact .ite h (by extract_lets -merge -useContext -underBinder +onlyGivenNames v1; clear_value v1; exact (by extract_lets -merge -useContext -underBinder +onlyGivenNames v2; clear_value v2; exact (by extract_lets -merge -useContext -underBinder +onlyGivenNames v3; clear_value v3; exact (.ite (State.emit_keeps (State.setMsix_keeps h)) (State.setMsix_keeps h)))))

theorem State.write32_keeps {z s : State} {a1 a2 a3 a4} (h : Keeps z s) : Keeps z (State.write32 s a1 a2 a3 a4) := by
  unfold State.write32
  split <;> [exact (.ite h (.ite (State.writeReg_keeps h) (.ite (.of h rfl) (by split <;> [exact (State.writeReg_keeps h); exact (State.writeReg_keeps (.of h rfl))])))); exact (State.msixWrite_keeps h); exact (State.setLatch_keeps h); exact (State.doorbellWrite_keeps h); exact h; exact h; exact h; exact h]

theorem State.applyWrite_keeps {z s : State} {a1 a2 a3 a4 a5} (h : Keeps z s) : Keeps z (State.applyWrite s a1 a2 a3 a4 a5) := by
  unfold State.applyWrite
  exact .ite (State.write32_keeps h) (by split <;> [exact (.ite (.ite h (State.writeReg_keeps h)) (State.write32_keeps (State.write32_keeps h))); exact (State.doorbellWrite_keeps h); exact (by split <;> [exact h; exact (.ite (State.syncAdd_keeps h) (State.syncStore_keeps h))]); exact (State.write32_keeps (State.write32_keeps h))])

theorem State.holdWrite_keeps {z s : State} {a1 a2 a3 a4 a5 a6} (h : Keeps z s) : Keeps z (State.holdWrite s a1 a2 a3 a4 a5 a6) :=
  .ite (State.raise_keeps (State.bumpSat_keeps h)) (.of h rfl)

theorem State.hostWrite_keeps {z s : State} {a1 a2 a3 a4 a5} (h : Keeps z s) : Keeps z (State.hostWrite s a1 a2 a3 a4 a5) := by
  unfold State.hostWrite
  extract_lets -merge -useContext -underBinder +onlyGivenNames v1
  have h1 : Keeps z v1 := (by unfold v1; exact (State.bump_keeps h))
  clear_value v1
  exact .ite (.ite (State.badAccess_keeps h1) (.ite (State.holdWrite_keeps h1) (State.applyWrite_keeps h1))) (.ite (.ite (State.ringWrite_keeps h1) (State.badAccess_keeps h1)) h1)

theorem execRegisterWrite_keeps {s : State} {a0 a1 a2 a3 a4 a5} : Answered s (execRegisterWrite a0 a1 a2 a3 a4 a5 s) :=
  .answer (fun h1 => (State.when_keeps h1 (fun h2 => (State.hostWrite_keeps h2))))

/-! RegRows -/

theorem State.regWrite_keeps {z s : State} {fn r w} (h : Keeps z s) : Keeps z (s.regWrite fn r w) :=
  State.when_keeps h (fun k => State.hostWrite_keeps k)

theorem bitRow_keeps {s : State} {a0 a1 a2 a3 a4} : Answered s (bitRow a0 a1 a2 a3 a4 s) :=
  .answer (fun h1 => (State.when_keeps h1 (fun h2 => (State.regWrite_keeps h2))))

theorem fieldRow_keeps {s : State} {a0 a1 a2 a3 a4 a5 a6 a7} : Answered s (fieldRow a0 a1 a2 a3 a4 a5 a6 a7 s) :=
  .answer (fun h1 => (State.when_keeps h1 (fun h2 => (State.regWrite_keeps h2))))

theorem unitRow_keeps {s : State} {a0 a1 a2 a3 a4 a5 a6} : Answered s (unitRow a0 a1 a2 a3 a4 a5 a6 s) := by
  unfold unitRow
  exact .answer (fun h1 => (State.when_keeps h1 (fun h2 => (by extract_lets -merge -useContext -underBinder +onlyGivenNames v3; have h3 : Keeps s v3 := (by unfold v3; exact (State.bump_keeps h2)); clear_value v3; exact (State.when_keeps h3 (fun h4 => (State.writeReg_keeps h4)))))))

theorem execTdeApply_keeps {s : State} {a0 a1 a2} : Answered s (execTdeApply a0 a1 a2 s) :=
  bitRow_keeps 

theorem execAonClearLatches_keeps {s : State} {a0 a1 a2} : Answered s (execAonClearLatches a0 a1 a2 s) :=
  bitRow_keeps 

theorem execCaptureArm_keeps {s : State} {a0 a1 a2 a3} : Answered s (execCaptureArm a0 a1 a2 a3 s) :=
  unitRow_keeps 

theorem execRefreshReq_keeps {s : State} {a0 a1 a2 a3} : Answered s (execRefreshReq a0 a1 a2 a3 s) :=
  unitRow_keeps 

theorem execRakeReq_keeps {s : State} {a0 a1 a2 a3} : Answered s (execRakeReq a0 a1 a2 a3 s) :=
  unitRow_keeps 

theorem execLoadStart_keeps {s : State} {a0 a1 a2} : Answered s (execLoadStart a0 a1 a2 s) :=
  bitRow_keeps 

theorem execLoadAbort_keeps {s : State} {a0 a1 a2} : Answered s (execLoadAbort a0 a1 a2 s) :=
  bitRow_keeps 

theorem execRestage_keeps {s : State} {a0 a1 a2} : Answered s (execRestage a0 a1 a2 s) :=
  bitRow_keeps 

theorem execWgtRelease_keeps {s : State} {a0 a1 a2} : Answered s (execWgtRelease a0 a1 a2 s) :=
  bitRow_keeps 

theorem execAdapterUnload_keeps {s : State} {a0 a1 a2} : Answered s (execAdapterUnload a0 a1 a2 s) :=
  bitRow_keeps 

theorem execHostTierRegister_keeps {s : State} {a0 a1 a2} : Answered s (execHostTierRegister a0 a1 a2 s) :=
  .answer (fun h1 => (State.regWrite_keeps h1))

theorem execTrustWrite_keeps {s : State} {a0 a1 a2} : Answered s (execTrustWrite a0 a1 a2 s) :=
  bitRow_keeps 

theorem execTrustErase_keeps {s : State} {a0 a1 a2} : Answered s (execTrustErase a0 a1 a2 s) :=
  bitRow_keeps 

theorem execKvcReserveWrite_keeps {s : State} {a0 a1 a2} : Answered s (execKvcReserveWrite a0 a1 a2 s) :=
  .answer (fun h1 => (State.regWrite_keeps h1))

theorem execAdmqCtrlWrite_keeps {s : State} {a0 a1 a2} : Answered s (execAdmqCtrlWrite a0 a1 a2 s) :=
  .answer (fun h1 => (State.regWrite_keeps h1))

theorem execPlanLoadStart_keeps {s : State} {a0 a1 a2} : Answered s (execPlanLoadStart a0 a1 a2 s) :=
  bitRow_keeps 

theorem execPlanLoadAbort_keeps {s : State} {a0 a1 a2} : Answered s (execPlanLoadAbort a0 a1 a2 s) :=
  bitRow_keeps 

theorem execPlanRelease_keeps {s : State} {a0 a1 a2} : Answered s (execPlanRelease a0 a1 a2 s) :=
  bitRow_keeps 

theorem execPlacementDump_keeps {s : State} {a0 a1 a2} : Answered s (execPlacementDump a0 a1 a2 s) :=
  bitRow_keeps 

theorem execShareApply_keeps {s : State} {a0 a1 a2} : Answered s (execShareApply a0 a1 a2 s) :=
  bitRow_keeps 

theorem execRetrain_keeps {s : State} {a0 a1 a2} : Answered s (execRetrain a0 a1 a2 s) :=
  bitRow_keeps 

theorem execLinkReset_keeps {s : State} {a0 a1 a2} : Answered s (execLinkReset a0 a1 a2 s) :=
  bitRow_keeps 

theorem execMapLoad_keeps {s : State} {a0 a1 a2 a3} : Answered s (execMapLoad a0 a1 a2 a3 s) := by
  unfold execMapLoad
  exact .answer (fun h1 => (State.when_keeps h1 (fun h2 => (by extract_lets -merge -useContext -underBinder +onlyGivenNames v3; have h3 : Keeps s v3 := (by unfold v3; exact (State.regWrite_keeps h2)); clear_value v3; exact (State.when_keeps h3 (fun h4 => (State.setF_keeps (State.mapRead_keeps h4))))))))

theorem execFnApply_keeps {s : State} {a0 a1 a2} : Answered s (execFnApply a0 a1 a2 s) :=
  bitRow_keeps 

theorem execFwpLoad_keeps {s : State} {a0 a1 a2} : Answered s (execFwpLoad a0 a1 a2 s) :=
  bitRow_keeps 

theorem execCommitSvn_keeps {s : State} {a0 a1 a2} : Answered s (execCommitSvn a0 a1 a2 s) :=
  bitRow_keeps 

theorem execProcRestartRequest_keeps {s : State} {a0 a1 a2} : Answered s (execProcRestartRequest a0 a1 a2 s) :=
  bitRow_keeps 

theorem execHltReqSweep_keeps {s : State} {a0 a1 a2} : Answered s (execHltReqSweep a0 a1 a2 s) :=
  fieldRow_keeps 

theorem execHltReqRetire_keeps {s : State} {a0 a1 a2} : Answered s (execHltReqRetire a0 a1 a2 s) :=
  fieldRow_keeps 

theorem execHltReqUnlist_keeps {s : State} {a0 a1 a2} : Answered s (execHltReqUnlist a0 a1 a2 s) :=
  fieldRow_keeps 

theorem execHltReqInvalid_keeps {s : State} {a0 a1 a2} : Answered s (execHltReqInvalid a0 a1 a2 s) :=
  fieldRow_keeps 

theorem execPowerReqActive_keeps {s : State} {a0 a1 a2} : Answered s (execPowerReqActive a0 a1 a2 s) :=
  fieldRow_keeps 

theorem execPowerReqIdle_keeps {s : State} {a0 a1 a2} : Answered s (execPowerReqIdle a0 a1 a2 s) :=
  fieldRow_keeps 

theorem execPowerReqStandby_keeps {s : State} {a0 a1 a2} : Answered s (execPowerReqStandby a0 a1 a2 s) :=
  fieldRow_keeps 

theorem execPowerReqDeepSleep_keeps {s : State} {a0 a1 a2} : Answered s (execPowerReqDeepSleep a0 a1 a2 s) :=
  fieldRow_keeps 

theorem execVcoreTargetWrite_keeps {s : State} {a0 a1 a2} : Answered s (execVcoreTargetWrite a0 a1 a2 s) :=
  .answer (fun h1 => (State.regWrite_keeps h1))

theorem execPwrLimitWrite_keeps {s : State} {a0 a1 a2} : Answered s (execPwrLimitWrite a0 a1 a2 s) :=
  .answer (fun h1 => (State.regWrite_keeps h1))

theorem execHkaSelfCal_keeps {s : State} {a0 a1 a2} : Answered s (execHkaSelfCal a0 a1 a2 s) :=
  bitRow_keeps 

theorem execHkaRefCal_keeps {s : State} {a0 a1 a2} : Answered s (execHkaRefCal a0 a1 a2 s) :=
  bitRow_keeps 

theorem execEvtFreeze_keeps {s : State} {a0 a1 a2} : Answered s (execEvtFreeze a0 a1 a2 s) :=
  .answer (fun h1 => (State.regWrite_keeps h1))

theorem execEvtClear_keeps {s : State} {a0 a1 a2} : Answered s (execEvtClear a0 a1 a2 s) :=
  bitRow_keeps 

theorem execWfgReq_keeps {s : State} {a0 a1 a2} : Answered s (execWfgReq a0 a1 a2 s) :=
  bitRow_keeps 

theorem execBbxClear_keeps {s : State} {a0 a1 a2} : Answered s (execBbxClear a0 a1 a2 s) :=
  bitRow_keeps 

theorem execBbxSnap_keeps {s : State} {a0 a1 a2} : Answered s (execBbxSnap a0 a1 a2 s) :=
  bitRow_keeps 

theorem State.applyHeld_keeps {z s : State} {a1} (h : Keeps z s) : Keeps z (State.applyHeld s a1) := by
  unfold State.applyHeld
  extract_lets -merge -useContext -underBinder +onlyGivenNames v1
  clear_value v1
  exact State.each_keeps (.of h rfl) (fun h2 => (State.applyWrite_keeps h2))

theorem execProcRestartDone_keeps {s : State} {a0 a1} : Answered s (execProcRestartDone a0 a1 s) := by
  unfold execProcRestartDone
  exact .answer (fun h1 => (State.when_keeps h1 (fun h2 => (by extract_lets -merge -useContext -underBinder +onlyGivenNames u3_0 v3; have h3 : Keeps s v3 := (by unfold v3; exact (.of h2 rfl)); clear_value v3; exact (by extract_lets -merge -useContext -underBinder +onlyGivenNames v4; have h4 : Keeps s v4 := (by unfold v4; exact (State.when_keeps h3 (fun h5 => (State.setF_keeps h5)))); clear_value v4; exact (by split <;> [exact (State.applyHeld_keeps h4); exact (State.applyHeld_keeps h4); exact (State.applyHeld_keeps h4); exact h4]))))))

end Sys2Proof.Machine
end

