-- ==== Sys2Proof/Laws/KeepsTide.lean ====
section
/-! SUPPORT. `Keeps` (Keeps.lean) through edges and tides: one lemma for each operation, in the order
of the model's files; `Answered` for each meaning. -/

namespace Sys2Proof.Machine

/-! TideShift -/

theorem State.shiftTides_keeps {z s : State} {a1} (h : Keeps z s) : Keeps z (State.shiftTides s a1) := by
  unfold State.shiftTides
  extract_lets -merge -useContext -underBinder +onlyGivenNames v1
  have h1 : Keeps z v1 := (by unfold v1; exact (State.each_keeps h (fun h2 => (State.setNum_keeps h2))))
  clear_value v1
  exact .chg h1 rfl (fun c => { c with pool := Cells.wf_mapAll _ c.pool, links := Cells.wf_mapAll _ c.links, pans := Pool.wf_map _ c.pans, cores := Pool.wf_map _ c.cores, phys := Pool.wf_map _ c.phys, qps := Pool.wf_map _ c.qps })

theorem State.rebase_keeps {z s : State} {a1 a2} (h : Keeps z s) : Keeps z (State.rebase s a1 a2) := by
  unfold State.rebase
  extract_lets -merge -useContext -underBinder +onlyGivenNames v1 v2
  clear_value v1 v2
  exact State.event_keeps (State.raise_keeps (State.setNum_keeps (State.shiftTides_keeps h)))

/-! Switch -/

theorem State.countDeferred_keeps {z s : State}  (h : Keeps z s) : Keeps z (State.countDeferred s) := by
  unfold State.countDeferred
  exact .ite h (by extract_lets -merge -useContext -underBinder +onlyGivenNames v1; clear_value v1; exact (by extract_lets -merge -useContext -underBinder +onlyGivenNames v2; clear_value v2; exact (by extract_lets -merge -useContext -underBinder +onlyGivenNames v3; clear_value v3; exact (by extract_lets -merge -useContext -underBinder +onlyGivenNames v4; have h4 : Keeps z v4 := (by unfold v4; exact (State.bump_keeps h)); clear_value v4; exact (State.when_keeps h4 (fun h5 => (.chg h5 rfl (fun c => { c with phys := Pool.wf_map _ c.phys }))))))))

theorem State.judgeDue_keeps {z s : State} {a1} (h : Keeps z s) : Keeps z (State.judgeDue s a1) := by
  unfold State.judgeDue
  extract_lets -merge -useContext -underBinder +onlyGivenNames v1
  clear_value v1
  exact .chg h rfl (fun c => { c with phys := Pool.wf_map _ c.phys })

theorem State.takeRequests_keeps {z s : State}  (h : Keeps z s) : Keeps z (State.takeRequests s) := by
  unfold State.takeRequests
  exact State.each_keeps h (fun h1 => (by split <;> [exact h1; exact (by extract_lets -merge -useContext -underBinder +onlyGivenNames v2; have h2 : Keeps z v2 := (by unfold v2; exact (State.updPhys_keeps h1)); clear_value v2; exact (.ite h2 (State.retire_keeps (State.lastFault_keeps (State.faultRec_keeps h2)))))]))

theorem State.carry_keeps {z s : State} {a1 a2} (h : Keeps z s) : Keeps z (State.carry s a1 a2) :=
  State.updPhys_keeps h

theorem State.freeAgain_keeps {z s : State} {a1} (h : Keeps z s) : Keeps z (State.freeAgain s a1) :=
  State.updPhys_keeps h

theorem State.migrateOut_keeps {z s : State} {a1 a2} (h : Keeps z s) : Keeps z (State.migrateOut s a1 a2) := by
  unfold State.migrateOut
  extract_lets -merge -useContext -underBinder +onlyGivenNames v1 v2 v3
  clear_value v1 v2 v3
  extract_lets -merge -useContext -underBinder +onlyGivenNames v4
  have h4 : Keeps z v4 := (by unfold v4; exact (State.each_keeps (State.unstage_keeps (State.tick_keeps h)) (fun h5 => (State.updPan_keeps h5))))
  clear_value v4
  extract_lets -merge -useContext -underBinder +onlyGivenNames v5
  have h5 : Keeps z v5 := (by unfold v5; exact (State.updPhys_keeps (State.updPhys_keeps h4)))
  clear_value v5
  extract_lets -merge -useContext -underBinder +onlyGivenNames v6
  clear_value v6
  exact State.restoreMoved_keeps (State.bump_keeps (.of h5 rfl))

theorem State.migrateBack_keeps {z s : State} {a1} (h : Keeps z s) : Keeps z (State.migrateBack s a1) := by
  unfold State.migrateBack
  extract_lets -merge -useContext -underBinder +onlyGivenNames v1 v2
  clear_value v1 v2
  exact .ite (.ite (State.remap_keeps h) h) (by extract_lets -merge -useContext -underBinder +onlyGivenNames v3; have h3 : Keeps z v3 := (by unfold v3; exact (State.carry_keeps (State.freeAgain_keeps h))); clear_value v3; exact (State.restoreMoved_keeps (State.each_keeps (State.unstage_keeps h3) (fun h4 => (State.updPan_keeps h4)))))

theorem State.migrations_keeps {z s : State}  (h : Keeps z s) : Keeps z (State.migrations s) := by
  unfold State.migrations
  extract_lets -merge -useContext -underBinder +onlyGivenNames v1
  clear_value v1
  exact State.each_keeps (.of h rfl) (fun h2 => (.ite (State.migrateBack_keeps h2) (by split <;> [exact (State.freeAgain_keeps h2); exact (.ite (State.migrateOut_keeps h2) (State.freeAgain_keeps h2))])))

theorem State.startMigration_keeps {z s : State} {a1 a2} (h : Keeps z s) : Keeps z (State.startMigration s a1 a2) := by
  unfold State.startMigration
  split <;> [exact (by extract_lets -merge -useContext -underBinder +onlyGivenNames v1; have h1 : Keeps z v1 := (by unfold v1; exact (State.updPhys_keeps h)); clear_value v1; exact (State.raise_keeps (.of h1 rfl))); exact h]

theorem State.startMigrations_keeps {z s : State} {a1} (h : Keeps z s) : Keeps z (State.startMigrations s a1) := by
  unfold State.startMigrations
  extract_lets -merge -useContext -underBinder +onlyGivenNames v1
  clear_value v1
  exact .ite h (State.each_keeps h (fun h2 => (State.startMigration_keeps h2)))

theorem State.swapCore_keeps {z s : State} {a1 a2} (h : Keeps z s) : Keeps z (State.swapCore s a1 a2) :=
  State.each_keeps h (fun h1 => (State.updPan_keeps h1))

theorem State.endFills_keeps {z s : State} {a1} (h : Keeps z s) : Keeps z (State.endFills s a1) := by
  unfold State.endFills
  exact State.each_keeps h (fun h1 => (by split <;> [exact (.ite (State.swapCore_keeps (State.updPhys_keeps h1)) h1); exact h1]))

theorem State.endMoves_keeps {z s : State} {a1} (h : Keeps z s) : Keeps z (State.endMoves s a1) := by
  unfold State.endMoves
  split <;> [exact h; exact (State.each_keeps h (fun h1 => (by split <;> [exact h1; exact (.ite (by extract_lets -merge -useContext -underBinder +onlyGivenNames v2; clear_value v2; exact (State.swapCore_keeps (State.clearPans_keeps (.of h1 rfl)))) h1)])))]

theorem State.detachAdapters_keeps {z s : State} {a1} (h : Keeps z s) : Keeps z (State.detachAdapters s a1) :=
  State.each_keeps h (fun h1 => (.ite (State.event_keeps (State.updSess_keeps h1)) h1))

theorem State.switchSlot_keeps {z s : State} {a1 a2} (h : Keeps z s) : Keeps z (State.switchSlot s a1 a2) := by
  unfold State.switchSlot
  extract_lets -merge -useContext -underBinder +onlyGivenNames v1 v2 v3
  clear_value v1 v2 v3
  extract_lets -merge -useContext -underBinder +onlyGivenNames v4
  have h4 : Keeps z v4 := (by unfold v4; exact (by split <;> [exact h; exact (State.updWslot_keeps h)]))
  clear_value v4
  extract_lets -merge -useContext -underBinder +onlyGivenNames v5
  have h5 : Keeps z v5 := (by unfold v5; exact (State.setNum_keeps (State.updWslot_keeps h4)))
  clear_value v5
  extract_lets -merge -useContext -underBinder +onlyGivenNames v6
  clear_value v6
  extract_lets -merge -useContext -underBinder +onlyGivenNames u7_0 v7
  have h7 : Keeps z v7 := (by unfold v7; exact (.of h5 rfl))
  clear_value v7
  extract_lets -merge -useContext -underBinder +onlyGivenNames v8
  have h8 : Keeps z v8 := (by unfold v8; exact (State.event_keeps (State.raise_keeps h7)))
  clear_value v8
  exact State.when_keeps h8 (fun h9 => (State.detachAdapters_keeps h9))

theorem State.kvResetAll_keeps {z s : State} {a1} (h : Keeps z s) : Keeps z (State.kvResetAll s a1) := by
  unfold State.kvResetAll
  extract_lets -merge -useContext -underBinder +onlyGivenNames v1
  clear_value v1
  extract_lets -merge -useContext -underBinder +onlyGivenNames v2
  have h2 : Keeps z v2 := (by unfold v2; exact (State.each_keeps h (fun h3 => (State.updSess_keeps (State.dropPages_keeps h3)))))
  clear_value v2
  exact State.event_keeps (State.raise_keeps h2)

theorem State.clearLayers_keeps {z s : State}  (h : Keeps z s) : Keeps z (State.clearLayers s) :=
  .chg h rfl (fun c => { c with regs := Cells.ascends_filter _ c.regs })

theorem State.switchPlan_keeps {z s : State} {a1 a2} (h : Keeps z s) : Keeps z (State.switchPlan s a1 a2) := by
  unfold State.switchPlan
  extract_lets -merge -useContext -underBinder +onlyGivenNames v1 v2
  clear_value v1 v2
  extract_lets -merge -useContext -underBinder +onlyGivenNames v3
  have h3 : Keeps z v3 := (by unfold v3; exact (.foldl h (fun h4 => (.ite (State.updPslot_keeps h4) h4))))
  clear_value v3
  extract_lets -merge -useContext -underBinder +onlyGivenNames v4
  have h4 : Keeps z v4 := (by unfold v4; exact (State.setNum_keeps (State.updPslot_keeps h3)))
  clear_value v4
  extract_lets -merge -useContext -underBinder +onlyGivenNames v5
  have h5 : Keeps z v5 := (by unfold v5; exact (State.event_keeps (State.raise_keeps h4)))
  clear_value v5
  exact State.when_keeps (State.clearLayers_keeps h5) (fun h6 => (State.kvResetAll_keeps h6))

theorem State.switchPans_keeps {z s : State} {a1} (h : Keeps z s) : Keeps z (State.switchPans s a1) := by
  unfold State.switchPans
  split <;> [exact (by split <;> [exact h; exact (by extract_lets -merge -useContext -underBinder +onlyGivenNames v1; clear_value v1; exact (by extract_lets -merge -useContext -underBinder +onlyGivenNames v2; clear_value v2; exact (by extract_lets -merge -useContext -underBinder +onlyGivenNames v3; clear_value v3; exact (by extract_lets -merge -useContext -underBinder +onlyGivenNames v4; have h4 : Keeps z v4 := (by unfold v4; exact (State.each_keeps h (fun h5 => (State.updPan_keeps h5)))); clear_value v4; exact (by extract_lets -merge -useContext -underBinder +onlyGivenNames v5; have h5 : Keeps z v5 := (by unfold v5; exact (State.each_keeps h4 (fun h6 => (State.updPan_keeps h6)))); clear_value v5; exact (State.each_keeps h5 (fun h6 => (State.updPan_keeps h6))))))))]); exact h]

theorem State.switchNow_keeps {z s : State} {a1 a2 a3} (h : Keeps z s) : Keeps z (State.switchNow s a1 a2 a3) := by
  unfold State.switchNow
  extract_lets -merge -useContext -underBinder +onlyGivenNames v1
  have h1 : Keeps z v1 := (by unfold v1; exact (by split <;> [exact h; exact (State.switchSlot_keeps h)]))
  clear_value v1
  extract_lets -merge -useContext -underBinder +onlyGivenNames v2
  have h2 : Keeps z v2 := (by unfold v2; exact (by split <;> [exact h1; exact (State.switchPlan_keeps h1)]))
  clear_value v2
  extract_lets -merge -useContext -underBinder +onlyGivenNames v3
  have h3 : Keeps z v3 := (by unfold v3; exact (State.raise_keeps (State.switchPans_keeps h2)))
  clear_value v3
  exact .of h3 rfl

theorem State.holdSwitch_keeps {z s : State} {a1} (h : Keeps z s) : Keeps z (State.holdSwitch s a1) := by
  unfold State.holdSwitch
  split <;> [exact (State.bump_keeps h); exact (State.raise_keeps (State.setNum_keeps (.of h rfl)))]

theorem State.switchEdge_keeps {z s : State} {a1} (h : Keeps z s) : PKeeps z (State.switchEdge s a1) := by
  unfold State.switchEdge
  split <;> [exact (PKeeps.mk (State.when_keeps h (fun h1 => (.of h1 rfl)))); exact (by split <;> [exact (PKeeps.mk (State.holdSwitch_keeps h)); exact (PKeeps.mk (State.switchNow_keeps h))])]

theorem State.refreshSwap_keeps {z s : State} {a1 a2} (h : Keeps z s) : Keeps z (State.refreshSwap s a1 a2) := by
  unfold State.refreshSwap
  extract_lets -merge -useContext -underBinder +onlyGivenNames v1
  have h1 : Keeps z v1 := (by unfold v1; exact (State.bump_keeps (State.updPan_keeps h)))
  clear_value v1
  extract_lets -merge -useContext -underBinder +onlyGivenNames v2
  clear_value v2
  exact .of h1 rfl

theorem State.refreshSwaps_keeps {z s : State} {a1} (h : Keeps z s) : Keeps z (State.refreshSwaps s a1) :=
  State.each_keeps h (fun h1 => (State.when_keeps h1 (fun h2 => (State.refreshSwap_keeps h2))))

theorem State.agePans_keeps {z s : State}  (h : Keeps z s) : Keeps z (State.agePans s) := by
  unfold State.agePans
  extract_lets -merge -useContext -underBinder +onlyGivenNames v1 v2
  clear_value v1 v2
  exact State.bump_keeps (State.bump_keeps (.chg h rfl (fun c => { c with pans := Pool.wf_map _ c.pans })))

theorem State.bounceEdge_keeps {z s : State} {a1} (h : Keeps z s) : Keeps z (State.bounceEdge s a1) :=
  .ite h (State.releaseBounce_keeps (.of h rfl))

theorem State.refreshDue_keeps {z s : State} {a1} (h : Keeps z s) : Keeps z (State.refreshDue s a1) := by
  unfold State.refreshDue
  extract_lets -merge -useContext -underBinder +onlyGivenNames v1 v2
  clear_value v1 v2
  exact .ite h (by extract_lets -merge -useContext -underBinder +onlyGivenNames v3; have h3 : Keeps z v3 := (by unfold v3; exact (State.updPan_keeps h)); clear_value v3; exact (.ite h3 (by extract_lets -merge -useContext -underBinder +onlyGivenNames v4; have h4 : Keeps z v4 := (by unfold v4; exact (State.event_keeps (State.bump_keeps (State.updPan_keeps h3)))); clear_value v4; exact (State.faultRec_keeps h4))))

theorem State.pansEdge_keeps {z s : State}  (h : Keeps z s) : Keeps z (State.pansEdge s) := by
  unfold State.pansEdge
  extract_lets -merge -useContext -underBinder +onlyGivenNames v1
  clear_value v1
  extract_lets -merge -useContext -underBinder +onlyGivenNames v2
  have h2 : Keeps z v2 := (by unfold v2; exact (State.bounceEdge_keeps (State.agePans_keeps h)))
  clear_value v2
  extract_lets -merge -useContext -underBinder +onlyGivenNames v3
  have h3 : Keeps z v3 := (by unfold v3; exact (State.each_keeps h2 (fun h4 => (State.refreshDue_keeps h4))))
  clear_value v3
  exact .chg h3 rfl (fun c => { c with pans := Pool.wf_map _ c.pans })

theorem State.placeEdge_keeps {z s : State} {a1} (h : Keeps z s) : Keeps z (State.placeEdge s a1) := by
  unfold State.placeEdge
  extract_lets -merge -useContext -underBinder +onlyGivenNames v1 v2 v3 v4 v5
  clear_value v1 v2 v3 v4 v5
  extract_lets -merge -useContext -underBinder +onlyGivenNames v6
  have h6 : Keeps z v6 := (by unfold v6; exact (State.when_keeps h (fun h7 => (State.bump_keeps h7))))
  clear_value v6
  extract_lets -merge -useContext -underBinder +onlyGivenNames v7
  clear_value v7
  extract_lets -merge -useContext -underBinder +onlyGivenNames v8
  have h8 : Keeps z v8 := (by unfold v8; exact (State.each_keeps h6 (fun h9 => (State.event_keeps h9))))
  clear_value v8
  extract_lets -merge -useContext -underBinder +onlyGivenNames v9
  have h9 : Keeps z v9 := (by unfold v9; exact (State.when_keeps h8 (fun h10 => (State.raise_keeps h10))))
  clear_value v9
  exact .of h9 rfl

theorem State.dumpEdge_keeps {z s : State} {a1} (h : Keeps z s) : Keeps z (State.dumpEdge s a1) := by
  unfold State.dumpEdge
  exact .ite h (by extract_lets -merge -useContext -underBinder +onlyGivenNames u1_0 v1; have h1 : Keeps z v1 := (by unfold v1; exact (State.setF_keeps (.of h rfl))); clear_value v1; exact (by extract_lets -merge -useContext -underBinder +onlyGivenNames v2; clear_value v2; exact (.ite (State.raise_keeps h1) (State.raise_keeps (State.dmaWr_keeps (State.emit_keeps h1))))))

theorem State.drawEdge_keeps {z s : State} {a1} (h : Keeps z s) : Keeps z (State.drawEdge s a1) := by
  unfold State.drawEdge
  extract_lets -merge -useContext -underBinder +onlyGivenNames v1 v2 v3
  clear_value v1 v2 v3
  extract_lets -merge -useContext -underBinder +onlyGivenNames v4
  have h4 : Keeps z v4 := (by unfold v4; exact (.chg h rfl (fun c => { c with cores := Pool.wf_map _ c.cores })))
  clear_value v4
  exact .ite h4 (State.each_keeps h4 (fun h5 => (by split <;> [exact h5; exact (State.each_keeps h5 (fun h6 => (State.when_keeps h6 (fun h7 => (State.updPan_keeps h7)))))])))

theorem State.adapterEdge_keeps {z s : State}  (h : Keeps z s) : Keeps z (State.adapterEdge s) := by
  unfold State.adapterEdge
  extract_lets -merge -useContext -underBinder +onlyGivenNames v1 v2 v3 v4
  clear_value v1 v2 v3 v4
  extract_lets -merge -useContext -underBinder +onlyGivenNames v5
  have h5 : Keeps z v5 := (by unfold v5; exact (State.each_keeps h (fun h6 => (State.clearShards_keeps h6))))
  clear_value v5
  extract_lets -merge -useContext -underBinder +onlyGivenNames u6_0 v6
  have h6 : Keeps z v6 := (by unfold v6; exact (.of h5 rfl))
  clear_value v6
  exact State.when_keeps h6 (fun h7 => (State.raise_keeps h7))

theorem State.resideAgain_keeps {z s : State} {a1} (h : Keeps z s) : Keeps z (State.resideAgain s a1) := by
  unfold State.resideAgain
  exact State.each_keeps h (fun h1 => (by split <;> [exact h1; exact (.ite (State.switchPans_keeps (State.updPslot_keeps h1)) (State.bindPlan_keeps (State.updPslot_keeps (State.endStaging_keeps h1))))]))

theorem State.stageThree_keeps {z s : State} {a1} (h : Keeps z s) : Keeps z (State.stageThree s a1) := by
  unfold State.stageThree
  extract_lets -merge -useContext -underBinder +onlyGivenNames v1
  have h1 : Keeps z v1 := (by unfold v1; exact (State.judgeDue_keeps (State.countDeferred_keeps h)))
  clear_value v1
  extract_lets -merge -useContext -underBinder +onlyGivenNames v2
  clear_value v2
  split <;> [(rename_i hq; have h3 := PKeeps.fst' (by split <;> [exact (PKeeps.mk h1); exact (by extract_lets -merge -useContext -underBinder +onlyGivenNames v3; have h3 : Keeps z v3 := (by unfold v3; exact (State.tryStage_keeps (State.resideAgain_keeps (State.endMoves_keeps (State.endFills_keeps (State.migrations_keeps (State.takeRequests_keeps h1))))))); clear_value v3; exact (by split <;> [(rename_i hq; have h4 := PKeeps.fst' (State.switchEdge_keeps h3) hq; exact (PKeeps.mk (State.refreshSwaps_keeps h4)))]))]) hq; exact (by extract_lets -merge -useContext -underBinder +onlyGivenNames v4; have h4 : Keeps z v4 := (by unfold v4; exact (State.pansEdge_keeps h3)); clear_value v4; exact (by extract_lets -merge -useContext -underBinder +onlyGivenNames v5; have h5 : Keeps z v5 := (by unfold v5; exact (State.when_keeps h4 (fun h6 => (State.startMigrations_keeps h6)))); clear_value v5; exact (by extract_lets -merge -useContext -underBinder +onlyGivenNames v6; have h6 : Keeps z v6 := (by unfold v6; exact (State.when_keeps h5 (fun h7 => (State.dumpEdge_keeps (State.placeEdge_keeps h7))))); clear_value v6; exact (by extract_lets -merge -useContext -underBinder +onlyGivenNames v7; have h7 : Keeps z v7 := (by unfold v7; exact (State.adapterEdge_keeps h6)); clear_value v7; exact (.of h7 rfl))))))]

/-! Tide -/

theorem State.endFreerun_keeps {z s : State} {a1} (h : Keeps z s) : Keeps z (State.endFreerun s a1) :=
  .ite (State.event_keeps (State.raise_keeps (State.setF_keeps h))) h

theorem State.align_keeps {z s : State} {a1 a2 a3} (h : Keeps z s) : PKeeps z (State.align s a1 a2 a3) := by
  unfold State.align
  split <;> [exact (by extract_lets -merge -useContext -underBinder +onlyGivenNames v1; have h1 : Keeps z v1 := (by unfold v1; exact (.ite h (State.rebase_keeps h))); clear_value v1; exact (by extract_lets -merge -useContext -underBinder +onlyGivenNames v2; have h2 : Keeps z v2 := (by unfold v2; exact (State.setNum_keeps h1)); clear_value v2; exact (by split <;> [exact (PKeeps.mk (State.setF_keeps (State.endFreerun_keeps h2))); exact (PKeeps.mk (State.setF_keeps h2))])))]

theorem State.lostMarker_keeps {z s : State} {a1} (h : Keeps z s) : Keeps z (State.lostMarker s a1) :=
  .ite (State.event_keeps (State.raise_keeps (State.setF_keeps (State.setF_keeps h)))) h

theorem State.fabricEdgeTime_keeps {z s : State} {a1 a2} (h : Keeps z s) : PKeeps z (State.fabricEdgeTime s a1 a2) := by
  unfold State.fabricEdgeTime
  split <;> [exact (State.align_keeps (.of h rfl)); exact (by extract_lets -merge -useContext -underBinder +onlyGivenNames v1; clear_value v1; exact (PKeeps.mk (State.lostMarker_keeps (.of h rfl))))]

theorem State.realign_keeps {z s : State} {a1 a2} (h : Keeps z s) : PKeeps z (State.realign s a1 a2) := by
  unfold State.realign
  extract_lets -merge -useContext -underBinder +onlyGivenNames v1
  clear_value v1
  split <;> [exact (by extract_lets -merge -useContext -underBinder +onlyGivenNames v2; have h2 : Keeps z v2 := (by unfold v2; exact (State.setF_keeps (State.setF_keeps h))); clear_value v2; exact (by split <;> [(rename_i hq; have h3 := PKeeps.fst' (State.fabricEdgeTime_keeps h2) hq; exact (PKeeps.mk (State.when_keeps h3 (fun h4 => (State.bump_keeps h4)))))])); exact (by extract_lets -merge -useContext -underBinder +onlyGivenNames v2; have h2 : Keeps z v2 := (by unfold v2; exact (State.endFreerun_keeps (State.setF_keeps (State.setF_keeps h)))); clear_value v2; exact (by extract_lets -merge -useContext -underBinder +onlyGivenNames v3; have h3 : Keeps z v3 := (by unfold v3; exact (State.setNum_keeps (State.setF_keeps h2))); clear_value v3; exact (PKeeps.mk (.of h3 rfl))))]

theorem State.rootPeriodEdge_keeps {z s : State} {a1} (h : Keeps z s) : Keeps z (State.rootPeriodEdge s a1) := by
  unfold State.rootPeriodEdge
  split <;> [exact h; exact (.ite h (by extract_lets -merge -useContext -underBinder +onlyGivenNames u1_0 v1; have h1 : Keeps z v1 := (by unfold v1; exact (State.setNum_keeps (.of h rfl))); clear_value v1; exact (.ite (State.raise_keeps (State.setNum_keeps h1)) h1)))]

theorem State.noAnnounce_keeps {z s : State}  (h : Keeps z s) : Keeps z (State.noAnnounce s) :=
  State.when_keeps h (fun h1 => (.of h1 rfl))

theorem State.stageRefused_keeps {z s : State}  (h : Keeps z s) : Keeps z (State.stageRefused s) :=
  State.raise_keeps (State.setF_keeps (State.noAnnounce_keeps h))

theorem State.stageEdge_keeps {z s : State} {a1 a2} (h : Keeps z s) : Keeps z (State.stageEdge s a1 a2) := by
  unfold State.stageEdge
  extract_lets -merge -useContext -underBinder +onlyGivenNames v1
  have h1 : Keeps z v1 := (by unfold v1; exact (State.when_keeps h (fun h2 => (State.rootPeriodEdge_keeps h2))))
  clear_value v1
  exact .ite (State.noAnnounce_keeps h1) (by extract_lets -merge -useContext -underBinder +onlyGivenNames v2; clear_value v2; exact (by extract_lets -merge -useContext -underBinder +onlyGivenNames v3; clear_value v3; exact (by extract_lets -merge -useContext -underBinder +onlyGivenNames v4; clear_value v4; exact (.ite (.ite (State.stageRefused_keeps h1) (.of h1 rfl)) (by extract_lets -merge -useContext -underBinder +onlyGivenNames v5; have h5 : Keeps z v5 := (by unfold v5; exact (.ite h1 (State.noAnnounce_keeps h1))); clear_value v5; exact (.ite h5 (.ite (State.stageRefused_keeps h5) (by extract_lets -merge -useContext -underBinder +onlyGivenNames v6; have h6 : Keeps z v6 := (by unfold v6; exact (State.noAnnounce_keeps (State.setF_keeps (State.setNum_keeps (State.setNum_keeps h5))))); clear_value v6; exact (State.raise_keeps h6)))))))))

theorem State.coreEdge_keeps {z s : State} {a1} (h : Keeps z s) : Keeps z (State.coreEdge s a1) := by
  unfold State.coreEdge
  extract_lets -merge -useContext -underBinder +onlyGivenNames v1
  clear_value v1
  extract_lets -merge -useContext -underBinder +onlyGivenNames v2
  have h2 : Keeps z v2 := (by unfold v2; exact (State.each_keeps h (fun h3 => (by split <;> [exact h3; exact (State.bump_keeps h3)]))))
  clear_value v2
  extract_lets -merge -useContext -underBinder +onlyGivenNames v3 v4
  clear_value v3 v4
  exact State.updCore_keeps h2

theorem State.coresEdge_keeps {z s : State}  (h : Keeps z s) : Keeps z (State.coresEdge s) := by
  unfold State.coresEdge
  extract_lets -merge -useContext -underBinder +onlyGivenNames v1
  clear_value v1
  extract_lets -merge -useContext -underBinder +onlyGivenNames v2
  have h2 : Keeps z v2 := (by unfold v2; exact (State.each_keeps h (fun h3 => (State.coreEdge_keeps h3))))
  clear_value v2
  exact .chg h2 rfl (fun c => { c with pool := Cells.wf_mapAll _ c.pool })

theorem State.mapEdge_keeps {z s : State}  (h : Keeps z s) : Keeps z (State.mapEdge s) := by
  unfold State.mapEdge
  exact .ite h (State.each_keeps h (fun h1 => (by split <;> [exact h1; exact (by extract_lets -merge -useContext -underBinder +onlyGivenNames v2; clear_value v2; exact (State.when_keeps h1 (fun h3 => (State.hold_keeps h3))))])))

theorem State.sysverEdge_keeps {z s : State} {a1} (h : Keeps z s) : Keeps z (State.sysverEdge s a1) := by
  unfold State.sysverEdge
  split <;> [exact h; exact (.ite h (State.raise_keeps (.of h rfl)))]

theorem State.goUp_keeps {z s : State} {a1} (h : Keeps z s) : Keeps z (State.goUp s a1) := by
  unfold State.goUp
  extract_lets -merge -useContext -underBinder +onlyGivenNames v1
  clear_value v1
  extract_lets -merge -useContext -underBinder +onlyGivenNames v2
  have h2 : Keeps z v2 := (by unfold v2; exact (State.raise_keeps (State.updLink_keeps h)))
  clear_value v2
  exact State.sendLsu_keeps (State.event_keeps h2)

theorem State.routeEdge_keeps {z s : State}  (h : Keeps z s) : Keeps z (State.routeEdge s) := by
  unfold State.routeEdge
  extract_lets -merge -useContext -underBinder +onlyGivenNames v1
  clear_value v1
  exact .ite h (State.raise_keeps (State.bump_keeps (.of h rfl)))

theorem State.sendMarker_keeps {z s : State} {a1 a2 a3} (h : Keeps z s) : Keeps z (State.sendMarker s a1 a2 a3) :=
  State.each_keeps h (fun h1 => (State.sendCtrl_keeps h1))

theorem State.fabricEdge_keeps {z s : State} {a1} (h : Keeps z s) : Keeps z (State.fabricEdge s a1) := by
  unfold State.fabricEdge
  exact .ite h (by extract_lets -merge -useContext -underBinder +onlyGivenNames v1; have h1 : Keeps z v1 := (by unfold v1; exact (State.mapEdge_keeps h)); clear_value v1; exact (by extract_lets -merge -useContext -underBinder +onlyGivenNames u2_0 v2; have h2 : Keeps z v2 := (by unfold v2; exact (.of h1 rfl)); clear_value v2; exact (by extract_lets -merge -useContext -underBinder +onlyGivenNames v3; have h3 : Keeps z v3 := (by unfold v3; exact (State.rootSysver_keeps (State.sysverEdge_keeps h2))); clear_value v3; exact (by extract_lets -merge -useContext -underBinder +onlyGivenNames v4; have h4 : Keeps z v4 := (by unfold v4; exact (State.each_keeps h3 (fun h5 => (State.goUp_keeps h5)))); clear_value v4; exact (by extract_lets -merge -useContext -underBinder +onlyGivenNames v5; have h5 : Keeps z v5 := (by unfold v5; exact (State.routeEdge_keeps h4)); clear_value v5; exact (State.fabStatus_keeps (by split <;> [exact (State.sendMarker_keeps h5); exact h5])))))))

theorem State.latchCounters_keeps {z s : State} (h : Keeps z s) : Keeps z s.latchCounters := by
  rw [State.latchCounters]
  have hc : ∀ {b : RegBlock} {u : Nat} {t : State}, Keeps z t → Keeps z (t.each b.regs (fun r s =>
      s.each (List.range r.info.count) (fun i s => s.setNum r (s.view r u i) (65536 + u) i))) :=
    fun ht => State.each_keeps ht (fun k => State.each_keeps k (fun j => State.setNum_keeps j))
  exact hc (State.each_keeps h (fun k => hc k))

theorem State.latchTide_keeps {z s : State}  (h : Keeps z s) : Keeps z (State.latchTide s) := by
  unfold State.latchTide
  extract_lets -merge -useContext -underBinder +onlyGivenNames v1
  clear_value v1
  extract_lets -merge -useContext -underBinder +onlyGivenNames v2
  have h2 : Keeps z v2 := (by unfold v2; exact (State.setNum_keeps (State.setNum_keeps (State.setNum_keeps h))))
  clear_value v2
  extract_lets -merge -useContext -underBinder +onlyGivenNames v3
  clear_value v3
  extract_lets -merge -useContext -underBinder +onlyGivenNames v4
  have h4 : Keeps z v4 := (by unfold v4; exact (State.setNum_keeps h2))
  clear_value v4
  exact .of h4 rfl

theorem State.stallReport_keeps {z s : State} {a1 a2 a3} (h : Keeps z s) : Keeps z (State.stallReport s a1 a2 a3) := by
  unfold State.stallReport
  split <;> [exact h; exact (State.event_keeps (State.raise_keeps h))]

theorem State.ctxSeal_keeps {z s : State} {a1 a2} (h : Keeps z s) : Keeps z (State.ctxSeal s a1 a2) := by
  unfold State.ctxSeal
  extract_lets -merge -useContext -underBinder +onlyGivenNames v1 v2 v3 v4
  clear_value v1 v2 v3 v4
  extract_lets -merge -useContext -underBinder +onlyGivenNames v5
  have h5 : Keeps z v5 := (by unfold v5; exact (State.updCtx_keeps h))
  clear_value v5
  exact State.when_keeps h5 (fun h6 => (State.stallReport_keeps h6))

theorem State.hoistSeal_keeps {z s : State} {a1 a2} (h : Keeps z s) : Keeps z (State.hoistSeal s a1 a2) := by
  unfold State.hoistSeal
  extract_lets -merge -useContext -underBinder +onlyGivenNames v1 v2 v3 v4 v5
  clear_value v1 v2 v3 v4 v5
  extract_lets -merge -useContext -underBinder +onlyGivenNames v6
  have h6 : Keeps z v6 := (by unfold v6; exact (State.updHoist_keeps h))
  clear_value v6
  exact State.when_keeps h6 (fun h7 => (State.stallReport_keeps h7))

theorem State.stalls_keeps {z s : State}  (h : Keeps z s) : Keeps z (State.stalls s) := by
  unfold State.stalls
  exact State.each_keeps h (fun h1 => (by extract_lets -merge -useContext -underBinder +onlyGivenNames v2; have h2 : Keeps z v2 := (by unfold v2; exact (State.each_keeps h1 (fun h3 => (State.ctxSeal_keeps h3)))); clear_value v2; exact (State.each_keeps h2 (fun h3 => (State.hoistSeal_keeps h3)))))

/-- The counters are latched and the seal is signalled. -/
theorem State.sealEnd_keeps {z s : State} (h : Keeps z s) :
    Keeps z (({ s with tide.latched := true } : State).raise .TDE_INT_STATUS .TDE_INT_ENABLE 2) :=
  State.raise_keeps (h.of rfl)

theorem State.doSeal_keeps {z s : State} (h : Keeps z s) : Keeps z s.doSeal := by
  rw [State.doSeal]
  refine .ite h ?_
  extract_lets -merge -useContext -underBinder +onlyGivenNames v
  have hv : Keeps z v := State.wfgAtSeal_keeps (State.stalls_keeps (State.sealWork_keeps h))
  clear_value v
  extract_lets -merge -useContext -underBinder +onlyGivenNames w
  have hw : Keeps z w := State.setNum_keeps (State.latchTide_keeps (State.latchCounters_keeps hv))
  clear_value w
  exact State.sealEnd_keeps hw

theorem execSeal_keeps {s : State} : Answered s (execSeal s) := by
  unfold execSeal
  split
  · exact .next (State.doSeal_keeps (State.enter_keeps (.refl s)))
  · exact .next (State.enter_keeps (.refl s))

theorem State.openTide_keeps {z s : State} {a1 a2 a3} (h : Keeps z s) : Keeps z (State.openTide s a1 a2 a3) := by
  unfold State.openTide
  extract_lets -merge -useContext -underBinder +onlyGivenNames v1 v2
  clear_value v1 v2
  extract_lets -merge -useContext -underBinder +onlyGivenNames v3
  have h3 : Keeps z v3 := (by unfold v3; exact (State.setNum_keeps (State.setNum_keeps h)))
  clear_value v3
  extract_lets -merge -useContext -underBinder +onlyGivenNames u4_0 v4
  clear_value v4
  exact .of h3 rfl

theorem State.readyEdge_keeps {z s : State}  (h : Keeps z s) : Keeps z (State.readyEdge s) :=
  .ite (State.setDevState_keeps (State.setNum_keeps h)) h

theorem State.admitEdge_keeps {z s : State} {a1 a2} (h : Keeps z s) : Keeps z (State.admitEdge s a1 a2) := by
  unfold State.admitEdge
  extract_lets -merge -useContext -underBinder +onlyGivenNames v1
  have h1 : Keeps z v1 := (by unfold v1; exact (State.judgeBudget_keeps (State.carve_keeps h)))
  clear_value v1
  extract_lets -merge -useContext -underBinder +onlyGivenNames v2
  have h2 : Keeps z v2 := (by unfold v2; exact (State.each_keeps h1 (fun h3 => (State.updSess_keeps h3))))
  clear_value v2
  extract_lets -merge -useContext -underBinder +onlyGivenNames v3
  have h3 : Keeps z v3 := (by unfold v3; exact (State.setNum_keeps h2))
  clear_value v3
  exact .ite h3 (State.admitAll_keeps h3)

theorem State.edgeActions_keeps {z s : State} {a1 a2 a3} (h : Keeps z s) : Keeps z (State.edgeActions s a1 a2 a3) := by
  unfold State.edgeActions
  extract_lets -merge -useContext -underBinder +onlyGivenNames v1 v2 v3
  clear_value v1 v2 v3
  extract_lets -merge -useContext -underBinder +onlyGivenNames v4
  have h4 : Keeps z v4 := (by unfold v4; exact (State.publish_keeps (State.when_keeps h (fun h5 => (State.saveRolled_keeps (State.endTide_keeps h5))))))
  clear_value v4
  extract_lets -merge -useContext -underBinder +onlyGivenNames v5
  have h5 : Keeps z v5 := (by unfold v5; exact (State.stageThree_keeps (State.stageEdge_keeps h4)))
  clear_value v5
  extract_lets -merge -useContext -underBinder +onlyGivenNames u6_0 u6_1 v6
  have h6 : Keeps z v6 := (by unfold v6; exact (.of (State.coresEdge_keeps h5) rfl))
  clear_value v6
  extract_lets -merge -useContext -underBinder +onlyGivenNames v7
  have h7 : Keeps z v7 := (by unfold v7; exact (State.readyEdge_keeps (State.raise_keeps (State.openTide_keeps h6))))
  clear_value v7
  extract_lets -merge -useContext -underBinder +onlyGivenNames v8
  have h8 : Keeps z v8 := (by unfold v8; exact (State.fabricEdge_keeps h7))
  clear_value v8
  extract_lets -merge -useContext -underBinder +onlyGivenNames v9
  clear_value v9
  extract_lets -merge -useContext -underBinder +onlyGivenNames v10
  have h10 : Keeps z v10 := (by unfold v10; exact (State.judgePower_keeps (State.powerEdge_keeps h8)))
  clear_value v10
  exact .ite h10 (by extract_lets -merge -useContext -underBinder +onlyGivenNames v11; have h11 : Keeps z v11 := (by unfold v11; exact (State.when_keeps (State.admitEdge_keeps h10) (fun h12 => (State.takeStandby_keeps h12)))); clear_value v11; exact (by extract_lets -merge -useContext -underBinder +onlyGivenNames v12; clear_value v12; exact (State.when_keeps h11 (fun h13 => (State.each_keeps h13 (fun h14 => (State.writeStatus_keeps h14)))))))

theorem State.stopSession_keeps {z s : State} {a1 a2} (h : Keeps z s) : Keeps z (State.stopSession s a1 a2) :=
  State.updSess_keeps (State.updQp_keeps h)

theorem State.publishStop_keeps {z s : State} {a1} (h : Keeps z s) : Keeps z (State.publishStop s a1) := by
  unfold State.publishStop
  extract_lets -merge -useContext -underBinder +onlyGivenNames v1
  have h1 : Keeps z v1 := (by unfold v1; exact (State.each_keeps h (fun h2 => (State.commitSession_keeps h2))))
  clear_value v1
  extract_lets -merge -useContext -underBinder +onlyGivenNames v2
  have h2 : Keeps z v2 := (by unfold v2; exact (State.each_keeps h1 (fun h3 => (State.stopSession_keeps h3))))
  clear_value v2
  extract_lets -merge -useContext -underBinder +onlyGivenNames v3
  have h3 : Keeps z v3 := (by unfold v3; exact (by split <;> [exact h2; exact (State.fwRecord_keeps h2)]))
  clear_value v3
  extract_lets -merge -useContext -underBinder +onlyGivenNames v4
  have h4 : Keeps z v4 := (by unfold v4; exact (State.each_keeps h3 (fun h5 => (State.fwRecord_keeps h5))))
  clear_value v4
  extract_lets -merge -useContext -underBinder +onlyGivenNames u5_0 v5
  have h5 : Keeps z v5 := (by unfold v5; exact (.of h4 rfl))
  clear_value v5
  extract_lets -merge -useContext -underBinder +onlyGivenNames v6
  clear_value v6
  extract_lets -merge -useContext -underBinder +onlyGivenNames v7
  have h7 : Keeps z v7 := (by unfold v7; exact (State.each_keeps h5 (fun h8 => (State.answerQueries_keeps (State.writeStatus_keeps h8)))))
  clear_value v7
  exact State.signalAll_keeps (State.each_keeps h7 (fun h8 => (State.when_keeps h8 (fun h9 => (State.publishQp_keeps h9)))))

theorem State.stopEdge_keeps {z s : State}  (h : Keeps z s) : Keeps z (State.stopEdge s) := by
  unfold State.stopEdge
  extract_lets -merge -useContext -underBinder +onlyGivenNames v1
  clear_value v1
  extract_lets -merge -useContext -underBinder +onlyGivenNames v2
  have h2 : Keeps z v2 := (by unfold v2; exact (State.endTide_keeps h))
  clear_value v2
  extract_lets -merge -useContext -underBinder +onlyGivenNames v3
  have h3 : Keeps z v3 := (by unfold v3; exact (State.when_keeps h2 (fun h4 => (State.publishStop_keeps h4))))
  clear_value v3
  extract_lets -merge -useContext -underBinder +onlyGivenNames v4
  have h4 : Keeps z v4 := (by unfold v4; exact (State.openTide_keeps h3))
  clear_value v4
  exact .ite h4 (State.stopNow_keeps h4)

theorem execTideEdge_keeps {s : State} : Answered s (execTideEdge s) := by
  unfold execTideEdge
  split
  · extract_lets -merge -useContext -underBinder +onlyGivenNames first v w
    have h : Keeps s w := (State.doSeal_keeps (State.enter_keeps (.refl s))).trans
      ⟨rfl, rfl, rfl, Nat.le_max_left _ _, fun c => c.of_stores rfl⟩
    split
    · exact .next (State.stopEdge_keeps h)
    · split
      rename_i hq
      exact .next (State.edgeActions_keeps ((State.realign_keeps h).fst' hq))
  · exact .next (State.enter_keeps (.refl s))

theorem execWorkPhaseStart_keeps {s : State} : Answered s (execWorkPhaseStart s) := by
  unfold execWorkPhaseStart
  split
  · extract_lets -merge -useContext -underBinder +onlyGivenNames v r w plans u
    have hw : Keeps s w := (State.enter_keeps (.refl s)).of rfl
    clear_value w
    have hu : Keeps s u := State.drawEdge_keeps (State.when_keeps hw State.planTide_keeps)
    clear_value u
    exact .next (State.each_keeps hu State.ctx3_keeps)
  · exact .next (State.enter_keeps (.refl s))

theorem State.takeMarker_keeps {z s : State} {a1 a2} (h : Keeps z s) : Keeps z (State.takeMarker s a1 a2) := by
  unfold State.takeMarker
  extract_lets -merge -useContext -underBinder +onlyGivenNames v1 v2 v3
  clear_value v1 v2 v3
  exact .of h rfl

theorem execTideMarker_keeps {s : State} {a0 a1 a2 a3} : Answered s (execTideMarker a0 a1 a2 a3 s) := by
  unfold execTideMarker
  exact .answer (fun h1 => (State.arrival_keeps h1 (fun h2 => (by extract_lets -merge -useContext -underBinder +onlyGivenNames v3; clear_value v3; exact (.ite h2 (by extract_lets -merge -useContext -underBinder +onlyGivenNames v4; clear_value v4; exact (by extract_lets -merge -useContext -underBinder +onlyGivenNames v5; have h5 : Keeps s v5 := (by unfold v5; exact (.ite (State.when_keeps h2 (fun h6 => (State.bump_keeps h6))) (State.takeMarker_keeps h2))); clear_value v5; exact (by extract_lets -merge -useContext -underBinder +onlyGivenNames v6; clear_value v6; exact (by extract_lets -merge -useContext -underBinder +onlyGivenNames v7; clear_value v7; exact (.ite h5 (State.sendMarker_keeps (State.tick_keeps h5))))))))))))

end Sys2Proof.Machine
end

