-- ==== Sys2Proof/Laws/Within.lean ====
section
/-! SUPPORT. What an operation may change: `Within F R z s` says that from `z` to `s` only the fields in the set `F` and
the registers in the set `R` may have changed. Sets are numbers, an element being the bit of its constructor's number. The
lemmas of this folder's Within files carry it through every operation; `Within.sameBut` turns it into `SameBut`. -/

namespace Sys2Proof.Machine

/-- Only fields in `F` and registers in `R` may differ. -/
def Within (F R : Nat) (z s : State) : Prop :=
  (∀ f : Field, F.testBit f.ctorIdx = false → f.same z s) ∧
  (∀ r : Reg, R.testBit r.ctorIdx = false → ∀ u i, s.reg r u i = z.reg r u i)

variable {F R m k : Nat} {z s t a b : State}

/-! ### Sets -/

/-- A part of a part is a part. -/
theorem sub (h : F &&& m = m) (e : m &&& k = k) : F &&& k = k := by rw [← e, ← Nat.and_assoc, h]

/-- An element of a part is an element. -/
theorem elem (h : F &&& m = m) (e : m.testBit k = true) : F.testBit k = true := by
  rw [← h, Nat.testBit_and] at e
  exact (Bool.and_eq_true _ _ ▸ e).1

/-- The set of some fields. -/
def fieldSet (l : List Field) : Nat := l.foldr (fun f m => 2 ^ f.ctorIdx ||| m) 0
/-- The set of some registers. -/
def regSet (l : List Reg) : Nat := l.foldr (fun r m => 2 ^ r.ctorIdx ||| m) 0

theorem Field.ctorIdx_inj {f g : Field} (h : f.ctorIdx = g.ctorIdx) : f = g := by
  cases f <;> cases g <;> first | rfl | exact absurd h (by decide)

theorem fieldSet_testBit (l : List Field) (f : Field) (h : f ∉ l) : (fieldSet l).testBit f.ctorIdx = false := by
  induction l with
  | nil => simp [fieldSet]
  | cons g l ih =>
    simp only [List.mem_cons, not_or] at h
    show (2 ^ g.ctorIdx ||| fieldSet l).testBit f.ctorIdx = false
    rw [Nat.testBit_or, ih h.2, Bool.or_false, Nat.testBit_two_pow]
    simp only [decide_eq_false_iff_not]
    exact fun e => h.1 (Field.ctorIdx_inj e).symm

theorem Reg.ctorIdx_inj {r q : Reg} (h : r.ctorIdx = q.ctorIdx) : r = q := by
  have key : ∀ r : Reg, Reg.ofNat r.ctorIdx = r := fun r => by cases r <;> rfl
  rw [← key r, ← key q, h]

theorem Reg.ctorIdx_lt (r : Reg) : r.ctorIdx < 512 := by cases r <;> decide

/-- A key tells which register it holds. -/
theorem Reg.key_inj {r q : Reg} {u v i j : Nat} (h : Reg.key u r i = Reg.key v q j) : r = q := by
  have hr := Reg.ctorIdx_lt r
  have hq := Reg.ctorIdx_lt q
  unfold Reg.key at h
  exact Reg.ctorIdx_inj (by omega)

theorem regSet_testBit (l : List Reg) (r : Reg) (h : r ∉ l) : (regSet l).testBit r.ctorIdx = false := by
  induction l with
  | nil => simp [regSet]
  | cons g l ih =>
    simp only [List.mem_cons, not_or] at h
    show (2 ^ g.ctorIdx ||| regSet l).testBit r.ctorIdx = false
    rw [Nat.testBit_or, ih h.2, Bool.or_false, Nat.testBit_two_pow]
    simp only [decide_eq_false_iff_not]
    exact fun e => h.1 (Reg.ctorIdx_inj e).symm

/-- A member of a list whose members are all in the set. -/
theorem memBit {l : List Reg} {r : Reg} (h : r ∈ l) (e : l.all (fun r => m.testBit r.ctorIdx) = true) :
    m.testBit r.ctorIdx = true := List.all_eq_true.mp e r h

/-- The whole register file. -/
def allRegs : Nat := 0xffffffffffffffffffffffffffffffffffffffffffffffffffffffffffffffffffffffffffffffffffffffffffffffffffffffffffffffffffffffffffffffff

theorem allRegs_testBit (r : Reg) : allRegs.testBit r.ctorIdx = true := by cases r <;> rfl

theorem allRegs_elem (h : R &&& allRegs = allRegs) (r : Reg) : R.testBit r.ctorIdx = true :=
  elem h (allRegs_testBit r)

/-- `Within` as a list of fields and a list of registers. -/
theorem Within.sameBut {fs : List Field} {rs : List Reg} (h : Within F R z s) (hf : fieldSet fs &&& F = F)
    (hr : regSet rs &&& R = R) : SameBut fs rs z s := by
  refine ⟨fun f hn => h.1 f ?_, fun r hn => h.2 r ?_⟩
  · rw [← hf, Nat.testBit_and, fieldSet_testBit fs f hn, Bool.false_and]
  · rw [← hr, Nat.testBit_and, regSet_testBit rs r hn, Bool.false_and]

/-! ### Steps -/

theorem Within.refl (s : State) : Within F R s s := ⟨fun f _ => by cases f <;> rfl, fun _ _ _ _ => rfl⟩

/-- One field replaced. -/
theorem Within.upd (f : Field) (h : Within F R z s) (hf : F.testBit f.ctorIdx = true) (hr : t.regs = s.regs)
    (e : ∀ g : Field, g ≠ f → g.same s t) : Within F R z t := by
  refine ⟨fun g hg => ?_, fun r hn u i => ?_⟩
  · have hgf : g ≠ f := fun e => by subst e; rw [hf] at hg; exact Bool.noConfusion hg
    have h1 := h.1 g hg
    have h2 := e g hgf
    cases g <;> exact h2.trans h1
  · have := h.2 r hn u i
    simp only [State.reg] at this ⊢
    rw [hr]; exact this

/-- Several fields replaced. -/
theorem Within.chg (m : Nat) (h : Within F R z s) (hF : F &&& m = m) (hr : t.regs = s.regs)
    (e : ∀ g : Field, m.testBit g.ctorIdx = false → g.same s t) : Within F R z t := by
  refine ⟨fun g hg => ?_, fun r hn u i => ?_⟩
  · have h1 := h.1 g hg
    have h2 := e g (by rw [← hF, Nat.testBit_and, hg, Bool.false_and])
    cases g <;> exact h2.trans h1
  · have := h.2 r hn u i
    simp only [State.reg] at this ⊢
    rw [hr]; exact this

theorem Within.ite {c : Prop} [Decidable c] (ha : Within F R z a) (hb : Within F R z b) :
    Within F R z (if c then a else b) := by
  split <;> assumption

theorem Within.foldl {α : Type} {f : State → α → State} {l : List α} (h : Within F R z s)
    (hf : ∀ {t x}, Within F R z t → Within F R z (f t x)) : Within F R z (l.foldl f s) := by
  induction l generalizing s with
  | nil => exact h
  | cons x l ih => exact ih (hf h)

/-- A fold over a list, by what holds of its members. -/
theorem Within.foldl_mem {α : Type} {f : State → α → State} {l : List α} (h : Within F R z s)
    (hf : ∀ t x, x ∈ l → Within F R z t → Within F R z (f t x)) : Within F R z (l.foldl f s) := by
  induction l generalizing s with
  | nil => exact h
  | cons x l ih =>
    exact ih (hf s x (List.mem_cons_self ..) h) (fun t y hy => hf t y (List.mem_cons_of_mem _ hy))

theorem Reg.key_block (u : Nat) (r : Reg) (i : Nat) : Reg.key u r i / 1024 % 512 = r.ctorIdx := by
  have := Reg.ctorIdx_lt r
  unfold Reg.key
  omega

/-- A register of a block's list is of that block. -/
theorem RegBlock.regs_block {b : RegBlock} {r : Reg} (h : r ∈ b.regs) : r.info.block = b := by
  have key : ∀ b : RegBlock, b.regs.all (fun r => r.info.block == b) = true := fun b => by cases b <;> rfl
  simpa using List.all_eq_true.mp (key b) r h

/-- A register written. -/
theorem Within.setReg {r : Reg} {v : W64} {u i : Nat} (h : Within F R z s) (hr : R.testBit r.ctorIdx = true) :
    Within F R z (s.setReg r v u i) := by
  refine ⟨fun f hf => ?_, fun q hq u' i' => ?_⟩
  · have := h.1 f hf
    cases f <;> exact this
  · rw [State.reg_setReg_other _ _ _ _ _ _ _ _ (fun e => ?_)]
    · exact h.2 q hq u' i'
    · rw [Reg.key_inj e] at hq; rw [hr] at hq; exact Bool.noConfusion hq

/-! ### One field replaced, field by field -/

theorem Within.pending {x} (h : Within F R z s) (hf : F.testBit Field.pending.ctorIdx = true) :
    Within F R z { s with pending := x } :=
  .upd .pending h hf rfl (fun g hg => by cases g <;> first | rfl | exact absurd rfl hg)
theorem Within.out {x} (h : Within F R z s) (hf : F.testBit Field.out.ctorIdx = true) :
    Within F R z { s with out := x } :=
  .upd .out h hf rfl (fun g hg => by cases g <;> first | rfl | exact absurd rfl hg)
theorem Within.freeCtr {x} (h : Within F R z s) (hf : F.testBit Field.freeCtr.ctorIdx = true) :
    Within F R z { s with freeCtr := x } :=
  .upd .freeCtr h hf rfl (fun g hg => by cases g <;> first | rfl | exact absurd rfl hg)
theorem Within.part {x} (h : Within F R z s) (hf : F.testBit Field.part.ctorIdx = true) :
    Within F R z { s with part := x } :=
  .upd .part h hf rfl (fun g hg => by cases g <;> first | rfl | exact absurd rfl hg)
theorem Within.now {x} (h : Within F R z s) (hf : F.testBit Field.now.ctorIdx = true) :
    Within F R z { s with now := x } :=
  .upd .now h hf rfl (fun g hg => by cases g <;> first | rfl | exact absurd rfl hg)
theorem Within.aon {x} (h : Within F R z s) (hf : F.testBit Field.aon.ctorIdx = true) :
    Within F R z { s with aon := x } :=
  .upd .aon h hf rfl (fun g hg => by cases g <;> first | rfl | exact absurd rfl hg)
theorem Within.boot {x} (h : Within F R z s) (hf : F.testBit Field.boot.ctorIdx = true) :
    Within F R z { s with boot := x } :=
  .upd .boot h hf rfl (fun g hg => by cases g <;> first | rfl | exact absurd rfl hg)
theorem Within.mram {x} (h : Within F R z s) (hf : F.testBit Field.mram.ctorIdx = true) :
    Within F R z { s with mram := x } :=
  .upd .mram h hf rfl (fun g hg => by cases g <;> first | rfl | exact absurd rfl hg)
theorem Within.tide {x} (h : Within F R z s) (hf : F.testBit Field.tide.ctorIdx = true) :
    Within F R z { s with tide := x } :=
  .upd .tide h hf rfl (fun g hg => by cases g <;> first | rfl | exact absurd rfl hg)
theorem Within.pans {x} (h : Within F R z s) (hf : F.testBit Field.pans.ctorIdx = true) :
    Within F R z { s with pans := x } :=
  .upd .pans h hf rfl (fun g hg => by cases g <;> first | rfl | exact absurd rfl hg)
theorem Within.cores {x} (h : Within F R z s) (hf : F.testBit Field.cores.ctorIdx = true) :
    Within F R z { s with cores := x } :=
  .upd .cores h hf rfl (fun g hg => by cases g <;> first | rfl | exact absurd rfl hg)
theorem Within.clusters {x} (h : Within F R z s) (hf : F.testBit Field.clusters.ctorIdx = true) :
    Within F R z { s with clusters := x } :=
  .upd .clusters h hf rfl (fun g hg => by cases g <;> first | rfl | exact absurd rfl hg)
theorem Within.phys {x} (h : Within F R z s) (hf : F.testBit Field.phys.ctorIdx = true) :
    Within F R z { s with phys := x } :=
  .upd .phys h hf rfl (fun g hg => by cases g <;> first | rfl | exact absurd rfl hg)
theorem Within.pool {x} (h : Within F R z s) (hf : F.testBit Field.pool.ctorIdx = true) :
    Within F R z { s with pool := x } :=
  .upd .pool h hf rfl (fun g hg => by cases g <;> first | rfl | exact absurd rfl hg)
theorem Within.wgt {x} (h : Within F R z s) (hf : F.testBit Field.wgt.ctorIdx = true) :
    Within F R z { s with wgt := x } :=
  .upd .wgt h hf rfl (fun g hg => by cases g <;> first | rfl | exact absurd rfl hg)
theorem Within.qps {x} (h : Within F R z s) (hf : F.testBit Field.qps.ctorIdx = true) :
    Within F R z { s with qps := x } :=
  .upd .qps h hf rfl (fun g hg => by cases g <;> first | rfl | exact absurd rfl hg)
theorem Within.srv {x} (h : Within F R z s) (hf : F.testBit Field.srv.ctorIdx = true) :
    Within F R z { s with srv := x } :=
  .upd .srv h hf rfl (fun g hg => by cases g <;> first | rfl | exact absurd rfl hg)
theorem Within.shares {x} (h : Within F R z s) (hf : F.testBit Field.shares.ctorIdx = true) :
    Within F R z { s with shares := x } :=
  .upd .shares h hf rfl (fun g hg => by cases g <;> first | rfl | exact absurd rfl hg)
theorem Within.stages {x} (h : Within F R z s) (hf : F.testBit Field.stages.ctorIdx = true) :
    Within F R z { s with stages := x } :=
  .upd .stages h hf rfl (fun g hg => by cases g <;> first | rfl | exact absurd rfl hg)
theorem Within.plans {x} (h : Within F R z s) (hf : F.testBit Field.plans.ctorIdx = true) :
    Within F R z { s with plans := x } :=
  .upd .plans h hf rfl (fun g hg => by cases g <;> first | rfl | exact absurd rfl hg)
theorem Within.fab {x} (h : Within F R z s) (hf : F.testBit Field.fab.ctorIdx = true) :
    Within F R z { s with fab := x } :=
  .upd .fab h hf rfl (fun g hg => by cases g <;> first | rfl | exact absurd rfl hg)
theorem Within.hif {x} (h : Within F R z s) (hf : F.testBit Field.hif.ctorIdx = true) :
    Within F R z { s with hif := x } :=
  .upd .hif h hf rfl (fun g hg => by cases g <;> first | rfl | exact absurd rfl hg)
theorem Within.sec {x} (h : Within F R z s) (hf : F.testBit Field.sec.ctorIdx = true) :
    Within F R z { s with sec := x } :=
  .upd .sec h hf rfl (fun g hg => by cases g <;> first | rfl | exact absurd rfl hg)
theorem Within.hlt {x} (h : Within F R z s) (hf : F.testBit Field.hlt.ctorIdx = true) :
    Within F R z { s with hlt := x } :=
  .upd .hlt h hf rfl (fun g hg => by cases g <;> first | rfl | exact absurd rfl hg)
theorem Within.pwr {x} (h : Within F R z s) (hf : F.testBit Field.pwr.ctorIdx = true) :
    Within F R z { s with pwr := x } :=
  .upd .pwr h hf rfl (fun g hg => by cases g <;> first | rfl | exact absurd rfl hg)
theorem Within.evt {x} (h : Within F R z s) (hf : F.testBit Field.evt.ctorIdx = true) :
    Within F R z { s with evt := x } :=
  .upd .evt h hf rfl (fun g hg => by cases g <;> first | rfl | exact absurd rfl hg)
theorem Within.snaps {x} (h : Within F R z s) (hf : F.testBit Field.snaps.ctorIdx = true) :
    Within F R z { s with snaps := x } :=
  .upd .snaps h hf rfl (fun g hg => by cases g <;> first | rfl | exact absurd rfl hg)
theorem Within.saved {x} (h : Within F R z s) (hf : F.testBit Field.saved.ctorIdx = true) :
    Within F R z { s with saved := x } :=
  .upd .saved h hf rfl (fun g hg => by cases g <;> first | rfl | exact absurd rfl hg)
theorem Within.mem {x} (h : Within F R z s) (hf : F.testBit Field.mem.ctorIdx = true) :
    Within F R z { s with mem := x } :=
  .upd .mem h hf rfl (fun g hg => by cases g <;> first | rfl | exact absurd rfl hg)
theorem Within.rings {x} (h : Within F R z s) (hf : F.testBit Field.rings.ctorIdx = true) :
    Within F R z { s with rings := x } :=
  .upd .rings h hf rfl (fun g hg => by cases g <;> first | rfl | exact absurd rfl hg)

/-- The whole register file replaced. -/
theorem Within.regs {x} (h : Within F R z s) (hr : R &&& allRegs = allRegs) : Within F R z { s with regs := x } := by
  refine ⟨fun f hf => ?_, fun q hq u i => ?_⟩
  · have := h.1 f hf
    cases f <;> exact this
  · rw [allRegs_elem hr q] at hq; exact Bool.noConfusion hq

/-! ### Operations that answer a state and something besides, or perhaps a state; meanings -/

/-- The state of a pair. -/
def PWithin {β : Type} (F R : Nat) (z : State) (r : State × β) : Prop := Within F R z r.1
theorem PWithin.mk {β : Type} {x : β} (h : Within F R z s) : PWithin F R z (s, x) := h
theorem PWithin.fst {β : Type} {r : State × β} (h : PWithin F R z r) : Within F R z r.1 := h
theorem PWithin.fst' {β : Type} {r : State × β} {x : β} (h : PWithin F R z r) (e : r = (s, x)) : Within F R z s := by
  subst e; exact h
theorem PWithin.ite {β : Type} {c : Prop} [Decidable c] {r q : State × β} (hr : PWithin F R z r)
    (hq : PWithin F R z q) : PWithin F R z (if c then r else q) := by split <;> assumption

/-- A state, if there is one. -/
def OWithin (F R : Nat) (z : State) (r : Option State) : Prop := ∀ s, r = some s → Within F R z s
theorem OWithin.none : OWithin F R z .none := fun _ h => by cases h
theorem OWithin.some (h : Within F R z s) : OWithin F R z (.some s) := fun _ e => by cases e; exact h
theorem OWithin.some' {r : Option State} (h : OWithin F R z r) (e : r = .some s) : Within F R z s := h s e
theorem OWithin.getD {r : Option State} (h : OWithin F R z r) (k : Within F R z s) : Within F R z (r.getD s) := by
  cases r with
  | none => exact k
  | some t => exact h t rfl

/-- A served command. -/
def SWithin (F R : Nat) (z : State) (r : Served) : Prop :=
  match r with
  | .record s _ _ => Within F R z s
  | .quiet s => Within F R z s
theorem SWithin.record {c d} (h : Within F R z s) : SWithin F R z (.record s c d) := h
theorem SWithin.quiet (h : Within F R z s) : SWithin F R z (.quiet s) := h

/-- Whatever a meaning answers as the next state. -/
def Touched (F R : Nat) (s : State) (r : Res) : Prop := ∀ t, r = .next t → Within F R s t
theorem Touched.next (h : Within F R s t) : Touched F R s (.next t) := fun _ e => by cases e; exact h
theorem Touched.refused {r : Refusal} : Touched F R s (.refused r) := fun _ e => by cases e

/-- Every command may empty the list of what was emitted, and move time. -/
def enterSet : Nat := 2 ^ Field.out.ctorIdx ||| 2 ^ Field.now.ctorIdx

theorem State.enter_within {t : Stamp} (hF : F &&& enterSet = enterSet) (h : Within F R z s) :
    Within F R z (s.enter t) :=
  .chg enterSet h hF rfl (fun g hg => by cases g <;> first | rfl | exact absurd hg (by decide))

theorem Touched.answer {t : Stamp} {f : State → State} (hF : F &&& enterSet = enterSet)
    (hf : ∀ {u}, Within F R s u → Within F R s (f u)) : Touched F R s (Machine.answer t s f) :=
  .next (hf (State.enter_within hF (.refl s)))

/-- What a touched state may differ in, as lists. -/
theorem Touched.sameBut {fs : List Field} {rs : List Reg} {r : Res} (h : Touched F R s r) (hf : fieldSet fs &&& F = F)
    (hr : regSet rs &&& R = R) (e : r = .next t) : SameBut fs rs s t := (h t e).sameBut hf hr

/-- The same, the sets being those of the lists. -/
theorem Touched.lists {fs : List Field} {rs : List Reg} {r : Res} (e : r = .next t)
    (h : Touched (fieldSet fs) (regSet rs) s r) : SameBut fs rs s t := h.sameBut (Nat.and_self _) (Nat.and_self _) e

end Sys2Proof.Machine
end

