-- ==== Sys2Proof/Laws/WithinOps.lean ====
section
/-! SUPPORT. `Within` (Within.lean) through the shared operations, sync words, fabric and resilience: one lemma for each operation, in the order
of the model's files; `Touched` for each meaning. -/

namespace Sys2Proof.Machine

/-! Ops -/



theorem State.when_within {F R} {z s : State} {a1 a2} (_hF : F &&& 0 = 0) (_hR : R &&& 0 = 0) (h : Within F R z s) (hf2 : ∀ {t : State}, Within F R z t → Within F R z (a2 t)) : Within F R z (State.when s a1 a2) :=
  .ite (hf2 h) h

theorem State.each_within {F R} {z s : State} {α : Type} {l : List α} {f : α → State → State} (_hF : F &&& 0 = 0)
    (_hR : R &&& 0 = 0) (h : Within F R z s) (hf : ∀ {x} {t : State}, Within F R z t → Within F R z (f x t)) :
    Within F R z (s.each l f) := Within.foldl h hf

theorem State.setReg_within {F R} {z s : State} {r v u i} (_hF : F &&& 0 = 0) (_hR : R &&& 0 = 0)
    (hr : R.testBit (Reg.ctorIdx r) = true) (h : Within F R z s) : Within F R z (s.setReg r v u i) := h.setReg hr

theorem State.setNum_within {F R} {z s : State} {a1 a2 a3 a4} (hF : F &&& 0 = 0) (hR : R &&& 0 = 0) (hr1 : R.testBit (Reg.ctorIdx a1) = true) (h : Within F R z s) : Within F R z (State.setNum s a1 a2 a3 a4) :=
  State.setReg_within (sub hF rfl) (sub hR rfl) hr1 h

theorem State.setF_within {F R} {z s : State} {a1 a2 a3 a4 a5 a6} (hF : F &&& 0 = 0) (hR : R &&& 0 = 0) (hr1 : R.testBit (Reg.ctorIdx a1) = true) (h : Within F R z s) : Within F R z (State.setF s a1 a2 a3 a4 a5 a6) :=
  State.setReg_within (sub hF rfl) (sub hR rfl) hr1 h

theorem State.bump_within {F R} {z s : State} {a1 a2 a3 a4} (hF : F &&& 0 = 0) (hR : R &&& 0 = 0) (hr1 : R.testBit (Reg.ctorIdx a1) = true) (h : Within F R z s) : Within F R z (State.bump s a1 a2 a3 a4) :=
  State.setNum_within (sub hF rfl) (sub hR rfl) hr1 h

theorem State.bumpSat_within {F R} {z s : State} {a1 a2} (hF : F &&& 0 = 0) (hR : R &&& 0 = 0) (hr1 : R.testBit (Reg.ctorIdx a1) = true) (h : Within F R z s) : Within F R z (State.bumpSat s a1 a2) :=
  State.setNum_within (sub hF rfl) (sub hR rfl) hr1 h

theorem State.tick_within {F R} {z s : State}  (hF : F &&& 4 = 4) (_hR : R &&& 0 = 0) (h : Within F R z s) : Within F R z (State.tick s) :=
  .freeCtr h (elem hF rfl)

theorem State.emit_within {F R} {z s : State} {a1} (hF : F &&& 2 = 2) (_hR : R &&& 0 = 0) (h : Within F R z s) : Within F R z (State.emit s a1) :=
  .out h (elem hF rfl)

theorem State.setMsix_within {F R} {z s : State} {a1 a2 a3} (hF : F &&& 0x200000 = 0x200000) (_hR : R &&& 0 = 0) (h : Within F R z s) : Within F R z (State.setMsix s a1 a2 a3) :=
  .hif h (elem hF rfl)

theorem State.sendMsix_within {F R} {z s : State} {a1 a2} (hF : F &&& 0x200002 = 0x200002) (hR : R &&& 0 = 0) (h : Within F R z s) : Within F R z (State.sendMsix s a1 a2) := by
  unfold State.sendMsix
  extract_lets -merge -useContext -underBinder +onlyGivenNames v1
  clear_value v1
  exact .ite (State.setMsix_within (sub hF rfl) (sub hR rfl) h) (State.emit_within (sub hF rfl) (sub hR rfl) h)

theorem State.raise_within {F R} {z s : State} {a1 a2 a3 a4} (hF : F &&& 0x200002 = 0x200002) (hR : R &&& 0 = 0) (hr1 : R.testBit (Reg.ctorIdx a1) = true) (h : Within F R z s) : Within F R z (State.raise s a1 a2 a3 a4) := by
  unfold State.raise
  extract_lets -merge -useContext -underBinder +onlyGivenNames v1 v2
  clear_value v1 v2
  extract_lets -merge -useContext -underBinder +onlyGivenNames v3
  have h3 : Within F R z v3 := (by unfold v3; exact (State.setReg_within (sub hF rfl) (sub hR rfl) hr1 h))
  clear_value v3
  exact .ite h3 (State.sendMsix_within (sub hF rfl) (sub hR rfl) h3)

theorem State.event_within {F R} {z s : State} {a1 a2 a3 a4 a5 a6 a7} (hF : F &&& 0x2000000 = 0x2000000) (_hR : R &&& 0 = 0) (h : Within F R z s) : Within F R z (State.event s a1 a2 a3 a4 a5 a6 a7) := by
  unfold State.event
  extract_lets -merge -useContext -underBinder +onlyGivenNames v1
  clear_value v1
  exact .evt h (elem hF rfl)

theorem State.faultRec_within {F R} {z s : State} {a1 a2 a3 a4 a5 a6 a7 a8 a9 a10 a11 a12} (hF : F &&& 0x2200082 = 0x2200082) (hR : R &&& 0x800000000000000000000000000000000000000000000000000000000000000000000000000000000000000000000000000000 = 0x800000000000000000000000000000000000000000000000000000000000000000000000000000000000000000000000000000) (h : Within F R z s) : Within F R z (State.faultRec s a1 a2 a3 a4 a5 a6 a7 a8 a9 a10 a11 a12) := by
  unfold State.faultRec
  extract_lets -merge -useContext -underBinder +onlyGivenNames v1 v2 v3 v4 v5 v6
  clear_value v1 v2 v3 v4 v5 v6
  exact .ite (State.event_within (sub hF rfl) (sub hR rfl) (.mram h (elem hF rfl))) (State.event_within (sub hF rfl) (sub hR rfl) (State.raise_within (sub hF rfl) (sub hR rfl) (elem hR rfl) (.mram h (elem hF rfl))))

theorem State.shutRecord_within {F R} {z s : State} {a1} (hF : F &&& 128 = 128) (_hR : R &&& 0 = 0) (h : Within F R z s) : Within F R z (State.shutRecord s a1) := by
  unfold State.shutRecord
  extract_lets -merge -useContext -underBinder +onlyGivenNames v1 v2
  clear_value v1 v2
  exact .mram h (elem hF rfl)

theorem State.setDevState_within {F R} {z s : State} {a1} (hF : F &&& 0x2200002 = 0x2200002) (hR : R &&& 0x480000000000000000000000000000000000000000000000000000000000000000 = 0x480000000000000000000000000000000000000000000000000000000000000000) (h : Within F R z s) : Within F R z (State.setDevState s a1) :=
  .ite h (State.event_within (sub hF rfl) (sub hR rfl) (State.each_within (sub hF rfl) (sub hR rfl) (State.setNum_within (sub hF rfl) (sub hR rfl) (elem hR rfl) h) (fun h1 => (State.raise_within (sub hF rfl) (sub hR rfl) (elem hR rfl) h1))))

theorem State.updQp_within {F R} {z s : State} {a1 a2} (hF : F &&& 0x8000 = 0x8000) (_hR : R &&& 0 = 0) (h : Within F R z s) : Within F R z (State.updQp s a1 a2) :=
  .qps h (elem hF rfl)

theorem State.updSess_within {F R} {z s : State} {a1 a2} (hF : F &&& 0x8000 = 0x8000) (hR : R &&& 0 = 0) (h : Within F R z s) : Within F R z (State.updSess s a1 a2) :=
  State.updQp_within (sub hF rfl) (sub hR rfl) h

theorem State.setShare_within {F R} {z s : State} {a1 a2} (hF : F &&& 0x20000 = 0x20000) (_hR : R &&& 0 = 0) (h : Within F R z s) : Within F R z (State.setShare s a1 a2) :=
  .shares h (elem hF rfl)

theorem State.updPhys_within {F R} {z s : State} {a1 a2} (hF : F &&& 0x1000 = 0x1000) (_hR : R &&& 0 = 0) (h : Within F R z s) : Within F R z (State.updPhys s a1 a2) :=
  .phys h (elem hF rfl)

theorem State.bumpSrv_within {F R} {z s : State} {a1 a2 a3} (hF : F &&& 0 = 0) (hR : R &&& 0 = 0) (hr1 : R.testBit (Reg.ctorIdx a1) = true) (h : Within F R z s) : Within F R z (State.bumpSrv s a1 a2 a3) := by
  unfold State.bumpSrv
  extract_lets -merge -useContext -underBinder +onlyGivenNames v1
  have h1 : Within F R z v1 := (by unfold v1; exact (State.bump_within (sub hF rfl) (sub hR rfl) hr1 h))
  clear_value v1
  exact .ite h1 (State.bump_within (sub hF rfl) (sub hR rfl) hr1 h1)

theorem State.dropWaits_within {F R} {z s : State} {a1} (hF : F &&& 0x2400 = 0x2400) (_hR : R &&& 0 = 0) (h : Within F R z s) : Within F R z (State.dropWaits s a1) := by
  unfold State.dropWaits
  extract_lets -merge -useContext -underBinder +onlyGivenNames v1 v2 v3
  clear_value v1 v2 v3
  exact .chg 9216 h (sub hF rfl) rfl (fun g hg => by cases g <;> first | rfl | exact absurd hg (by decide))

theorem State.idleCtx_within {F R} {z s : State} {a1 a2 a3} (hF : F &&& 0x400 = 0x400) (hR : R &&& 0x41c00000000000000000000000000000000000000000000000000 = 0x41c00000000000000000000000000000000000000000000000000) (h : Within F R z s) : Within F R z (State.idleCtx s a1 a2 a3) := by
  unfold State.idleCtx
  extract_lets -merge -useContext -underBinder +onlyGivenNames v1
  clear_value v1
  extract_lets -merge -useContext -underBinder +onlyGivenNames v2
  have h2 : Within F R z v2 := (by unfold v2; exact (by split <;> [exact h; exact (State.bump_within (sub hF rfl) (sub hR rfl) (by unfold WaitReason.counter; split <;> exact (elem hR rfl)) h)]))
  clear_value v2
  exact .cores h2 (elem hF rfl)

theorem State.idleStep_within {F R} {z s : State} {a1} (hF : F &&& 0x2400 = 0x2400) (hR : R &&& 0x41c00000000000000000000000000000000000000000000000000 = 0x41c00000000000000000000000000000000000000000000000000) (h : Within F R z s) : Within F R z (State.idleStep s a1) := by
  unfold State.idleStep
  extract_lets -merge -useContext -underBinder +onlyGivenNames v1
  clear_value v1
  exact State.each_within (sub hF rfl) (sub hR rfl) (State.dropWaits_within (sub hF rfl) (sub hR rfl) h) (fun h2 => (State.idleCtx_within (sub hF rfl) (sub hR rfl) h2))

theorem State.voidAt_within {F R} {z s : State} {a1 a2} (hF : F &&& 0x80a400 = 0x80a400) (hR : R &&& 0x41c00000000000400000000000000000000000000000000000000 = 0x41c00000000000400000000000000000000000000000000000000) (h : Within F R z s) : Within F R z (State.voidAt s a1 a2) := by
  unfold State.voidAt
  split <;> [exact h; exact (.ite h (by extract_lets -merge -useContext -underBinder +onlyGivenNames v1; have h1 : Within F R z v1 := (by unfold v1; exact (State.when_within (sub hF rfl) (sub hR rfl) h (fun h2 => (State.idleStep_within (sub hF rfl) (sub hR rfl) h2)))); clear_value v1; exact (by extract_lets -merge -useContext -underBinder +onlyGivenNames v2; have h2 : Within F R z v2 := (by unfold v2; exact (State.bumpSrv_within (sub hF rfl) (sub hR rfl) (elem hR rfl) (State.updSess_within (sub hF rfl) (sub hR rfl) h1))); clear_value v2; exact (by extract_lets -merge -useContext -underBinder +onlyGivenNames v3; clear_value v3; exact (by extract_lets -merge -useContext -underBinder +onlyGivenNames v4; clear_value v4; exact (.hlt h2 (elem hF rfl)))))))]

theorem State.voidAll_within {F R} {z s : State} {a1} (hF : F &&& 0x80a400 = 0x80a400) (hR : R &&& 0x200000000000000000000000000000041c00000000000400000000000000000000000000000000000000 = 0x200000000000000000000000000000041c00000000000400000000000000000000000000000000000000) (h : Within F R z s) : Within F R z (State.voidAll s a1) := by
  unfold State.voidAll
  extract_lets -merge -useContext -underBinder +onlyGivenNames v1
  clear_value v1
  exact State.when_within (sub hF rfl) (sub hR rfl) (State.each_within (sub hF rfl) (sub hR rfl) h (fun h2 => (State.voidAt_within (sub hF rfl) (sub hR rfl) h2))) (fun h2 => (State.bump_within (sub hF rfl) (sub hR rfl) (elem hR rfl) h2))

theorem State.setRing_within {F R} {z s : State} {a1 a2} (hF : F &&& 0x20000000 = 0x20000000) (_hR : R &&& 0 = 0) (h : Within F R z s) : Within F R z (State.setRing s a1 a2) :=
  .rings h (elem hF rfl)

theorem State.ringWrite_within {F R} {z s : State} {a1 a2 a3} (hF : F &&& 0x20000000 = 0x20000000) (hR : R &&& 0 = 0) (h : Within F R z s) : Within F R z (State.ringWrite s a1 a2 a3) := by
  induction a2 generalizing s a1 a3 with
  | zero => exact h
  | succ n ih => exact ih (State.setRing_within hF hR h)

/-! Mem -/

theorem State.memWrite_within {F R} {z s : State} {a1 a2} (hF : F &&& 0x10000000 = 0x10000000) (_hR : R &&& 0 = 0) (h : Within F R z s) : Within F R z (State.memWrite s a1 a2) :=
  .mem h (elem hF rfl)

theorem State.clearParts_within {F R} {z s : State} {a1 a2 a3} (hF : F &&& 0x10000000 = 0x10000000) (_hR : R &&& 0 = 0) (h : Within F R z s) : Within F R z (State.clearParts s a1 a2 a3) :=
  .mem h (elem hF rfl)

theorem State.clearShards_within {F R} {z s : State} {a1} (hF : F &&& 0x10000000 = 0x10000000) (hR : R &&& 0 = 0) (h : Within F R z s) : Within F R z (State.clearShards s a1) :=
  State.clearParts_within (sub hF rfl) (sub hR rfl) h

theorem State.dropContent_within {F R} {z s : State} {a1} (hF : F &&& 0x10000000 = 0x10000000) (hR : R &&& 0 = 0) (h : Within F R z s) : Within F R z (State.dropContent s a1) :=
  State.clearShards_within (sub hF rfl) (sub hR rfl) (State.clearShards_within (sub hF rfl) (sub hR rfl) h)

theorem State.crossed_within {F R} {z s : State} {a1 a2 a3} (hF : F &&& 0 = 0) (hR : R &&& 0x380000000000000000000000000000000000000000000000000000000000000000000000000000000000000000000000000000000 = 0x380000000000000000000000000000000000000000000000000000000000000000000000000000000000000000000000000000000) (h : Within F R z s) : Within F R z (State.crossed s a1 a2 a3) := by
  unfold State.crossed
  split <;> [exact (by split <;> [exact (State.bump_within (sub hF rfl) (sub hR rfl) (elem hR rfl) h); exact h]); exact (by split <;> [exact (State.bump_within (sub hF rfl) (sub hR rfl) (elem hR rfl) h); exact h]); exact (by split <;> [exact (State.bump_within (sub hF rfl) (sub hR rfl) (elem hR rfl) h); exact h]); exact (by split <;> [exact (State.bump_within (sub hF rfl) (sub hR rfl) (elem hR rfl) h); exact h]); exact (by split <;> [exact (State.when_within (sub hF rfl) (sub hR rfl) h (fun h1 => (State.bump_within (sub hF rfl) (sub hR rfl) (elem hR rfl) h1))); exact h])]

theorem State.moves_within {F R} {z s : State} {a1 a2 a3} (hF : F &&& 0 = 0) (hR : R &&& 0x63f0000000000000000000000000000000000000000000000000000000000000000000000000000000000000000000000000000000 = 0x63f0000000000000000000000000000000000000000000000000000000000000000000000000000000000000000000000000000000) (h : Within F R z s) : Within F R z (State.moves s a1 a2 a3) := by
  unfold State.moves
  extract_lets f v
  have hf : ∀ {p r} {t : State}, R.testBit r.ctorIdx = true → Within F R z t → Within F R z (f p r t) := by
    intro p r t hr ht
    unfold f
    split
    · exact State.bump_within (sub hF rfl) (sub hR rfl) (elem hR rfl) ht
    · exact State.bump_within (sub hF rfl) (sub hR rfl) hr ht
    · exact ht
  have hv : Within F R z v := State.crossed_within (sub hF rfl) (sub hR rfl) (hf (elem hR rfl) (hf (elem hR rfl) h))
  clear_value v
  have hb : ∀ {t : State} {r n}, R.testBit (Reg.ctorIdx r) = true → Within F R z t → Within F R z (t.bump r n) :=
    fun hr ht => State.bump_within (sub hF rfl) (sub hR rfl) hr ht
  split
  · exact .ite hv (State.when_within (sub hF rfl) (sub hR rfl) (hb (elem hR rfl) hv) (fun k => hb (elem hR rfl) k))
  · exact hb (elem hR rfl) hv

theorem State.storeRow_within {F R} {z s : State} {a1 a2 a3 a4} (hF : F &&& 0x10000000 = 0x10000000) (hR : R &&& 0x63f0000000000000000000000000000000000000000000000000000000000000000000000000000000000000000000000000000000 = 0x63f0000000000000000000000000000000000000000000000000000000000000000000000000000000000000000000000000000000) (h : Within F R z s) : Within F R z (State.storeRow s a1 a2 a3 a4) := by
  unfold State.storeRow
  extract_lets -merge -useContext -underBinder +onlyGivenNames v1 v2
  clear_value v1 v2
  exact State.moves_within (sub hF rfl) (sub hR rfl) (State.memWrite_within (sub hF rfl) (sub hR rfl) h)

theorem State.addWords_within {F R} {z s : State} {a1 a2 a3} (hF : F &&& 0x10000000 = 0x10000000) (hR : R &&& 0 = 0) (h : Within F R z s) : Within F R z (State.addWords s a1 a2 a3) := by
  unfold State.addWords
  extract_lets -merge -useContext -underBinder +onlyGivenNames v1 v2
  clear_value v1 v2
  exact State.memWrite_within (sub hF rfl) (sub hR rfl) h

theorem State.openBuf_within {F R} {z s : State} {a1 a2} (hF : F &&& 0x10100000 = 0x10100000) (_hR : R &&& 0 = 0) (h : Within F R z s) : Within F R z (State.openBuf s a1 a2) := by
  unfold State.openBuf
  exact .ite h (by extract_lets -merge -useContext -underBinder +onlyGivenNames v1; clear_value v1; exact (.chg 269484032 h (sub hF rfl) rfl (fun g hg => by cases g <;> first | rfl | exact absurd hg (by decide))))

theorem State.contributed_within {F R} {z s : State} {a1} (hF : F &&& 0x100000 = 0x100000) (_hR : R &&& 0 = 0) (h : Within F R z s) : Within F R z (State.contributed s a1) := by
  unfold State.contributed
  extract_lets -merge -useContext -underBinder +onlyGivenNames v1
  clear_value v1
  exact .fab h (elem hF rfl)

theorem State.addRow_within {F R} {z s : State} {a1 a2 a3 a4 a5} (hF : F &&& 0x10100000 = 0x10100000) (hR : R &&& 0x63f0000000000000000000000000000000000000000000000000000000000000000000000000000000000000000000000000000000 = 0x63f0000000000000000000000000000000000000000000000000000000000000000000000000000000000000000000000000000000) (h : Within F R z s) : Within F R z (State.addRow s a1 a2 a3 a4 a5) := by
  unfold State.addRow
  extract_lets -merge -useContext -underBinder +onlyGivenNames v1
  have h1 : Within F R z v1 := (by unfold v1; exact (State.openBuf_within (sub hF rfl) (sub hR rfl) h))
  clear_value v1
  extract_lets -merge -useContext -underBinder +onlyGivenNames v2 v3
  clear_value v2 v3
  exact State.moves_within (sub hF rfl) (sub hR rfl) (State.contributed_within (sub hF rfl) (sub hR rfl) (State.addWords_within (sub hF rfl) (sub hR rfl) h1))

/-! Pages -/

theorem State.putGroup_within {F R} {z s : State} {a1 a2 a3 a4 a5 a6 a7} (hF : F &&& 0x10000000 = 0x10000000) (hR : R &&& 0 = 0) (h : Within F R z s) : Within F R z (State.putGroup s a1 a2 a3 a4 a5 a6 a7) := by
  unfold State.putGroup
  split <;> [exact h; exact (by extract_lets -merge -useContext -underBinder +onlyGivenNames v1; clear_value v1; exact (State.memWrite_within (sub hF rfl) (sub hR rfl) (State.memWrite_within (sub hF rfl) (sub hR rfl) h)))]

theorem State.zeroBlock_within {F R} {z s : State} {a1 a2 a3 a4 a5 a6 a7} (hF : F &&& 0x10000000 = 0x10000000) (hR : R &&& 0 = 0) (h : Within F R z s) : Within F R z (State.zeroBlock s a1 a2 a3 a4 a5 a6 a7) := by
  unfold State.zeroBlock
  split <;> [exact h; exact (by extract_lets -merge -useContext -underBinder +onlyGivenNames v1; clear_value v1; exact (State.memWrite_within (sub hF rfl) (sub hR rfl) h))]

/-! Sync -/

theorem State.updCore_within {F R} {z s : State} {a1 a2} (hF : F &&& 0x400 = 0x400) (_hR : R &&& 0 = 0) (h : Within F R z s) : Within F R z (State.updCore s a1 a2) :=
  .cores h (elem hF rfl)

theorem State.updCtx_within {F R} {z s : State} {a1 a2 a3} (hF : F &&& 0x400 = 0x400) (hR : R &&& 0 = 0) (h : Within F R z s) : Within F R z (State.updCtx s a1 a2 a3) :=
  State.updCore_within (sub hF rfl) (sub hR rfl) h

theorem State.updHoist_within {F R} {z s : State} {a1 a2 a3} (hF : F &&& 0x400 = 0x400) (hR : R &&& 0 = 0) (h : Within F R z s) : Within F R z (State.updHoist s a1 a2 a3) :=
  State.updCore_within (sub hF rfl) (sub hR rfl) h

theorem State.dispatch_within {F R} {z s : State} {a1} (hF : F &&& 0x400 = 0x400) (hR : R &&& 0x200000000000000000000000000000000000000000000000000 = 0x200000000000000000000000000000000000000000000000000) (h : Within F R z s) : Within F R z (State.dispatch s a1) := by
  unfold State.dispatch
  exact .ite h (by split <;> [exact h; exact (.ite (State.bump_within (sub hF rfl) (sub hR rfl) (elem hR rfl) (State.updCore_within (sub hF rfl) (sub hR rfl) (State.updCtx_within (sub hF rfl) (sub hR rfl) h))) h)])

theorem State.deschedule_within {F R} {z s : State} {a1 a2 a3} (hF : F &&& 0x400 = 0x400) (hR : R &&& 0x200000000000000000000000000000000000000000000000000 = 0x200000000000000000000000000000000000000000000000000) (h : Within F R z s) : Within F R z (State.deschedule s a1 a2 a3) :=
  State.dispatch_within (sub hF rfl) (sub hR rfl) (State.updCtx_within (sub hF rfl) (sub hR rfl) h)

theorem State.wakeCtx_within {F R} {z s : State} {a1 a2} (hF : F &&& 0x400 = 0x400) (hR : R &&& 0x41e00000000000000000000000000000000000000000000000000 = 0x41e00000000000000000000000000000000000000000000000000) (h : Within F R z s) : Within F R z (State.wakeCtx s a1 a2) := by
  unfold State.wakeCtx
  extract_lets -merge -useContext -underBinder +onlyGivenNames v1
  clear_value v1
  split <;> [exact h; exact (State.dispatch_within (sub hF rfl) (sub hR rfl) (State.bump_within (sub hF rfl) (sub hR rfl) (by unfold WaitReason.counter; split <;> exact (elem hR rfl)) (State.updCtx_within (sub hF rfl) (sub hR rfl) h)))]

theorem State.ctx3_within {F R} {z s : State} {a1} (hF : F &&& 0x400 = 0x400) (hR : R &&& 0x200000000000000000000000000000000000000000000000000 = 0x200000000000000000000000000000000000000000000000000) (h : Within F R z s) : Within F R z (State.ctx3 s a1) := by
  unfold State.ctx3
  extract_lets -merge -useContext -underBinder +onlyGivenNames v1
  clear_value v1
  exact .ite (.ite (State.dispatch_within (sub hF rfl) (sub hR rfl) (State.updCtx_within (sub hF rfl) (sub hR rfl) h)) h) (.ite h (State.dispatch_within (sub hF rfl) (sub hR rfl) (State.updCtx_within (sub hF rfl) (sub hR rfl) h)))

theorem State.testCtx_within {F R} {z s : State} {a1 a2} (hF : F &&& 0x400 = 0x400) (hR : R &&& 0x200000000000000000000000000000000000000000000000000 = 0x200000000000000000000000000000000000000000000000000) (h : Within F R z s) : Within F R z (State.testCtx s a1 a2) :=
  State.each_within (sub hF rfl) (sub hR rfl) h (fun h1 => (State.ctx3_within (sub hF rfl) (sub hR rfl) h1))

theorem State.vectorFree_within {F R} {z s : State} {a1} (hF : F &&& 0x400 = 0x400) (hR : R &&& 0x41e00000000000000000000000000000000000000000000000000 = 0x41e00000000000000000000000000000000000000000000000000) (h : Within F R z s) : Within F R z (State.vectorFree s a1) :=
  State.each_within (sub hF rfl) (sub hR rfl) h (fun h1 => (State.wakeCtx_within (sub hF rfl) (sub hR rfl) h1))

theorem State.setWord_within {F R} {z s : State} {a1 a2} (hF : F &&& 0x2400 = 0x2400) (hR : R &&& 0 = 0) (h : Within F R z s) : Within F R z (State.setWord s a1 a2) := by
  unfold State.setWord
  split <;> [exact (State.updCore_within (sub hF rfl) (sub hR rfl) h); exact (.pool h (elem hF rfl))]

theorem State.wake_within {F R} {z s : State} {a1} (hF : F &&& 0x400 = 0x400) (hR : R &&& 0x41e00000000000000000000000000000000000000000000000000 = 0x41e00000000000000000000000000000000000000000000000000) (h : Within F R z s) : Within F R z (State.wake s a1) := by
  unfold State.wake
  split <;> [exact (State.wakeCtx_within (sub hF rfl) (sub hR rfl) h); exact (State.updHoist_within (sub hF rfl) (sub hR rfl) h)]

theorem State.writeWord_within {F R} {z s : State} {a1 a2 a3 a4} (hF : F &&& 0x2400 = 0x2400) (hR : R &&& 0x41e00000000000000000000000000000000000000000000000000 = 0x41e00000000000000000000000000000000000000000000000000) (h : Within F R z s) : Within F R z (State.writeWord s a1 a2 a3 a4) := by
  unfold State.writeWord
  extract_lets -merge -useContext -underBinder +onlyGivenNames v1 v2 v3
  clear_value v1 v2 v3
  exact State.each_within (sub hF rfl) (sub hR rfl) (State.setWord_within (sub hF rfl) (sub hR rfl) h) (fun h4 => (State.wake_within (sub hF rfl) (sub hR rfl) h4))

theorem State.countPool_within {F R} {z s : State} {a1} (hF : F &&& 0 = 0) (hR : R &&& 0x10000000000000000000000000000000000000000000000000000000 = 0x10000000000000000000000000000000000000000000000000000000) (h : Within F R z s) : Within F R z (State.countPool s a1) := by
  unfold State.countPool
  split <;> [exact (State.bump_within (sub hF rfl) (sub hR rfl) (elem hR rfl) h); exact h]

theorem State.syncStore_within {F R} {z s : State} {a1 a2 a3} (hF : F &&& 0x2400 = 0x2400) (hR : R &&& 0x10041e00000000000000000000000000000000000000000000000000 = 0x10041e00000000000000000000000000000000000000000000000000) (h : Within F R z s) : Within F R z (State.syncStore s a1 a2 a3) :=
  State.writeWord_within (sub hF rfl) (sub hR rfl) (State.countPool_within (sub hF rfl) (sub hR rfl) h)

theorem State.syncAdd_within {F R} {z s : State} {a1 a2 a3} (hF : F &&& 0x2400 = 0x2400) (hR : R &&& 0x10041e00000000000000000000000000000000000000000000000000 = 0x10041e00000000000000000000000000000000000000000000000000) (h : Within F R z s) : Within F R z (State.syncAdd s a1 a2 a3) :=
  State.writeWord_within (sub hF rfl) (sub hR rfl) (State.countPool_within (sub hF rfl) (sub hR rfl) h)

theorem State.syncCas_within {F R} {z s : State} {a1 a2 a3 a4} (hF : F &&& 0x2400 = 0x2400) (hR : R &&& 0x10041e00000000000000000000000000000000000000000000000000 = 0x10041e00000000000000000000000000000000000000000000000000) (h : Within F R z s) : Within F R z (State.syncCas s a1 a2 a3 a4) :=
  .ite (State.writeWord_within (sub hF rfl) (sub hR rfl) (State.countPool_within (sub hF rfl) (sub hR rfl) h)) (State.countPool_within (sub hF rfl) (sub hR rfl) h)

theorem State.returns_within {F R} {z s : State} {a1 a2 a3} (hF : F &&& 0x402 = 0x402) (hR : R &&& 0 = 0) (h : Within F R z s) : Within F R z (State.returns s a1 a2 a3) :=
  State.emit_within (sub hF rfl) (sub hR rfl) (State.updCtx_within (sub hF rfl) (sub hR rfl) h)

theorem State.syncWait_within {F R} {z s : State} {a1 a2 a3 a4} (hF : F &&& 0x2400 = 0x2400) (hR : R &&& 0x200000000000000000000000000000000000000000000000000 = 0x200000000000000000000000000000000000000000000000000) (h : Within F R z s) : Within F R z (State.syncWait s a1 a2 a3 a4) := by
  unfold State.syncWait
  extract_lets -merge -useContext -underBinder +onlyGivenNames v1
  clear_value v1
  exact State.deschedule_within (sub hF rfl) (sub hR rfl) (State.updCtx_within (sub hF rfl) (sub hR rfl) (State.setWord_within (sub hF rfl) (sub hR rfl) h))

theorem execSyncWait_within {F R} {s : State} {a0 a1 a2 a3 a4 a5} (hF : F &&& 0x2412 = 0x2412) (hR : R &&& 0x200000000000000000000000000000000000000000000000000 = 0x200000000000000000000000000000000000000000000000000) : Touched F R s (execSyncWait a0 a1 a2 a3 a4 a5 s) :=
  .answer (sub hF rfl) (fun h1 => (State.when_within (sub hF rfl) (sub hR rfl) h1 (fun h2 => (.ite h2 (State.syncWait_within (sub hF rfl) (sub hR rfl) h2)))))

theorem State.fence_within {F R} {z s : State} {a1 a2 a3} (hF : F &&& 0x400 = 0x400) (hR : R &&& 0x200000000000000000000000000000000000000000000000000 = 0x200000000000000000000000000000000000000000000000000) (h : Within F R z s) : Within F R z (State.fence s a1 a2 a3) :=
  State.deschedule_within (sub hF rfl) (sub hR rfl) (State.updCtx_within (sub hF rfl) (sub hR rfl) h)

theorem execFenceLocal_within {F R} {s : State} {a0 a1 a2} (hF : F &&& 0x412 = 0x412) (hR : R &&& 0x200000000000000000000000000000000000000000000000000 = 0x200000000000000000000000000000000000000000000000000) : Touched F R s (execFenceLocal a0 a1 a2 s) :=
  .answer (sub hF rfl) (fun h1 => (State.when_within (sub hF rfl) (sub hR rfl) h1 (fun h2 => (State.fence_within (sub hF rfl) (sub hR rfl) h2))))

theorem execFenceDevice_within {F R} {s : State} {a0 a1 a2} (hF : F &&& 0x412 = 0x412) (hR : R &&& 0x200000000000000000000000000000000000000000000000000 = 0x200000000000000000000000000000000000000000000000000) : Touched F R s (execFenceDevice a0 a1 a2 s) :=
  .answer (sub hF rfl) (fun h1 => (State.when_within (sub hF rfl) (sub hR rfl) h1 (fun h2 => (State.fence_within (sub hF rfl) (sub hR rfl) h2))))

theorem execFenceFabric_within {F R} {s : State} {a0 a1 a2} (hF : F &&& 0x412 = 0x412) (hR : R &&& 0x200000000000000000000000000000000000000000000000000 = 0x200000000000000000000000000000000000000000000000000) : Touched F R s (execFenceFabric a0 a1 a2 s) :=
  .answer (sub hF rfl) (fun h1 => (State.when_within (sub hF rfl) (sub hR rfl) h1 (fun h2 => (State.fence_within (sub hF rfl) (sub hR rfl) h2))))

theorem execFenceComplete_within {F R} {s : State} {a0 a1 a2} (hF : F &&& 0x412 = 0x412) (hR : R &&& 0x61e00000000000000000000000000000000000000000000000000 = 0x61e00000000000000000000000000000000000000000000000000) : Touched F R s (execFenceComplete a0 a1 a2 s) := by
  unfold execFenceComplete
  exact .answer (sub hF rfl) (fun h1 => (by extract_lets -merge -useContext -underBinder +onlyGivenNames v2; clear_value v2; exact (State.when_within (sub hF rfl) (sub hR rfl) h1 (fun h3 => (State.wakeCtx_within (sub hF rfl) (sub hR rfl) (State.bump_within (sub hF rfl) (sub hR rfl) (elem hR rfl) h3))))))

theorem State.startHead_within {F R} {z s : State} {a1 a2} (hF : F &&& 0x400 = 0x400) (hR : R &&& 0 = 0) (h : Within F R z s) : Within F R z (State.startHead s a1 a2) := by
  unfold State.startHead
  split <;> [exact h; exact (.ite h (State.updHoist_within (sub hF rfl) (sub hR rfl) h))]

theorem State.queueTransfer_within {F R} {z s : State} {a1 a2 a3} (hF : F &&& 0x2400 = 0x2400) (hR : R &&& 0 = 0) (h : Within F R z s) : Within F R z (State.queueTransfer s a1 a2 a3) := by
  unfold State.queueTransfer
  extract_lets -merge -useContext -underBinder +onlyGivenNames v1
  have h1 : Within F R z v1 := (by unfold v1; exact (State.updHoist_within (sub hF rfl) (sub hR rfl) h))
  clear_value v1
  split <;> [exact h1; exact (by extract_lets -merge -useContext -underBinder +onlyGivenNames v2; clear_value v2; exact (State.setWord_within (sub hF rfl) (sub hR rfl) h1))]

theorem execHoistTransferStart_within {F R} {s : State} {a0 a1 a2 a3 a4 a5} (hF : F &&& 0x2412 = 0x2412) (hR : R &&& 0 = 0) : Touched F R s (execHoistTransferStart a0 a1 a2 a3 a4 a5 s) :=
  .answer (sub hF rfl) (fun h1 => (State.when_within (sub hF rfl) (sub hR rfl) h1 (fun h2 => (.ite (State.startHead_within (sub hF rfl) (sub hR rfl) (State.queueTransfer_within (sub hF rfl) (sub hR rfl) h2)) (State.startHead_within (sub hF rfl) (sub hR rfl) h2)))))

theorem State.moved1_within {F R} {z s : State} {a1 a2 a3} (hF : F &&& 0x10000204 = 0x10000204) (hR : R &&& 0x63f0000000000000000000000000000000000000000000000000000000000000000000000000000000000000000000000000000000 = 0x63f0000000000000000000000000000000000000000000000000000000000000000000000000000000000000000000000000000000) (h : Within F R z s) : Within F R z (State.moved1 s a1 a2 a3) := by
  unfold State.moved1
  extract_lets -merge -useContext -underBinder +onlyGivenNames v1
  clear_value v1
  exact .ite (State.moves_within (sub hF rfl) (sub hR rfl) (State.tick_within (sub hF rfl) (sub hR rfl) h)) (by extract_lets -merge -useContext -underBinder +onlyGivenNames v2; have h2 : Within F R z v2 := (by unfold v2; exact (State.memWrite_within (sub hF rfl) (sub hR rfl) (State.moves_within (sub hF rfl) (sub hR rfl) (State.tick_within (sub hF rfl) (sub hR rfl) h)))); clear_value v2; exact (by split <;> [exact h2; exact (.pans h2 (elem hF rfl))]))

theorem execHoistTransferComplete_within {F R} {s : State} {a0 a1 a2 a3 a4} (hF : F &&& 0x10a0a616 = 0x10a0a616) (hR : R &&& 0x63f000000000000000000028000040000000000000000000000004de00000000000400000000000000000000000000000000000000 = 0x63f000000000000000000028000040000000000000000000000004de00000000000400000000000000000000000000000000000000) : Touched F R s (execHoistTransferComplete a0 a1 a2 a3 a4 s) := by
  unfold execHoistTransferComplete
  exact .answer (sub hF rfl) (fun h1 => (by split <;> [exact h1; exact (by extract_lets -merge -useContext -underBinder +onlyGivenNames v2; have h2 : Within F R s v2 := (by unfold v2; exact (State.moved1_within (sub hF rfl) (sub hR rfl) (State.bump_within (sub hF rfl) (sub hR rfl) (by unfold hoistBytes; split <;> exact (elem hR rfl)) (State.updHoist_within (sub hF rfl) (sub hR rfl) h1)))); clear_value v2; exact (by extract_lets -merge -useContext -underBinder +onlyGivenNames v3; have h3 : Within F R s v3 := (by unfold v3; exact (by split <;> [exact h2; exact (.pans h2 (elem hF rfl))])); clear_value v3; exact (by extract_lets -merge -useContext -underBinder +onlyGivenNames v4; have h4 : Within F R s v4 := (by unfold v4; exact (State.when_within (sub hF rfl) (sub hR rfl) h3 (fun h5 => (State.raise_within (sub hF rfl) (sub hR rfl) (elem hR rfl) (State.bump_within (sub hF rfl) (sub hR rfl) (elem hR rfl) (State.voidAll_within (sub hF rfl) (sub hR rfl) h5)))))); clear_value v4; exact (by extract_lets -merge -useContext -underBinder +onlyGivenNames v5; have h5 : Within F R s v5 := (by unfold v5; exact (State.when_within (sub hF rfl) (sub hR rfl) h4 (fun h6 => (State.wakeCtx_within (sub hF rfl) (sub hR rfl) h6)))); clear_value v5; exact (State.startHead_within (sub hF rfl) (sub hR rfl) h5)))))]))

theorem execPoolHostStore_within {F R} {s : State} {a0 a1 a2 a3} (hF : F &&& 0x2412 = 0x2412) (hR : R &&& 0x10041e00000000000000000000000000000000000000000000000000 = 0x10041e00000000000000000000000000000000000000000000000000) : Touched F R s (execPoolHostStore a0 a1 a2 a3 s) := by
  unfold execPoolHostStore
  exact .answer (sub hF rfl) (fun h1 => (State.when_within (sub hF rfl) (sub hR rfl) h1 (fun h2 => (by split <;> [exact h2; exact (State.syncStore_within (sub hF rfl) (sub hR rfl) h2)]))))

theorem execPoolHostAdd_within {F R} {s : State} {a0 a1 a2 a3} (hF : F &&& 0x2412 = 0x2412) (hR : R &&& 0x10041e00000000000000000000000000000000000000000000000000 = 0x10041e00000000000000000000000000000000000000000000000000) : Touched F R s (execPoolHostAdd a0 a1 a2 a3 s) := by
  unfold execPoolHostAdd
  exact .answer (sub hF rfl) (fun h1 => (State.when_within (sub hF rfl) (sub hR rfl) h1 (fun h2 => (by split <;> [exact h2; exact (State.syncAdd_within (sub hF rfl) (sub hR rfl) h2)]))))

theorem State.shareApply_within {F R} {z s : State}  (hF : F &&& 0x220002 = 0x220002) (hR : R &&& 0x5000000000000000000000000000000000000000000000000000000 = 0x5000000000000000000000000000000000000000000000000000000) (h : Within F R z s) : Within F R z (State.shareApply s) := by
  unfold State.shareApply
  extract_lets -merge -useContext -underBinder +onlyGivenNames v1 v2 v3
  clear_value v1 v2 v3
  extract_lets -merge -useContext -underBinder +onlyGivenNames v4
  have h4 : Within F R z v4 := (by unfold v4; exact (State.setF_within (sub hF rfl) (sub hR rfl) (elem hR rfl) h))
  clear_value v4
  exact .ite (State.raise_within (sub hF rfl) (sub hR rfl) (elem hR rfl) h4) (State.raise_within (sub hF rfl) (sub hR rfl) (elem hR rfl) (State.setShare_within (sub hF rfl) (sub hR rfl) h4))

/-! PowerOps -/

theorem State.setPwrState_within {F R} {z s : State} {a1} (hF : F &&& 0x2000000 = 0x2000000) (hR : R &&& 0x800000000000000000000000000000000000000000000000000000000000000000000000000000000000000000 = 0x800000000000000000000000000000000000000000000000000000000000000000000000000000000000000000) (h : Within F R z s) : Within F R z (State.setPwrState s a1) :=
  State.event_within (sub hF rfl) (sub hR rfl) (State.setF_within (sub hF rfl) (sub hR rfl) (elem hR rfl) h)

theorem State.exitPower_within {F R} {z s : State}  (hF : F &&& 0x3000000 = 0x3000000) (hR : R &&& 0x8800000000000000000000000000000000000000000000000000000000000000000000000000000000000000000 = 0x8800000000000000000000000000000000000000000000000000000000000000000000000000000000000000000) (h : Within F R z s) : Within F R z (State.exitPower s) := by
  unfold State.exitPower
  exact .ite (by extract_lets -merge -useContext -underBinder +onlyGivenNames v1; clear_value v1; exact (by extract_lets -merge -useContext -underBinder +onlyGivenNames v2; have h2 : Within F R z v2 := (by unfold v2; exact (State.setNum_within (sub hF rfl) (sub hR rfl) (elem hR rfl) (State.setPwrState_within (sub hF rfl) (sub hR rfl) h))); clear_value v2; exact (.pwr h2 (elem hF rfl)))) h

theorem State.volatileLost_within {F R} {z s : State}  (hF : F &&& 0x3fffff40 = 0x3fffff40) (hR : R &&& 0xffffffffffffffffffffffffffff807fffffffffffffffffffffffffffffffffffffffffffffffffffffffffffffffffffffffffffffffffffffffffffffffff = 0xffffffffffffffffffffffffffff807fffffffffffffffffffffffffffffffffffffffffffffffffffffffffffffffffffffffffffffffffffffffffffffffff) (h : Within F R z s) : Within F R z (State.volatileLost s) := by
  refine ⟨fun f hf => ?_, fun q hq u i => ?_⟩
  · have h1 := h.1 f hf
    cases f <;> first | exact h1 | (rw [elem hF rfl] at hf; exact Bool.noConfusion hf)
  · refine Eq.trans ?_ (h.2 q hq u i)
    have hk := Reg.key_block u q i
    have ha : (RegBlock.aon.regs.map Reg.ctorIdx).contains q.ctorIdx = true := by
      cases q <;> first | rfl | (rw [elem hR rfl] at hq; exact Bool.noConfusion hq)
    exact Cells.get_filter _ (fun k => (RegBlock.aon.regs.map Reg.ctorIdx).contains (k / 1024 % 512)) _ _
      (by simp only [hk]; exact ha)

theorem State.powerDown_within {F R} {z s : State} {a1} (hF : F &&& 0x3fffff60 = 0x3fffff60) (hR : R &&& 0xffffffffffffffffffffffffffff807fffffffffffffffffffffffffffffffffffffffffffffffffffffffffffffffffffffffffffffffffffffffffffffffff = 0xffffffffffffffffffffffffffff807fffffffffffffffffffffffffffffffffffffffffffffffffffffffffffffffffffffffffffffffffffffffffffffffff) (h : Within F R z s) : Within F R z (State.powerDown s a1) := by
  unfold State.powerDown
  extract_lets -merge -useContext -underBinder +onlyGivenNames u1_0 v1 v2
  clear_value v1 v2
  extract_lets -merge -useContext -underBinder +onlyGivenNames v3
  have h3 : Within F R z v3 := (by unfold v3; exact (State.volatileLost_within (sub hF rfl) (sub hR rfl) h))
  clear_value v3
  exact .aon h3 (elem hF rfl)

theorem State.stopOff_within {F R} {z s : State}  (hF : F &&& 0x3fffff60 = 0x3fffff60) (hR : R &&& 0xffffffffffffffffffffffffffff80ffffffffffffffffffffffffffffffffffffffffffffffffffffffffffffffffffffffffffffffffffffffffffffffffff = 0xffffffffffffffffffffffffffff80ffffffffffffffffffffffffffffffffffffffffffffffffffffffffffffffffffffffffffffffffffffffffffffffffff) (h : Within F R z s) : Within F R z (State.stopOff s) :=
  State.powerDown_within (sub hF rfl) (sub hR rfl) (State.setF_within (sub hF rfl) (sub hR rfl) (elem hR rfl) h)

/-! FabOps -/

theorem State.setLink_within {F R} {z s : State} {a1 a2} (hF : F &&& 0x100000 = 0x100000) (_hR : R &&& 0 = 0) (h : Within F R z s) : Within F R z (State.setLink s a1 a2) :=
  .fab h (elem hF rfl)

theorem State.updLink_within {F R} {z s : State} {a1 a2} (hF : F &&& 0x100000 = 0x100000) (hR : R &&& 0 = 0) (h : Within F R z s) : Within F R z (State.updLink s a1 a2) :=
  State.setLink_within (sub hF rfl) (sub hR rfl) h

theorem State.bumpLink_within {F R} {z s : State} {a1 a2 a3} (hF : F &&& 0 = 0) (hR : R &&& 0 = 0) (hr1 : R.testBit (Reg.ctorIdx a1) = true) (h : Within F R z s) : Within F R z (State.bumpLink s a1 a2 a3) :=
  State.bump_within (sub hF rfl) (sub hR rfl) hr1 h

theorem State.fabStatus_within {F R} {z s : State}  (hF : F &&& 0x200002 = 0x200002) (hR : R &&& 0x20200000000000000000000000000000000000000000000000000000002 = 0x20200000000000000000000000000000000000000000000000000000002) (h : Within F R z s) : Within F R z (State.fabStatus s) := by
  unfold State.fabStatus
  extract_lets -merge -useContext -underBinder +onlyGivenNames v1 v2 v3 v4 v5
  clear_value v1 v2 v3 v4 v5
  extract_lets -merge -useContext -underBinder +onlyGivenNames v6
  have h6 : Within F R z v6 := (by unfold v6; exact (State.setF_within (sub hF rfl) (sub hR rfl) (elem hR rfl) (State.setNum_within (sub hF rfl) (sub hR rfl) (elem hR rfl) h)))
  clear_value v6
  exact .ite h6 (State.raise_within (sub hF rfl) (sub hR rfl) (elem hR rfl) h6)

theorem State.transmit_within {F R} {z s : State} {a1 a2} (hF : F &&& 0x100002 = 0x100002) (hR : R &&& 0x8000000000000000000000000000000000000000000000000000000000000000000000000000000000000000000000000000000000 = 0x8000000000000000000000000000000000000000000000000000000000000000000000000000000000000000000000000000000000) (h : Within F R z s) : Within F R z (State.transmit s a1 a2) := by
  unfold State.transmit
  extract_lets -merge -useContext -underBinder +onlyGivenNames v1 v2
  clear_value v1 v2
  exact State.emit_within (sub hF rfl) (sub hR rfl) (State.bump_within (sub hF rfl) (sub hR rfl) (elem hR rfl) (State.setLink_within (sub hF rfl) (sub hR rfl) h))

theorem State.sendOn_within {F R} {z s : State} {a1 a2} (hF : F &&& 0x100002 = 0x100002) (hR : R &&& 0x8000000000000000000000000000000000000000000000000000000000000000000000000000000000000000000000000000000000 = 0x8000000000000000000000000000000000000000000000000000000000000000000000000000000000000000000000000000000000) (h : Within F R z s) : Within F R z (State.sendOn s a1 a2) :=
  .ite (State.transmit_within (sub hF rfl) (sub hR rfl) h) (State.updLink_within (sub hF rfl) (sub hR rfl) h)

theorem State.sendList_within {F R} {z s : State} {a1 a2 a3} (hF : F &&& 0x100002 = 0x100002) (hR : R &&& 0x8000000000000000000000000000000000000000000000000000000000000000000000000000000000000000000000000000000000 = 0x8000000000000000000000000000000000000000000000000000000000000000000000000000000000000000000000000000000000) (h : Within F R z s) : Within F R z (State.sendList s a1 a2 a3) := by
  induction a2 generalizing s a3 with
  | nil => exact State.updLink_within (sub hF rfl) (sub hR rfl) h
  | cons p l ih => exact .ite (ih (State.transmit_within (sub hF rfl) (sub hR rfl) h)) (ih h)

theorem State.sendWaiting_within {F R} {z s : State} {a1} (hF : F &&& 0x100002 = 0x100002) (hR : R &&& 0x8000000000000000000000000000000000000000000000000000000000000000000000000000000000000000000000000000000000 = 0x8000000000000000000000000000000000000000000000000000000000000000000000000000000000000000000000000000000000) (h : Within F R z s) : Within F R z (State.sendWaiting s a1) :=
  State.sendList_within (sub hF rfl) (sub hR rfl) h

theorem State.sendCtrl_within {F R} {z s : State} {a1 a2 a3} (hF : F &&& 0x100002 = 0x100002) (hR : R &&& 0x8000000000000000000000000000000000000000000000000000000000000000000000000000000000000000000000000000000000 = 0x8000000000000000000000000000000000000000000000000000000000000000000000000000000000000000000000000000000000) (h : Within F R z s) : Within F R z (State.sendCtrl s a1 a2 a3) := by
  unfold State.sendCtrl
  extract_lets -merge -useContext -underBinder +onlyGivenNames v1
  clear_value v1
  exact .ite (State.emit_within (sub hF rfl) (sub hR rfl) h) (State.sendOn_within (sub hF rfl) (sub hR rfl) h)

theorem State.routePkt_within {F R} {z s : State} {a1 a2} (hF : F &&& 0x100002 = 0x100002) (hR : R &&& 0x8000000000000000000000000000000000000000001000000000000000000000000000000000000000000000000000000000000000 = 0x8000000000000000000000000000000000000000001000000000000000000000000000000000000000000000000000000000000000) (h : Within F R z s) : OWithin F R z (State.routePkt s a1 a2) := by
  unfold State.routePkt
  split <;> [exact OWithin.none; exact (by extract_lets -merge -useContext -underBinder +onlyGivenNames v1; clear_value v1; exact (by extract_lets -merge -useContext -underBinder +onlyGivenNames v2; have h2 : ∀ {t : State} {x1} {x2} {x3}, Within F R z t → Within F R z (v2 t x1 x2 x3) := (by intros; rename_i h0; unfold v2; exact (fun h3 => (by extract_lets -merge -useContext -underBinder +onlyGivenNames v4; clear_value v4; exact (by extract_lets -merge -useContext -underBinder +onlyGivenNames v5; clear_value v5; exact (by extract_lets -merge -useContext -underBinder +onlyGivenNames v6; clear_value v6; exact (State.sendOn_within (sub hF rfl) (sub hR rfl) (.fab h3 (elem hF rfl))))))) h0); clear_value v2; exact (by split <;> [exact (OWithin.some (h2 h)); exact (by split <;> [exact OWithin.none; exact (OWithin.some (h2 (State.bump_within (sub hF rfl) (sub hR rfl) (elem hR rfl) h)))])])))]

theorem State.treeSend_within {F R} {z s : State} {a1 a2 a3} (hF : F &&& 0x100002 = 0x100002) (hR : R &&& 0x8000000000000000000000000000000000000000000000000000000000000000000000000000000000000000000000000000000000 = 0x8000000000000000000000000000000000000000000000000000000000000000000000000000000000000000000000000000000000) (h : Within F R z s) : Within F R z (State.treeSend s a1 a2 a3) :=
  State.each_within (sub hF rfl) (sub hR rfl) h (fun h1 => (State.sendOn_within (sub hF rfl) (sub hR rfl) h1))

theorem State.bcast_within {F R} {z s : State} {a1 a2 a3 a4} (hF : F &&& 0x104002 = 0x104002) (hR : R &&& 0x8000000000000000000000000000000000000000000000000000000000000000000000000000000000000000000000000000000000 = 0x8000000000000000000000000000000000000000000000000000000000000000000000000000000000000000000000000000000000) (h : Within F R z s) : Within F R z (State.bcast s a1 a2 a3 a4) := by
  unfold State.bcast
  split <;> [exact h; exact (by extract_lets -merge -useContext -underBinder +onlyGivenNames v1; clear_value v1; exact (by extract_lets -merge -useContext -underBinder +onlyGivenNames v2; clear_value v2; exact (.ite h (by extract_lets -merge -useContext -underBinder +onlyGivenNames u3_0 v3; have h3 : Within F R z v3 := (by unfold v3; exact (.wgt h (elem hF rfl))); clear_value v3; exact (State.treeSend_within (sub hF rfl) (sub hR rfl) h3)))))]

theorem State.bcastForward_within {F R} {z s : State} {a1 a2 a3 a4} (hF : F &&& 0x100002 = 0x100002) (hR : R &&& 0x8000000000000000000000000000000000000000000000000000000000000000000000000000000000000000000000000000000000 = 0x8000000000000000000000000000000000000000000000000000000000000000000000000000000000000000000000000000000000) (h : Within F R z s) : Within F R z (State.bcastForward s a1 a2 a3 a4) := by
  unfold State.bcastForward
  split <;> [exact h; exact (State.treeSend_within (sub hF rfl) (sub hR rfl) h)]

theorem State.rootSelf_within {F R} {z s : State}  (hF : F &&& 0x100000 = 0x100000) (hR : R &&& 0x1400000000000000000000000000000000000000000000000000000000 = 0x1400000000000000000000000000000000000000000000000000000000) (h : Within F R z s) : Within F R z (State.rootSelf s) := by
  unfold State.rootSelf
  exact .ite h (by extract_lets -merge -useContext -underBinder +onlyGivenNames v1; have h1 : Within F R z v1 := (by unfold v1; exact (.ite h (State.setNum_within (sub hF rfl) (sub hR rfl) (elem hR rfl) h))); clear_value v1; exact (by extract_lets -merge -useContext -underBinder +onlyGivenNames v2; have h2 : Within F R z v2 := (by unfold v2; exact (State.when_within (sub hF rfl) (sub hR rfl) h1 (fun h3 => (State.setNum_within (sub hF rfl) (sub hR rfl) (elem hR rfl) h3)))); clear_value v2; exact (.ite (.fab h2 (elem hF rfl)) h2)))

theorem State.sendLsu_within {F R} {z s : State}  (hF : F &&& 0x100002 = 0x100002) (hR : R &&& 0x8000000000000000000000000000000000000000000000000000000000000000000000000000000000000000000000000000000000 = 0x8000000000000000000000000000000000000000000000000000000000000000000000000000000000000000000000000000000000) (h : Within F R z s) : Within F R z (State.sendLsu s) := by
  unfold State.sendLsu
  split <;> [exact h; exact (by extract_lets -merge -useContext -underBinder +onlyGivenNames v1; clear_value v1; exact (by extract_lets -merge -useContext -underBinder +onlyGivenNames v2; clear_value v2; exact (by extract_lets -merge -useContext -underBinder +onlyGivenNames v3; clear_value v3; exact (by extract_lets -merge -useContext -underBinder +onlyGivenNames v4; clear_value v4; exact (by extract_lets -merge -useContext -underBinder +onlyGivenNames v5; clear_value v5; exact (by extract_lets -merge -useContext -underBinder +onlyGivenNames v6; clear_value v6; exact (by extract_lets -merge -useContext -underBinder +onlyGivenNames u7_0 v7; have h7 : Within F R z v7 := (by unfold v7; exact (.fab h (elem hF rfl))); clear_value v7; exact (State.each_within (sub hF rfl) (sub hR rfl) h7 (fun h8 => (State.sendCtrl_within (sub hF rfl) (sub hR rfl) h8))))))))))]

theorem State.fabRetry_within {F R} {z s : State} {a1 a2} (hF : F &&& 0x808000 = 0x808000) (hR : R &&& 0 = 0) (h : Within F R z s) : Within F R z (State.fabRetry s a1 a2) := by
  unfold State.fabRetry
  extract_lets -merge -useContext -underBinder +onlyGivenNames v1 v2
  clear_value v1 v2
  extract_lets -merge -useContext -underBinder +onlyGivenNames u3_0 v3
  have h3 : Within F R z v3 := (by unfold v3; exact (.hlt h (elem hF rfl)))
  clear_value v3
  exact .ite (State.updSess_within (sub hF rfl) (sub hR rfl) h3) h3

theorem State.opFailed_within {F R} {z s : State} {a1 a2 a3} (hF : F &&& 0xa0a402 = 0xa0a402) (hR : R &&& 0x200000000000000000000800020000041c00000000000400000000000000000000000000000000000000 = 0x200000000000000000000800020000041c00000000000400000000000000000000000000000000000000) (h : Within F R z s) : Within F R z (State.opFailed s a1 a2 a3) := by
  unfold State.opFailed
  extract_lets -merge -useContext -underBinder +onlyGivenNames v1
  have h1 : Within F R z v1 := (by unfold v1; exact (State.when_within (sub hF rfl) (sub hR rfl) h (fun h2 => (State.raise_within (sub hF rfl) (sub hR rfl) (elem hR rfl) (State.bump_within (sub hF rfl) (sub hR rfl) (elem hR rfl) h2)))))
  clear_value v1
  split <;> [exact h1; exact (by extract_lets -merge -useContext -underBinder +onlyGivenNames v2; have h2 : Within F R z v2 := (by unfold v2; exact (State.voidAll_within (sub hF rfl) (sub hR rfl) h1)); clear_value v2; exact (.ite (State.updSess_within (sub hF rfl) (sub hR rfl) h2) (State.fabRetry_within (sub hF rfl) (sub hR rfl) h2)))]

theorem State.opDone_within {F R} {z s : State} {a1 a2} (hF : F &&& 0xb0a402 = 0xb0a402) (hR : R &&& 0x200000000000000000000800020000041c00000000000400000000000000000000000000000000000000 = 0x200000000000000000000800020000041c00000000000400000000000000000000000000000000000000) (h : Within F R z s) : Within F R z (State.opDone s a1 a2) := by
  unfold State.opDone
  split <;> [exact h; exact (.ite (.fab h (elem hF rfl)) (State.opFailed_within (sub hF rfl) (sub hR rfl) (.fab h (elem hF rfl))))]

theorem State.ackTo_within {F R} {z s : State} {a1 a2 a3} (hF : F &&& 0xb0a402 = 0xb0a402) (hR : R &&& 0x8000000000000000000000200000000000000000001800020000041c00000000000400000000000000000000000000000000000000 = 0x8000000000000000000000200000000000000000001800020000041c00000000000400000000000000000000000000000000000000) (h : Within F R z s) : Within F R z (State.ackTo s a1 a2 a3) :=
  .ite (State.opDone_within (sub hF rfl) (sub hR rfl) h) (OWithin.getD (State.routePkt_within (sub hF rfl) (sub hR rfl) h) h)

theorem State.indeterminate_within {F R} {z s : State} {a1} (hF : F &&& 0xb0a402 = 0xb0a402) (hR : R &&& 0x8000000000000000000000200000000000000000001900020000041c00000000000400000000000000000000000000000000000000 = 0x8000000000000000000000200000000000000000001900020000041c00000000000400000000000000000000000000000000000000) (h : Within F R z s) : Within F R z (State.indeterminate s a1) := by
  unfold State.indeterminate
  extract_lets -merge -useContext -underBinder +onlyGivenNames v1 v2
  clear_value v1 v2
  extract_lets -merge -useContext -underBinder +onlyGivenNames v3
  have h3 : Within F R z v3 := (by unfold v3; exact (State.setLink_within (sub hF rfl) (sub hR rfl) h))
  clear_value v3
  exact State.each_within (sub hF rfl) (sub hR rfl) h3 (fun h4 => (State.when_within (sub hF rfl) (sub hR rfl) (State.bumpLink_within (sub hF rfl) (sub hR rfl) (elem hR rfl) h4) (fun h5 => (State.ackTo_within (sub hF rfl) (sub hR rfl) h5))))

theorem State.leaveUp_within {F R} {z s : State} {a1 a2} (hF : F &&& 0x300002 = 0x300002) (hR : R &&& 0x8000000000000000000000000000000000000000000000020200000000000000000000000000000000000000000000000000000002 = 0x8000000000000000000000000000000000000000000000020200000000000000000000000000000000000000000000000000000002) (h : Within F R z s) : Within F R z (State.leaveUp s a1 a2) :=
  .ite (State.fabStatus_within (sub hF rfl) (sub hR rfl) (State.raise_within (sub hF rfl) (sub hR rfl) (elem hR rfl) (State.sendLsu_within (sub hF rfl) (sub hR rfl) h))) h

theorem State.hold_within {F R} {z s : State} {a1 a2} (hF : F &&& 0x2b0a402 = 0x2b0a402) (hR : R &&& 0x8000000000000000000000200000000000000000001900020200041c00000000000400000000000000000000000000000000000002 = 0x8000000000000000000000200000000000000000001900020200041c00000000000400000000000000000000000000000000000002) (h : Within F R z s) : Within F R z (State.hold s a1 a2) := by
  unfold State.hold
  extract_lets -merge -useContext -underBinder +onlyGivenNames v1
  clear_value v1
  exact State.event_within (sub hF rfl) (sub hR rfl) (State.raise_within (sub hF rfl) (sub hR rfl) (elem hR rfl) (State.indeterminate_within (sub hF rfl) (sub hR rfl) (State.leaveUp_within (sub hF rfl) (sub hR rfl) (State.updLink_within (sub hF rfl) (sub hR rfl) h))))

theorem State.linkDown_within {F R} {z s : State} {a1} (hF : F &&& 0x2b0a402 = 0x2b0a402) (hR : R &&& 0x8000000000000000000000200000000000000000001900020600041c00000000000400000000000000000000000000000000000002 = 0x8000000000000000000000200000000000000000001900020600041c00000000000400000000000000000000000000000000000002) (h : Within F R z s) : Within F R z (State.linkDown s a1) := by
  unfold State.linkDown
  extract_lets -merge -useContext -underBinder +onlyGivenNames v1 v2
  clear_value v1 v2
  extract_lets -merge -useContext -underBinder +onlyGivenNames v3
  have h3 : Within F R z v3 := (by unfold v3; exact (State.updLink_within (sub hF rfl) (sub hR rfl) h))
  clear_value v3
  extract_lets -merge -useContext -underBinder +onlyGivenNames v4
  have h4 : Within F R z v4 := (by unfold v4; exact (.ite (State.event_within (sub hF rfl) (sub hR rfl) (State.raise_within (sub hF rfl) (sub hR rfl) (elem hR rfl) (State.sendLsu_within (sub hF rfl) (sub hR rfl) h3))) h3))
  clear_value v4
  extract_lets -merge -useContext -underBinder +onlyGivenNames v5
  have h5 : Within F R z v5 := (by unfold v5; exact (State.updLink_within (sub hF rfl) (sub hR rfl) (State.indeterminate_within (sub hF rfl) (sub hR rfl) h4)))
  clear_value v5
  extract_lets -merge -useContext -underBinder +onlyGivenNames v6
  clear_value v6
  exact State.fabStatus_within (sub hF rfl) (sub hR rfl) (State.when_within (sub hF rfl) (sub hR rfl) h5 (fun h7 => (by extract_lets -merge -useContext -underBinder +onlyGivenNames v8; have h8 : Within F R z v8 := (by unfold v8; exact (State.setNum_within (sub hF rfl) (sub hR rfl) (elem hR rfl) h7)); clear_value v8; exact (.fab h8 (elem hF rfl)))))

theorem State.enterRetrain_within {F R} {z s : State} {a1} (hF : F &&& 0xb0a402 = 0xb0a402) (hR : R &&& 0x8000000000000000000000200000000000000000001980020200041c00000000000400000000000000000000000000000000000002 = 0x8000000000000000000000200000000000000000001980020200041c00000000000400000000000000000000000000000000000002) (h : Within F R z s) : Within F R z (State.enterRetrain s a1) :=
  State.bumpLink_within (sub hF rfl) (sub hR rfl) (elem hR rfl) (State.updLink_within (sub hF rfl) (sub hR rfl) (State.indeterminate_within (sub hF rfl) (sub hR rfl) (State.leaveUp_within (sub hF rfl) (sub hR rfl) (State.updLink_within (sub hF rfl) (sub hR rfl) h))))

theorem State.sendLinkCtrl_within {F R} {z s : State} {a1 a2} (hF : F &&& 0x100002 = 0x100002) (hR : R &&& 0x8000000000000000000000000000000000000000000000000000000000000000000000000000000000000000000000000000000000 = 0x8000000000000000000000000000000000000000000000000000000000000000000000000000000000000000000000000000000000) (h : Within F R z s) : Within F R z (State.sendLinkCtrl s a1 a2) := by
  unfold State.sendLinkCtrl
  extract_lets -merge -useContext -underBinder +onlyGivenNames v1
  clear_value v1
  exact State.sendCtrl_within (sub hF rfl) (sub hR rfl) (State.setLink_within (sub hF rfl) (sub hR rfl) h)

theorem State.freeBuf_within {F R} {z s : State} {a1 a2 a3} (hF : F &&& 0x100000 = 0x100000) (hR : R &&& 0 = 0) (h : Within F R z s) : Within F R z (State.freeBuf s a1 a2 a3) :=
  State.updLink_within (sub hF rfl) (sub hR rfl) h

theorem State.accept_within {F R} {z s : State} {a1 a2 a3} (hF : F &&& 0x100002 = 0x100002) (hR : R &&& 0x18000000000000000000000000000000000000000000400000000000000000000000000000000000000000000000000000000000000 = 0x18000000000000000000000000000000000000000000400000000000000000000000000000000000000000000000000000000000000) (h : Within F R z s) : PWithin F R z (State.accept s a1 a2 a3) := by
  unfold State.accept
  extract_lets -merge -useContext -underBinder +onlyGivenNames v1
  clear_value v1
  split <;> [exact (PWithin.mk h); exact (by split <;> [exact (PWithin.mk (State.sendLinkCtrl_within (sub hF rfl) (sub hR rfl) h)); exact (by extract_lets -merge -useContext -underBinder +onlyGivenNames v2; have h2 : Within F R z v2 := (by unfold v2; exact (State.bump_within (sub hF rfl) (sub hR rfl) (elem hR rfl) (State.setLink_within (sub hF rfl) (sub hR rfl) h))); clear_value v2; exact (by extract_lets -merge -useContext -underBinder +onlyGivenNames v3; have h3 : Within F R z v3 := (by unfold v3; exact (State.when_within (sub hF rfl) (sub hR rfl) h2 (fun h4 => (State.sendLinkCtrl_within (sub hF rfl) (sub hR rfl) h4)))); clear_value v3; exact (by split <;> [exact (PWithin.mk (State.bump_within (sub hF rfl) (sub hR rfl) (elem hR rfl) (State.freeBuf_within (sub hF rfl) (sub hR rfl) h3))); exact (PWithin.mk h3)])))])]

theorem State.forward_within {F R} {z s : State} {a1 a2} (hF : F &&& 0x100002 = 0x100002) (hR : R &&& 0x8000000000000000000000000000000000000000000000000000000000000000000000000000000000000000000000000000000000 = 0x8000000000000000000000000000000000000000000000000000000000000000000000000000000000000000000000000000000000) (h : Within F R z s) : Within F R z (State.forward s a1 a2) := by
  unfold State.forward
  split <;> [exact h; exact (by split <;> [exact h; exact (State.sendOn_within (sub hF rfl) (sub hR rfl) h)])]

/-! WaitGraph -/

theorem State.snapTrigger_within {F R} {z s : State} {a1 a2} (hF : F &&& 0x4200082 = 0x4200082) (hR : R &&& 0x800000000000000000000000000000000000000000000000000000000000000000000000000000000000000000000000000000 = 0x800000000000000000000000000000000000000000000000000000000000000000000000000000000000000000000000000000) (h : Within F R z s) : Within F R z (State.snapTrigger s a1 a2) := by
  unfold State.snapTrigger
  exact .ite (by extract_lets -merge -useContext -underBinder +onlyGivenNames v1; clear_value v1; exact (by extract_lets -merge -useContext -underBinder +onlyGivenNames v2; clear_value v2; exact (.snaps h (elem hF rfl)))) (State.raise_within (sub hF rfl) (sub hR rfl) (elem hR rfl) (.mram h (elem hF rfl)))

/-! Fabric -/

theorem State.bufWrite_within {F R} {z s : State} {a1 a2 a3 a4} (hF : F &&& 0x10000000 = 0x10000000) (hR : R &&& 0x63f0000000000000000000000000000000000000000000000000000000000000000000000000000000000000000000000000000000 = 0x63f0000000000000000000000000000000000000000000000000000000000000000000000000000000000000000000000000000000) (h : Within F R z s) : Within F R z (State.bufWrite s a1 a2 a3 a4) := by
  unfold State.bufWrite
  extract_lets -merge -useContext -underBinder +onlyGivenNames v1 v2
  clear_value v1 v2
  exact State.moves_within (sub hF rfl) (sub hR rfl) (State.memWrite_within (sub hF rfl) (sub hR rfl) h)

theorem State.bufAdd_within {F R} {z s : State} {a1 a2 a3 a4 a5 a6} (hF : F &&& 0x12b0a402 = 0x12b0a402) (hR : R &&& 0x63f0000000000000000000200000000000000000000200020000041c00000000000400000000000000000000000000000000000000 = 0x63f0000000000000000000200000000000000000000200020000041c00000000000400000000000000000000000000000000000000) (h : Within F R z s) : PWithin F R z (State.bufAdd s a1 a2 a3 a4 a5 a6) := by
  unfold State.bufAdd
  extract_lets -merge -useContext -underBinder +onlyGivenNames v1
  have h1 : Within F R z v1 := (by unfold v1; exact (State.openBuf_within (sub hF rfl) (sub hR rfl) h))
  clear_value v1
  extract_lets -merge -useContext -underBinder +onlyGivenNames v2 v3
  clear_value v2 v3
  split <;> [exact (PWithin.mk (State.moves_within (sub hF rfl) (sub hR rfl) (State.contributed_within (sub hF rfl) (sub hR rfl) (State.addWords_within (sub hF rfl) (sub hR rfl) h1)))); exact (by extract_lets -merge -useContext -underBinder +onlyGivenNames u4_0 v4; have h4 : Within F R z v4 := (by unfold v4; exact (.fab h1 (elem hF rfl))); clear_value v4; exact (PWithin.mk (State.voidAll_within (sub hF rfl) (sub hR rfl) (State.event_within (sub hF rfl) (sub hR rfl) (State.raise_within (sub hF rfl) (sub hR rfl) (elem hR rfl) (State.bump_within (sub hF rfl) (sub hR rfl) (elem hR rfl) h4))))))]

theorem State.routeAll_within {F R} {z s : State} {a1 a2 a3} (hF : F &&& 0x100002 = 0x100002) (hR : R &&& 0xe3f0000000000000000000000000000000000000001000000000000000000000000000000000000000000000000000000000000000 = 0xe3f0000000000000000000000000000000000000001000000000000000000000000000000000000000000000000000000000000000) (h : Within F R z s) : OWithin F R z (State.routeAll s a1 a2 a3) := by
  induction a3 generalizing s with
  | nil => exact OWithin.some h
  | cons p l ih =>
    unfold State.routeAll
    have r := State.routePkt_within (a1 := a2) (a2 := p.1) (sub hF rfl) (sub hR rfl) h
    split <;> rename_i hq <;> [exact OWithin.none; exact ih (State.moves_within (sub hF rfl) (sub hR rfl) (r _ hq))]

theorem State.issueOp_within {F R} {z s : State} {a1 a2 a3 a4 a5 a6 a7 a8} (hF : F &&& 0xb0a402 = 0xb0a402) (hR : R &&& 0xe3f0000000000000000000200000000000000000001800020000041c00000000000400000000000000000000000000000000000000 = 0xe3f0000000000000000000200000000000000000001800020000041c00000000000400000000000000000000000000000000000000) (h : Within F R z s) : Within F R z (State.issueOp s a1 a2 a3 a4 a5 a6 a7 a8) := by
  rw [State.issueOp]
  split <;> rename_i hq
  · exact State.opFailed_within (sub hF rfl) (sub hR rfl) h
  · exact .fab (OWithin.some' (State.routeAll_within (sub hF rfl) (sub hR rfl) h) hq) (elem hF rfl)

theorem execFabricWrite_within {F R} {s : State} {a0 a1 a2 a3 a4 a5 a6} (hF : F &&& 0x10b0a412 = 0x10b0a412) (hR : R &&& 0xe3f0000000000000000000200000000000000000001800020000041c00000000000400000000000000000000000000000000000000 = 0xe3f0000000000000000000200000000000000000001800020000041c00000000000400000000000000000000000000000000000000) : Touched F R s (execFabricWrite a0 a1 a2 a3 a4 a5 a6 s) := by
  unfold execFabricWrite
  exact .answer (sub hF rfl) (fun h1 => (State.when_within (sub hF rfl) (sub hR rfl) h1 (fun h2 => (by split <;> [exact (State.opFailed_within (sub hF rfl) (sub hR rfl) h2); exact (.ite (State.bufWrite_within (sub hF rfl) (sub hR rfl) h2) (State.issueOp_within (sub hF rfl) (sub hR rfl) h2))]))))

theorem execFabricReduceAdd_within {F R} {s : State} {a0 a1 a2 a3 a4 a5 a6} (hF : F &&& 0x12b0a412 = 0x12b0a412) (hR : R &&& 0xe3f0000000000000000000200000000000000000001a00020000041c00000000000400000000000000000000000000000000000000 = 0xe3f0000000000000000000200000000000000000001a00020000041c00000000000400000000000000000000000000000000000000) : Touched F R s (execFabricReduceAdd a0 a1 a2 a3 a4 a5 a6 s) := by
  unfold execFabricReduceAdd
  exact .answer (sub hF rfl) (fun h1 => (State.when_within (sub hF rfl) (sub hR rfl) h1 (fun h2 => (by split <;> [exact (State.opFailed_within (sub hF rfl) (sub hR rfl) h2); exact (.ite (by extract_lets -merge -useContext -underBinder +onlyGivenNames v3; have h3 : PWithin F R s v3 := (by unfold v3; exact (State.bufAdd_within (sub hF rfl) (sub hR rfl) h2)); clear_value v3; exact (.ite (PWithin.fst h3) (State.opFailed_within (sub hF rfl) (sub hR rfl) (PWithin.fst h3)))) (State.issueOp_within (sub hF rfl) (sub hR rfl) h2))]))))

theorem State.remoteSync_within {F R} {z s : State} {a1 a2 a3} (hF : F &&& 0x2400 = 0x2400) (hR : R &&& 0x70041e00000000000000000000000000000000000000000000000000 = 0x70041e00000000000000000000000000000000000000000000000000) (h : Within F R z s) : PWithin F R z (State.remoteSync s a1 a2 a3) := by
  unfold State.remoteSync
  extract_lets -merge -useContext -underBinder +onlyGivenNames v1
  clear_value v1
  split <;> [exact (PWithin.mk (State.bump_within (sub hF rfl) (sub hR rfl) (elem hR rfl) h)); exact (by extract_lets -merge -useContext -underBinder +onlyGivenNames v2; clear_value v2; exact (by extract_lets -merge -useContext -underBinder +onlyGivenNames v3; have h3 : Within F R z v3 := (by unfold v3; exact (State.bump_within (sub hF rfl) (sub hR rfl) (elem hR rfl) h)); clear_value v3; exact (by split <;> [exact (PWithin.mk (State.countPool_within (sub hF rfl) (sub hR rfl) h3)); exact (PWithin.mk (State.syncStore_within (sub hF rfl) (sub hR rfl) h3)); exact (PWithin.mk (State.syncAdd_within (sub hF rfl) (sub hR rfl) h3)); exact (PWithin.mk (State.syncCas_within (sub hF rfl) (sub hR rfl) h3))])))]

theorem State.syncRemote_within {F R} {z s : State} {a1 a2 a3 a4 a5} (hF : F &&& 0xb0a402 = 0xb0a402) (hR : R &&& 0xe3f0000000000000000000200000000000000000001800020070041e00000000000400000000000000000000000000000000000000 = 0xe3f0000000000000000000200000000000000000001800020070041e00000000000400000000000000000000000000000000000000) (h : Within F R z s) : Within F R z (State.syncRemote s a1 a2 a3 a4 a5) := by
  unfold State.syncRemote
  split <;> [exact (State.opFailed_within (sub hF rfl) (sub hR rfl) h); exact (by extract_lets -merge -useContext -underBinder +onlyGivenNames v1; clear_value v1; exact (.ite (by extract_lets -merge -useContext -underBinder +onlyGivenNames v2; have h2 : PWithin F R z v2 := (by unfold v2; exact (State.remoteSync_within (sub hF rfl) (sub hR rfl) h)); clear_value v2; exact (.ite (State.opFailed_within (sub hF rfl) (sub hR rfl) (PWithin.fst h2)) (State.when_within (sub hF rfl) (sub hR rfl) (PWithin.fst h2) (fun h3 => (State.returns_within (sub hF rfl) (sub hR rfl) h3))))) (State.issueOp_within (sub hF rfl) (sub hR rfl) h)))]

theorem State.syncHere_within {F R} {z s : State} {a1 a2 a3 a4} (hF : F &&& 0x2402 = 0x2402) (hR : R &&& 0x10041e00000000000000000000000000000000000000000000000000 = 0x10041e00000000000000000000000000000000000000000000000000) (h : Within F R z s) : Within F R z (State.syncHere s a1 a2 a3 a4) := by
  unfold State.syncHere
  extract_lets -merge -useContext -underBinder +onlyGivenNames v1 v2
  clear_value v1 v2
  split <;> [exact (State.returns_within (sub hF rfl) (sub hR rfl) (State.countPool_within (sub hF rfl) (sub hR rfl) h)); exact (State.syncStore_within (sub hF rfl) (sub hR rfl) h); exact (State.returns_within (sub hF rfl) (sub hR rfl) (State.syncAdd_within (sub hF rfl) (sub hR rfl) h)); exact (State.returns_within (sub hF rfl) (sub hR rfl) (State.syncCas_within (sub hF rfl) (sub hR rfl) h))]

theorem State.syncOp_within {F R} {z s : State} {a1 a2 a3 a4} (hF : F &&& 0xb0a402 = 0xb0a402) (hR : R &&& 0xe3f0000000000000000000200000000000000000001800020070041e00000000000400000000000000000000000000000000000000 = 0xe3f0000000000000000000200000000000000000001800020070041e00000000000400000000000000000000000000000000000000) (h : Within F R z s) : Within F R z (State.syncOp s a1 a2 a3 a4) := by
  unfold State.syncOp
  exact State.when_within (sub hF rfl) (sub hR rfl) h (fun h1 => (by split <;> [exact (State.when_within (sub hF rfl) (sub hR rfl) h1 (fun h2 => (State.syncHere_within (sub hF rfl) (sub hR rfl) h2))); exact (State.syncRemote_within (sub hF rfl) (sub hR rfl) h1)]))

theorem execSyncLoad_within {F R} {s : State} {a0 a1 a2 a3} (hF : F &&& 0xb0a412 = 0xb0a412) (hR : R &&& 0xe3f0000000000000000000200000000000000000001800020070041e00000000000400000000000000000000000000000000000000 = 0xe3f0000000000000000000200000000000000000001800020070041e00000000000400000000000000000000000000000000000000) : Touched F R s (execSyncLoad a0 a1 a2 a3 s) :=
  .answer (sub hF rfl) (fun h1 => (State.syncOp_within (sub hF rfl) (sub hR rfl) h1))

theorem execSyncStore_within {F R} {s : State} {a0 a1 a2 a3 a4} (hF : F &&& 0xb0a412 = 0xb0a412) (hR : R &&& 0xe3f0000000000000000000200000000000000000001800020070041e00000000000400000000000000000000000000000000000000 = 0xe3f0000000000000000000200000000000000000001800020070041e00000000000400000000000000000000000000000000000000) : Touched F R s (execSyncStore a0 a1 a2 a3 a4 s) :=
  .answer (sub hF rfl) (fun h1 => (State.syncOp_within (sub hF rfl) (sub hR rfl) h1))

theorem execSyncAdd_within {F R} {s : State} {a0 a1 a2 a3 a4} (hF : F &&& 0xb0a412 = 0xb0a412) (hR : R &&& 0xe3f0000000000000000000200000000000000000001800020070041e00000000000400000000000000000000000000000000000000 = 0xe3f0000000000000000000200000000000000000001800020070041e00000000000400000000000000000000000000000000000000) : Touched F R s (execSyncAdd a0 a1 a2 a3 a4 s) :=
  .answer (sub hF rfl) (fun h1 => (State.syncOp_within (sub hF rfl) (sub hR rfl) h1))

theorem execSyncCas_within {F R} {s : State} {a0 a1 a2 a3 a4 a5} (hF : F &&& 0xb0a412 = 0xb0a412) (hR : R &&& 0xe3f0000000000000000000200000000000000000001800020070041e00000000000400000000000000000000000000000000000000 = 0xe3f0000000000000000000200000000000000000001800020070041e00000000000400000000000000000000000000000000000000) : Touched F R s (execSyncCas a0 a1 a2 a3 a4 a5 s) :=
  .answer (sub hF rfl) (fun h1 => (State.syncOp_within (sub hF rfl) (sub hR rfl) h1))

theorem execPresenceProbe_within {F R} {s : State} {a0 a1 a2} (hF : F &&& 0x100012 = 0x100012) (hR : R &&& 0 = 0) : Touched F R s (execPresenceProbe a0 a1 a2 s) := by
  unfold execPresenceProbe
  exact .answer (sub hF rfl) (fun h1 => (State.when_within (sub hF rfl) (sub hR rfl) h1 (fun h2 => (by extract_lets -merge -useContext -underBinder +onlyGivenNames v3; clear_value v3; exact (by extract_lets -merge -useContext -underBinder +onlyGivenNames v4; have h4 : Within F R s v4 := (by unfold v4; exact (State.setLink_within (sub hF rfl) (sub hR rfl) h2)); clear_value v4; exact (.ite (State.updLink_within (sub hF rfl) (sub hR rfl) h4) (.ite (State.updLink_within (sub hF rfl) (sub hR rfl) h4) h4)))))))

theorem execDetectDebounceEnd_within {F R} {s : State} {a0 a1} (hF : F &&& 0x100012 = 0x100012) (hR : R &&& 0 = 0) : Touched F R s (execDetectDebounceEnd a0 a1 s) := by
  unfold execDetectDebounceEnd
  exact .answer (sub hF rfl) (fun h1 => (by extract_lets -merge -useContext -underBinder +onlyGivenNames v2; clear_value v2; exact (State.when_within (sub hF rfl) (sub hR rfl) h1 (fun h3 => (State.setLink_within (sub hF rfl) (sub hR rfl) h3)))))

theorem execPresenceLoss_within {F R} {s : State} {a0 a1} (hF : F &&& 0x2b0a412 = 0x2b0a412) (hR : R &&& 0x8000000000000000000000200000000000000000001900020600041c00000000000400000000000000000000000000000000000002 = 0x8000000000000000000000200000000000000000001900020600041c00000000000400000000000000000000000000000000000002) : Touched F R s (execPresenceLoss a0 a1 s) :=
  .answer (sub hF rfl) (fun h1 => (State.when_within (sub hF rfl) (sub hR rfl) h1 (fun h2 => (State.linkDown_within (sub hF rfl) (sub hR rfl) (State.updLink_within (sub hF rfl) (sub hR rfl) h2)))))

theorem State.sendHello_within {F R} {z s : State} {a1 a2 a3} (hF : F &&& 6 = 6) (hR : R &&& 0 = 0) (h : Within F R z s) : Within F R z (State.sendHello s a1 a2 a3) := by
  unfold State.sendHello
  extract_lets -merge -useContext -underBinder +onlyGivenNames v1 v2
  clear_value v1 v2
  exact State.emit_within (sub hF rfl) (sub hR rfl) (State.tick_within (sub hF rfl) (sub hR rfl) h)

theorem execTrainComplete_within {F R} {s : State} {a0 a1 a2} (hF : F &&& 0x100016 = 0x100016) (hR : R &&& 0 = 0) : Touched F R s (execTrainComplete a0 a1 a2 s) := by
  unfold execTrainComplete
  exact .answer (sub hF rfl) (fun h1 => (by extract_lets -merge -useContext -underBinder +onlyGivenNames v2; clear_value v2; exact (State.when_within (sub hF rfl) (sub hR rfl) h1 (fun h3 => (State.sendHello_within (sub hF rfl) (sub hR rfl) (State.setLink_within (sub hF rfl) (sub hR rfl) h3))))))

theorem execTrainTimeout_within {F R} {s : State} {a0 a1} (hF : F &&& 0x2b0a412 = 0x2b0a412) (hR : R &&& 0x8000000000000000000000200000000000000000001900020200041c00000000000400000000000000000000000000000000000002 = 0x8000000000000000000000200000000000000000001900020200041c00000000000400000000000000000000000000000000000002) : Touched F R s (execTrainTimeout a0 a1 s) := by
  unfold execTrainTimeout
  exact .answer (sub hF rfl) (fun h1 => (by extract_lets -merge -useContext -underBinder +onlyGivenNames v2; clear_value v2; exact (.ite (.ite (State.hold_within (sub hF rfl) (sub hR rfl) h1) (State.setLink_within (sub hF rfl) (sub hR rfl) h1)) (.ite (by extract_lets -merge -useContext -underBinder +onlyGivenNames v3; clear_value v3; exact (.ite (State.hold_within (sub hF rfl) (sub hR rfl) h1) (State.setLink_within (sub hF rfl) (sub hR rfl) h1))) h1))))

theorem State.takeAddress_within {F R} {z s : State} {a1} (hF : F &&& 0 = 0) (hR : R &&& 0x2c00000000000000000000000000000000000000000000000000000000 = 0x2c00000000000000000000000000000000000000000000000000000000) (h : Within F R z s) : Within F R z (State.takeAddress s a1) := by
  unfold State.takeAddress
  exact .ite (by extract_lets -merge -useContext -underBinder +onlyGivenNames v1; clear_value v1; exact (State.setReg_within (sub hF rfl) (sub hR rfl) (elem hR rfl) (State.setNum_within (sub hF rfl) (sub hR rfl) (elem hR rfl) (State.setNum_within (sub hF rfl) (sub hR rfl) (elem hR rfl) h)))) h

theorem State.admitLink_within {F R} {z s : State} {a1 a2} (hF : F &&& 0x300002 = 0x300002) (hR : R &&& 0x23e00000000000000000000000000000000000000000000000000000002 = 0x23e00000000000000000000000000000000000000000000000000000002) (h : Within F R z s) : Within F R z (State.admitLink s a1 a2) := by
  unfold State.admitLink
  extract_lets -merge -useContext -underBinder +onlyGivenNames v1
  have h1 : Within F R z v1 := (by unfold v1; exact (State.takeAddress_within (sub hF rfl) (sub hR rfl) h))
  clear_value v1
  extract_lets -merge -useContext -underBinder +onlyGivenNames u2_0 v2
  have h2 : Within F R z v2 := (by unfold v2; exact (.fab h1 (elem hF rfl)))
  clear_value v2
  exact State.fabStatus_within (sub hF rfl) (sub hR rfl) (State.setNum_within (sub hF rfl) (sub hR rfl) (elem hR rfl) (State.updLink_within (sub hF rfl) (sub hR rfl) h2))

theorem execHelloReceived_within {F R} {s : State} {a0 a1 a2} (hF : F &&& 0x2b0a416 = 0x2b0a416) (hR : R &&& 0x8000000000000000000000200000000000000000001900023e00041c00000000000400000000000000000000000000000000000002 = 0x8000000000000000000000200000000000000000001900023e00041c00000000000400000000000000000000000000000000000002) : Touched F R s (execHelloReceived a0 a1 a2 s) := by
  unfold execHelloReceived
  exact .answer (sub hF rfl) (fun h1 => (by extract_lets -merge -useContext -underBinder +onlyGivenNames v2; clear_value v2; exact (by extract_lets -merge -useContext -underBinder +onlyGivenNames v3; clear_value v3; exact (.ite (.ite (State.sendHello_within (sub hF rfl) (sub hR rfl) (State.setLink_within (sub hF rfl) (sub hR rfl) h1)) (.ite h1 (.ite (State.linkDown_within (sub hF rfl) (sub hR rfl) h1) (by split <;> [exact (State.hold_within (sub hF rfl) (sub hR rfl) (State.when_within (sub hF rfl) (sub hR rfl) h1 (fun h4 => (State.raise_within (sub hF rfl) (sub hR rfl) (elem hR rfl) h4)))); exact (State.admitLink_within (sub hF rfl) (sub hR rfl) h1)])))) (.ite (State.setLink_within (sub hF rfl) (sub hR rfl) h1) h1)))))

theorem execHelloTimeout_within {F R} {s : State} {a0 a1} (hF : F &&& 0x100012 = 0x100012) (hR : R &&& 0 = 0) : Touched F R s (execHelloTimeout a0 a1 s) := by
  unfold execHelloTimeout
  exact .answer (sub hF rfl) (fun h1 => (by extract_lets -merge -useContext -underBinder +onlyGivenNames v2; clear_value v2; exact (State.when_within (sub hF rfl) (sub hR rfl) h1 (fun h3 => (State.setLink_within (sub hF rfl) (sub hR rfl) h3)))))

theorem State.replay_within {F R} {z s : State} {a1 a2} (hF : F &&& 0xb0a402 = 0xb0a402) (hR : R &&& 0x80000000000000000000002000000000000000000019c0020200041c00000000000400000000000000000000000000000000000002 = 0x80000000000000000000002000000000000000000019c0020200041c00000000000400000000000000000000000000000000000002) (h : Within F R z s) : Within F R z (State.replay s a1 a2) := by
  unfold State.replay
  extract_lets -merge -useContext -underBinder +onlyGivenNames v1 v2 v3
  clear_value v1 v2 v3
  extract_lets -merge -useContext -underBinder +onlyGivenNames v4
  have h4 : Within F R z v4 := (by unfold v4; exact (State.bumpLink_within (sub hF rfl) (sub hR rfl) (elem hR rfl) (State.setLink_within (sub hF rfl) (sub hR rfl) h)))
  clear_value v4
  exact .ite (State.enterRetrain_within (sub hF rfl) (sub hR rfl) h4) (State.each_within (sub hF rfl) (sub hR rfl) h4 (fun h5 => (State.emit_within (sub hF rfl) (sub hR rfl) h5)))

theorem execLinkCtrlReceived_within {F R} {s : State} {a0 a1 a2 a3 a4} (hF : F &&& 0xb0a412 = 0xb0a412) (hR : R &&& 0x80000000000000000000002000000000000000000019c0020200041c00000000000400000000000000000000000000000000000002 = 0x80000000000000000000002000000000000000000019c0020200041c00000000000400000000000000000000000000000000000002) : Touched F R s (execLinkCtrlReceived a0 a1 a2 a3 a4 s) := by
  unfold execLinkCtrlReceived
  exact .answer (sub hF rfl) (fun h1 => (by extract_lets -merge -useContext -underBinder +onlyGivenNames v2; clear_value v2; exact (by extract_lets -merge -useContext -underBinder +onlyGivenNames v3; clear_value v3; exact (State.when_within (sub hF rfl) (sub hR rfl) h1 (fun h4 => (by extract_lets -merge -useContext -underBinder +onlyGivenNames v5; clear_value v5; exact (by extract_lets -merge -useContext -underBinder +onlyGivenNames v6; have h6 : Within F R s v6 := (by unfold v6; exact (State.setLink_within (sub hF rfl) (sub hR rfl) h4)); clear_value v6; exact (by extract_lets -merge -useContext -underBinder +onlyGivenNames v7; have h7 : Within F R s v7 := (by unfold v7; exact (by split <;> [exact h6; exact (State.replay_within (sub hF rfl) (sub hR rfl) h6)])); clear_value v7; exact (State.sendWaiting_within (sub hF rfl) (sub hR rfl) h7)))))))))

theorem execLinkSilence_within {F R} {s : State} {a0 a1} (hF : F &&& 0xb0a412 = 0xb0a412) (hR : R &&& 0x8000000000000000000000200000000000000000001980020200041c00000000000400000000000000000000000000000000000002 = 0x8000000000000000000000200000000000000000001980020200041c00000000000400000000000000000000000000000000000002) : Touched F R s (execLinkSilence a0 a1 s) :=
  .answer (sub hF rfl) (fun h1 => (State.when_within (sub hF rfl) (sub hR rfl) h1 (fun h2 => (State.enterRetrain_within (sub hF rfl) (sub hR rfl) h2))))

theorem execLinkAckTimer_within {F R} {s : State} {a0 a1} (hF : F &&& 0x100012 = 0x100012) (hR : R &&& 0x8000000000000000000000000000000000000000000000000000000000000000000000000000000000000000000000000000000000 = 0x8000000000000000000000000000000000000000000000000000000000000000000000000000000000000000000000000000000000) : Touched F R s (execLinkAckTimer a0 a1 s) := by
  unfold execLinkAckTimer
  exact .answer (sub hF rfl) (fun h1 => (by extract_lets -merge -useContext -underBinder +onlyGivenNames v2; clear_value v2; exact (State.when_within (sub hF rfl) (sub hR rfl) h1 (fun h3 => (State.sendLinkCtrl_within (sub hF rfl) (sub hR rfl) h3)))))

theorem State.arrival_within {F R} {z s : State} {a1 a2 a3 a4 a5 a6} (hF : F &&& 0x3100002 = 0x3100002) (hR : R &&& 0x18000000000000008800000000000000000000000000400000000000000000000000000000000000000000000000000000000000000 = 0x18000000000000008800000000000000000000000000400000000000000000000000000000000000000000000000000000000000000) (h : Within F R z s) (hf6 : ∀ {t : State}, Within F R z t → Within F R z (a6 t)) : Within F R z (State.arrival s a1 a2 a3 a4 a5 a6) := by
  unfold State.arrival
  extract_lets -merge -useContext -underBinder +onlyGivenNames v1
  have h1 : PWithin F R z v1 := (by unfold v1; exact (State.accept_within (sub hF rfl) (sub hR rfl) h))
  clear_value v1
  exact .ite (PWithin.fst h1) (by extract_lets -merge -useContext -underBinder +onlyGivenNames v2; have h2 : Within F R z v2 := (by unfold v2; exact (by split <;> [exact (PWithin.fst h1); exact (State.bcastForward_within (sub hF rfl) (sub hR rfl) (PWithin.fst h1))])); clear_value v2; exact (.ite (State.exitPower_within (sub hF rfl) (sub hR rfl) (.fab h2 (elem hF rfl))) (hf6 (State.freeBuf_within (sub hF rfl) (sub hR rfl) h2))))

theorem State.rootSysver_within {F R} {z s : State}  (hF : F &&& 0x100000 = 0x100000) (_hR : R &&& 0 = 0) (h : Within F R z s) : Within F R z (State.rootSysver s) := by
  unfold State.rootSysver
  extract_lets -merge -useContext -underBinder +onlyGivenNames v1
  clear_value v1
  exact .ite (.fab h (elem hF rfl)) h

theorem execLsuReceived_within {F R} {s : State} {a0 a1 a2 a3} (hF : F &&& 0x3300012 = 0x3300012) (hR : R &&& 0x18000000000000008800000000000000000000000004400020200000000000000000000000000000000000000000000000000000002 = 0x18000000000000008800000000000000000000000004400020200000000000000000000000000000000000000000000000000000002) : Touched F R s (execLsuReceived a0 a1 a2 a3 s) := by
  unfold execLsuReceived
  exact .answer (sub hF rfl) (fun h1 => (State.arrival_within (sub hF rfl) (sub hR rfl) h1 (fun h2 => (by extract_lets -merge -useContext -underBinder +onlyGivenNames v3; clear_value v3; exact (State.when_within (sub hF rfl) (sub hR rfl) h2 (fun h4 => (by extract_lets -merge -useContext -underBinder +onlyGivenNames v5; clear_value v5; exact (by extract_lets -merge -useContext -underBinder +onlyGivenNames u6_0 u6_1 v6; have h6 : Within F R s v6 := (by unfold v6; exact (.fab (State.bump_within (sub hF rfl) (sub hR rfl) (elem hR rfl) h4) (elem hF rfl))); clear_value v6; exact (by extract_lets -merge -useContext -underBinder +onlyGivenNames v7; clear_value v7; exact (State.fabStatus_within (sub hF rfl) (sub hR rfl) (State.rootSysver_within (sub hF rfl) (sub hR rfl) (State.each_within (sub hF rfl) (sub hR rfl) h6 (fun h8 => (State.sendCtrl_within (sub hF rfl) (sub hR rfl) h8))))))))))))))

theorem execDelayExchange_within {F R} {s : State} {a0 a1} (hF : F &&& 0x100012 = 0x100012) (hR : R &&& 0x8000000000000000000000000000000000000000000000000000000000000000000000000000000000000000000000000000000000 = 0x8000000000000000000000000000000000000000000000000000000000000000000000000000000000000000000000000000000000) : Touched F R s (execDelayExchange a0 a1 s) := by
  unfold execDelayExchange
  exact .answer (sub hF rfl) (fun h1 => (by extract_lets -merge -useContext -underBinder +onlyGivenNames v2; clear_value v2; exact (State.when_within (sub hF rfl) (sub hR rfl) h1 (fun h3 => (State.sendCtrl_within (sub hF rfl) (sub hR rfl) h3)))))

theorem execDelayReceived_within {F R} {s : State} {a0 a1 a2 a3 a4 a5 a6} (hF : F &&& 0x3100012 = 0x3100012) (hR : R &&& 0x18000000000000008800000000000000000000000000402000000000000000000000000000000000000000000000000000000000000 = 0x18000000000000008800000000000000000000000000402000000000000000000000000000000000000000000000000000000000000) : Touched F R s (execDelayReceived a0 a1 a2 a3 a4 a5 a6 s) :=
  .answer (sub hF rfl) (fun h1 => (State.arrival_within (sub hF rfl) (sub hR rfl) h1 (fun h2 => (State.setNum_within (sub hF rfl) (sub hR rfl) (elem hR rfl) h2))))

theorem State.takeSyncReq_within {F R} {z s : State} {a1 a2 a3 a4} (hF : F &&& 0x102402 = 0x102402) (hR : R &&& 0x8000000000000000000000000000000000000000001000000070041e00000000000000000000000000000000000000000000000000 = 0x8000000000000000000000000000000000000000001000000070041e00000000000000000000000000000000000000000000000000) (h : Within F R z s) : Within F R z (State.takeSyncReq s a1 a2 a3 a4) := by
  unfold State.takeSyncReq
  extract_lets -merge -useContext -underBinder +onlyGivenNames v1
  have h1 : PWithin F R z v1 := (by unfold v1; exact (State.remoteSync_within (sub hF rfl) (sub hR rfl) h))
  clear_value v1
  exact OWithin.getD (State.routePkt_within (sub hF rfl) (sub hR rfl) (PWithin.fst h1)) (PWithin.fst h1)

theorem State.takeWrite_within {F R} {z s : State} {a1 a2 a3 a4 a5 a6} (hF : F &&& 0x10b0a402 = 0x10b0a402) (hR : R &&& 0xe3f0000000000000000000200000000000000000001800020000041c00000000000400000000000000000000000000000000000000 = 0xe3f0000000000000000000200000000000000000001800020000041c00000000000400000000000000000000000000000000000000) (h : Within F R z s) : Within F R z (State.takeWrite s a1 a2 a3 a4 a5 a6) :=
  State.ackTo_within (sub hF rfl) (sub hR rfl) (State.bufWrite_within (sub hF rfl) (sub hR rfl) h)

theorem State.takeReduceAdd_within {F R} {z s : State} {a1 a2 a3 a4 a5 a6} (hF : F &&& 0x12b0a402 = 0x12b0a402) (hR : R &&& 0xe3f0000000000000000000200000000000000000001a00020000041c00000000000400000000000000000000000000000000000000 = 0xe3f0000000000000000000200000000000000000001a00020000041c00000000000400000000000000000000000000000000000000) (h : Within F R z s) : Within F R z (State.takeReduceAdd s a1 a2 a3 a4 a5 a6) := by
  unfold State.takeReduceAdd
  extract_lets -merge -useContext -underBinder +onlyGivenNames v1
  have h1 : PWithin F R z v1 := (by unfold v1; exact (State.bufAdd_within (sub hF rfl) (sub hR rfl) h))
  clear_value v1
  exact State.ackTo_within (sub hF rfl) (sub hR rfl) (PWithin.fst h1)

theorem execSyncReqReceived_within {F R} {s : State} {a0 a1 a2 a3 a4 a5} (hF : F &&& 0x3102412 = 0x3102412) (hR : R &&& 0x18000000000000008800000000000000000000000001400000070041e00000000000000000000000000000000000000000000000000 = 0x18000000000000008800000000000000000000000001400000070041e00000000000000000000000000000000000000000000000000) : Touched F R s (execSyncReqReceived a0 a1 a2 a3 a4 a5 s) :=
  .answer (sub hF rfl) (fun h1 => (State.arrival_within (sub hF rfl) (sub hR rfl) h1 (fun h2 => (State.takeSyncReq_within (sub hF rfl) (sub hR rfl) h2))))

theorem execSyncRespReceived_within {F R} {s : State} {a0 a1 a2 a3 a4 a5} (hF : F &&& 0x3b0a412 = 0x3b0a412) (hR : R &&& 0x18000000000000008800000200000000000000000000c00020000041c00000000000400000000000000000000000000000000000000 = 0x18000000000000008800000200000000000000000000c00020000041c00000000000400000000000000000000000000000000000000) : Touched F R s (execSyncRespReceived a0 a1 a2 a3 a4 a5 s) := by
  unfold execSyncRespReceived
  exact .answer (sub hF rfl) (fun h1 => (State.arrival_within (sub hF rfl) (sub hR rfl) h1 (fun h2 => (by extract_lets -merge -useContext -underBinder +onlyGivenNames v3; have h3 : Within F R s v3 := (by unfold v3; exact (State.opDone_within (sub hF rfl) (sub hR rfl) h2)); clear_value v3; exact (by split <;> [exact h3; exact (State.when_within (sub hF rfl) (sub hR rfl) h3 (fun h4 => (State.returns_within (sub hF rfl) (sub hR rfl) h4)))])))))

theorem execWriteReceived_within {F R} {s : State} {a0 a1 a2 a3 a4 a5 a6} (hF : F &&& 0x13b0a412 = 0x13b0a412) (hR : R &&& 0x1e3f0000000000008800000200000000000000000001c00020000041c00000000000400000000000000000000000000000000000000 = 0x1e3f0000000000008800000200000000000000000001c00020000041c00000000000400000000000000000000000000000000000000) : Touched F R s (execWriteReceived a0 a1 a2 a3 a4 a5 a6 s) :=
  .answer (sub hF rfl) (fun h1 => (State.arrival_within (sub hF rfl) (sub hR rfl) h1 (fun h2 => (State.takeWrite_within (sub hF rfl) (sub hR rfl) h2))))

theorem execReduceAddReceived_within {F R} {s : State} {a0 a1 a2 a3 a4 a5 a6} (hF : F &&& 0x13b0a412 = 0x13b0a412) (hR : R &&& 0x1e3f0000000000008800000200000000000000000001e00020000041c00000000000400000000000000000000000000000000000000 = 0x1e3f0000000000008800000200000000000000000001e00020000041c00000000000400000000000000000000000000000000000000) : Touched F R s (execReduceAddReceived a0 a1 a2 a3 a4 a5 a6 s) :=
  .answer (sub hF rfl) (fun h1 => (State.arrival_within (sub hF rfl) (sub hR rfl) h1 (fun h2 => (State.takeReduceAdd_within (sub hF rfl) (sub hR rfl) h2))))

theorem execAckReceived_within {F R} {s : State} {a0 a1 a2 a3 a4} (hF : F &&& 0x3b0a412 = 0x3b0a412) (hR : R &&& 0x18000000000000008800000200000000000000000000c00020000041c00000000000400000000000000000000000000000000000000 = 0x18000000000000008800000200000000000000000000c00020000041c00000000000400000000000000000000000000000000000000) : Touched F R s (execAckReceived a0 a1 a2 a3 a4 s) :=
  .answer (sub hF rfl) (fun h1 => (State.arrival_within (sub hF rfl) (sub hR rfl) h1 (fun h2 => (State.opDone_within (sub hF rfl) (sub hR rfl) h2))))

theorem execOpTimeout_within {F R} {s : State} {a0 a1} (hF : F &&& 0xb0a412 = 0xb0a412) (hR : R &&& 0x200000000000000000000800020000041c00000000000400000000000000000000000000000000000000 = 0x200000000000000000000800020000041c00000000000400000000000000000000000000000000000000) : Touched F R s (execOpTimeout a0 a1 s) := by
  unfold execOpTimeout
  exact .answer (sub hF rfl) (fun h1 => (by split <;> [exact h1; exact (State.when_within (sub hF rfl) (sub hR rfl) h1 (fun h2 => (State.opDone_within (sub hF rfl) (sub hR rfl) h2)))]))

theorem State.mapRead_within {F R} {z s : State} {a1} (hF : F &&& 0x300002 = 0x300002) (hR : R &&& 0x8000000000000000000000000000000000000000000000033e00000000000000000000000000000000000000000000000000000002 = 0x8000000000000000000000000000000000000000000000033e00000000000000000000000000000000000000000000000000000002) (h : Within F R z s) : Within F R z (State.mapRead s a1) := by
  unfold State.mapRead
  extract_lets -merge -useContext -underBinder +onlyGivenNames v1 v2 v3
  clear_value v1 v2 v3
  exact .ite h (by extract_lets -merge -useContext -underBinder +onlyGivenNames v4; clear_value v4; exact (by extract_lets -merge -useContext -underBinder +onlyGivenNames u5_0 u5_1 v5; have h5 : Within F R z v5 := (by unfold v5; exact (.fab (State.setNum_within (sub hF rfl) (sub hR rfl) (elem hR rfl) h) (elem hF rfl))); clear_value v5; exact (by split <;> [exact (State.fabStatus_within (sub hF rfl) (sub hR rfl) (State.sendLsu_within (sub hF rfl) (sub hR rfl) (State.rootSelf_within (sub hF rfl) (sub hR rfl) (State.setNum_within (sub hF rfl) (sub hR rfl) (elem hR rfl) (State.setNum_within (sub hF rfl) (sub hR rfl) (elem hR rfl) (State.setNum_within (sub hF rfl) (sub hR rfl) (elem hR rfl) (.fab h5 (elem hF rfl)))))))); exact (State.fabStatus_within (sub hF rfl) (sub hR rfl) (State.setNum_within (sub hF rfl) (sub hR rfl) (elem hR rfl) (.fab h5 (elem hF rfl))))])))

theorem execPacketCrcFail_within {F R} {s : State} {a0 a1 a2} (hF : F &&& 0x100012 = 0x100012) (hR : R &&& 0x8000000000000000000000000000000000000000000030000000000000000000000000000000000000000000000000000000000000 = 0x8000000000000000000000000000000000000000000030000000000000000000000000000000000000000000000000000000000000) : Touched F R s (execPacketCrcFail a0 a1 a2 s) := by
  unfold execPacketCrcFail
  exact .answer (sub hF rfl) (fun h1 => (by extract_lets -merge -useContext -underBinder +onlyGivenNames v2; clear_value v2; exact (by extract_lets -merge -useContext -underBinder +onlyGivenNames v3; clear_value v3; exact (State.when_within (sub hF rfl) (sub hR rfl) h1 (fun h4 => (by extract_lets -merge -useContext -underBinder +onlyGivenNames v5; have h5 : Within F R s v5 := (by unfold v5; exact (by split <;> [exact (State.bumpLink_within (sub hF rfl) (sub hR rfl) (elem hR rfl) h4); exact (State.bumpLink_within (sub hF rfl) (sub hR rfl) (elem hR rfl) (State.bumpLink_within (sub hF rfl) (sub hR rfl) (elem hR rfl) h4)); exact h4])); clear_value v5; exact (State.sendLinkCtrl_within (sub hF rfl) (sub hR rfl) h5)))))))

theorem execReservedTypePacket_within {F R} {s : State} {a0 a1 a2 a3} (hF : F &&& 0x3100012 = 0x3100012) (hR : R &&& 0x18000000000000008800000000000000000000000000400000000000000000000000000000000000000000000000000000000000000 = 0x18000000000000008800000000000000000000000000400000000000000000000000000000000000000000000000000000000000000) : Touched F R s (execReservedTypePacket a0 a1 a2 a3 s) :=
  .answer (sub hF rfl) (fun h1 => (State.when_within (sub hF rfl) (sub hR rfl) h1 (fun h2 => (State.arrival_within (sub hF rfl) (sub hR rfl) h2 (fun h3 => (State.bump_within (sub hF rfl) (sub hR rfl) (elem hR rfl) h3))))))

theorem State.takeTransit_within {F R} {z s : State} {a1 a2 a3 a4 a5 a6} (hF : F &&& 0x100002 = 0x100002) (hR : R &&& 0x8000000000000000000000000000000000000000000000000000000000000000000000000000000000000000000000000000000000 = 0x8000000000000000000000000000000000000000000000000000000000000000000000000000000000000000000000000000000000) (h : Within F R z s) : Within F R z (State.takeTransit s a1 a2 a3 a4 a5 a6) := by
  unfold State.takeTransit
  extract_lets -merge -useContext -underBinder +onlyGivenNames v1
  clear_value v1
  exact .ite (by split <;> [exact h; exact (State.forward_within (sub hF rfl) (sub hR rfl) h)]) (State.forward_within (sub hF rfl) (sub hR rfl) h)

theorem execTransitPacket_within {F R} {s : State} {a0 a1 a2 a3 a4 a5 a6} (hF : F &&& 0x3100012 = 0x3100012) (hR : R &&& 0x18000000000000008800000000000000000000000000400000000000000000000000000000000000000000000000000000000000000 = 0x18000000000000008800000000000000000000000000400000000000000000000000000000000000000000000000000000000000000) : Touched F R s (execTransitPacket a0 a1 a2 a3 a4 a5 a6 s) :=
  .answer (sub hF rfl) (fun h1 => (State.arrival_within (sub hF rfl) (sub hR rfl) h1 (fun h2 => (State.takeTransit_within (sub hF rfl) (sub hR rfl) h2))))

/-! ResilOps -/

theorem State.updWslot_within {F R} {z s : State} {a1 a2} (hF : F &&& 0x4000 = 0x4000) (_hR : R &&& 0 = 0) (h : Within F R z s) : Within F R z (State.updWslot s a1 a2) :=
  .ite (.wgt h (elem hF rfl)) (.wgt h (elem hF rfl))

theorem State.updPslot_within {F R} {z s : State} {a1 a2} (hF : F &&& 0x80000 = 0x80000) (_hR : R &&& 0 = 0) (h : Within F R z s) : Within F R z (State.updPslot s a1 a2) :=
  .ite (.plans h (elem hF rfl)) (.plans h (elem hF rfl))

theorem State.updPan_within {F R} {z s : State} {a1 a2} (hF : F &&& 512 = 512) (_hR : R &&& 0 = 0) (h : Within F R z s) : Within F R z (State.updPan s a1 a2) :=
  .pans h (elem hF rfl)

theorem State.tellFailed_within {F R} {z s : State}  (hF : F &&& 0x200002 = 0x200002) (hR : R &&& 0x40000000000000000000000000000000000 = 0x40000000000000000000000000000000000) (h : Within F R z s) : Within F R z (State.tellFailed s) := by
  unfold State.tellFailed
  extract_lets -merge -useContext -underBinder +onlyGivenNames v1
  clear_value v1
  exact State.each_within (sub hF rfl) (sub hR rfl) h (fun h2 => (State.raise_within (sub hF rfl) (sub hR rfl) (elem hR rfl) h2))

theorem State.closeLoad_within {F R} {z s : State}  (hF : F &&& 0 = 0) (hR : R &&& 0x3000000000000000000 = 0x3000000000000000000) (h : Within F R z s) : Within F R z (State.closeLoad s) :=
  State.when_within (sub hF rfl) (sub hR rfl) h (fun h1 => (State.setF_within (sub hF rfl) (sub hR rfl) (elem hR rfl) (State.setF_within (sub hF rfl) (sub hR rfl) (elem hR rfl) h1)))

theorem State.closeAll_within {F R} {z s : State} {a1} (hF : F &&& 0x10a9c602 = 0x10a9c602) (hR : R &&& 0x40000000000000003000000000000000000 = 0x40000000000000003000000000000000000) (h : Within F R z s) : Within F R z (State.closeAll s a1) := by
  unfold State.closeAll
  extract_lets -merge -useContext -underBinder +onlyGivenNames v1
  have h1 : Within F R z v1 := (by unfold v1; exact (State.closeLoad_within (sub hF rfl) (sub hR rfl) (State.tellFailed_within (sub hF rfl) (sub hR rfl) h)))
  clear_value v1
  extract_lets -merge -useContext -underBinder +onlyGivenNames v2
  clear_value v2
  exact .chg 277464576 h1 (sub hF rfl) rfl (fun g hg => by cases g <;> first | rfl | exact absurd hg (by decide))

theorem State.keepAdmin_within {F R} {z s : State} {a1} (hF : F &&& 0x8000 = 0x8000) (hR : R &&& 0 = 0) (h : Within F R z s) : Within F R z (State.keepAdmin s a1) := by
  unfold State.keepAdmin
  extract_lets -merge -useContext -underBinder +onlyGivenNames v1
  clear_value v1
  exact State.updQp_within (sub hF rfl) (sub hR rfl) h

theorem State.enterSafe_within {F R} {z s : State} {a1 a2} (hF : F &&& 0x16a9c682 = 0x16a9c682) (hR : R &&& 0x800000000000000000000000000104000000480000000000000000000000000000040000000000000003000000000000000000 = 0x800000000000000000000000000104000000480000000000000000000000000000040000000000000003000000000000000000) (h : Within F R z s) : Within F R z (State.enterSafe s a1 a2) := by
  unfold State.enterSafe
  exact .ite (by extract_lets -merge -useContext -underBinder +onlyGivenNames v1; have h1 : Within F R z v1 := (by unfold v1; exact (State.raise_within (sub hF rfl) (sub hR rfl) (elem hR rfl) (State.setDevState_within (sub hF rfl) (sub hR rfl) (State.setF_within (sub hF rfl) (sub hR rfl) (elem hR rfl) h)))); clear_value v1; exact (State.keepAdmin_within (sub hF rfl) (sub hR rfl) (State.closeAll_within (sub hF rfl) (sub hR rfl) (State.shutRecord_within (sub hF rfl) (sub hR rfl) (State.snapTrigger_within (sub hF rfl) (sub hR rfl) (State.event_within (sub hF rfl) (sub hR rfl) h1)))))) h

theorem State.uncontained_within {F R} {z s : State} {a1 a2 a3 a4} (hF : F &&& 0x16a9c682 = 0x16a9c682) (hR : R &&& 0x800000000000000000000000000104000000480000000000000000000000000000040000000000000003000000000000000000 = 0x800000000000000000000000000104000000480000000000000000000000000000040000000000000003000000000000000000) (h : Within F R z s) : Within F R z (State.uncontained s a1 a2 a3 a4) :=
  State.enterSafe_within (sub hF rfl) (sub hR rfl) (State.faultRec_within (sub hF rfl) (sub hR rfl) h)

theorem State.lastFault_within {F R} {z s : State} {a1 a2} (hF : F &&& 0x1000 = 0x1000) (hR : R &&& 0 = 0) (h : Within F R z s) : Within F R z (State.lastFault s a1 a2) :=
  State.updPhys_within (sub hF rfl) (sub hR rfl) h

theorem State.listRetired_within {F R} {z s : State} {a1} (hF : F &&& 0x200082 = 0x200082) (hR : R &&& 0x400000000000000000000000000000000000000000000000000000000000000000000000000000 = 0x400000000000000000000000000000000000000000000000000000000000000000000000000000) (h : Within F R z s) : Within F R z (State.listRetired s a1) :=
  .ite (.mram h (elem hF rfl)) (State.raise_within (sub hF rfl) (sub hR rfl) (elem hR rfl) h)

theorem State.unstage_within {F R} {z s : State}  (hF : F &&& 0x84000 = 0x84000) (_hR : R &&& 0 = 0) (h : Within F R z s) : Within F R z (State.unstage s) := by
  unfold State.unstage
  extract_lets -merge -useContext -underBinder +onlyGivenNames v1
  clear_value v1
  exact .chg 540672 h (sub hF rfl) rfl (fun g hg => by cases g <;> first | rfl | exact absurd hg (by decide))

theorem State.moveStaged_within {F R} {z s : State} {a1 a2} (hF : F &&& 0x84200 = 0x84200) (hR : R &&& 0 = 0) (h : Within F R z s) : Within F R z (State.moveStaged s a1 a2) := by
  unfold State.moveStaged
  extract_lets -merge -useContext -underBinder +onlyGivenNames v1 v2
  clear_value v1 v2
  extract_lets -merge -useContext -underBinder +onlyGivenNames u3_0 u3_1 v3
  have h3 : Within F R z v3 := (by unfold v3; exact (.chg 540672 h (sub hF rfl) rfl (fun g hg => by cases g <;> first | rfl | exact absurd hg (by decide))))
  clear_value v3
  exact State.each_within (sub hF rfl) (sub hR rfl) h3 (fun h4 => (by extract_lets -merge -useContext -underBinder +onlyGivenNames v5; clear_value v5; exact (by extract_lets -merge -useContext -underBinder +onlyGivenNames v6; have h6 : Within F R z v6 := (by unfold v6; exact (State.updPan_within (sub hF rfl) (sub hR rfl) h4)); clear_value v6; exact (State.when_within (sub hF rfl) (sub hR rfl) h6 (fun h7 => (State.updPan_within (sub hF rfl) (sub hR rfl) h7))))))

theorem State.clearPans_within {F R} {z s : State} {a1} (hF : F &&& 512 = 512) (hR : R &&& 0 = 0) (h : Within F R z s) : Within F R z (State.clearPans s a1) :=
  State.each_within (sub hF rfl) (sub hR rfl) h (fun h1 => (State.updPan_within (sub hF rfl) (sub hR rfl) h1))

theorem State.moveActive_within {F R} {z s : State} {a1 a2} (hF : F &&& 512 = 512) (hR : R &&& 0 = 0) (h : Within F R z s) : Within F R z (State.moveActive s a1 a2) := by
  unfold State.moveActive
  exact State.each_within (sub hF rfl) (sub hR rfl) h (fun h1 => (by extract_lets -merge -useContext -underBinder +onlyGivenNames v2; clear_value v2; exact (State.updPan_within (sub hF rfl) (sub hR rfl) h1)))

theorem State.replace_within {F R} {z s : State} {a1 a2} (hF : F &&& 0x80200 = 0x80200) (hR : R &&& 0 = 0) (h : Within F R z s) : PWithin F R z (State.replace s a1 a2) := by
  unfold State.replace
  extract_lets -merge -useContext -underBinder +onlyGivenNames p
  cases List.find? (fun e => e.goal == a2) p.place with
  | none => exact PWithin.mk h
  | some e =>
    dsimp -zeta only
    extract_lets -merge -useContext -underBinder +onlyGivenNames t p' u u' w
    have hw : Within F R z w := by
      unfold w
      exact .ite (.plans h (elem hF rfl)) (.plans h (elem hF rfl))
    clear_value w
    refine PWithin.ite (PWithin.mk hw) ?_
    extract_lets x
    have hx : Within F R z x := State.when_within (sub hF rfl) (sub hR rfl) hw
      (fun k => State.clearPans_within (sub hF rfl) (sub hR rfl) k)
    clear_value x
    cases t with
    | none => exact PWithin.mk hx
    | some t => exact PWithin.mk (State.moveActive_within (sub hF rfl) (sub hR rfl) hx)

theorem State.countReplace_within {F R} {z s : State} {a1} (hF : F &&& 0 = 0) (hR : R &&& 0x8000000000000000000000000000000000000000000000 = 0x8000000000000000000000000000000000000000000000) (h : Within F R z s) : Within F R z (State.countReplace s a1) :=
  State.when_within (sub hF rfl) (sub hR rfl) h (fun h1 => (State.bump_within (sub hF rfl) (sub hR rfl) (elem hR rfl) h1))

theorem State.degrade_within {F R} {z s : State} {a1 a2} (hF : F &&& 0x2a84282 = 0x2a84282) (hR : R &&& 0x800000000000000000000000400000000000000000000000000000008000000000000000000000000000000000000000000000 = 0x800000000000000000000000400000000000000000000000000000008000000000000000000000000000000000000000000000) (h : Within F R z s) : Within F R z (State.degrade s a1 a2) := by
  unfold State.degrade
  exact .ite h (by extract_lets -merge -useContext -underBinder +onlyGivenNames u1_0 v1; have h1 : Within F R z v1 := (by unfold v1; exact (State.raise_within (sub hF rfl) (sub hR rfl) (elem hR rfl) (State.faultRec_within (sub hF rfl) (sub hR rfl) (.hlt h (elem hF rfl))))); clear_value v1; exact (by extract_lets -merge -useContext -underBinder +onlyGivenNames v2; have h2 : Within F R z v2 := (by unfold v2; exact (State.countReplace_within (sub hF rfl) (sub hR rfl) h1)); clear_value v2; exact (by extract_lets -merge -useContext -underBinder +onlyGivenNames v3; have h3 : Within F R z v3 := (by unfold v3; exact (State.each_within (sub hF rfl) (sub hR rfl) h2 (fun h4 => (State.when_within (sub hF rfl) (sub hR rfl) h4 (fun h5 => (State.updPan_within (sub hF rfl) (sub hR rfl) h5)))))); clear_value v3; exact (by split <;> [(rename_i hq; have h4 := PWithin.fst' (State.replace_within (sub hF rfl) (sub hR rfl) h3) hq; exact (by split <;> [(rename_i hq; have h5 := PWithin.fst' (State.replace_within (sub hF rfl) (sub hR rfl) h4) hq; exact (by split <;> [exact (by split <;> [exact h5; exact (State.moveStaged_within (sub hF rfl) (sub hR rfl) h5)])]))]))]))))

theorem State.remap_within {F R} {z s : State} {a1 a2} (hF : F &&& 0x2a85282 = 0x2a85282) (hR : R &&& 0x800000000000000000000000400000000000000000000000000000008000000000000000000000000000000000000000000000 = 0x800000000000000000000000400000000000000000000000000000008000000000000000000000000000000000000000000000) (h : Within F R z s) : Within F R z (State.remap s a1 a2) := by
  unfold State.remap
  extract_lets -merge -useContext -underBinder +onlyGivenNames v1
  have h1 : Within F R z v1 := (by unfold v1; exact (State.unstage_within (sub hF rfl) (sub hR rfl) h))
  clear_value v1
  split <;> [exact (State.each_within (sub hF rfl) (sub hR rfl) (State.updPhys_within (sub hF rfl) (sub hR rfl) (State.countReplace_within (sub hF rfl) (sub hR rfl) h1)) (fun h2 => (State.updPan_within (sub hF rfl) (sub hR rfl) h2))); exact (State.degrade_within (sub hF rfl) (sub hR rfl) h1)]

theorem State.retire_within {F R} {z s : State} {a1 a2} (hF : F &&& 0x2a8f682 = 0x2a8f682) (hR : R &&& 0x800000000000000000208000400000000000000000000000041c00008000000400000000000000000000000000000000000000 = 0x800000000000000000208000400000000000000000000000041c00008000000400000000000000000000000000000000000000) (h : Within F R z s) : Within F R z (State.retire s a1 a2) := by
  unfold State.retire
  exact .ite h (by extract_lets -merge -useContext -underBinder +onlyGivenNames v1; clear_value v1; exact (by extract_lets -merge -useContext -underBinder +onlyGivenNames v2; clear_value v2; exact (by extract_lets -merge -useContext -underBinder +onlyGivenNames v3; have h3 : Within F R z v3 := (by unfold v3; exact (by split <;> [exact h; exact (State.when_within (sub hF rfl) (sub hR rfl) h (fun h4 => (State.voidAll_within (sub hF rfl) (sub hR rfl) h4)))])); clear_value v3; exact (by extract_lets -merge -useContext -underBinder +onlyGivenNames v4; have h4 : Within F R z v4 := (by unfold v4; exact (State.updPhys_within (sub hF rfl) (sub hR rfl) h3)); clear_value v4; exact (by extract_lets -merge -useContext -underBinder +onlyGivenNames v5; have h5 : Within F R z v5 := (by unfold v5; exact (State.raise_within (sub hF rfl) (sub hR rfl) (elem hR rfl) (State.faultRec_within (sub hF rfl) (sub hR rfl) (State.listRetired_within (sub hF rfl) (sub hR rfl) (State.bump_within (sub hF rfl) (sub hR rfl) (elem hR rfl) h4))))); clear_value v5; exact (by split <;> [exact h5; exact (.ite h5 (State.remap_within (sub hF rfl) (sub hR rfl) h5))]))))))

theorem State.charge_within {F R} {z s : State} {a1 a2} (hF : F &&& 0x2a8f682 = 0x2a8f682) (hR : R &&& 0x800000000000000000208000400000000000000000000000041c00008000000400000000000000000000000000000000000000 = 0x800000000000000000208000400000000000000000000000041c00008000000400000000000000000000000000000000000000) (h : Within F R z s) : Within F R z (State.charge s a1 a2) := by
  unfold State.charge
  exact .ite h (by extract_lets -merge -useContext -underBinder +onlyGivenNames v1; clear_value v1; exact (by extract_lets -merge -useContext -underBinder +onlyGivenNames v2; have h2 : Within F R z v2 := (by unfold v2; exact (State.lastFault_within (sub hF rfl) (sub hR rfl) (State.updPhys_within (sub hF rfl) (sub hR rfl) h))); clear_value v2; exact (.ite (State.retire_within (sub hF rfl) (sub hR rfl) h2) h2)))

theorem State.panEvent_within {F R} {z s : State} {a1 a2 a3 a4 a5 a6} (hF : F &&& 0x2a8f682 = 0x2a8f682) (hR : R &&& 0x800000000000000000208000400000000000000000000000041c00008000000400000000000000000000000000000000000000 = 0x800000000000000000208000400000000000000000000000041c00008000000400000000000000000000000000000000000000) (h : Within F R z s) : Within F R z (State.panEvent s a1 a2 a3 a4 a5 a6) := by
  unfold State.panEvent
  extract_lets -merge -useContext -underBinder +onlyGivenNames v1
  have h1 : Within F R z v1 := (by unfold v1; exact (State.faultRec_within (sub hF rfl) (sub hR rfl) h))
  clear_value v1
  split <;> [exact h1; exact (State.charge_within (sub hF rfl) (sub hR rfl) h1)]

theorem State.suspectPan_within {F R} {z s : State} {a1} (hF : F &&& 0x1000 = 0x1000) (hR : R &&& 0 = 0) (h : Within F R z s) : Within F R z (State.suspectPan s a1) := by
  unfold State.suspectPan
  split <;> [exact h; exact (State.updPhys_within (sub hF rfl) (sub hR rfl) h)]

theorem State.satFault_within {F R} {z s : State} {a1 a2 a3 a4} (hF : F &&& 0x2a8f682 = 0x2a8f682) (hR : R &&& 0x800000000000000000208000400000000000000000000000041c00008000000400000000000000000000000000000000000000 = 0x800000000000000000208000400000000000000000000000041c00008000000400000000000000000000000000000000000000) (h : Within F R z s) : Within F R z (State.satFault s a1 a2 a3 a4) :=
  State.panEvent_within (sub hF rfl) (sub hR rfl) (State.voidAll_within (sub hF rfl) (sub hR rfl) (State.event_within (sub hF rfl) (sub hR rfl) h))

theorem State.chkTrip_within {F R} {z s : State} {a1 a2 a3} (hF : F &&& 0x2a8f682 = 0x2a8f682) (hR : R &&& 0x800000000000000000208200400000000000000000000000041c00008000000400000000000000000000000000000000000000 = 0x800000000000000000208200400000000000000000000000041c00008000000400000000000000000000000000000000000000) (h : Within F R z s) : Within F R z (State.chkTrip s a1 a2 a3) := by
  unfold State.chkTrip
  extract_lets -merge -useContext -underBinder +onlyGivenNames v1 v2
  clear_value v1 v2
  extract_lets -merge -useContext -underBinder +onlyGivenNames v3
  have h3 : Within F R z v3 := (by unfold v3; exact (State.updPan_within (sub hF rfl) (sub hR rfl) (State.voidAll_within (sub hF rfl) (sub hR rfl) h)))
  clear_value v3
  extract_lets -merge -useContext -underBinder +onlyGivenNames v4
  have h4 : Within F R z v4 := (by unfold v4; exact (State.faultRec_within (sub hF rfl) (sub hR rfl) (State.bump_within (sub hF rfl) (sub hR rfl) (elem hR rfl) h3)))
  clear_value v4
  extract_lets -merge -useContext -underBinder +onlyGivenNames u5_0 v5
  have h5 : Within F R z v5 := (by unfold v5; exact (.hlt h4 (elem hF rfl)))
  clear_value v5
  exact .ite (State.panEvent_within (sub hF rfl) (sub hR rfl) h5) h5

/-! LoadOps -/

theorem State.releaseBounce_within {F R} {z s : State}  (hF : F &&& 0x10004000 = 0x10004000) (hR : R &&& 0 = 0) (h : Within F R z s) : Within F R z (State.releaseBounce s) := by
  unfold State.releaseBounce
  extract_lets -merge -useContext -underBinder +onlyGivenNames v1
  clear_value v1
  exact .ite h (by extract_lets -merge -useContext -underBinder +onlyGivenNames v2; clear_value v2; exact (by extract_lets -merge -useContext -underBinder +onlyGivenNames v3; clear_value v3; exact (State.each_within (sub hF rfl) (sub hR rfl) (.wgt h (elem hF rfl)) (fun h4 => (State.clearParts_within (sub hF rfl) (sub hR rfl) h4)))))

theorem State.startHold_within {F R} {z s : State}  (hF : F &&& 0x4000 = 0x4000) (_hR : R &&& 0 = 0) (h : Within F R z s) : Within F R z (State.startHold s) := by
  unfold State.startHold
  split <;> [exact h; exact (.wgt h (elem hF rfl))]

theorem State.failLoad_within {F R} {z s : State} {a1 a2} (hF : F &&& 0x12304002 = 0x12304002) (hR : R &&& 0x8000000000000000000000000000000000000000000000000000000000000000000000000000000002000003000000000000000000 = 0x8000000000000000000000000000000000000000000000000000000000000000000000000000000002000003000000000000000000) (h : Within F R z s) : Within F R z (State.failLoad s a1 a2) := by
  unfold State.failLoad
  split <;> [exact h; exact (by extract_lets -merge -useContext -underBinder +onlyGivenNames u1_0 v1; have h1 : Within F R z v1 := (by unfold v1; exact (.wgt h (elem hF rfl))); clear_value v1; exact (by extract_lets -merge -useContext -underBinder +onlyGivenNames v2; have h2 : Within F R z v2 := (by unfold v2; exact (.ite h1 (State.clearShards_within (sub hF rfl) (sub hR rfl) (State.updWslot_within (sub hF rfl) (sub hR rfl) h1)))); clear_value v2; exact (by extract_lets -merge -useContext -underBinder +onlyGivenNames v3; have h3 : Within F R z v3 := (by unfold v3; exact (State.clearParts_within (sub hF rfl) (sub hR rfl) (State.clearShards_within (sub hF rfl) (sub hR rfl) h2))); clear_value v3; exact (by extract_lets -merge -useContext -underBinder +onlyGivenNames v4; have h4 : Within F R z v4 := (by unfold v4; exact (State.setF_within (sub hF rfl) (sub hR rfl) (elem hR rfl) (State.setF_within (sub hF rfl) (sub hR rfl) (elem hR rfl) (State.setF_within (sub hF rfl) (sub hR rfl) (elem hR rfl) h3)))); clear_value v4; exact (by extract_lets -merge -useContext -underBinder +onlyGivenNames v5; have h5 : Within F R z v5 := (by unfold v5; exact (State.when_within (sub hF rfl) (sub hR rfl) h4 (fun h6 => (State.bcast_within (sub hF rfl) (sub hR rfl) h6)))); clear_value v5; exact (State.startHold_within (sub hF rfl) (sub hR rfl) (State.event_within (sub hF rfl) (sub hR rfl) (State.raise_within (sub hF rfl) (sub hR rfl) (elem hR rfl) h5))))))))]

theorem State.failPlan_within {F R} {z s : State} {a1} (hF : F &&& 0x280002 = 0x280002) (hR : R &&& 0x8060000000000000000000000000000000000000000 = 0x8060000000000000000000000000000000000000000) (h : Within F R z s) : Within F R z (State.failPlan s a1) := by
  unfold State.failPlan
  split <;> [exact h; exact (by extract_lets -merge -useContext -underBinder +onlyGivenNames u1_0 v1; have h1 : Within F R z v1 := (by unfold v1; exact (State.updPslot_within (sub hF rfl) (sub hR rfl) (.plans h (elem hF rfl)))); clear_value v1; exact (State.raise_within (sub hF rfl) (sub hR rfl) (elem hR rfl) (State.setF_within (sub hF rfl) (sub hR rfl) (elem hR rfl) (State.setF_within (sub hF rfl) (sub hR rfl) (elem hR rfl) h1))))]

/-! Resilience -/

theorem State.forceRefresh_within {F R} {z s : State} {a1} (hF : F &&& 512 = 512) (hR : R &&& 0 = 0) (h : Within F R z s) : Within F R z (State.forceRefresh s a1) := by
  unfold State.forceRefresh
  split <;> [exact h; exact (State.updPan_within (sub hF rfl) (sub hR rfl) h)]

theorem State.gradeFail_within {F R} {z s : State} {a1 a2 a3} (hF : F &&& 0x2a8f682 = 0x2a8f682) (hR : R &&& 0x800000000000000000208100400000000000000000000000041c00008000000400000000000000000000000000000000000000 = 0x800000000000000000208100400000000000000000000000041c00008000000400000000000000000000000000000000000000) (h : Within F R z s) : Within F R z (State.gradeFail s a1 a2 a3) := by
  unfold State.gradeFail
  extract_lets -merge -useContext -underBinder +onlyGivenNames v1
  have h1 : Within F R z v1 := (by unfold v1; exact (State.raise_within (sub hF rfl) (sub hR rfl) (elem hR rfl) (State.bump_within (sub hF rfl) (sub hR rfl) (elem hR rfl) h)))
  clear_value v1
  extract_lets -merge -useContext -underBinder +onlyGivenNames v2
  have h2 : Within F R z v2 := (by unfold v2; exact (by split <;> [exact h1; exact (State.updPhys_within (sub hF rfl) (sub hR rfl) h1)]))
  clear_value v2
  extract_lets -merge -useContext -underBinder +onlyGivenNames v3
  have h3 : Within F R z v3 := (by unfold v3; exact (State.suspectPan_within (sub hF rfl) (sub hR rfl) (State.voidAll_within (sub hF rfl) (sub hR rfl) h2)))
  clear_value v3
  exact State.panEvent_within (sub hF rfl) (sub hR rfl) (State.forceRefresh_within (sub hF rfl) (sub hR rfl) h3)

theorem execGradeVerdict_within {F R} {s : State} {a0 a1} (hF : F &&& 0x12a8f692 = 0x12a8f692) (hR : R &&& 0x800000000000000000208180400000000000000000000000041e00008000000400000000000000000000000000000000000000 = 0x800000000000000000208180400000000000000000000000041e00008000000400000000000000000000000000000000000000) : Touched F R s (execGradeVerdict a0 a1 s) := by
  unfold execGradeVerdict
  exact .answer (sub hF rfl) (fun h1 => (by split <;> [exact h1; exact (by extract_lets -merge -useContext -underBinder +onlyGivenNames v2; clear_value v2; exact (by extract_lets -merge -useContext -underBinder +onlyGivenNames v3; have h3 : Within F R s v3 := (by unfold v3; exact (State.ctx3_within (sub hF rfl) (sub hR rfl) (State.updPan_within (sub hF rfl) (sub hR rfl) h1))); clear_value v3; exact (by extract_lets -merge -useContext -underBinder +onlyGivenNames v4; have h4 : Within F R s v4 := (by unfold v4; exact (State.bump_within (sub hF rfl) (sub hR rfl) (elem hR rfl) (State.releaseBounce_within (sub hF rfl) (sub hR rfl) h3))); clear_value v4; exact (by extract_lets -merge -useContext -underBinder +onlyGivenNames v5; have h5 : Within F R s v5 := (by unfold v5; exact (by split <;> [exact h4; exact (State.updPhys_within (sub hF rfl) (sub hR rfl) h4)])); clear_value v5; exact (.ite h5 (State.gradeFail_within (sub hF rfl) (sub hR rfl) h5))))))]))

theorem State.sweepBeds_within {F R} {z s : State} {a1} (hF : F &&& 512 = 512) (hR : R &&& 0x8000000000 = 0x8000000000) (h : Within F R z s) : Within F R z (State.sweepBeds s a1) := by
  unfold State.sweepBeds
  exact State.each_within (sub hF rfl) (sub hR rfl) h (fun h1 => (by extract_lets -merge -useContext -underBinder +onlyGivenNames v2; clear_value v2; exact (State.when_within (sub hF rfl) (sub hR rfl) (State.updPan_within (sub hF rfl) (sub hR rfl) h1) (fun h3 => (State.bump_within (sub hF rfl) (sub hR rfl) (elem hR rfl) h3)))))

theorem execSweepRun_within {F R} {s : State} {a0 a1 a2} (hF : F &&& 0x1612 = 0x1612) (hR : R &&& 0x200000000000000000000000000000000000000008000000000 = 0x200000000000000000000000000000000000000008000000000) : Touched F R s (execSweepRun a0 a1 a2 s) := by
  unfold execSweepRun
  exact .answer (sub hF rfl) (fun h1 => (by extract_lets -merge -useContext -underBinder +onlyGivenNames v2; clear_value v2; exact (State.when_within (sub hF rfl) (sub hR rfl) h1 (fun h3 => (by extract_lets -merge -useContext -underBinder +onlyGivenNames v4; have h4 : Within F R s v4 := (by unfold v4; exact (State.updPhys_within (sub hF rfl) (sub hR rfl) (State.updPhys_within (sub hF rfl) (sub hR rfl) h3))); clear_value v4; exact (by extract_lets -merge -useContext -underBinder +onlyGivenNames v5; have h5 : Within F R s v5 := (by unfold v5; exact (by split <;> [exact h4; exact (State.sweepBeds_within (sub hF rfl) (sub hR rfl) h4)])); clear_value v5; exact (State.testCtx_within (sub hF rfl) (sub hR rfl) h5)))))))

theorem State.sweepPassed_within {F R} {z s : State} {a1} (hF : F &&& 0x1000 = 0x1000) (hR : R &&& 0 = 0) (h : Within F R z s) : Within F R z (State.sweepPassed s a1) :=
  State.updPhys_within (sub hF rfl) (sub hR rfl) h

theorem State.sweepMismatch_within {F R} {z s : State}  (hF : F &&& 0x200002 = 0x200002) (hR : R &&& 0x1000400000000000000000000000000000000000000000000000000000000000000000000000000000 = 0x1000400000000000000000000000000000000000000000000000000000000000000000000000000000) (h : Within F R z s) : Within F R z (State.sweepMismatch s) :=
  State.raise_within (sub hF rfl) (sub hR rfl) (elem hR rfl) (State.bump_within (sub hF rfl) (sub hR rfl) (elem hR rfl) h)

theorem execSweepVerdict_within {F R} {s : State} {a0 a1 a2} (hF : F &&& 0x2a8f692 = 0x2a8f692) (hR : R &&& 0x800000000000000000209800400000000000000000000000041e00008000000400000000000000000000000000000000000000 = 0x800000000000000000209800400000000000000000000000041e00008000000400000000000000000000000000000000000000) : Touched F R s (execSweepVerdict a0 a1 a2 s) := by
  unfold execSweepVerdict
  exact .answer (sub hF rfl) (fun h1 => (by split <;> [exact h1; exact (by extract_lets -merge -useContext -underBinder +onlyGivenNames v2; have h2 : Within F R s v2 := (by unfold v2; exact (State.updPhys_within (sub hF rfl) (sub hR rfl) (State.updPhys_within (sub hF rfl) (sub hR rfl) h1))); clear_value v2; exact (by extract_lets -merge -useContext -underBinder +onlyGivenNames v3; have h3 : Within F R s v3 := (by unfold v3; exact (by split <;> [exact h2; exact (State.each_within (sub hF rfl) (sub hR rfl) h2 (fun h4 => (State.updPan_within (sub hF rfl) (sub hR rfl) h4)))])); clear_value v3; exact (by extract_lets -merge -useContext -underBinder +onlyGivenNames v4; have h4 : Within F R s v4 := (by unfold v4; exact (State.testCtx_within (sub hF rfl) (sub hR rfl) h3)); clear_value v4; exact (by extract_lets -merge -useContext -underBinder +onlyGivenNames v5; have h5 : ∀ {t : State}, Within F R s t → Within F R s (v5 t) := (by intros; rename_i h0; unfold v5; exact (fun h6 => (State.updPhys_within (sub hF rfl) (sub hR rfl) (State.bump_within (sub hF rfl) (sub hR rfl) (elem hR rfl) h6))) h0); clear_value v5; exact (by split <;> [exact (State.sweepPassed_within (sub hF rfl) (sub hR rfl) (h5 h4)); exact (State.updPhys_within (sub hF rfl) (sub hR rfl) h4); exact (by extract_lets -merge -useContext -underBinder +onlyGivenNames v6; have h6 : Within F R s v6 := (by unfold v6; exact (State.sweepMismatch_within (sub hF rfl) (sub hR rfl) (h5 h4))); clear_value v6; exact (by extract_lets -merge -useContext -underBinder +onlyGivenNames v7; have h7 : Within F R s v7 := (by unfold v7; exact (.ite (State.updPhys_within (sub hF rfl) (sub hR rfl) h6) (State.sweepPassed_within (sub hF rfl) (sub hR rfl) h6))); clear_value v7; exact (State.retire_within (sub hF rfl) (sub hR rfl) (State.lastFault_within (sub hF rfl) (sub hR rfl) (State.faultRec_within (sub hF rfl) (sub hR rfl) h7))))); exact (by extract_lets -merge -useContext -underBinder +onlyGivenNames v6; have h6 : Within F R s v6 := (by unfold v6; exact (State.updPhys_within (sub hF rfl) (sub hR rfl) (State.sweepMismatch_within (sub hF rfl) (sub hR rfl) (h5 h4)))); clear_value v6; exact (by extract_lets -merge -useContext -underBinder +onlyGivenNames v7; have h7 : Within F R s v7 := (by unfold v7; exact (by split <;> [exact h6; exact (State.forceRefresh_within (sub hF rfl) (sub hR rfl) (State.suspectPan_within (sub hF rfl) (sub hR rfl) (State.voidAll_within (sub hF rfl) (sub hR rfl) h6)))])); clear_value v7; exact (State.charge_within (sub hF rfl) (sub hR rfl) (State.faultRec_within (sub hF rfl) (sub hR rfl) h7))))])))))]))

theorem execConfigScrub_within {F R} {s : State} {a0 a1 a2} (hF : F &&& 0x2a8f692 = 0x2a8f692) (hR : R &&& 0x800000000000000000228000400000000000000000000000041c00008000000400000000000000000000000000000000000000 = 0x800000000000000000228000400000000000000000000000041c00008000000400000000000000000000000000000000000000) : Touched F R s (execConfigScrub a0 a1 a2 s) := by
  unfold execConfigScrub
  exact .answer (sub hF rfl) (fun h1 => (State.when_within (sub hF rfl) (sub hR rfl) h1 (fun h2 => (State.each_within (sub hF rfl) (sub hR rfl) h2 (fun h3 => (by extract_lets -merge -useContext -underBinder +onlyGivenNames v4; clear_value v4; exact (by extract_lets -merge -useContext -underBinder +onlyGivenNames v5; have h5 : Within F R s v5 := (by unfold v5; exact (State.raise_within (sub hF rfl) (sub hR rfl) (elem hR rfl) (State.bump_within (sub hF rfl) (sub hR rfl) (elem hR rfl) h3))); clear_value v5; exact (by extract_lets -merge -useContext -underBinder +onlyGivenNames v6; have h6 : Within F R s v6 := (by unfold v6; exact (by split <;> [exact h5; exact (State.voidAll_within (sub hF rfl) (sub hR rfl) h5)])); clear_value v6; exact (State.charge_within (sub hF rfl) (sub hR rfl) (State.faultRec_within (sub hF rfl) (sub hR rfl) h6))))))))))

theorem State.kvDamaged_within {F R} {z s : State} {a1 a2 a3 a4 a5 a6 a7} (hF : F &&& 0x12200082 = 0x12200082) (hR : R &&& 0x800000000000000000100000000000000000000000000000000000000000000000000000000000000000000000000000000000 = 0x800000000000000000100000000000000000000000000000000000000000000000000000000000000000000000000000000000) (h : Within F R z s) : Within F R z (State.kvDamaged s a1 a2 a3 a4 a5 a6 a7) := by
  unfold State.kvDamaged
  extract_lets -merge -useContext -underBinder +onlyGivenNames v1
  have h1 : Within F R z v1 := (by unfold v1; exact (State.bump_within (sub hF rfl) (sub hR rfl) (elem hR rfl) h))
  clear_value v1
  extract_lets -merge -useContext -underBinder +onlyGivenNames v2
  clear_value v2
  extract_lets -merge -useContext -underBinder +onlyGivenNames v3
  have h3 : Within F R z v3 := (by unfold v3; exact (State.faultRec_within (sub hF rfl) (sub hR rfl) h1))
  clear_value v3
  split <;> [exact h3; exact (by split <;> [exact h3; exact (State.zeroBlock_within (sub hF rfl) (sub hR rfl) h3)])]

theorem execMemoryError_within {F R} {s : State} {a0 a1 a2 a3} (hF : F &&& 0x16a9f692 = 0x16a9f692) (hR : R &&& 0x8000000000000000003c8000400104000000480000000000041c00008000000400040000000000000003000000000000000000 = 0x8000000000000000003c8000400104000000480000000000041c00008000000400040000000000000003000000000000000000) : Touched F R s (execMemoryError a0 a1 a2 a3 s) := by
  unfold execMemoryError
  exact .answer (sub hF rfl) (fun h1 => (State.when_within (sub hF rfl) (sub hR rfl) h1 (fun h2 => (by extract_lets -merge -useContext -underBinder +onlyGivenNames v3; clear_value v3; exact (.ite (State.updPhys_within (sub hF rfl) (sub hR rfl) (State.bump_within (sub hF rfl) (sub hR rfl) (elem hR rfl) h2)) (by extract_lets -merge -useContext -underBinder +onlyGivenNames v4; have h4 : Within F R s v4 := (by unfold v4; exact (State.raise_within (sub hF rfl) (sub hR rfl) (elem hR rfl) (State.updPhys_within (sub hF rfl) (sub hR rfl) (State.bump_within (sub hF rfl) (sub hR rfl) (elem hR rfl) h2)))); clear_value v4; exact (by extract_lets -merge -useContext -underBinder +onlyGivenNames v5; have h5 : ∀ {t : State} {x1}, Within F R s t → Within F R s (v5 t x1) := (by intros; rename_i h0; unfold v5; exact (fun h6 => (State.charge_within (sub hF rfl) (sub hR rfl) (State.faultRec_within (sub hF rfl) (sub hR rfl) (State.voidAll_within (sub hF rfl) (sub hR rfl) h6)))) h0); clear_value v5; exact (by split <;> [exact (h5 h4); exact (h5 h4); exact (h5 h4); exact (State.kvDamaged_within (sub hF rfl) (sub hR rfl) h4); exact (State.voidAll_within (sub hF rfl) (sub hR rfl) h4); exact (State.uncontained_within (sub hF rfl) (sub hR rfl) h4); exact (State.uncontained_within (sub hF rfl) (sub hR rfl) h4); exact (State.uncontained_within (sub hF rfl) (sub hR rfl) h4); exact (State.uncontained_within (sub hF rfl) (sub hR rfl) h4); exact (State.uncontained_within (sub hF rfl) (sub hR rfl) h4)]))))))))

theorem execUncontainedFault_within {F R} {s : State} {a0 a1} (hF : F &&& 0x16a9ce92 = 0x16a9ce92) (hR : R &&& 0x800000000000000000400000040104000000480000000000000000000000000000040000000000000003000000000000000000 = 0x800000000000000000400000040104000000480000000000000000000000000000040000000000000003000000000000000000) : Touched F R s (execUncontainedFault a0 a1 s) := by
  unfold execUncontainedFault
  exact .answer (sub hF rfl) (fun h1 => (State.when_within (sub hF rfl) (sub hR rfl) h1 (fun h2 => (by split <;> [exact (State.uncontained_within (sub hF rfl) (sub hR rfl) (State.setF_within (sub hF rfl) (sub hR rfl) (elem hR rfl) h2)); exact (State.uncontained_within (sub hF rfl) (sub hR rfl) h2); exact (State.uncontained_within (sub hF rfl) (sub hR rfl) h2); exact (State.uncontained_within (sub hF rfl) (sub hR rfl) (by extract_lets -merge -useContext -underBinder +onlyGivenNames v3; have h3 : Within F R s v3 := (by unfold v3; exact (State.setF_within (sub hF rfl) (sub hR rfl) (elem hR rfl) h2)); clear_value v3; exact (.clusters h3 (elem hF rfl)))); exact (State.uncontained_within (sub hF rfl) (sub hR rfl) (by extract_lets -merge -useContext -underBinder +onlyGivenNames v3; have h3 : Within F R s v3 := (by unfold v3; exact (State.setF_within (sub hF rfl) (sub hR rfl) (elem hR rfl) h2)); clear_value v3; exact (.clusters h3 (elem hF rfl))))]))))

theorem State.hltRequest_within {F R} {z s : State}  (hF : F &&& 0x201082 = 0x201082) (hR : R &&& 0x40500000000000000000000000000000000000000000000000000000000000000000000000000000 = 0x40500000000000000000000000000000000000000000000000000000000000000000000000000000) (h : Within F R z s) : Within F R z (State.hltRequest s) := by
  unfold State.hltRequest
  extract_lets -merge -useContext -underBinder +onlyGivenNames v1 v2 v3 v4 v5
  clear_value v1 v2 v3 v4 v5
  extract_lets -merge -useContext -underBinder +onlyGivenNames u6_0 v6
  have h6 : Within F R z v6 := (by unfold v6; exact (.ite h (.ite (.mram h (elem hF rfl)) (State.updPhys_within (sub hF rfl) (sub hR rfl) h))))
  clear_value v6
  exact State.raise_within (sub hF rfl) (sub hR rfl) (elem hR rfl) (State.setF_within (sub hF rfl) (sub hR rfl) (elem hR rfl) (State.setNum_within (sub hF rfl) (sub hR rfl) (elem hR rfl) h6))

end Sys2Proof.Machine
end

