-- ==== Sys2Proof/Laws/WithinWork.lean ====
section
/-! SUPPORT. `Within` (Within.lean) through products, beds, weights, plans, queue pairs, sessions and steps: one lemma for each operation, in the order
of the model's files; `Touched` for each meaning. -/

namespace Sys2Proof.Machine

/-! Products -/

theorem State.countPan_within {F R} {z s : State} {a1 a2 a3 a4 a5 a6} (hF : F &&& 0 = 0) (hR : R &&& 0x80000000000000000000000000000000000000000000000000000000000000000000000000000000000000000000000000000000000000 = 0x80000000000000000000000000000000000000000000000000000000000000000000000000000000000000000000000000000000000000) (hr3 : R.testBit (Reg.ctorIdx a3) = true) (hr4 : R.testBit (Reg.ctorIdx a4) = true) (h : Within F R z s) : Within F R z (State.countPan s a1 a2 a3 a4 a5 a6) :=
  State.bump_within (sub hF rfl) (sub hR rfl) (elem hR rfl) (State.bump_within (sub hF rfl) (sub hR rfl) hr4 (State.bump_within (sub hF rfl) (sub hR rfl) hr3 h))

theorem State.demand_within {F R} {z s : State} {a1 a2 a3} (hF : F &&& 0x400 = 0x400) (hR : R &&& 0x10000000000000000000000000000000000080000000000000000 = 0x10000000000000000000000000000000000080000000000000000) (h : Within F R z s) : Within F R z (State.demand s a1 a2 a3) := by
  unfold State.demand
  exact .ite h (by extract_lets -merge -useContext -underBinder +onlyGivenNames v1; clear_value v1; exact (State.startHead_within (sub hF rfl) (sub hR rfl) (State.bump_within (sub hF rfl) (sub hR rfl) (elem hR rfl) (State.bump_within (sub hF rfl) (sub hR rfl) (elem hR rfl) (State.updHoist_within (sub hF rfl) (sub hR rfl) h)))))

theorem State.useDraw_within {F R} {z s : State} {a1} (hF : F &&& 0x600 = 0x600) (hR : R &&& 0 = 0) (h : Within F R z s) : Within F R z (State.useDraw s a1) :=
  .ite (State.updPan_within (sub hF rfl) (sub hR rfl) h) (State.updCore_within (sub hF rfl) (sub hR rfl) h)

theorem State.record_within {F R} {z s : State} {a1 a2 a3 a4} (hF : F &&& 0x18000000 = 0x18000000) (hR : R &&& 0x63f0000000000000000000000000000000000000000000000000000000000000000000000000000000000000000040000000000000 = 0x63f0000000000000000000000000000000000000000000000000000000000000000000000000000000000000000040000000000000) (h : Within F R z s) : Within F R z (State.record s a1 a2 a3 a4) := by
  unfold State.record
  extract_lets -merge -useContext -underBinder +onlyGivenNames v1
  have h1 : Within F R z v1 := (by unfold v1; exact (State.bump_within (sub hF rfl) (sub hR rfl) (elem hR rfl) (State.moves_within (sub hF rfl) (sub hR rfl) (State.memWrite_within (sub hF rfl) (sub hR rfl) h))))
  clear_value v1
  exact .saved h1 (elem hF rfl)

theorem State.saveLane_within {F R} {z s : State} {a1 a2 a3} (hF : F &&& 0x18000600 = 0x18000600) (hR : R &&& 0x63f0000000000000000000000000000000000000000000000000000000000000000000000000000000000000000040000000000000 = 0x63f0000000000000000000000000000000000000000000000000000000000000000000000000000000000000000040000000000000) (h : Within F R z s) : Within F R z (State.saveLane s a1 a2 a3) := by
  unfold State.saveLane
  extract_lets -merge -useContext -underBinder +onlyGivenNames v1 v2 v3 v4
  clear_value v1 v2 v3 v4
  extract_lets -merge -useContext -underBinder +onlyGivenNames v5
  have h5 : Within F R z v5 := (by unfold v5; exact (State.record_within (sub hF rfl) (sub hR rfl) h))
  clear_value v5
  extract_lets -merge -useContext -underBinder +onlyGivenNames v6
  have h6 : Within F R z v6 := (by unfold v6; exact (State.updPan_within (sub hF rfl) (sub hR rfl) h5))
  clear_value v6
  exact State.updCore_within (sub hF rfl) (sub hR rfl) h6

theorem State.saveSets_within {F R} {z s : State} {a1 a2} (hF : F &&& 0x18000600 = 0x18000600) (hR : R &&& 0x63f0000000000000000000000000000000000000000000000000000000000000000000000000000000000000000040000000000000 = 0x63f0000000000000000000000000000000000000000000000000000000000000000000000000000000000000000040000000000000) (h : Within F R z s) : Within F R z (State.saveSets s a1 a2) :=
  State.each_within (sub hF rfl) (sub hR rfl) h (fun h1 => (State.when_within (sub hF rfl) (sub hR rfl) h1 (fun h2 => (State.saveLane_within (sub hF rfl) (sub hR rfl) h2))))

theorem State.setSlot_within {F R} {z s : State} {a1 a2 a3} (hF : F &&& 0x800 = 0x800) (_hR : R &&& 0 = 0) (h : Within F R z s) : Within F R z (State.setSlot s a1 a2 a3) :=
  .clusters h (elem hF rfl)

theorem State.saveSlot_within {F R} {z s : State} {a1 a2} (hF : F &&& 0x18000800 = 0x18000800) (hR : R &&& 0x63f0000000000000000000000000000000000000000000000000000000000000000000000000000000000000000040000000000000 = 0x63f0000000000000000000000000000000000000000000000000000000000000000000000000000000000000000040000000000000) (h : Within F R z s) : Within F R z (State.saveSlot s a1 a2) := by
  unfold State.saveSlot
  extract_lets -merge -useContext -underBinder +onlyGivenNames v1 v2
  clear_value v1 v2
  exact State.setSlot_within (sub hF rfl) (sub hR rfl) (State.record_within (sub hF rfl) (sub hR rfl) h)

theorem State.laneWait_within {F R} {z s : State} {a1 a2 a3} (hF : F &&& 0x400 = 0x400) (hR : R &&& 0x200000000000000000000000000000000000000000000000000 = 0x200000000000000000000000000000000000000000000000000) (h : Within F R z s) : Within F R z (State.laneWait s a1 a2 a3) := by
  unfold State.laneWait
  split <;> [exact h; exact (State.deschedule_within (sub hF rfl) (sub hR rfl) h)]

theorem State.laneFree_within {F R} {z s : State} {a1} (hF : F &&& 0x400 = 0x400) (hR : R &&& 0x41e00000000000000000000000000000000000000000000000000 = 0x41e00000000000000000000000000000000000000000000000000) (h : Within F R z s) : Within F R z (State.laneFree s a1) :=
  State.each_within (sub hF rfl) (sub hR rfl) h (fun h1 => (State.when_within (sub hF rfl) (sub hR rfl) h1 (fun h2 => (State.wakeCtx_within (sub hF rfl) (sub hR rfl) h2))))

theorem State.issue_within {F R} {z s : State} {a1 a2 a3} (hF : F &&& 0x600 = 0x600) (hR : R &&& 0x100000000000000000000000000000000000a0000000000000000 = 0x100000000000000000000000000000000000a0000000000000000) (h : Within F R z s) : Within F R z (State.issue s a1 a2 a3) := by
  unfold State.issue
  extract_lets -merge -useContext -underBinder +onlyGivenNames v1 v2 v3 v4 v5 v6 v7 v8 u9_0 v9 v10
  clear_value v1 v2 v3 v4 v5 v6 v7 v8 v9 v10
  extract_lets -merge -useContext -underBinder +onlyGivenNames v11
  have h11 : Within F R z v11 := (by unfold v11; exact (State.updPan_within (sub hF rfl) (sub hR rfl) h))
  clear_value v11
  extract_lets -merge -useContext -underBinder +onlyGivenNames v12
  have h12 : Within F R z v12 := (by unfold v12; exact (State.bump_within (sub hF rfl) (sub hR rfl) (elem hR rfl) (State.updCore_within (sub hF rfl) (sub hR rfl) h11)))
  clear_value v12
  exact State.demand_within (sub hF rfl) (sub hR rfl) (State.when_within (sub hF rfl) (sub hR rfl) h12 (fun h13 => (State.useDraw_within (sub hF rfl) (sub hR rfl) h13)))

theorem execProductIssue_within {F R} {s : State} {a0 a1 a2} (hF : F &&& 0x18000612 = 0x18000612) (hR : R &&& 0x63f00000000000000000000000000000000000000000000000000102000000000000000000000000000000000a0040000000000000 = 0x63f00000000000000000000000000000000000000000000000000102000000000000000000000000000000000a0040000000000000) : Touched F R s (execProductIssue a0 a1 a2 s) := by
  unfold execProductIssue
  split
  · refine .answer (sub hF rfl) (fun h => ?_)
    extract_lets x
    split
    · exact h
    · refine .ite h (.ite (State.laneWait_within (sub hF rfl) (sub hR rfl) (State.updPan_within (sub hF rfl) (sub hR rfl) h))
        (.ite (State.laneWait_within (sub hF rfl) (sub hR rfl) h) ?_))
      exact State.issue_within (sub hF rfl) (sub hR rfl) (State.when_within (sub hF rfl) (sub hR rfl) h
        (fun k => State.saveSets_within (sub hF rfl) (sub hR rfl) k))
  · exact .refused

theorem State.updConv_within {F R} {z s : State} {a1 a2} (hF : F &&& 512 = 512) (hR : R &&& 0 = 0) (h : Within F R z s) : Within F R z (State.updConv s a1 a2) :=
  State.updPan_within (sub hF rfl) (sub hR rfl) h

theorem State.nextProduct_within {F R} {z s : State} {a1} (hF : F &&& 0x600 = 0x600) (hR : R &&& 0 = 0) (h : Within F R z s) : Within F R z (State.nextProduct s a1) := by
  unfold State.nextProduct
  extract_lets -merge -useContext -underBinder +onlyGivenNames v1 v2
  clear_value v1 v2
  exact .ite (State.updCore_within (sub hF rfl) (sub hR rfl) (State.updPan_within (sub hF rfl) (sub hR rfl) h)) h

theorem State.splitPass_within {F R} {z s : State} {a1 a2 a3 a4 a5} (hF : F &&& 512 = 512) (hR : R &&& 0x80180000000000000000000000000000000000000000000000000000000000000000000000000000000000000000000000000180000000 = 0x80180000000000000000000000000000000000000000000000000000000000000000000000000000000000000000000000000180000000) (h : Within F R z s) : Within F R z (State.splitPass s a1 a2 a3 a4 a5) := by
  unfold State.splitPass
  extract_lets -merge -useContext -underBinder +onlyGivenNames v1 v2
  clear_value v1 v2
  extract_lets -merge -useContext -underBinder +onlyGivenNames v3
  have h3 : Within F R z v3 := (by unfold v3; exact (State.updConv_within (sub hF rfl) (sub hR rfl) h))
  clear_value v3
  extract_lets -merge -useContext -underBinder +onlyGivenNames v4
  have h4 : Within F R z v4 := (by unfold v4; exact (State.countPan_within (sub hF rfl) (sub hR rfl) (elem hR rfl) (elem hR rfl) h3))
  clear_value v4
  exact State.when_within (sub hF rfl) (sub hR rfl) h4 (fun h5 => (State.countPan_within (sub hF rfl) (sub hR rfl) (elem hR rfl) (elem hR rfl) h5))

theorem State.satAbandon_within {F R} {z s : State} {a1 a2 a3 a4} (hF : F &&& 0x2a8f682 = 0x2a8f682) (hR : R &&& 0x80280000800000000000000000208000400000000000000000000000041c00008000000400000000000000000000000000000280000000 = 0x80280000800000000000000000208000400000000000000000000000041c00008000000400000000000000000000000000000280000000) (h : Within F R z s) : Within F R z (State.satAbandon s a1 a2 a3 a4) := by
  unfold State.satAbandon
  extract_lets -merge -useContext -underBinder +onlyGivenNames v1
  clear_value v1
  extract_lets -merge -useContext -underBinder +onlyGivenNames v2
  have h2 : Within F R z v2 := (by unfold v2; exact (State.when_within (sub hF rfl) (sub hR rfl) h (fun h3 => (State.countPan_within (sub hF rfl) (sub hR rfl) (elem hR rfl) (elem hR rfl) h3))))
  clear_value v2
  extract_lets -merge -useContext -underBinder +onlyGivenNames v3
  have h3 : Within F R z v3 := (by unfold v3; exact (State.updConv_within (sub hF rfl) (sub hR rfl) h2))
  clear_value v3
  extract_lets -merge -useContext -underBinder +onlyGivenNames v4
  have h4 : Within F R z v4 := (by unfold v4; exact (State.when_within (sub hF rfl) (sub hR rfl) h3 (fun h5 => (State.updPan_within (sub hF rfl) (sub hR rfl) h5))))
  clear_value v4
  exact State.nextProduct_within (sub hF rfl) (sub hR rfl) (State.satFault_within (sub hF rfl) (sub hR rfl) (State.bump_within (sub hF rfl) (sub hR rfl) (elem hR rfl) (State.bump_within (sub hF rfl) (sub hR rfl) (elem hR rfl) h4)))

theorem State.mismatch_within {F R} {z s : State} {a1 a2 a3} (hF : F &&& 0x2a8f682 = 0x2a8f682) (hR : R &&& 0x800000000000000000208200400000000000000000000000041c00008000000400000000000000000000000000000800000000 = 0x800000000000000000208200400000000000000000000000041c00008000000400000000000000000000000000000800000000) (h : Within F R z s) : Within F R z (State.mismatch s a1 a2 a3) := by
  unfold State.mismatch
  extract_lets -merge -useContext -underBinder +onlyGivenNames v1 v2
  clear_value v1 v2
  extract_lets -merge -useContext -underBinder +onlyGivenNames v3
  have h3 : Within F R z v3 := (by unfold v3; exact (State.updPan_within (sub hF rfl) (sub hR rfl) (State.bump_within (sub hF rfl) (sub hR rfl) (elem hR rfl) h)))
  clear_value v3
  exact State.when_within (sub hF rfl) (sub hR rfl) h3 (fun h4 => (State.chkTrip_within (sub hF rfl) (sub hR rfl) h4))

theorem State.deliver_within {F R} {z s : State} {a1 a2 a3 a4 a5 a6} (hF : F &&& 0x2a8f682 = 0x2a8f682) (hR : R &&& 0x80400000800000000000000000208200400000000000000000000000041c00008000000400000000000000000000040020000c00000000 = 0x80400000800000000000000000208200400000000000000000000000041c00008000000400000000000000000000040020000c00000000) (h : Within F R z s) : Within F R z (State.deliver s a1 a2 a3 a4 a5 a6) := by
  unfold State.deliver
  extract_lets -merge -useContext -underBinder +onlyGivenNames v1 v2 v3 v4 v5 v6
  clear_value v1 v2 v3 v4 v5 v6
  extract_lets -merge -useContext -underBinder +onlyGivenNames v7
  have h7 : Within F R z v7 := (by unfold v7; exact (State.updConv_within (sub hF rfl) (sub hR rfl) h))
  clear_value v7
  extract_lets -merge -useContext -underBinder +onlyGivenNames v8
  have h8 : Within F R z v8 := (by unfold v8; exact (State.when_within (sub hF rfl) (sub hR rfl) h7 (fun h9 => (State.bump_within (sub hF rfl) (sub hR rfl) (elem hR rfl) (State.bump_within (sub hF rfl) (sub hR rfl) (elem hR rfl) (State.countPan_within (sub hF rfl) (sub hR rfl) (elem hR rfl) (elem hR rfl) h9))))))
  clear_value v8
  extract_lets -merge -useContext -underBinder +onlyGivenNames v9
  have h9 : Within F R z v9 := (by unfold v9; exact (State.when_within (sub hF rfl) (sub hR rfl) h8 (fun h10 => (State.nextProduct_within (sub hF rfl) (sub hR rfl) h10))))
  clear_value v9
  extract_lets -merge -useContext -underBinder +onlyGivenNames v10
  clear_value v10
  exact State.each_within (sub hF rfl) (sub hR rfl) h9 (fun h11 => (State.mismatch_within (sub hF rfl) (sub hR rfl) h11))

theorem execPassComplete_within {F R} {s : State} {a0 a1 a2} (hF : F &&& 0x2a8f692 = 0x2a8f692) (hR : R &&& 0x80780000800000000000000000208200400000000000000000000000041c00008000000400000000000000000000040020000f80000000 = 0x80780000800000000000000000208200400000000000000000000000041c00008000000400000000000000000000040020000f80000000) : Touched F R s (execPassComplete a0 a1 a2 s) := by
  unfold execPassComplete
  exact .answer (sub hF rfl) (fun h1 => (by split <;> [exact (by split <;> [exact h1; exact (by extract_lets -merge -useContext -underBinder +onlyGivenNames v2; clear_value v2; exact (by extract_lets -merge -useContext -underBinder +onlyGivenNames v3; clear_value v3; exact (.ite (State.deliver_within (sub hF rfl) (sub hR rfl) h1) (.ite (State.splitPass_within (sub hF rfl) (sub hR rfl) h1) (State.satAbandon_within (sub hF rfl) (sub hR rfl) h1)))))]); exact h1]))

theorem execSluiceQReady_within {F R} {s : State} {a0 a1} (hF : F &&& 530 = 530) (hR : R &&& 0x40000000000000000000000000000000000000000000000000000000000000000000000000000000000000000410000000000000000 = 0x40000000000000000000000000000000000000000000000000000000000000000000000000000000000000000410000000000000000) : Touched F R s (execSluiceQReady a0 a1 s) := by
  unfold execSluiceQReady
  exact .answer (sub hF rfl) (fun h1 => (by split <;> [exact (.ite h1 (by extract_lets -merge -useContext -underBinder +onlyGivenNames v2; clear_value v2; exact (by extract_lets -merge -useContext -underBinder +onlyGivenNames v3; clear_value v3; exact (by extract_lets -merge -useContext -underBinder +onlyGivenNames v4; have h4 : Within F R s v4 := (by unfold v4; exact (State.updPan_within (sub hF rfl) (sub hR rfl) h1)); clear_value v4; exact (State.bump_within (sub hF rfl) (sub hR rfl) (elem hR rfl) (State.bump_within (sub hF rfl) (sub hR rfl) (elem hR rfl) (State.bump_within (sub hF rfl) (sub hR rfl) (elem hR rfl) h4))))))); exact h1]))

theorem State.stage4Done_within {F R} {z s : State} {a1 a2} (hF : F &&& 0x600 = 0x600) (hR : R &&& 0x41e00000000000000000000000000000000300000000000000000 = 0x41e00000000000000000000000000000000300000000000000000) (h : Within F R z s) : Within F R z (State.stage4Done s a1 a2) := by
  unfold State.stage4Done
  extract_lets -merge -useContext -underBinder +onlyGivenNames v1
  have h1 : Within F R z v1 := (by unfold v1; exact (State.bump_within (sub hF rfl) (sub hR rfl) (elem hR rfl) h))
  clear_value v1
  split <;> [exact h1; exact (State.laneFree_within (sub hF rfl) (sub hR rfl) (State.updPan_within (sub hF rfl) (sub hR rfl) (State.bump_within (sub hF rfl) (sub hR rfl) (elem hR rfl) h1)))]

theorem State.repeatProduct_within {F R} {z s : State} {a1 a2 a3 a4 a5} (hF : F &&& 0x600 = 0x600) (hR : R &&& 0x80800000000000000000000000000000000000000000000000000000000000000000000000000000000000000000000002000000000000 = 0x80800000000000000000000000000000000000000000000000000000000000000000000000000000000000000000000002000000000000) (h : Within F R z s) : Within F R z (State.repeatProduct s a1 a2 a3 a4 a5) := by
  unfold State.repeatProduct
  extract_lets -merge -useContext -underBinder +onlyGivenNames v1 v2
  clear_value v1 v2
  extract_lets -merge -useContext -underBinder +onlyGivenNames v3
  have h3 : Within F R z v3 := (by unfold v3; exact (State.updPan_within (sub hF rfl) (sub hR rfl) h))
  clear_value v3
  exact State.when_within (sub hF rfl) (sub hR rfl) (State.bump_within (sub hF rfl) (sub hR rfl) (elem hR rfl) (State.bump_within (sub hF rfl) (sub hR rfl) (elem hR rfl) (State.bump_within (sub hF rfl) (sub hR rfl) (elem hR rfl) h3))) (fun h4 => (State.nextProduct_within (sub hF rfl) (sub hR rfl) h4))

theorem State.capture_within {F R} {z s : State} {a1 a2 a3 a4} (hF : F &&& 0x400 = 0x400) (hR : R &&& 0x800000000000 = 0x800000000000) (h : Within F R z s) : Within F R z (State.capture s a1 a2 a3 a4) := by
  unfold State.capture
  extract_lets -merge -useContext -underBinder +onlyGivenNames v1 v2
  clear_value v1 v2
  exact State.setF_within (sub hF rfl) (sub hR rfl) (elem hR rfl) (State.setF_within (sub hF rfl) (sub hR rfl) (elem hR rfl) (State.setF_within (sub hF rfl) (sub hR rfl) (elem hR rfl) (State.updCore_within (sub hF rfl) (sub hR rfl) h)))

theorem State.countOwner_within {F R} {z s : State} {a1} (hF : F &&& 0 = 0) (hR : R &&& 0x10000000000000000000000000000000000000000000000000000000000000000000000000000000000000000000000000000000000000000 = 0x10000000000000000000000000000000000000000000000000000000000000000000000000000000000000000000000000000000000000000) (h : Within F R z s) : Within F R z (State.countOwner s a1) := by
  unfold State.countOwner
  split <;> [exact h; exact (State.bump_within (sub hF rfl) (sub hR rfl) (elem hR rfl) h)]

theorem State.keepGraded_within {F R} {z s : State} {a1 a2 a3} (hF : F &&& 0x600 = 0x600) (hR : R &&& 0x200000000000000000000000000000000000000000000000000 = 0x200000000000000000000000000000000000000000000000000) (h : Within F R z s) : Within F R z (State.keepGraded s a1 a2 a3) :=
  State.when_within (sub hF rfl) (sub hR rfl) h (fun h1 => (State.ctx3_within (sub hF rfl) (sub hR rfl) (State.updPan_within (sub hF rfl) (sub hR rfl) h1)))

theorem State.completeProduct_within {F R} {z s : State} {a1 a2 a3 a4 a5 a6 a7} (hF : F &&& 0x2000600 = 0x2000600) (hR : R &&& 0x10081020000000000000000000000000000000000000000000000000000041e00000000000000000000000000000000000005800040000000 = 0x10081020000000000000000000000000000000000000000000000000000041e00000000000000000000000000000000000005800040000000) (h : Within F R z s) : Within F R z (State.completeProduct s a1 a2 a3 a4 a5 a6 a7) := by
  unfold State.completeProduct
  extract_lets -merge -useContext -underBinder +onlyGivenNames v1 v2
  clear_value v1 v2
  extract_lets -merge -useContext -underBinder +onlyGivenNames v3
  have h3 : Within F R z v3 := (by unfold v3; exact (State.bump_within (sub hF rfl) (sub hR rfl) (elem hR rfl) (State.updPan_within (sub hF rfl) (sub hR rfl) h)))
  clear_value v3
  extract_lets -merge -useContext -underBinder +onlyGivenNames v4
  have h4 : Within F R z v4 := (by unfold v4; exact (State.when_within (sub hF rfl) (sub hR rfl) h3 (fun h5 => (State.countOwner_within (sub hF rfl) (sub hR rfl) (State.countPan_within (sub hF rfl) (sub hR rfl) (elem hR rfl) (elem hR rfl) h5)))))
  clear_value v4
  extract_lets -merge -useContext -underBinder +onlyGivenNames v5
  have h5 : Within F R z v5 := (by unfold v5; exact (State.when_within (sub hF rfl) (sub hR rfl) h4 (fun h6 => (State.event_within (sub hF rfl) (sub hR rfl) (State.bump_within (sub hF rfl) (sub hR rfl) (elem hR rfl) (State.bump_within (sub hF rfl) (sub hR rfl) (elem hR rfl) h6))))))
  clear_value v5
  extract_lets -merge -useContext -underBinder +onlyGivenNames v6
  have h6 : Within F R z v6 := (by unfold v6; exact (State.keepGraded_within (sub hF rfl) (sub hR rfl) (State.when_within (sub hF rfl) (sub hR rfl) h5 (fun h7 => (State.capture_within (sub hF rfl) (sub hR rfl) h7)))))
  clear_value v6
  exact State.laneFree_within (sub hF rfl) (sub hR rfl) (State.when_within (sub hF rfl) (sub hR rfl) h6 (fun h7 => (State.updPan_within (sub hF rfl) (sub hR rfl) h7)))

theorem execStage5Complete_within {F R} {s : State} {a0 a1} (hF : F &&& 0x2000612 = 0x2000612) (hR : R &&& 0x10081820000000000000000000000000000000000000000000000000000041e0000000000000000000000000000000030000f800040000000 = 0x10081820000000000000000000000000000000000000000000000000000041e0000000000000000000000000000000030000f800040000000) : Touched F R s (execStage5Complete a0 a1 s) := by
  unfold execStage5Complete
  exact .answer (sub hF rfl) (fun h1 => (by split <;> [exact (by extract_lets -merge -useContext -underBinder +onlyGivenNames v2; clear_value v2; exact (.ite h1 (by extract_lets -merge -useContext -underBinder +onlyGivenNames v3; clear_value v3; exact (by extract_lets -merge -useContext -underBinder +onlyGivenNames v4; clear_value v4; exact (by extract_lets -merge -useContext -underBinder +onlyGivenNames v5; clear_value v5; exact (by extract_lets -merge -useContext -underBinder +onlyGivenNames v6; have h6 : Within F R s v6 := (by unfold v6; exact (State.stage4Done_within (sub hF rfl) (sub hR rfl) (State.when_within (sub hF rfl) (sub hR rfl) h1 (fun h7 => (State.bump_within (sub hF rfl) (sub hR rfl) (elem hR rfl) h7))))); clear_value v6; exact (.ite (State.completeProduct_within (sub hF rfl) (sub hR rfl) h6) (.ite (State.repeatProduct_within (sub hF rfl) (sub hR rfl) h6) (State.completeProduct_within (sub hF rfl) (sub hR rfl) h6))))))))); exact h1]))

theorem State.slotAdd_within {F R} {z s : State} {a1 a2 a3 a4 a5} (hF : F &&& 0x10000800 = 0x10000800) (hR : R &&& 0x63f0000000000000000000000000000000000000000000000000000000000000000000000000000000000000000300000000000000 = 0x63f0000000000000000000000000000000000000000000000000000000000000000000000000000000000000000300000000000000) (h : Within F R z s) : Within F R z (State.slotAdd s a1 a2 a3 a4 a5) := by
  unfold State.slotAdd
  extract_lets -merge -useContext -underBinder +onlyGivenNames v1 v2 v3
  clear_value v1 v2 v3
  split <;> [exact h; exact (by extract_lets -merge -useContext -underBinder +onlyGivenNames v4; clear_value v4; exact (by extract_lets -merge -useContext -underBinder +onlyGivenNames v5; clear_value v5; exact (by extract_lets -merge -useContext -underBinder +onlyGivenNames v6; clear_value v6; exact (by extract_lets -merge -useContext -underBinder +onlyGivenNames v7; clear_value v7; exact (by extract_lets -merge -useContext -underBinder +onlyGivenNames v8; clear_value v8; exact (by extract_lets -merge -useContext -underBinder +onlyGivenNames v9; have h9 : Within F R z v9 := (by unfold v9; exact (State.bump_within (sub hF rfl) (sub hR rfl) (elem hR rfl) (State.bump_within (sub hF rfl) (sub hR rfl) (elem hR rfl) h))); clear_value v9; exact (.ite (State.storeRow_within (sub hF rfl) (sub hR rfl) (State.setSlot_within (sub hF rfl) (sub hR rfl) h9)) (State.setSlot_within (sub hF rfl) (sub hR rfl) h9))))))))]

theorem State.reduce_within {F R} {z s : State} {a1 a2 a3 a4 a5} (hF : F &&& 0x10100800 = 0x10100800) (hR : R &&& 0x63f0000000000000000000000000000000000000000000000000000000000000000000000000000000000000000300000000000000 = 0x63f0000000000000000000000000000000000000000000000000000000000000000000000000000000000000000300000000000000) (h : Within F R z s) : Within F R z (State.reduce s a1 a2 a3 a4 a5) := by
  unfold State.reduce
  split <;> [exact h; exact (.ite (State.storeRow_within (sub hF rfl) (sub hR rfl) h) (.ite (State.slotAdd_within (sub hF rfl) (sub hR rfl) h) (State.addRow_within (sub hF rfl) (sub hR rfl) h)))]

theorem execAccumulatorDrainDone_within {F R} {s : State} {a0 a1} (hF : F &&& 0x10100e12 = 0x10100e12) (hR : R &&& 0x63f0000000000000000000000000000000000000000000000000041e00000000000000000000000000000000000310000000000000 = 0x63f0000000000000000000000000000000000000000000000000041e00000000000000000000000000000000000310000000000000) : Touched F R s (execAccumulatorDrainDone a0 a1 s) := by
  unfold execAccumulatorDrainDone
  exact .answer (sub hF rfl) (fun h1 => (by extract_lets -merge -useContext -underBinder +onlyGivenNames v2; clear_value v2; exact (by extract_lets -merge -useContext -underBinder +onlyGivenNames v3; clear_value v3; exact (by extract_lets -merge -useContext -underBinder +onlyGivenNames v4; clear_value v4; exact (.ite h1 (by extract_lets -merge -useContext -underBinder +onlyGivenNames v5; clear_value v5; exact (by extract_lets -merge -useContext -underBinder +onlyGivenNames v6; have h6 : Within F R s v6 := (by unfold v6; exact (State.laneFree_within (sub hF rfl) (sub hR rfl) (State.bump_within (sub hF rfl) (sub hR rfl) (elem hR rfl) (State.updPan_within (sub hF rfl) (sub hR rfl) h1)))); clear_value v6; exact (by split <;> [exact (by extract_lets -merge -useContext -underBinder +onlyGivenNames v7; clear_value v7; exact (by extract_lets -merge -useContext -underBinder +onlyGivenNames v8; clear_value v8; exact (by extract_lets -merge -useContext -underBinder +onlyGivenNames v9; clear_value v9; exact (by extract_lets -merge -useContext -underBinder +onlyGivenNames v10; clear_value v10; exact (.ite (State.updCore_within (sub hF rfl) (sub hR rfl) h6) (State.reduce_within (sub hF rfl) (sub hR rfl) (State.updCore_within (sub hF rfl) (sub hR rfl) h6)))))))]))))))))

theorem execAccSave_within {F R} {s : State} {a0 a1} (hF : F &&& 0x18000e12 = 0x18000e12) (hR : R &&& 0x63f0000000000000000000000000000000000000000000000000000000000000000000000000000000000000000040000000000000 = 0x63f0000000000000000000000000000000000000000000000000000000000000000000000000000000000000000040000000000000) : Touched F R s (execAccSave a0 a1 s) := by
  unfold execAccSave
  exact .answer (sub hF rfl) (fun h1 => (by split <;> [exact (by extract_lets -merge -useContext -underBinder +onlyGivenNames v2; clear_value v2; exact (.ite h1 (State.saveLane_within (sub hF rfl) (sub hR rfl) h1))); exact (State.when_within (sub hF rfl) (sub hR rfl) h1 (fun h2 => (State.saveSlot_within (sub hF rfl) (sub hR rfl) h2)))]))

theorem State.restore_within {F R} {z s : State} {a1} (hF : F &&& 0x8000e00 = 0x8000e00) (hR : R &&& 0x63f0000000000000000000000000000000000000000000000000041e00000000000000000000000000000000000080000000000000 = 0x63f0000000000000000000000000000000000000000000000000041e00000000000000000000000000000000000080000000000000) (h : Within F R z s) : Within F R z (State.restore s a1) := by
  unfold State.restore
  extract_lets -merge -useContext -underBinder +onlyGivenNames u1_0 v1
  have h1 : Within F R z v1 := (by unfold v1; exact (.saved (State.bump_within (sub hF rfl) (sub hR rfl) (elem hR rfl) h) (elem hF rfl)))
  clear_value v1
  split <;> [exact (by extract_lets -merge -useContext -underBinder +onlyGivenNames v2; clear_value v2; exact (by extract_lets -merge -useContext -underBinder +onlyGivenNames v3; clear_value v3; exact (State.laneFree_within (sub hF rfl) (sub hR rfl) (State.updPan_within (sub hF rfl) (sub hR rfl) (State.moves_within (sub hF rfl) (sub hR rfl) h1))))); exact (State.setSlot_within (sub hF rfl) (sub hR rfl) (State.moves_within (sub hF rfl) (sub hR rfl) h1))]

theorem execAccRestore_within {F R} {s : State} {a0 a1} (hF : F &&& 0x8000e12 = 0x8000e12) (hR : R &&& 0x63f0000000000000000000000000000000000000000000000000041e00000000000000000000000000000000000080000000000000 = 0x63f0000000000000000000000000000000000000000000000000041e00000000000000000000000000000000000080000000000000) : Touched F R s (execAccRestore a0 a1 s) := by
  unfold execAccRestore
  exact .answer (sub hF rfl) (fun h1 => (by split <;> [exact h1; exact (State.restore_within (sub hF rfl) (sub hR rfl) h1)]))

theorem State.saveRolled_within {F R} {z s : State}  (hF : F &&& 0x18000e00 = 0x18000e00) (hR : R &&& 0x63f0000000000000000000000000000000000000000000000000000000000000000000000000000000000000000040000000000000 = 0x63f0000000000000000000000000000000000000000000000000000000000000000000000000000000000000000040000000000000) (h : Within F R z s) : Within F R z (State.saveRolled s) := by
  unfold State.saveRolled
  extract_lets -merge -useContext -underBinder +onlyGivenNames v1
  have h1 : Within F R z v1 := (by unfold v1; exact (State.each_within (sub hF rfl) (sub hR rfl) h (fun h2 => (State.each_within (sub hF rfl) (sub hR rfl) h2 (fun h3 => (by extract_lets -merge -useContext -underBinder +onlyGivenNames v4; clear_value v4; exact (State.when_within (sub hF rfl) (sub hR rfl) h3 (fun h5 => (State.saveLane_within (sub hF rfl) (sub hR rfl) h5)))))))))
  clear_value v1
  exact State.each_within (sub hF rfl) (sub hR rfl) h1 (fun h2 => (State.when_within (sub hF rfl) (sub hR rfl) h2 (fun h3 => (State.each_within (sub hF rfl) (sub hR rfl) h3 (fun h4 => (State.when_within (sub hF rfl) (sub hR rfl) h4 (fun h5 => (State.saveSlot_within (sub hF rfl) (sub hR rfl) h5))))))))

theorem State.restoreMoved_within {F R} {z s : State} {a1} (hF : F &&& 0x8000e00 = 0x8000e00) (hR : R &&& 0x63f0000000000000000000000000000000000000000000000000041e00000000000000000000000000000000000080000000000000 = 0x63f0000000000000000000000000000000000000000000000000041e00000000000000000000000000000000000080000000000000) (h : Within F R z s) : Within F R z (State.restoreMoved s a1) :=
  State.each_within (sub hF rfl) (sub hR rfl) h (fun h1 => (State.restore_within (sub hF rfl) (sub hR rfl) h1))

/-! Staging -/

theorem State.tryStage_within {F R} {z s : State}  (hF : F &&& 0x284002 = 0x284002) (hR : R &&& 0x8000000000000000002000000000000000000000000 = 0x8000000000000000002000000000000000000000000) (h : Within F R z s) : Within F R z (State.tryStage s) := by
  unfold State.tryStage
  extract_lets -merge -useContext -underBinder +onlyGivenNames v1
  have h1 : Within F R z v1 := (by unfold v1; exact (State.each_within (sub hF rfl) (sub hR rfl) h (fun h2 => (.ite (by extract_lets -merge -useContext -underBinder +onlyGivenNames v3; have h3 : Within F R z v3 := (by unfold v3; exact (State.raise_within (sub hF rfl) (sub hR rfl) (elem hR rfl) (State.updWslot_within (sub hF rfl) (sub hR rfl) h2))); clear_value v3; exact (State.each_within (sub hF rfl) (sub hR rfl) h3 (fun h4 => (State.when_within (sub hF rfl) (sub hR rfl) h4 (fun h5 => (State.raise_within (sub hF rfl) (sub hR rfl) (elem hR rfl) (State.updPslot_within (sub hF rfl) (sub hR rfl) h5))))))) h2))))
  clear_value v1
  exact State.each_within (sub hF rfl) (sub hR rfl) h1 (fun h2 => (by extract_lets -merge -useContext -underBinder +onlyGivenNames v3; clear_value v3; exact (State.when_within (sub hF rfl) (sub hR rfl) h2 (fun h4 => (State.raise_within (sub hF rfl) (sub hR rfl) (elem hR rfl) (State.updPslot_within (sub hF rfl) (sub hR rfl) h4))))))

theorem State.endStaging_within {F R} {z s : State} {a1} (hF : F &&& 512 = 512) (hR : R &&& 0x8000000000 = 0x8000000000) (h : Within F R z s) : Within F R z (State.endStaging s a1) := by
  unfold State.endStaging
  exact State.each_within (sub hF rfl) (sub hR rfl) h (fun h1 => (by extract_lets -merge -useContext -underBinder +onlyGivenNames v2; clear_value v2; exact (by extract_lets -merge -useContext -underBinder +onlyGivenNames v3; clear_value v3; exact (by extract_lets -merge -useContext -underBinder +onlyGivenNames v4; clear_value v4; exact (by extract_lets -merge -useContext -underBinder +onlyGivenNames v5; have h5 : Within F R z v5 := (by unfold v5; exact (State.when_within (sub hF rfl) (sub hR rfl) h1 (fun h6 => (State.bump_within (sub hF rfl) (sub hR rfl) (elem hR rfl) h6)))); clear_value v5; exact (State.updPan_within (sub hF rfl) (sub hR rfl) h5))))))

theorem State.claimStaged_within {F R} {z s : State} {a1} (hF : F &&& 512 = 512) (hR : R &&& 0 = 0) (h : Within F R z s) : Within F R z (State.claimStaged s a1) :=
  State.each_within (sub hF rfl) (sub hR rfl) h (fun h1 => (State.updPan_within (sub hF rfl) (sub hR rfl) h1))

theorem State.startStaging_within {F R} {z s : State} {a1 a2} (hF : F &&& 0x10284202 = 0x10284202) (hR : R &&& 0x8000000000000000002000002000000008000000000 = 0x8000000000000000002000002000000008000000000) (h : Within F R z s) : Within F R z (State.startStaging s a1 a2) := by
  unfold State.startStaging
  split <;> [exact h; exact (by extract_lets -merge -useContext -underBinder +onlyGivenNames v1; have h1 : Within F R z v1 := (by unfold v1; exact (State.endStaging_within (sub hF rfl) (sub hR rfl) h)); clear_value v1; exact (.ite (by extract_lets -merge -useContext -underBinder +onlyGivenNames v2; clear_value v2; exact (by extract_lets -merge -useContext -underBinder +onlyGivenNames v3; have h3 : Within F R z v3 := (by unfold v3; exact (State.setF_within (sub hF rfl) (sub hR rfl) (elem hR rfl) (State.updWslot_within (sub hF rfl) (sub hR rfl) h1))); clear_value v3; exact (by extract_lets -merge -useContext -underBinder +onlyGivenNames v4; have h4 : Within F R z v4 := (by unfold v4; exact (State.when_within (sub hF rfl) (sub hR rfl) h3 (fun h5 => (State.updPslot_within (sub hF rfl) (sub hR rfl) h5)))); clear_value v4; exact (State.tryStage_within (sub hF rfl) (sub hR rfl) (State.claimStaged_within (sub hF rfl) (sub hR rfl) h4))))) (by extract_lets -merge -useContext -underBinder +onlyGivenNames v2; have h2 : Within F R z v2 := (by unfold v2; exact (State.dropContent_within (sub hF rfl) (sub hR rfl) (State.updWslot_within (sub hF rfl) (sub hR rfl) h1))); clear_value v2; exact (by extract_lets -merge -useContext -underBinder +onlyGivenNames v3; have h3 : Within F R z v3 := (by unfold v3; exact (State.when_within (sub hF rfl) (sub hR rfl) h2 (fun h4 => (State.updPslot_within (sub hF rfl) (sub hR rfl) h4)))); clear_value v3; exact (State.raise_within (sub hF rfl) (sub hR rfl) (elem hR rfl) (State.setF_within (sub hF rfl) (sub hR rfl) (elem hR rfl) h3))))))]

theorem State.bindFails_within {F R} {z s : State} {a1 a2} (hF : F &&& 0x280002 = 0x280002) (hR : R &&& 0x8040000000000000000000000000000000000000000 = 0x8040000000000000000000000000000000000000000) (h : Within F R z s) : Within F R z (State.bindFails s a1 a2) :=
  State.raise_within (sub hF rfl) (sub hR rfl) (elem hR rfl) (State.setF_within (sub hF rfl) (sub hR rfl) (elem hR rfl) (State.updPslot_within (sub hF rfl) (sub hR rfl) h))

theorem State.stageAlone_within {F R} {z s : State} {a1 a2} (hF : F &&& 0x284202 = 0x284202) (hR : R &&& 0x8040000000000000002000000000000000000000000 = 0x8040000000000000002000000000000000000000000) (h : Within F R z s) : Within F R z (State.stageAlone s a1 a2) := by
  unfold State.stageAlone
  split <;> [exact h; exact (.ite (by extract_lets -merge -useContext -underBinder +onlyGivenNames v1; clear_value v1; exact (by extract_lets -merge -useContext -underBinder +onlyGivenNames v2; have h2 : Within F R z v2 := (by unfold v2; exact (State.updPslot_within (sub hF rfl) (sub hR rfl) h)); clear_value v2; exact (State.tryStage_within (sub hF rfl) (sub hR rfl) (State.claimStaged_within (sub hF rfl) (sub hR rfl) h2)))) (State.bindFails_within (sub hF rfl) (sub hR rfl) h))]

theorem State.bindPlan_within {F R} {z s : State} {a1 a2} (hF : F &&& 0x10284202 = 0x10284202) (hR : R &&& 0x8040000000000000002000002000000008000000000 = 0x8040000000000000002000002000000008000000000) (h : Within F R z s) : Within F R z (State.bindPlan s a1 a2) := by
  induction a2 generalizing s with
  | zero => exact h
  | succ n ih =>
    unfold State.bindPlan
    split
    · assumption
    · assumption
    · rename_i e _
      cases e
      split
      · exact State.updPslot_within (sub hF rfl) (sub hR rfl) h
      · refine .ite (State.bindFails_within (sub hF rfl) (sub hR rfl) h)
          (.ite (State.stageAlone_within (sub hF rfl) (sub hR rfl) h) ?_)
        have hv := State.startStaging_within (a1 := ‹Nat›) (a2 := a1) (sub hF rfl) (sub hR rfl) h
        exact .ite (ih hv) hv

theorem State.meetPlans_within {F R} {z s : State} {a1} (hF : F &&& 0x10284202 = 0x10284202) (hR : R &&& 0x8040000000000000002000002000000008000000000 = 0x8040000000000000002000002000000008000000000) (h : Within F R z s) : Within F R z (State.meetPlans s a1) := by
  unfold State.meetPlans
  extract_lets -merge -useContext -underBinder +onlyGivenNames v1 v2
  clear_value v1 v2
  extract_lets -merge -useContext -underBinder +onlyGivenNames v3
  have h3 : ∀ {t : State}, Within F R z t → Within F R z (v3 t) := (by intros; rename_i h0; unfold v3; exact (fun h4 => (.ite (State.setF_within (sub hF rfl) (sub hR rfl) (elem hR rfl) h4) h4)) h0)
  clear_value v3
  split <;> [exact (h3 (State.bindPlan_within (sub hF rfl) (sub hR rfl) h)); exact (by split <;> [exact (State.startStaging_within (sub hF rfl) (sub hR rfl) h); exact (h3 h)])]

/-! Beds -/

theorem execBedWriteStart_within {F R} {s : State} {a0 a1} (hF : F &&& 0x800212 = 0x800212) (hR : R &&& 0x8000000000 = 0x8000000000) : Touched F R s (execBedWriteStart a0 a1 s) := by
  unfold execBedWriteStart
  exact .answer (sub hF rfl) (fun h1 => (by extract_lets -merge -useContext -underBinder +onlyGivenNames v2; clear_value v2; exact (by split <;> [exact h1; exact (.ite h1 (.ite (by extract_lets -merge -useContext -underBinder +onlyGivenNames v3; clear_value v3; exact (by extract_lets -merge -useContext -underBinder +onlyGivenNames v4; clear_value v4; exact (State.updPan_within (sub hF rfl) (sub hR rfl) h1))) (by extract_lets -merge -useContext -underBinder +onlyGivenNames v3; have h3 : Within F R s v3 := (by unfold v3; exact (State.when_within (sub hF rfl) (sub hR rfl) h1 (fun h4 => (State.bump_within (sub hF rfl) (sub hR rfl) (elem hR rfl) h4)))); clear_value v3; exact (by extract_lets -merge -useContext -underBinder +onlyGivenNames v4; clear_value v4; exact (by extract_lets -merge -useContext -underBinder +onlyGivenNames v5; clear_value v5; exact (by extract_lets -merge -useContext -underBinder +onlyGivenNames u6_0 v6; have h6 : Within F R s v6 := (by unfold v6; exact (.hlt h3 (elem hF rfl))); clear_value v6; exact (State.updPan_within (sub hF rfl) (sub hR rfl) h6)))))))])))

theorem State.tookCopy_within {F R} {z s : State} {a1 a2} (hF : F &&& 0x4000 = 0x4000) (_hR : R &&& 0 = 0) (h : Within F R z s) : Within F R z (State.tookCopy s a1 a2) :=
  .wgt h (elem hF rfl)

theorem execBedWriteComplete_within {F R} {s : State} {a0 a1} (hF : F &&& 0x284212 = 0x284212) (hR : R &&& 0x8000000000000000000000000000000000000000000000000000000000008000000000000000012000000000000004000000000 = 0x8000000000000000000000000000000000000000000000000000000000008000000000000000012000000000000004000000000) : Touched F R s (execBedWriteComplete a0 a1 s) := by
  unfold execBedWriteComplete
  exact .answer (sub hF rfl) (fun h1 => (by extract_lets -merge -useContext -underBinder +onlyGivenNames v2; clear_value v2; exact (.ite h1 (by extract_lets -merge -useContext -underBinder +onlyGivenNames v3; clear_value v3; exact (by extract_lets -merge -useContext -underBinder +onlyGivenNames u4_0 v4; clear_value v4; exact (by extract_lets -merge -useContext -underBinder +onlyGivenNames v5; have h5 : Within F R s v5 := (by unfold v5; exact (State.bump_within (sub hF rfl) (sub hR rfl) (elem hR rfl) (State.bump_within (sub hF rfl) (sub hR rfl) (elem hR rfl) (State.updPan_within (sub hF rfl) (sub hR rfl) h1)))); clear_value v5; exact (by extract_lets -merge -useContext -underBinder +onlyGivenNames v6; clear_value v6; exact (State.tryStage_within (sub hF rfl) (sub hR rfl) (State.when_within (sub hF rfl) (sub hR rfl) (State.tookCopy_within (sub hF rfl) (sub hR rfl) h5) (fun h7 => (State.bump_within (sub hF rfl) (sub hR rfl) (elem hR rfl) h7)))))))))))

theorem State.stopSweep_within {F R} {z s : State} {a1} (hF : F &&& 0x1400 = 0x1400) (hR : R &&& 0x200000000000000000000000000000000000000000000000000 = 0x200000000000000000000000000000000000000000000000000) (h : Within F R z s) : Within F R z (State.stopSweep s a1) := by
  unfold State.stopSweep
  split <;> [exact h; exact (by split <;> [exact h; exact (State.testCtx_within (sub hF rfl) (sub hR rfl) (State.updPhys_within (sub hF rfl) (sub hR rfl) (State.updPhys_within (sub hF rfl) (sub hR rfl) h)))])]

theorem execBedWriteAbort_within {F R} {s : State} {a0 a1} (hF : F &&& 0x1612 = 0x1612) (hR : R &&& 0x200000000000000000000000000000000000000008000000000 = 0x200000000000000000000000000000000000000008000000000) : Touched F R s (execBedWriteAbort a0 a1 s) := by
  unfold execBedWriteAbort
  exact .answer (sub hF rfl) (fun h1 => (by extract_lets -merge -useContext -underBinder +onlyGivenNames v2; clear_value v2; exact (State.when_within (sub hF rfl) (sub hR rfl) h1 (fun h3 => (by extract_lets -merge -useContext -underBinder +onlyGivenNames v4; have h4 : Within F R s v4 := (by unfold v4; exact (State.when_within (sub hF rfl) (sub hR rfl) h3 (fun h5 => (State.stopSweep_within (sub hF rfl) (sub hR rfl) h5)))); clear_value v4; exact (State.bump_within (sub hF rfl) (sub hR rfl) (elem hR rfl) (State.updPan_within (sub hF rfl) (sub hR rfl) h4)))))))

theorem execRakeStart_within {F R} {s : State} {a0 a1} (hF : F &&& 0x612 = 0x612) (hR : R &&& 0x200000000000000000000000000000000000000000000000000 = 0x200000000000000000000000000000000000000000000000000) : Touched F R s (execRakeStart a0 a1 s) := by
  unfold execRakeStart
  exact .answer (sub hF rfl) (fun h1 => (by extract_lets -merge -useContext -underBinder +onlyGivenNames v2; clear_value v2; exact (by split <;> [exact h1; exact (State.when_within (sub hF rfl) (sub hR rfl) h1 (fun h3 => (State.ctx3_within (sub hF rfl) (sub hR rfl) (State.updPan_within (sub hF rfl) (sub hR rfl) h3))))])))

theorem State.rakeOver_within {F R} {z s : State} {a1} (hF : F &&& 0x400 = 0x400) (hR : R &&& 0x41e00000000000000000000000000000000000000000000000000 = 0x41e00000000000000000000000000000000000000000000000000) (h : Within F R z s) : Within F R z (State.rakeOver s a1) :=
  State.vectorFree_within (sub hF rfl) (sub hR rfl) (State.ctx3_within (sub hF rfl) (sub hR rfl) h)

theorem execRakeAbort_within {F R} {s : State} {a0 a1} (hF : F &&& 0x612 = 0x612) (hR : R &&& 0x41e00000000000000000000000000000000000000008000000000 = 0x41e00000000000000000000000000000000000000008000000000) : Touched F R s (execRakeAbort a0 a1 s) := by
  unfold execRakeAbort
  exact .answer (sub hF rfl) (fun h1 => (by extract_lets -merge -useContext -underBinder +onlyGivenNames v2; clear_value v2; exact (State.when_within (sub hF rfl) (sub hR rfl) h1 (fun h3 => (State.rakeOver_within (sub hF rfl) (sub hR rfl) (State.bump_within (sub hF rfl) (sub hR rfl) (elem hR rfl) (State.updPan_within (sub hF rfl) (sub hR rfl) h3)))))))

theorem State.rakeFailed_within {F R} {z s : State} {a1 a2} (hF : F &&& 0x2a8f682 = 0x2a8f682) (hR : R &&& 0x800000000000000000208400400000000000000000000000041c00008000000400000000000000000000000000000000000000 = 0x800000000000000000208400400000000000000000000000041c00008000000400000000000000000000000000000000000000) (h : Within F R z s) : Within F R z (State.rakeFailed s a1 a2) := by
  unfold State.rakeFailed
  extract_lets -merge -useContext -underBinder +onlyGivenNames v1 v2 v3
  clear_value v1 v2 v3
  exact .ite (by extract_lets -merge -useContext -underBinder +onlyGivenNames v4; clear_value v4; exact (by extract_lets -merge -useContext -underBinder +onlyGivenNames v5; have h5 : Within F R z v5 := (by unfold v5; exact (State.updPan_within (sub hF rfl) (sub hR rfl) h)); clear_value v5; exact (by extract_lets -merge -useContext -underBinder +onlyGivenNames v6; have h6 : Within F R z v6 := (by unfold v6; exact (State.bump_within (sub hF rfl) (sub hR rfl) (elem hR rfl) h5)); clear_value v6; exact (by extract_lets -merge -useContext -underBinder +onlyGivenNames u7_0 v7; have h7 : Within F R z v7 := (by unfold v7; exact (.hlt h6 (elem hF rfl))); clear_value v7; exact (State.each_within (sub hF rfl) (sub hR rfl) h7 (fun h8 => (State.faultRec_within (sub hF rfl) (sub hR rfl) h8))))))) (by extract_lets -merge -useContext -underBinder +onlyGivenNames v4; have h4 : Within F R z v4 := (by unfold v4; exact (State.updPan_within (sub hF rfl) (sub hR rfl) h)); clear_value v4; exact (by extract_lets -merge -useContext -underBinder +onlyGivenNames v5; have h5 : Within F R z v5 := (by unfold v5; exact (State.updPan_within (sub hF rfl) (sub hR rfl) h4)); clear_value v5; exact (by split <;> [exact h5; exact (State.retire_within (sub hF rfl) (sub hR rfl) (State.faultRec_within (sub hF rfl) (sub hR rfl) h5))])))

theorem execRakeComplete_within {F R} {s : State} {a0 a1 a2} (hF : F &&& 0x2a8f696 = 0x2a8f696) (hR : R &&& 0x80180000800000000000000000208400400000000000000000000000041e00008008000400000000000002000000000000010180000000 = 0x80180000800000000000000000208400400000000000000000000000041e00008008000400000000000002000000000000010180000000) : Touched F R s (execRakeComplete a0 a1 a2 s) := by
  unfold execRakeComplete
  exact .answer (sub hF rfl) (fun h1 => (by extract_lets -merge -useContext -underBinder +onlyGivenNames v2; clear_value v2; exact (by split <;> [exact h1; exact (.ite h1 (by extract_lets -merge -useContext -underBinder +onlyGivenNames v3; clear_value v3; exact (by split <;> [exact (by extract_lets -merge -useContext -underBinder +onlyGivenNames v4; clear_value v4; exact (by extract_lets -merge -useContext -underBinder +onlyGivenNames v5; clear_value v5; exact (by extract_lets -merge -useContext -underBinder +onlyGivenNames v6; clear_value v6; exact (by extract_lets -merge -useContext -underBinder +onlyGivenNames u7_0 v7; clear_value v7; exact (by extract_lets -merge -useContext -underBinder +onlyGivenNames v8; have h8 : Within F R s v8 := (by unfold v8; exact (State.countPan_within (sub hF rfl) (sub hR rfl) (elem hR rfl) (elem hR rfl) (State.bump_within (sub hF rfl) (sub hR rfl) (elem hR rfl) h1))); clear_value v8; exact (by extract_lets -merge -useContext -underBinder +onlyGivenNames v9; have h9 : Within F R s v9 := (by unfold v9; exact (State.countPan_within (sub hF rfl) (sub hR rfl) (elem hR rfl) (elem hR rfl) h8)); clear_value v9; exact (by extract_lets -merge -useContext -underBinder +onlyGivenNames v10; clear_value v10; exact (by extract_lets -merge -useContext -underBinder +onlyGivenNames v11; have h11 : Within F R s v11 := (by unfold v11; exact (.ite (State.tryStage_within (sub hF rfl) (sub hR rfl) (State.tick_within (sub hF rfl) (sub hR rfl) (State.updPan_within (sub hF rfl) (sub hR rfl) h9))) (.ite (State.updPan_within (sub hF rfl) (sub hR rfl) h9) (State.rakeFailed_within (sub hF rfl) (sub hR rfl) (State.updPan_within (sub hF rfl) (sub hR rfl) h9))))); clear_value v11; exact (State.rakeOver_within (sub hF rfl) (sub hR rfl) h11)))))))))])))])))

theorem State.streamWait_within {F R} {z s : State} {a1} (hF : F &&& 0x4200 = 0x4200) (hR : R &&& 0 = 0) (h : Within F R z s) : Within F R z (State.streamWait s a1) := by
  unfold State.streamWait
  extract_lets -merge -useContext -underBinder +onlyGivenNames v1
  have h1 : Within F R z v1 := (by unfold v1; exact (State.updPan_within (sub hF rfl) (sub hR rfl) h))
  clear_value v1
  extract_lets -merge -useContext -underBinder +onlyGivenNames u2_0 v2
  have h2 : Within F R z v2 := (by unfold v2; exact (.wgt h1 (elem hF rfl)))
  clear_value v2
  split <;> [exact h2; exact (.ite h2 (.wgt h2 (elem hF rfl)))]

theorem State.endStall_within {F R} {z s : State}  (hF : F &&& 0x4000 = 0x4000) (hR : R &&& 0x8000000000000000000000000 = 0x8000000000000000000000000) (h : Within F R z s) : Within F R z (State.endStall s) := by
  unfold State.endStall
  split <;> [exact h; exact (.ite h (State.bump_within (sub hF rfl) (sub hR rfl) (elem hR rfl) (.wgt h (elem hF rfl))))]

theorem State.leaveLayer_within {F R} {z s : State} {a1} (hF : F &&& 0x4000 = 0x4000) (_hR : R &&& 0 = 0) (h : Within F R z s) : Within F R z (State.leaveLayer s a1) :=
  .wgt h (elem hF rfl)

theorem execStreamedSwap_within {F R} {s : State} {a0 a1} (hF : F &&& 0x10004212 = 0x10004212) (hR : R &&& 0x8000000000000000000000000 = 0x8000000000000000000000000) : Touched F R s (execStreamedSwap a0 a1 s) := by
  unfold execStreamedSwap
  exact .answer (sub hF rfl) (fun h1 => (by extract_lets -merge -useContext -underBinder +onlyGivenNames v2; clear_value v2; exact (.ite h1 (.ite (State.endStall_within (sub hF rfl) (sub hR rfl) (State.releaseBounce_within (sub hF rfl) (sub hR rfl) (State.leaveLayer_within (sub hF rfl) (sub hR rfl) (State.updPan_within (sub hF rfl) (sub hR rfl) h1)))) (State.streamWait_within (sub hF rfl) (sub hR rfl) h1)))))

theorem State.panRequest_within {F R} {z s : State} {a1 a2} (hF : F &&& 512 = 512) (hR : R &&& 0 = 0) (h : Within F R z s) : Within F R z (State.panRequest s a1 a2) := by
  unfold State.panRequest
  exact State.when_within (sub hF rfl) (sub hR rfl) h (fun h1 => (by split <;> [exact h1; exact (State.updPan_within (sub hF rfl) (sub hR rfl) h1)]))

theorem State.refreshReq_within {F R} {z s : State} {a1} (hF : F &&& 512 = 512) (hR : R &&& 0 = 0) (h : Within F R z s) : Within F R z (State.refreshReq s a1) :=
  State.panRequest_within (sub hF rfl) (sub hR rfl) h

theorem State.rakeReq_within {F R} {z s : State} {a1} (hF : F &&& 512 = 512) (hR : R &&& 0 = 0) (h : Within F R z s) : Within F R z (State.rakeReq s a1) :=
  State.panRequest_within (sub hF rfl) (sub hR rfl) h

/-! Weights -/

theorem State.refuseLoad_within {F R} {z s : State} {a1} (hF : F &&& 0x200002 = 0x200002) (hR : R &&& 0x2000003000000000000000000 = 0x2000003000000000000000000) (h : Within F R z s) : Within F R z (State.refuseLoad s a1) :=
  State.raise_within (sub hF rfl) (sub hR rfl) (elem hR rfl) (State.setF_within (sub hF rfl) (sub hR rfl) (elem hR rfl) (State.setF_within (sub hF rfl) (sub hR rfl) (elem hR rfl) h))

theorem State.loadStart_within {F R} {z s : State}  (hF : F &&& 0x204002 = 0x204002) (hR : R &&& 0x2000063000000000000000000 = 0x2000063000000000000000000) (h : Within F R z s) : Within F R z (State.loadStart s) := by
  unfold State.loadStart
  split <;> [exact (State.refuseLoad_within (sub hF rfl) (sub hR rfl) h); exact (by extract_lets -merge -useContext -underBinder +onlyGivenNames v1; clear_value v1; exact (by extract_lets -merge -useContext -underBinder +onlyGivenNames v2; clear_value v2; exact (by extract_lets -merge -useContext -underBinder +onlyGivenNames v3; clear_value v3; exact (by extract_lets -merge -useContext -underBinder +onlyGivenNames v4; have h4 : Within F R z v4 := (by unfold v4; exact (.ite h (State.updWslot_within (sub hF rfl) (sub hR rfl) h))); clear_value v4; exact (by extract_lets -merge -useContext -underBinder +onlyGivenNames u5_0 v5; have h5 : Within F R z v5 := (by unfold v5; exact (.wgt h4 (elem hF rfl))); clear_value v5; exact (State.setNum_within (sub hF rfl) (sub hR rfl) (elem hR rfl) (State.setNum_within (sub hF rfl) (sub hR rfl) (elem hR rfl) (State.setF_within (sub hF rfl) (sub hR rfl) (elem hR rfl) (State.setF_within (sub hF rfl) (sub hR rfl) (elem hR rfl) h5)))))))))]

theorem State.loadAbort_within {F R} {z s : State}  (hF : F &&& 0x12304002 = 0x12304002) (hR : R &&& 0x8000000000000000000000000000000000000000000000000000000000000000000000000000000002000003000000000000000000 = 0x8000000000000000000000000000000000000000000000000000000000000000000000000000000002000003000000000000000000) (h : Within F R z s) : Within F R z (State.loadAbort s) := by
  unfold State.loadAbort
  split <;> [exact (State.setF_within (sub hF rfl) (sub hR rfl) (elem hR rfl) h); exact (by extract_lets -merge -useContext -underBinder +onlyGivenNames v1; have h1 : Within F R z v1 := (by unfold v1; exact (State.setF_within (sub hF rfl) (sub hR rfl) (elem hR rfl) h)); clear_value v1; exact (.ite (State.failLoad_within (sub hF rfl) (sub hR rfl) h1) (.wgt h1 (elem hF rfl))))]

theorem State.sendPart_within {F R} {z s : State} {a1 a2} (hF : F &&& 0x104002 = 0x104002) (hR : R &&& 0x8000000000000000000000000000000000000000000000000000000000000000000000000000000000000000000000000000000000 = 0x8000000000000000000000000000000000000000000000000000000000000000000000000000000000000000000000000000000000) (h : Within F R z s) : Within F R z (State.sendPart s a1 a2) := by
  unfold State.sendPart
  extract_lets -merge -useContext -underBinder +onlyGivenNames v1
  clear_value v1
  exact State.each_within (sub hF rfl) (sub hR rfl) h (fun h2 => (State.bcast_within (sub hF rfl) (sub hR rfl) h2))

theorem State.requestShard_within {F R} {z s : State} {a1 a2 a3} (hF : F &&& 0x100002 = 0x100002) (hR : R &&& 0x8000000000000000000000000000000000000000001000000000000000000000000000000000000000000000000000000000000000 = 0x8000000000000000000000000000000000000000001000000000000000000000000000000000000000000000000000000000000000) (h : Within F R z s) : Within F R z (State.requestShard s a1 a2 a3) := by
  unfold State.requestShard
  extract_lets -merge -useContext -underBinder +onlyGivenNames v1 v2 v3
  clear_value v1 v2 v3
  exact .ite (by split <;> [exact h; exact (OWithin.getD (State.routePkt_within (sub hF rfl) (sub hR rfl) h) h)]) (by split <;> [exact h; exact (by split <;> [exact h; exact (State.sendOn_within (sub hF rfl) (sub hR rfl) h)])])

theorem State.want_within {F R} {z s : State} {a1 a2} (hF : F &&& 0x104002 = 0x104002) (hR : R &&& 0x8000000000000000000000000000000000000000001000000000000000000000000000000000000000000000000000000000000000 = 0x8000000000000000000000000000000000000000001000000000000000000000000000000000000000000000000000000000000000) (h : Within F R z s) : Within F R z (State.want s a1 a2) := by
  unfold State.want
  extract_lets -merge -useContext -underBinder +onlyGivenNames v1 v2
  clear_value v1 v2
  exact State.each_within (sub hF rfl) (sub hR rfl) (.wgt h (elem hF rfl)) (fun h3 => (State.requestShard_within (sub hF rfl) (sub hR rfl) h3))

theorem State.nextRequest_within {F R} {z s : State} {a1 a2} (hF : F &&& 0x104002 = 0x104002) (hR : R &&& 0x8000000000000000000000000000000000000000001000000000000000000000000000000000000000000000000000000000000000 = 0x8000000000000000000000000000000000000000001000000000000000000000000000000000000000000000000000000000000000) (h : Within F R z s) : Within F R z (State.nextRequest s a1 a2) := by
  unfold State.nextRequest
  split <;> [exact h; exact (by extract_lets -merge -useContext -underBinder +onlyGivenNames v1; clear_value v1; exact (State.requestShard_within (sub hF rfl) (sub hR rfl) (.wgt h (elem hF rfl))))]

theorem State.loadVerified_within {F R} {z s : State} {a1 a2} (hF : F &&& 0x12284202 = 0x12284202) (hR : R &&& 0x8040000000000000002000003000000008000000000 = 0x8040000000000000002000003000000008000000000) (h : Within F R z s) : Within F R z (State.loadVerified s a1 a2) := by
  unfold State.loadVerified
  extract_lets -merge -useContext -underBinder +onlyGivenNames u1_0 v1
  have h1 : Within F R z v1 := (by unfold v1; exact (State.clearParts_within (sub hF rfl) (sub hR rfl) (.wgt h (elem hF rfl))))
  clear_value v1
  extract_lets -merge -useContext -underBinder +onlyGivenNames v2
  have h2 : Within F R z v2 := (by unfold v2; exact (State.setF_within (sub hF rfl) (sub hR rfl) (elem hR rfl) (State.setF_within (sub hF rfl) (sub hR rfl) (elem hR rfl) (State.setF_within (sub hF rfl) (sub hR rfl) (elem hR rfl) h1))))
  clear_value v2
  extract_lets -merge -useContext -underBinder +onlyGivenNames v3
  have h3 : Within F R z v3 := (by unfold v3; exact (State.startHold_within (sub hF rfl) (sub hR rfl) (State.event_within (sub hF rfl) (sub hR rfl) (State.raise_within (sub hF rfl) (sub hR rfl) (elem hR rfl) h2))))
  clear_value v3
  split <;> [exact (.wgt h3 (elem hF rfl)); exact (by extract_lets -merge -useContext -underBinder +onlyGivenNames v4; clear_value v4; exact (State.meetPlans_within (sub hF rfl) (sub hR rfl) (State.updWslot_within (sub hF rfl) (sub hR rfl) h3)))]

theorem State.shardFailed_within {F R} {z s : State} {a1 a2 a3} (hF : F &&& 0x12304002 = 0x12304002) (hR : R &&& 0x8000000000000000000000000000000000000000001000000000000000000000000000000000000042000003000000000000000000 = 0x8000000000000000000000000000000000000000001000000000000000000000000000000000000042000003000000000000000000) (h : Within F R z s) : Within F R z (State.shardFailed s a1 a2 a3) := by
  unfold State.shardFailed
  split <;> [exact (by extract_lets -merge -useContext -underBinder +onlyGivenNames v1; clear_value v1; exact (by extract_lets -merge -useContext -underBinder +onlyGivenNames u2_0 u2_1 v2; have h2 : Within F R z v2 := (by unfold v2; exact (.wgt (State.bump_within (sub hF rfl) (sub hR rfl) (elem hR rfl) h) (elem hF rfl))); clear_value v2; exact (.ite (State.failLoad_within (sub hF rfl) (sub hR rfl) h2) h2))); exact (State.nextRequest_within (sub hF rfl) (sub hR rfl) (State.bump_within (sub hF rfl) (sub hR rfl) (elem hR rfl) h)); exact (State.want_within (sub hF rfl) (sub hR rfl) h)]

theorem State.storeShard_within {F R} {z s : State} {a1 a2 a3 a4} (hF : F &&& 0x10000000 = 0x10000000) (hR : R &&& 0x63f0000000000000000000000000000000000000000000000000000000000000000000000000000000000000000000000000000000 = 0x63f0000000000000000000000000000000000000000000000000000000000000000000000000000000000000000000000000000000) (h : Within F R z s) : Within F R z (State.storeShard s a1 a2 a3 a4) :=
  .ite (State.memWrite_within (sub hF rfl) (sub hR rfl) h) (State.moves_within (sub hF rfl) (sub hR rfl) (State.memWrite_within (sub hF rfl) (sub hR rfl) h))

theorem State.holdShard_within {F R} {z s : State} {a1 a2 a3} (hF : F &&& 0x10004000 = 0x10004000) (hR : R &&& 0 = 0) (h : Within F R z s) : Within F R z (State.holdShard s a1 a2 a3) := by
  unfold State.holdShard
  extract_lets -merge -useContext -underBinder +onlyGivenNames v1
  clear_value v1
  exact .ite h (by extract_lets -merge -useContext -underBinder +onlyGivenNames v2; clear_value v2; exact (State.memWrite_within (sub hF rfl) (sub hR rfl) (.wgt h (elem hF rfl))))

theorem State.shardTaken_within {F R} {z s : State} {a1 a2 a3 a4 a5 a6} (hF : F &&& 0x12384202 = 0x12384202) (hR : R &&& 0xe3f0000000000000000000000000000000000000000000000000000000000008040000000000000002000043000000008000000000 = 0xe3f0000000000000000000000000000000000000000000000000000000000008040000000000000002000043000000008000000000) (h : Within F R z s) : Within F R z (State.shardTaken s a1 a2 a3 a4 a5 a6) := by
  unfold State.shardTaken
  extract_lets -merge -useContext -underBinder +onlyGivenNames v1
  clear_value v1
  extract_lets -merge -useContext -underBinder +onlyGivenNames u2_0 u2_1 v2
  have h2 : Within F R z v2 := (by unfold v2; exact (.wgt (State.bump_within (sub hF rfl) (sub hR rfl) (elem hR rfl) (State.storeShard_within (sub hF rfl) (sub hR rfl) h)) (elem hF rfl)))
  clear_value v2
  extract_lets -merge -useContext -underBinder +onlyGivenNames v3
  have h3 : Within F R z v3 := (by unfold v3; exact (State.when_within (sub hF rfl) (sub hR rfl) (State.holdShard_within (sub hF rfl) (sub hR rfl) h2) (fun h4 => (State.sendPart_within (sub hF rfl) (sub hR rfl) h4))))
  clear_value v3
  exact .ite (State.loadVerified_within (sub hF rfl) (sub hR rfl) (State.when_within (sub hF rfl) (sub hR rfl) h3 (fun h4 => (State.bcast_within (sub hF rfl) (sub hR rfl) h4)))) h3

theorem State.shard_within {F R} {z s : State} {a1 a2 a3 a4} (hF : F &&& 0x12384202 = 0x12384202) (hR : R &&& 0x80000e7f0000000000000000000000000000000000000001000000000000000000008040000000000000042000043000000008000000000 = 0x80000e7f0000000000000000000000000000000000000001000000000000000000008040000000000000042000043000000008000000000) (h : Within F R z s) : Within F R z (State.shard s a1 a2 a3 a4) := by
  unfold State.shard
  split <;> [exact h; exact (by split <;> [exact (by split <;> [exact h; exact (.ite h (by extract_lets -merge -useContext -underBinder +onlyGivenNames v1; have h1 : Within F R z v1 := (by unfold v1; exact (State.when_within (sub hF rfl) (sub hR rfl) h (fun h2 => (State.bump_within (sub hF rfl) (sub hR rfl) (elem hR rfl) (State.bump_within (sub hF rfl) (sub hR rfl) (elem hR rfl) h2))))); clear_value v1; exact (by split <;> [exact (.ite (State.failLoad_within (sub hF rfl) (sub hR rfl) h1) (State.shardFailed_within (sub hF rfl) (sub hR rfl) h1)); exact (.ite (State.failLoad_within (sub hF rfl) (sub hR rfl) h1) (.ite (State.failLoad_within (sub hF rfl) (sub hR rfl) h1) (State.shardTaken_within (sub hF rfl) (sub hR rfl) h1)))])))]); exact h])]

theorem State.front_within {F R} {z s : State} {a1} (hF : F &&& 0x12304002 = 0x12304002) (hR : R &&& 0x800008400000000000000000000000000000000000000000000000000000000000000000000000000000002000023000000000000000000 = 0x800008400000000000000000000000000000000000000000000000000000000000000000000000000000002000023000000000000000000) (h : Within F R z s) : Within F R z (State.front s a1) := by
  unfold State.front
  split <;> [exact h; exact (by extract_lets -merge -useContext -underBinder +onlyGivenNames v1; clear_value v1; exact (.ite h (.ite (State.failLoad_within (sub hF rfl) (sub hR rfl) h) (.ite (State.failLoad_within (sub hF rfl) (sub hR rfl) h) (by split <;> [exact (State.failLoad_within (sub hF rfl) (sub hR rfl) h); exact (by split <;> [exact (State.failLoad_within (sub hF rfl) (sub hR rfl) h); exact (by extract_lets -merge -useContext -underBinder +onlyGivenNames v2; clear_value v2; exact (by extract_lets -merge -useContext -underBinder +onlyGivenNames v3; clear_value v3; exact (by extract_lets -merge -useContext -underBinder +onlyGivenNames u4_0 v4; have h4 : Within F R z v4 := (by unfold v4; exact (.wgt h (elem hF rfl))); clear_value v4; exact (by extract_lets -merge -useContext -underBinder +onlyGivenNames v5; have h5 : Within F R z v5 := (by unfold v5; exact (State.when_within (sub hF rfl) (sub hR rfl) h4 (fun h6 => (by extract_lets -merge -useContext -underBinder +onlyGivenNames v7; have h7 : Within F R z v7 := (by unfold v7; exact (State.clearShards_within (sub hF rfl) (sub hR rfl) h6)); clear_value v7; exact (.wgt h7 (elem hF rfl)))))); clear_value v5; exact (by extract_lets -merge -useContext -underBinder +onlyGivenNames v6; clear_value v6; exact (by extract_lets -merge -useContext -underBinder +onlyGivenNames v7; have h7 : Within F R z v7 := (by unfold v7; exact (State.when_within (sub hF rfl) (sub hR rfl) h5 (fun h8 => (State.bump_within (sub hF rfl) (sub hR rfl) (elem hR rfl) (State.bump_within (sub hF rfl) (sub hR rfl) (elem hR rfl) h8))))); clear_value v7; exact (by extract_lets -merge -useContext -underBinder +onlyGivenNames v8; have h8 : Within F R z v8 := (by unfold v8; exact (State.when_within (sub hF rfl) (sub hR rfl) h7 (fun h9 => (State.sendPart_within (sub hF rfl) (sub hR rfl) (State.sendPart_within (sub hF rfl) (sub hR rfl) (State.sendPart_within (sub hF rfl) (sub hR rfl) h9)))))); clear_value v8; exact (State.setNum_within (sub hF rfl) (sub hR rfl) (elem hR rfl) (State.setF_within (sub hF rfl) (sub hR rfl) (elem hR rfl) h8)))))))))])])))))]

theorem execShardReadDone_within {F R} {s : State} {a0 a1} (hF : F &&& 0x12384212 = 0x12384212) (hR : R &&& 0x80000e7f0000000000000000000000000000000000004401000000000000000000008040000000000000042000063000000008000000000 = 0x80000e7f0000000000000000000000000000000000004401000000000000000000008040000000000000042000063000000008000000000) : Touched F R s (execShardReadDone a0 a1 s) := by
  unfold execShardReadDone
  exact .answer (sub hF rfl) (fun h1 => (by split <;> [exact h1; exact (.ite h1 (by split <;> [exact (State.front_within (sub hF rfl) (sub hR rfl) h1); exact (State.shard_within (sub hF rfl) (sub hR rfl) (State.when_within (sub hF rfl) (sub hR rfl) h1 (fun h2 => (State.raise_within (sub hF rfl) (sub hR rfl) (elem hR rfl) (State.bump_within (sub hF rfl) (sub hR rfl) (elem hR rfl) h2)))))]))]))

theorem execBroadcastAnnounce_within {F R} {s : State} {a0} (hF : F &&& 0x104012 = 0x104012) (hR : R &&& 0x8000000000000000000000000000000000000000000000000000000000000000000000000000000000000000000000000000000000 = 0x8000000000000000000000000000000000000000000000000000000000000000000000000000000000000000000000000000000000) : Touched F R s (execBroadcastAnnounce a0 s) := by
  unfold execBroadcastAnnounce
  exact .answer (sub hF rfl) (fun h1 => (by split <;> [exact h1; exact (State.when_within (sub hF rfl) (sub hR rfl) h1 (fun h2 => (State.bcast_within (sub hF rfl) (sub hR rfl) h2)))]))

theorem State.arrivePart_within {F R} {z s : State} {a1 a2 a3 a4} (hF : F &&& 0x10004000 = 0x10004000) (hR : R &&& 0 = 0) (h : Within F R z s) : Within F R z (State.arrivePart s a1 a2 a3 a4) := by
  unfold State.arrivePart
  extract_lets -merge -useContext -underBinder +onlyGivenNames v1
  clear_value v1
  exact State.memWrite_within (sub hF rfl) (sub hR rfl) (.wgt h (elem hF rfl))

theorem State.dropParts_within {F R} {z s : State} {a1} (hF : F &&& 0x10004000 = 0x10004000) (hR : R &&& 0 = 0) (h : Within F R z s) : Within F R z (State.dropParts s a1) := by
  unfold State.dropParts
  extract_lets -merge -useContext -underBinder +onlyGivenNames v1
  have h1 : Within F R z v1 := (by unfold v1; exact (State.each_within (sub hF rfl) (sub hR rfl) h (fun h2 => (State.clearParts_within (sub hF rfl) (sub hR rfl) h2))))
  clear_value v1
  exact .wgt h1 (elem hF rfl)

theorem State.takeShards_within {F R} {z s : State}  (hF : F &&& 0x12384202 = 0x12384202) (hR : R &&& 0x80000e7f0000000000000000000000000000000000000001000000000000000000008040000000000000042000043000000008000000000 = 0x80000e7f0000000000000000000000000000000000000001000000000000000000008040000000000000042000043000000008000000000) (h : Within F R z s) : Within F R z (State.takeShards s) := by
  unfold State.takeShards
  split <;> [exact h; exact (by split <;> [exact h; exact (State.each_within (sub hF rfl) (sub hR rfl) h (fun h1 => (State.when_within (sub hF rfl) (sub hR rfl) h1 (fun h2 => (by extract_lets -merge -useContext -underBinder +onlyGivenNames v3; clear_value v3; exact (State.shard_within (sub hF rfl) (sub hR rfl) (State.dropParts_within (sub hF rfl) (sub hR rfl) h2)))))))])]

theorem State.takeFront_within {F R} {z s : State}  (hF : F &&& 0x12304002 = 0x12304002) (hR : R &&& 0x800008400000000000000000000000000000000000000000000000000000000000000000000000000000002000023000000000000000000 = 0x800008400000000000000000000000000000000000000000000000000000000000000000000000000000002000023000000000000000000) (h : Within F R z s) : Within F R z (State.takeFront s) := by
  unfold State.takeFront
  split <;> [exact h; exact (.ite h (by split <;> [exact h; exact (by extract_lets -merge -useContext -underBinder +onlyGivenNames v1; clear_value v1; exact (.ite (State.dropParts_within (sub hF rfl) (sub hR rfl) h) (State.front_within (sub hF rfl) (sub hR rfl) h)))]))]

theorem State.wantMissing_within {F R} {z s : State} {a1} (hF : F &&& 0x104002 = 0x104002) (hR : R &&& 0x8000000000000000000000000000000000000000001000000000000000000000000000000000000000000000000000000000000000 = 0x8000000000000000000000000000000000000000001000000000000000000000000000000000000000000000000000000000000000) (h : Within F R z s) : Within F R z (State.wantMissing s a1) := by
  unfold State.wantMissing
  split <;> [exact (State.want_within (sub hF rfl) (sub hR rfl) h); exact (State.want_within (sub hF rfl) (sub hR rfl) h)]

theorem execBcastAnnouncement_within {F R} {s : State} {a0 a1 a2 a3 a4} (hF : F &&& 0x3104012 = 0x3104012) (hR : R &&& 0x18000000000000008800000000000000000000000000400000000000000000000000000000000000000000000000000000000000000 = 0x18000000000000008800000000000000000000000000400000000000000000000000000000000000000000000000000000000000000) : Touched F R s (execBcastAnnouncement a0 a1 a2 a3 a4 s) := by
  unfold execBcastAnnouncement
  exact .answer (sub hF rfl) (fun h1 => (State.arrival_within (sub hF rfl) (sub hR rfl) h1 (fun h2 => (by split <;> [exact h2; exact (.ite (.wgt h2 (elem hF rfl)) h2)]))))

theorem State.takeBcast_within {F R} {z s : State} {a1 a2 a3 a4} (hF : F &&& 0x12384202 = 0x12384202) (hR : R &&& 0x80000e7f0000000000000000000000000000000000000001000000000000000000008040000000000000042000063000000008000000000 = 0x80000e7f0000000000000000000000000000000000000001000000000000000000008040000000000000042000063000000008000000000) (h : Within F R z s) : Within F R z (State.takeBcast s a1 a2 a3 a4) := by
  unfold State.takeBcast
  split <;> [exact h; exact (.ite h (by extract_lets -merge -useContext -underBinder +onlyGivenNames v1; have h1 : Within F R z v1 := (by unfold v1; exact (State.arrivePart_within (sub hF rfl) (sub hR rfl) h)); clear_value v1; exact (by extract_lets -merge -useContext -underBinder +onlyGivenNames v2; have h2 : Within F R z v2 := (by unfold v2; exact (State.takeFront_within (sub hF rfl) (sub hR rfl) h1)); clear_value v2; exact (by extract_lets -merge -useContext -underBinder +onlyGivenNames u3_0 v3; have h3 : Within F R z v3 := (by unfold v3; exact (.wgt h2 (elem hF rfl))); clear_value v3; exact (State.takeShards_within (sub hF rfl) (sub hR rfl) h3)))))]

theorem execBcastDataReceived_within {F R} {s : State} {a0 a1 a2 a3 a4 a5} (hF : F &&& 0x13384212 = 0x13384212) (hR : R &&& 0x80001e7f0000000000008800000000000000000000000001400000000000000000008040000000000000042000063000000008000000000 = 0x80001e7f0000000000008800000000000000000000000001400000000000000000008040000000000000042000063000000008000000000) : Touched F R s (execBcastDataReceived a0 a1 a2 a3 a4 a5 s) :=
  .answer (sub hF rfl) (fun h1 => (State.arrival_within (sub hF rfl) (sub hR rfl) h1 (fun h2 => (State.takeBcast_within (sub hF rfl) (sub hR rfl) h2))))

theorem State.takeEnd_within {F R} {z s : State} {a1} (hF : F &&& 0x104002 = 0x104002) (hR : R &&& 0x8000000000000000000000000000000000000000001000000000000000000000000000000000000000000000000000000000000000 = 0x8000000000000000000000000000000000000000001000000000000000000000000000000000000000000000000000000000000000) (h : Within F R z s) : Within F R z (State.takeEnd s a1) := by
  unfold State.takeEnd
  split <;> [exact h; exact (.ite (State.wantMissing_within (sub hF rfl) (sub hR rfl) h) h)]

theorem execBcastEnd_within {F R} {s : State} {a0 a1 a2} (hF : F &&& 0x3104012 = 0x3104012) (hR : R &&& 0x18000000000000008800000000000000000000000001400000000000000000000000000000000000000000000000000000000000000 = 0x18000000000000008800000000000000000000000001400000000000000000000000000000000000000000000000000000000000000) : Touched F R s (execBcastEnd a0 a1 a2 s) :=
  .answer (sub hF rfl) (fun h1 => (State.arrival_within (sub hF rfl) (sub hR rfl) h1 (fun h2 => (State.takeEnd_within (sub hF rfl) (sub hR rfl) h2))))

theorem State.takeAbort_within {F R} {z s : State} {a1} (hF : F &&& 0x12304002 = 0x12304002) (hR : R &&& 0x8000000000000000000000000000000000000000000000000000000000000000000000000000000002000003000000000000000000 = 0x8000000000000000000000000000000000000000000000000000000000000000000000000000000002000003000000000000000000) (h : Within F R z s) : Within F R z (State.takeAbort s a1) := by
  unfold State.takeAbort
  split <;> [exact h; exact (.ite (State.failLoad_within (sub hF rfl) (sub hR rfl) h) h)]

theorem execBcastAbort_within {F R} {s : State} {a0 a1 a2} (hF : F &&& 0x13304012 = 0x13304012) (hR : R &&& 0x18000000000000008800000000000000000000000000400000000000000000000000000000000000002000003000000000000000000 = 0x18000000000000008800000000000000000000000000400000000000000000000000000000000000002000003000000000000000000) : Touched F R s (execBcastAbort a0 a1 a2 s) :=
  .answer (sub hF rfl) (fun h1 => (State.arrival_within (sub hF rfl) (sub hR rfl) h1 (fun h2 => (State.takeAbort_within (sub hF rfl) (sub hR rfl) h2))))

theorem execBcastSilence_within {F R} {s : State} {a0} (hF : F &&& 0x104012 = 0x104012) (hR : R &&& 0x8000000000000000000000000000000000000000001000000000000000000000000000000000000000000000000000000000000000 = 0x8000000000000000000000000000000000000000001000000000000000000000000000000000000000000000000000000000000000) : Touched F R s (execBcastSilence a0 s) := by
  unfold execBcastSilence
  exact .answer (sub hF rfl) (fun h1 => (by split <;> [exact h1; exact (.ite (State.wantMissing_within (sub hF rfl) (sub hR rfl) h1) h1)]))

theorem execRecvWaitExpiry_within {F R} {s : State} {a0} (hF : F &&& 0x12304012 = 0x12304012) (hR : R &&& 0x8000000000000000000000000000000000000000000000000000000000000000000000000000000002000003000000000000000000 = 0x8000000000000000000000000000000000000000000000000000000000000000000000000000000002000003000000000000000000) : Touched F R s (execRecvWaitExpiry a0 s) := by
  unfold execRecvWaitExpiry
  exact .answer (sub hF rfl) (fun h1 => (by split <;> [exact h1; exact (.ite (State.failLoad_within (sub hF rfl) (sub hR rfl) h1) h1)]))

theorem execShardRequestWaitExpiry_within {F R} {s : State} {a0 a1} (hF : F &&& 0x104012 = 0x104012) (hR : R &&& 0x8000000000000000000000000000000000000000001000000000000000000000000000000000000040000000000000000000000000 = 0x8000000000000000000000000000000000000000001000000000000000000000000000000000000040000000000000000000000000) : Touched F R s (execShardRequestWaitExpiry a0 a1 s) := by
  unfold execShardRequestWaitExpiry
  exact .answer (sub hF rfl) (fun h1 => (by split <;> [exact h1; exact (.ite (State.nextRequest_within (sub hF rfl) (sub hR rfl) (State.bump_within (sub hF rfl) (sub hR rfl) (elem hR rfl) h1)) h1)]))

theorem State.takeResp_within {F R} {z s : State} {a1 a2} (hF : F &&& 0x12384202 = 0x12384202) (hR : R &&& 0x80000e7f0000000000000000000000000000000000000001000000000000000000008040000000000000042000063000000008000000000 = 0x80000e7f0000000000000000000000000000000000000001000000000000000000008040000000000000042000063000000008000000000) (h : Within F R z s) : Within F R z (State.takeResp s a1 a2) := by
  unfold State.takeResp
  split <;> [exact h; exact (.ite h (by split <;> [exact (State.nextRequest_within (sub hF rfl) (sub hR rfl) (State.bump_within (sub hF rfl) (sub hR rfl) (elem hR rfl) h)); exact (.ite (State.shard_within (sub hF rfl) (sub hR rfl) h) (by extract_lets -merge -useContext -underBinder +onlyGivenNames v1; have h1 : Within F R z v1 := (by unfold v1; exact (State.arrivePart_within (sub hF rfl) (sub hR rfl) (State.dropParts_within (sub hF rfl) (sub hR rfl) h))); clear_value v1; exact (by extract_lets -merge -useContext -underBinder +onlyGivenNames v2; have h2 : Within F R z v2 := (by unfold v2; exact (State.takeShards_within (sub hF rfl) (sub hR rfl) (State.takeFront_within (sub hF rfl) (sub hR rfl) h1))); clear_value v2; exact (by split <;> [exact h2; exact (.ite (State.wantMissing_within (sub hF rfl) (sub hR rfl) h2) h2)]))))]))]

theorem execShardRespReceived_within {F R} {s : State} {a0 a1 a2 a3 a4} (hF : F &&& 0x13384212 = 0x13384212) (hR : R &&& 0x80001e7f0000000000008800000000000000000000000001400000000000000000008040000000000000042000063000000008000000000 = 0x80001e7f0000000000008800000000000000000000000001400000000000000000008040000000000000042000063000000008000000000) : Touched F R s (execShardRespReceived a0 a1 a2 a3 a4 s) :=
  .answer (sub hF rfl) (fun h1 => (State.arrival_within (sub hF rfl) (sub hR rfl) h1 (fun h2 => (State.takeResp_within (sub hF rfl) (sub hR rfl) h2))))

theorem execShardTimeout_within {F R} {s : State} {a0 a1} (hF : F &&& 0x12304012 = 0x12304012) (hR : R &&& 0x8000000000000000000000000000000000000000000000000000000000000000000000000000000002000003000000000000000000 = 0x8000000000000000000000000000000000000000000000000000000000000000000000000000000002000003000000000000000000) : Touched F R s (execShardTimeout a0 a1 s) := by
  unfold execShardTimeout
  exact .answer (sub hF rfl) (fun h1 => (by split <;> [exact h1; exact (by split <;> [exact h1; exact (.ite (State.failLoad_within (sub hF rfl) (sub hR rfl) h1) h1)])]))

theorem State.takeReq_within {F R} {z s : State} {a1 a2 a3} (hF : F &&& 0x100002 = 0x100002) (hR : R &&& 0x800008400000000000000000000000000000000000000001000000000000000000000000000000000000080000000000000000000000000 = 0x800008400000000000000000000000000000000000000001000000000000000000000000000000000000080000000000000000000000000) (h : Within F R z s) : Within F R z (State.takeReq s a1 a2 a3) := by
  unfold State.takeReq
  extract_lets -merge -useContext -underBinder +onlyGivenNames v1
  clear_value v1
  split <;> [exact (OWithin.getD (State.routePkt_within (sub hF rfl) (sub hR rfl) h) h); exact (by extract_lets -merge -useContext -underBinder +onlyGivenNames v2; clear_value v2; exact (by extract_lets -merge -useContext -underBinder +onlyGivenNames v3; have h3 : Within F R z v3 := (by unfold v3; exact (State.when_within (sub hF rfl) (sub hR rfl) h (fun h4 => (State.bump_within (sub hF rfl) (sub hR rfl) (elem hR rfl) (State.bump_within (sub hF rfl) (sub hR rfl) (elem hR rfl) h4))))); clear_value v3; exact (by extract_lets -merge -useContext -underBinder +onlyGivenNames v4; clear_value v4; exact (State.each_within (sub hF rfl) (sub hR rfl) (State.bump_within (sub hF rfl) (sub hR rfl) (elem hR rfl) h3) (fun h5 => (OWithin.getD (State.routePkt_within (sub hF rfl) (sub hR rfl) h5) h5))))))]

theorem execShardReqReceived_within {F R} {s : State} {a0 a1 a2 a3 a4} (hF : F &&& 0x3100012 = 0x3100012) (hR : R &&& 0x800018400000000000008800000000000000000000000001400000000000000000000000000000000000080000000000000000000000000 = 0x800018400000000000008800000000000000000000000001400000000000000000000000000000000000080000000000000000000000000) : Touched F R s (execShardReqReceived a0 a1 a2 a3 a4 s) :=
  .answer (sub hF rfl) (fun h1 => (State.arrival_within (sub hF rfl) (sub hR rfl) h1 (fun h2 => (State.takeReq_within (sub hF rfl) (sub hR rfl) h2))))

theorem execHoldExpiry_within {F R} {s : State} {a0} (hF : F &&& 0x10204012 = 0x10204012) (hR : R &&& 0x2000000000000000000000000 = 0x2000000000000000000000000) : Touched F R s (execHoldExpiry a0 s) := by
  unfold execHoldExpiry
  exact .answer (sub hF rfl) (fun h1 => (by split <;> [exact h1; exact (by split <;> [exact h1; exact (.ite (State.raise_within (sub hF rfl) (sub hR rfl) (elem hR rfl) (State.clearShards_within (sub hF rfl) (sub hR rfl) (.wgt h1 (elem hF rfl)))) h1)])]))

theorem State.takeStandby_within {F R} {z s : State}  (hF : F &&& 0x12b8e602 = 0x12b8e602) (hR : R &&& 0x80000e7f0000000000000000000200000000000000000001a00020070041e000000080404000000000000c2000063000000008000000000 = 0x80000e7f0000000000000000000200000000000000000001a00020070041e000000080404000000000000c2000063000000008000000000) (h : Within F R z s) : Within F R z (State.takeStandby s) := by
  unfold State.takeStandby
  extract_lets -merge -useContext -underBinder +onlyGivenNames v1
  clear_value v1
  exact State.each_within (sub hF rfl) (sub hR rfl) (.fab h (elem hF rfl)) (fun h2 => (by split <;> [exact (State.takeSyncReq_within (sub hF rfl) (sub hR rfl) (State.freeBuf_within (sub hF rfl) (sub hR rfl) h2)); exact (State.takeWrite_within (sub hF rfl) (sub hR rfl) (State.freeBuf_within (sub hF rfl) (sub hR rfl) h2)); exact (State.takeReduceAdd_within (sub hF rfl) (sub hR rfl) (State.freeBuf_within (sub hF rfl) (sub hR rfl) h2)); exact (State.takeTransit_within (sub hF rfl) (sub hR rfl) (State.freeBuf_within (sub hF rfl) (sub hR rfl) h2)); exact (by extract_lets -merge -useContext -underBinder +onlyGivenNames v3; have h3 : Within F R z v3 := (by unfold v3; exact (State.freeBuf_within (sub hF rfl) (sub hR rfl) h2)); clear_value v3; exact (by split <;> [exact h3; exact (.ite (.wgt h3 (elem hF rfl)) h3)])); exact (State.takeBcast_within (sub hF rfl) (sub hR rfl) (State.freeBuf_within (sub hF rfl) (sub hR rfl) h2)); exact (State.takeEnd_within (sub hF rfl) (sub hR rfl) (State.freeBuf_within (sub hF rfl) (sub hR rfl) h2)); exact (State.takeAbort_within (sub hF rfl) (sub hR rfl) (State.freeBuf_within (sub hF rfl) (sub hR rfl) h2)); exact (State.takeReq_within (sub hF rfl) (sub hR rfl) (State.freeBuf_within (sub hF rfl) (sub hR rfl) h2)); exact (State.takeResp_within (sub hF rfl) (sub hR rfl) (State.freeBuf_within (sub hF rfl) (sub hR rfl) h2)); exact h2]))

theorem State.failSteps_within {F R} {z s : State} {a1} (hF : F &&& 0x8000 = 0x8000) (hR : R &&& 0 = 0) (h : Within F R z s) : Within F R z (State.failSteps s a1) :=
  State.each_within (sub hF rfl) (sub hR rfl) h (fun h1 => (State.updSess_within (sub hF rfl) (sub hR rfl) h1))

theorem State.tierFailed_within {F R} {z s : State} {a1} (hF : F &&& 0x220c002 = 0x220c002) (hR : R &&& 0x2000000000000000000000000 = 0x2000000000000000000000000) (h : Within F R z s) : Within F R z (State.tierFailed s a1) :=
  State.failSteps_within (sub hF rfl) (sub hR rfl) (State.event_within (sub hF rfl) (sub hR rfl) (State.raise_within (sub hF rfl) (sub hR rfl) (elem hR rfl) (.wgt h (elem hF rfl))))

theorem State.tierRead_within {F R} {z s : State} {a1 a2} (hF : F &&& 0x10004000 = 0x10004000) (hR : R &&& 0x63f0000000000000000000000000000000000000000000000000000000000000000000000000000020000000000000000000000000 = 0x63f0000000000000000000000000000000000000000000000000000000000000000000000000000020000000000000000000000000) (h : Within F R z s) : Within F R z (State.tierRead s a1 a2) := by
  unfold State.tierRead
  extract_lets -merge -useContext -underBinder +onlyGivenNames v1
  clear_value v1
  extract_lets -merge -useContext -underBinder +onlyGivenNames u2_0 v2
  have h2 : Within F R z v2 := (by unfold v2; exact (.wgt h (elem hF rfl)))
  clear_value v2
  extract_lets -merge -useContext -underBinder +onlyGivenNames v3
  have h3 : Within F R z v3 := (by unfold v3; exact (State.each_within (sub hF rfl) (sub hR rfl) h2 (fun h4 => (State.moves_within (sub hF rfl) (sub hR rfl) (State.memWrite_within (sub hF rfl) (sub hR rfl) h4)))))
  clear_value v3
  exact State.bump_within (sub hF rfl) (sub hR rfl) (elem hR rfl) h3

theorem execHostTierReadDone_within {F R} {s : State} {a0 a1 a2} (hF : F &&& 0x1220c012 = 0x1220c012) (hR : R &&& 0x8000067f0000000000000000000000000000000000000000000000000000000000000000000000000000122000000000000000000000000 = 0x8000067f0000000000000000000000000000000000000000000000000000000000000000000000000000122000000000000000000000000) : Touched F R s (execHostTierReadDone a0 a1 a2 s) := by
  unfold execHostTierReadDone
  exact .answer (sub hF rfl) (fun h1 => (.ite h1 (by extract_lets -merge -useContext -underBinder +onlyGivenNames v2; clear_value v2; exact (by extract_lets -merge -useContext -underBinder +onlyGivenNames v3; clear_value v3; exact (by extract_lets -merge -useContext -underBinder +onlyGivenNames v4; clear_value v4; exact (by extract_lets -merge -useContext -underBinder +onlyGivenNames v5; have h5 : Within F R s v5 := (by unfold v5; exact (State.bump_within (sub hF rfl) (sub hR rfl) (elem hR rfl) (State.bump_within (sub hF rfl) (sub hR rfl) (elem hR rfl) h1))); clear_value v5; exact (by split <;> [exact (State.tierRead_within (sub hF rfl) (sub hR rfl) h5); exact (by extract_lets -merge -useContext -underBinder +onlyGivenNames v6; clear_value v6; exact (by extract_lets -merge -useContext -underBinder +onlyGivenNames u7_0 u7_1 v7; have h7 : Within F R s v7 := (by unfold v7; exact (.wgt (State.bump_within (sub hF rfl) (sub hR rfl) (elem hR rfl) h5) (elem hF rfl))); clear_value v7; exact (.ite (State.tierFailed_within (sub hF rfl) (sub hR rfl) h7) h7)))])))))))

theorem State.restage_within {F R} {z s : State}  (hF : F &&& 0x10284202 = 0x10284202) (hR : R &&& 0x8040000000000000002000003000000008000000000 = 0x8040000000000000002000003000000008000000000) (h : Within F R z s) : Within F R z (State.restage s) := by
  unfold State.restage
  extract_lets -merge -useContext -underBinder +onlyGivenNames v1
  clear_value v1
  extract_lets -merge -useContext -underBinder +onlyGivenNames v2
  have h2 : Within F R z v2 := (by unfold v2; exact (State.setF_within (sub hF rfl) (sub hR rfl) (elem hR rfl) h))
  clear_value v2
  exact .ite (State.meetPlans_within (sub hF rfl) (sub hR rfl) (State.updWslot_within (sub hF rfl) (sub hR rfl) h2)) h2

theorem State.unbind_within {F R} {z s : State} {a1} (hF : F &&& 0x10284202 = 0x10284202) (hR : R &&& 0x8040000000000000002000002000000008000000000 = 0x8040000000000000002000002000000008000000000) (h : Within F R z s) : Within F R z (State.unbind s a1) :=
  State.each_within (sub hF rfl) (sub hR rfl) h (fun h1 => (.ite (State.bindPlan_within (sub hF rfl) (sub hR rfl) h1) h1))

theorem State.wgtRelease_within {F R} {z s : State}  (hF : F &&& 0x10284202 = 0x10284202) (hR : R &&& 0x8040000000000000002000003000000008000000000 = 0x8040000000000000002000003000000008000000000) (h : Within F R z s) : Within F R z (State.wgtRelease s) := by
  unfold State.wgtRelease
  extract_lets -merge -useContext -underBinder +onlyGivenNames v1
  clear_value v1
  extract_lets -merge -useContext -underBinder +onlyGivenNames v2
  have h2 : Within F R z v2 := (by unfold v2; exact (State.setF_within (sub hF rfl) (sub hR rfl) (elem hR rfl) h))
  clear_value v2
  split <;> [exact (State.dropContent_within (sub hF rfl) (sub hR rfl) (State.updWslot_within (sub hF rfl) (sub hR rfl) h2)); exact (State.dropContent_within (sub hF rfl) (sub hR rfl) (State.updWslot_within (sub hF rfl) (sub hR rfl) h2)); exact (State.dropContent_within (sub hF rfl) (sub hR rfl) (State.updWslot_within (sub hF rfl) (sub hR rfl) h2)); exact (by extract_lets -merge -useContext -underBinder +onlyGivenNames v3; have h3 : Within F R z v3 := (by unfold v3; exact (State.endStaging_within (sub hF rfl) (sub hR rfl) h2)); clear_value v3; exact (State.unbind_within (sub hF rfl) (sub hR rfl) (State.dropContent_within (sub hF rfl) (sub hR rfl) (State.updWslot_within (sub hF rfl) (sub hR rfl) (.wgt h3 (elem hF rfl)))))); exact (by extract_lets -merge -useContext -underBinder +onlyGivenNames v3; have h3 : Within F R z v3 := (by unfold v3; exact (State.endStaging_within (sub hF rfl) (sub hR rfl) h2)); clear_value v3; exact (State.unbind_within (sub hF rfl) (sub hR rfl) (State.dropContent_within (sub hF rfl) (sub hR rfl) (State.updWslot_within (sub hF rfl) (sub hR rfl) (.wgt h3 (elem hF rfl)))))); exact h2; exact h2; exact h2]

theorem State.adapterUnload_within {F R} {z s : State}  (hF : F &&& 0x4000 = 0x4000) (hR : R &&& 0x1000000000000000000 = 0x1000000000000000000) (h : Within F R z s) : Within F R z (State.adapterUnload s) := by
  unfold State.adapterUnload
  extract_lets -merge -useContext -underBinder +onlyGivenNames v1
  clear_value v1
  extract_lets -merge -useContext -underBinder +onlyGivenNames v2
  have h2 : Within F R z v2 := (by unfold v2; exact (State.setF_within (sub hF rfl) (sub hR rfl) (elem hR rfl) h))
  clear_value v2
  exact .wgt h2 (elem hF rfl)

theorem State.trustSet_within {F R} {z s : State} {a1} (hF : F &&& 128 = 128) (_hR : R &&& 0 = 0) (h : Within F R z s) : Within F R z (State.trustSet s a1) :=
  .ite h (.mram h (elem hF rfl))

theorem State.tierWritten_within {F R} {z s : State}  (hF : F &&& 0x4000 = 0x4000) (hR : R &&& 0x2000000000000000000000000 = 0x2000000000000000000000000) (h : Within F R z s) : Within F R z (State.tierWritten s) :=
  State.setF_within (sub hF rfl) (sub hR rfl) (elem hR rfl) (.wgt h (elem hF rfl))

/-! Plan -/

theorem State.planStart_within {F R} {z s : State}  (hF : F &&& 0x280002 = 0x280002) (hR : R &&& 0x8060000000000000000000000000000000000000000 = 0x8060000000000000000000000000000000000000000) (h : Within F R z s) : Within F R z (State.planStart s) := by
  unfold State.planStart
  extract_lets -merge -useContext -underBinder +onlyGivenNames v1 v2 v3 v4
  clear_value v1 v2 v3 v4
  exact .ite (State.raise_within (sub hF rfl) (sub hR rfl) (elem hR rfl) (State.setF_within (sub hF rfl) (sub hR rfl) (elem hR rfl) (State.setF_within (sub hF rfl) (sub hR rfl) (elem hR rfl) h))) (by extract_lets -merge -useContext -underBinder +onlyGivenNames v5; have h5 : Within F R z v5 := (by unfold v5; exact (State.setNum_within (sub hF rfl) (sub hR rfl) (elem hR rfl) (State.updPslot_within (sub hF rfl) (sub hR rfl) h))); clear_value v5; exact (.plans h5 (elem hF rfl)))

theorem State.planAbort_within {F R} {z s : State}  (hF : F &&& 0x80000 = 0x80000) (hR : R &&& 0x20000000000000000000000000000000000000000 = 0x20000000000000000000000000000000000000000) (h : Within F R z s) : Within F R z (State.planAbort s) := by
  unfold State.planAbort
  split <;> [exact (State.setF_within (sub hF rfl) (sub hR rfl) (elem hR rfl) h); exact (by extract_lets -merge -useContext -underBinder +onlyGivenNames v1; have h1 : Within F R z v1 := (by unfold v1; exact (State.setF_within (sub hF rfl) (sub hR rfl) (elem hR rfl) h)); clear_value v1; exact (.plans h1 (elem hF rfl)))]

theorem State.releaseBound_within {F R} {z s : State} {a1} (hF : F &&& 0x10284202 = 0x10284202) (hR : R &&& 0x8040000000000000002000002000000008000000000 = 0x8040000000000000002000002000000008000000000) (h : Within F R z s) : Within F R z (State.releaseBound s a1) := by
  unfold State.releaseBound
  split <;> [exact h; exact (.ite (State.meetPlans_within (sub hF rfl) (sub hR rfl) (State.updWslot_within (sub hF rfl) (sub hR rfl) (State.endStaging_within (sub hF rfl) (sub hR rfl) h))) h)]

theorem State.planRelease_within {F R} {z s : State}  (hF : F &&& 0x10284202 = 0x10284202) (hR : R &&& 0x8060000000000000002000002000000008000000000 = 0x8060000000000000002000002000000008000000000) (h : Within F R z s) : Within F R z (State.planRelease s) := by
  unfold State.planRelease
  extract_lets -merge -useContext -underBinder +onlyGivenNames v1
  clear_value v1
  extract_lets -merge -useContext -underBinder +onlyGivenNames v2
  have h2 : Within F R z v2 := (by unfold v2; exact (State.setF_within (sub hF rfl) (sub hR rfl) (elem hR rfl) h))
  clear_value v2
  extract_lets -merge -useContext -underBinder +onlyGivenNames v3
  clear_value v3
  exact .ite h2 (.ite (State.setF_within (sub hF rfl) (sub hR rfl) (elem hR rfl) (State.setF_within (sub hF rfl) (sub hR rfl) (elem hR rfl) (State.updPslot_within (sub hF rfl) (sub hR rfl) (.plans h2 (elem hF rfl))))) (State.releaseBound_within (sub hF rfl) (sub hR rfl) (State.updPslot_within (sub hF rfl) (sub hR rfl) (State.endStaging_within (sub hF rfl) (sub hR rfl) h2))))

theorem State.planDump_within {F R} {z s : State}  (hF : F &&& 0x80000 = 0x80000) (_hR : R &&& 0 = 0) (h : Within F R z s) : Within F R z (State.planDump s) :=
  .plans h (elem hF rfl)

theorem State.planFails_within {F R} {z s : State} {a1} (hF : F &&& 0x280002 = 0x280002) (hR : R &&& 0x8c60000000000000000000000000000000000000000 = 0x8c60000000000000000000000000000000000000000) (h : Within F R z s) : Within F R z (State.planFails s a1) := by
  unfold State.planFails
  extract_lets -merge -useContext -underBinder +onlyGivenNames v1
  have h1 : Within F R z v1 := (by unfold v1; exact (State.setNum_within (sub hF rfl) (sub hR rfl) (elem hR rfl) (State.setNum_within (sub hF rfl) (sub hR rfl) (elem hR rfl) (State.failPlan_within (sub hF rfl) (sub hR rfl) h))))
  clear_value v1
  exact State.setF_within (sub hF rfl) (sub hR rfl) (elem hR rfl) h1

theorem execPlanLoadDone_within {F R} {s : State} {a0 a1} (hF : F &&& 0x10284212 = 0x10284212) (hR : R &&& 0x800000400000000000000000000000000000000000004400000000000000000000008c60000000000000002000002000000008000000000 = 0x800000400000000000000000000000000000000000004400000000000000000000008c60000000000000002000002000000008000000000) : Touched F R s (execPlanLoadDone a0 a1 s) := by
  unfold execPlanLoadDone
  exact .answer (sub hF rfl) (fun h1 => (by split <;> [exact h1; exact (by extract_lets -merge -useContext -underBinder +onlyGivenNames v2; have h2 : Within F R s v2 := (by unfold v2; exact (State.when_within (sub hF rfl) (sub hR rfl) h1 (fun h3 => (State.raise_within (sub hF rfl) (sub hR rfl) (elem hR rfl) (State.bump_within (sub hF rfl) (sub hR rfl) (elem hR rfl) h3))))); clear_value v2; exact (.ite (State.setF_within (sub hF rfl) (sub hR rfl) (elem hR rfl) (State.failPlan_within (sub hF rfl) (sub hR rfl) h2)) (by split <;> [exact (State.planFails_within (sub hF rfl) (sub hR rfl) h2); exact (by extract_lets -merge -useContext -underBinder +onlyGivenNames v3; clear_value v3; exact (by split <;> [exact (State.planFails_within (sub hF rfl) (sub hR rfl) h2); exact (by extract_lets -merge -useContext -underBinder +onlyGivenNames u4_0 v4; have h4 : Within F R s v4 := (by unfold v4; exact (State.updPslot_within (sub hF rfl) (sub hR rfl) (.plans h2 (elem hF rfl)))); clear_value v4; exact (by extract_lets -merge -useContext -underBinder +onlyGivenNames v5; have h5 : Within F R s v5 := (by unfold v5; exact (State.bump_within (sub hF rfl) (sub hR rfl) (elem hR rfl) (State.bump_within (sub hF rfl) (sub hR rfl) (elem hR rfl) h4))); clear_value v5; exact (State.bindPlan_within (sub hF rfl) (sub hR rfl) (State.raise_within (sub hF rfl) (sub hR rfl) (elem hR rfl) (State.setF_within (sub hF rfl) (sub hR rfl) (elem hR rfl) (State.setNum_within (sub hF rfl) (sub hR rfl) (elem hR rfl) h5))))))]))])))]))

/-! KvOps -/

theorem State.judgeBudget_within {F R} {z s : State}  (hF : F &&& 0 = 0) (hR : R &&& 0x21000000000000000000000000000 = 0x21000000000000000000000000000) (h : Within F R z s) : Within F R z (State.judgeBudget s) :=
  State.setF_within (sub hF rfl) (sub hR rfl) (elem hR rfl) (State.setNum_within (sub hF rfl) (sub hR rfl) (elem hR rfl) h)

theorem State.allocate_within {F R} {z s : State} {a1 a2} (hF : F &&& 0x8000 = 0x8000) (hR : R &&& 0 = 0) (h : Within F R z s) : Within F R z (State.allocate s a1 a2) :=
  State.each_within (sub hF rfl) (sub hR rfl) h (fun h1 => (State.updSess_within (sub hF rfl) (sub hR rfl) h1))

theorem State.carve_within {F R} {z s : State}  (hF : F &&& 0x10000 = 0x10000) (_hR : R &&& 0 = 0) (h : Within F R z s) : Within F R z (State.carve s) :=
  .srv h (elem hF rfl)

theorem State.kvcReserve_within {F R} {z s : State} {a1} (hF : F &&& 0x200002 = 0x200002) (hR : R &&& 0xa000000000000000000000000000 = 0xa000000000000000000000000000) (h : Within F R z s) : Within F R z (State.kvcReserve s a1) := by
  unfold State.kvcReserve
  extract_lets -merge -useContext -underBinder +onlyGivenNames v1 v2 v3 v4 v5
  clear_value v1 v2 v3 v4 v5
  exact .ite (State.setReg_within (sub hF rfl) (sub hR rfl) (elem hR rfl) h) (State.raise_within (sub hF rfl) (sub hR rfl) (elem hR rfl) h)

theorem State.slideOne_within {F R} {z s : State} {a1} (hF : F &&& 0x208002 = 0x208002) (hR : R &&& 0x80000000000000000000000000000000000000000000000000000000000000000000000000000000040002000000000000000000000000000 = 0x80000000000000000000000000000000000000000000000000000000000000000000000000000000040002000000000000000000000000000) (h : Within F R z s) : Within F R z (State.slideOne s a1) :=
  State.raise_within (sub hF rfl) (sub hR rfl) (elem hR rfl) (State.bump_within (sub hF rfl) (sub hR rfl) (elem hR rfl) (State.bump_within (sub hF rfl) (sub hR rfl) (elem hR rfl) (State.updSess_within (sub hF rfl) (sub hR rfl) h)))

theorem State.slideTo_within {F R} {z s : State} {a1 a2 a3 a4} (hF : F &&& 0x208002 = 0x208002) (hR : R &&& 0x80000000000000000000000000000000000000000000000000000000000000000000000000000000040002000000000000000000000000000 = 0x80000000000000000000000000000000000000000000000000000000000000000000000000000000040002000000000000000000000000000) (h : Within F R z s) : Within F R z (State.slideTo s a1 a2 a3 a4) := by
  induction a4 generalizing s with
  | zero => exact h
  | succ n ih =>
    unfold State.slideTo
    split <;> [exact h; exact .ite (ih (State.slideOne_within (sub hF rfl) (sub hR rfl) h)) h]

theorem State.slideFor_within {F R} {z s : State} {a1 a2} (hF : F &&& 0x208002 = 0x208002) (hR : R &&& 0x80000000000000000000000000000000000000000000000000000000000000000000000000000000040003000000000000000000000000000 = 0x80000000000000000000000000000000000000000000000000000000000000000000000000000000040003000000000000000000000000000) (h : Within F R z s) : Within F R z (State.slideFor s a1 a2) := by
  induction a2 generalizing s with
  | zero => exact h
  | succ k ih =>
    unfold State.slideFor
    refine .ite h ?_
    split <;> [exact h; exact ih (State.setF_within (sub hF rfl) (sub hR rfl) (elem hR rfl)
      (State.slideOne_within (sub hF rfl) (sub hR rfl) h))]

/-! Vector -/

theorem State.putFloats_within {F R} {z s : State} {a1 a2 a3} (hF : F &&& 0x10000000 = 0x10000000) (hR : R &&& 0 = 0) (h : Within F R z s) : Within F R z (State.putFloats s a1 a2 a3) :=
  State.memWrite_within (sub hF rfl) (sub hR rfl) h

theorem State.useScale_within {F R} {z s : State} {a1 a2 a3} (hF : F &&& 0x2000000 = 0x2000000) (hR : R &&& 0 = 0) (h : Within F R z s) : PWithin F R z (State.useScale s a1 a2 a3) := by
  unfold State.useScale
  split <;> [exact (PWithin.mk h); exact (PWithin.mk (State.event_within (sub hF rfl) (sub hR rfl) h))]

theorem State.satCodes_within {F R} {z s : State} {a1 a2 a3} (hF : F &&& 0 = 0) (hR : R &&& 0x40010000000000000000000000000000000000000000000000000000000000000000000000000000000000000000000000000000000000000 = 0x40010000000000000000000000000000000000000000000000000000000000000000000000000000000000000000000000000000000000000) (h : Within F R z s) : Within F R z (State.satCodes s a1 a2 a3) :=
  State.bump_within (sub hF rfl) (sub hR rfl) (elem hR rfl) (State.bump_within (sub hF rfl) (sub hR rfl) (elem hR rfl) h)

theorem State.writeGroup_within {F R} {z s : State} {a1 a2 a3 a4 a5 a6 a7 a8 a9} (hF : F &&& 0x10000000 = 0x10000000) (hR : R &&& 0x40010000000000000000000000000000000000000000000000000000000000000000000000000000000000000000000000000000000000000 = 0x40010000000000000000000000000000000000000000000000000000000000000000000000000000000000000000000000000000000000000) (h : Within F R z s) : Within F R z (State.writeGroup s a1 a2 a3 a4 a5 a6 a7 a8 a9) := by
  unfold State.writeGroup
  exact .ite (by extract_lets -merge -useContext -underBinder +onlyGivenNames v1; clear_value v1; exact (State.when_within (sub hF rfl) (sub hR rfl) (State.putGroup_within (sub hF rfl) (sub hR rfl) h) (fun h2 => (State.satCodes_within (sub hF rfl) (sub hR rfl) h2)))) h

theorem State.dequantTile_within {F R} {z s : State} {a1 a2 a3 a4 a5 a6} (hF : F &&& 0x12000000 = 0x12000000) (hR : R &&& 0x63f0000000000000000000000000000000000000000000000000000000000000000000000000000000000000000000000000000000 = 0x63f0000000000000000000000000000000000000000000000000000000000000000000000000000000000000000000000000000000) (h : Within F R z s) : Within F R z (State.dequantTile s a1 a2 a3 a4 a5 a6) := by
  unfold State.dequantTile
  extract_lets -merge -useContext -underBinder +onlyGivenNames v1
  clear_value v1
  split <;> [(rename_i hq; have h2 := PWithin.fst' (State.useScale_within (sub hF rfl) (sub hR rfl) h) hq; exact (by extract_lets -merge -useContext -underBinder +onlyGivenNames v3; clear_value v3; exact (by extract_lets -merge -useContext -underBinder +onlyGivenNames v4; clear_value v4; exact (State.moves_within (sub hF rfl) (sub hR rfl) (State.putFloats_within (sub hF rfl) (sub hR rfl) h2)))))]

theorem State.weightsIn_within {F R} {z s : State} {a1 a2} (hF : F &&& 0 = 0) (hR : R &&& 0x63f0000000000000000000000000000000000000000000000000000000000000000000000000000000000000000000000000000000 = 0x63f0000000000000000000000000000000000000000000000000000000000000000000000000000000000000000000000000000000) (h : Within F R z s) : Within F R z (State.weightsIn s a1 a2) :=
  State.moves_within (sub hF rfl) (sub hR rfl) h

theorem State.adapterOp_within {F R} {z s : State} {a1 a2 a3 a4 a5 a6} (hF : F &&& 0x12000000 = 0x12000000) (hR : R &&& 0x63f0000000000000000000000000000000000000000000000000000000000000000000000000000000000000000000000000000000 = 0x63f0000000000000000000000000000000000000000000000000000000000000000000000000000000000000000000000000000000) (h : Within F R z s) : Within F R z (State.adapterOp s a1 a2 a3 a4 a5 a6) := by
  unfold State.adapterOp
  split <;> [exact h; exact (by split <;> [(rename_i hq; have h1 := PWithin.fst' (State.useScale_within (sub hF rfl) (sub hR rfl) h) hq; exact (by split <;> [exact h1; exact (State.weightsIn_within (sub hF rfl) (sub hR rfl) (State.putFloats_within (sub hF rfl) (sub hR rfl) h1))]))])]

theorem State.wideOp_within {F R} {z s : State} {a1 a2 a3 a4 a5 a6 a7} (hF : F &&& 0x10000000 = 0x10000000) (hR : R &&& 0x63f0000000000000000000000000000000000000000000000000000000000000000000000000000000000000000000000000000000 = 0x63f0000000000000000000000000000000000000000000000000000000000000000000000000000000000000000000000000000000) (h : Within F R z s) : Within F R z (State.wideOp s a1 a2 a3 a4 a5 a6 a7) := by
  unfold State.wideOp
  split <;> [exact h; exact (State.weightsIn_within (sub hF rfl) (sub hR rfl) (State.putFloats_within (sub hF rfl) (sub hR rfl) h))]

theorem State.embedOp_within {F R} {z s : State} {a1 a2 a3 a4 a5} (hF : F &&& 0x10000000 = 0x10000000) (hR : R &&& 0x63f0000000000000000000000000000000000000000000000000000000000000000000000000000000000000000000000000000000 = 0x63f0000000000000000000000000000000000000000000000000000000000000000000000000000000000000000000000000000000) (h : Within F R z s) : Within F R z (State.embedOp s a1 a2 a3 a4 a5) := by
  unfold State.embedOp
  split <;> [exact h; exact (State.weightsIn_within (sub hF rfl) (sub hR rfl) (State.putFloats_within (sub hF rfl) (sub hR rfl) h))]

theorem State.weightsOp_within {F R} {z s : State} {a1 a2 a3 a4 a5 a6} (hF : F &&& 0x10000000 = 0x10000000) (hR : R &&& 0x63f0000000000000000000000000000000000000000000000000000000000000000000000000000000000000000000000000000000 = 0x63f0000000000000000000000000000000000000000000000000000000000000000000000000000000000000000000000000000000) (h : Within F R z s) : Within F R z (State.weightsOp s a1 a2 a3 a4 a5 a6) := by
  unfold State.weightsOp
  extract_lets -merge -useContext -underBinder +onlyGivenNames v1
  clear_value v1
  split <;> [exact h; exact (State.weightsIn_within (sub hF rfl) (sub hR rfl) (State.putFloats_within (sub hF rfl) (sub hR rfl) h))]

theorem State.vecOp_within {F R} {z s : State} {a1 a2 a3 a4 a5 a6 a7 a8} (hF : F &&& 0x12000000 = 0x12000000) (hR : R &&& 0x400100063f0000000000000000000000000000000000000000000000000000000000000000000000000000000000000000000000000000000 = 0x400100063f0000000000000000000000000000000000000000000000000000000000000000000000000000000000000000000000000000000) (h : Within F R z s) : PWithin F R z (State.vecOp s a1 a2 a3 a4 a5 a6 a7 a8) := by
  unfold State.vecOp
  split <;> [exact (by split <;> [exact (PWithin.mk h); exact (PWithin.mk (State.dequantTile_within (sub hF rfl) (sub hR rfl) h))]); exact (by split <;> [exact (PWithin.mk h); exact (PWithin.mk (State.adapterOp_within (sub hF rfl) (sub hR rfl) h))]); exact (by extract_lets -merge -useContext -underBinder +onlyGivenNames v1; clear_value v1; exact (by extract_lets -merge -useContext -underBinder +onlyGivenNames v2; have h2 : Within F R z v2 := (by unfold v2; exact (State.memWrite_within (sub hF rfl) (sub hR rfl) (State.memWrite_within (sub hF rfl) (sub hR rfl) h))); clear_value v2; exact (by split <;> [exact (PWithin.mk (State.satCodes_within (sub hF rfl) (sub hR rfl) h2)); exact (PWithin.mk h2)]))); exact (by split <;> [exact (PWithin.mk h); exact (PWithin.mk (State.wideOp_within (sub hF rfl) (sub hR rfl) h))]); exact (by split <;> [exact (PWithin.mk h); exact (PWithin.mk (State.embedOp_within (sub hF rfl) (sub hR rfl) h))]); exact (by split <;> [exact (PWithin.mk h); exact (PWithin.mk (State.weightsOp_within (sub hF rfl) (sub hR rfl) h))]); exact (PWithin.mk (State.putFloats_within (sub hF rfl) (sub hR rfl) h)); exact (PWithin.mk (State.putFloats_within (sub hF rfl) (sub hR rfl) h)); exact (PWithin.mk (State.putFloats_within (sub hF rfl) (sub hR rfl) h)); exact (PWithin.mk (State.putFloats_within (sub hF rfl) (sub hR rfl) h)); exact (PWithin.mk (State.writeGroup_within (sub hF rfl) (sub hR rfl) h)); exact (by extract_lets -merge -useContext -underBinder +onlyGivenNames v1; clear_value v1; exact (PWithin.mk (State.putFloats_within (sub hF rfl) (sub hR rfl) h))); exact (PWithin.mk h)]

theorem State.runOps_within {F R} {z s : State} {a1 a2 a3 a4 a5 a6 a7} (hF : F &&& 0x12000000 = 0x12000000) (hR : R &&& 0x400100063f0000000000000000000000000000000000000000000000000000000000000000000000000000000000000000000000000000000 = 0x400100063f0000000000000000000000000000000000000000000000000000000000000000000000000000000000000000000000000000000) (h : Within F R z s) : PWithin F R z (State.runOps s a1 a2 a3 a4 a5 a6 a7) := by
  induction a6 generalizing s a7 with
  | nil => exact h
  | cons e l ih => exact ih (PWithin.fst (State.vecOp_within (sub hF rfl) (sub hR rfl) h))

/-! Queue -/

theorem State.dmaWr_within {F R} {z s : State} {a1 a2} (hF : F &&& 0 = 0) (hR : R &&& 0x1000000800000000000000000000000000000000000000000000000000000000000000000000000000000000000000000000000000000000 = 0x1000000800000000000000000000000000000000000000000000000000000000000000000000000000000000000000000000000000000000) (h : Within F R z s) : Within F R z (State.dmaWr s a1 a2) :=
  State.bump_within (sub hF rfl) (sub hR rfl) (elem hR rfl) (State.bump_within (sub hF rfl) (sub hR rfl) (elem hR rfl) h)

theorem State.dmaRd_within {F R} {z s : State} {a1 a2} (hF : F &&& 0 = 0) (hR : R &&& 0x800000400000000000000000000000000000000000000000000000000000000000000000000000000000000000000000000000000000000 = 0x800000400000000000000000000000000000000000000000000000000000000000000000000000000000000000000000000000000000000) (h : Within F R z s) : Within F R z (State.dmaRd s a1 a2) :=
  State.bump_within (sub hF rfl) (sub hR rfl) (elem hR rfl) (State.bump_within (sub hF rfl) (sub hR rfl) (elem hR rfl) h)

theorem State.post_within {F R} {z s : State} {a1 a2} (hF : F &&& 0x8000 = 0x8000) (hR : R &&& 0 = 0) (h : Within F R z s) : Within F R z (State.post s a1 a2) :=
  State.updQp_within (sub hF rfl) (sub hR rfl) h

theorem State.queueError_within {F R} {z s : State} {a1 a2} (hF : F &&& 0x2218002 = 0x2218002) (hR : R &&& 0x40000000000000000000000000000000000 = 0x40000000000000000000000000000000000) (h : Within F R z s) : Within F R z (State.queueError s a1 a2) := by
  unfold State.queueError
  extract_lets -merge -useContext -underBinder +onlyGivenNames v1 v2
  clear_value v1 v2
  extract_lets -merge -useContext -underBinder +onlyGivenNames v3
  have h3 : Within F R z v3 := (by unfold v3; exact (State.updQp_within (sub hF rfl) (sub hR rfl) h))
  clear_value v3
  extract_lets -merge -useContext -underBinder +onlyGivenNames u4_0 v4
  have h4 : Within F R z v4 := (by unfold v4; exact (.srv h3 (elem hF rfl)))
  clear_value v4
  exact State.raise_within (sub hF rfl) (sub hR rfl) (elem hR rfl) (State.event_within (sub hF rfl) (sub hR rfl) h4)

theorem State.dbIgnored_within {F R} {z s : State} {a1} (hF : F &&& 0x200002 = 0x200002) (hR : R &&& 0x800040000000000000000000000000000000000 = 0x800040000000000000000000000000000000000) (h : Within F R z s) : Within F R z (State.dbIgnored s a1) :=
  State.raise_within (sub hF rfl) (sub hR rfl) (elem hR rfl) (State.bumpSrv_within (sub hF rfl) (sub hR rfl) (elem hR rfl) h)

theorem State.sqRing_within {F R} {z s : State} {a1 a2} (hF : F &&& 0x2218002 = 0x2218002) (hR : R &&& 0x40000000000000000000000000000000000 = 0x40000000000000000000000000000000000) (h : Within F R z s) : Within F R z (State.sqRing s a1 a2) := by
  unfold State.sqRing
  extract_lets -merge -useContext -underBinder +onlyGivenNames v1 v2
  clear_value v1 v2
  exact .ite (State.queueError_within (sub hF rfl) (sub hR rfl) h) (State.updQp_within (sub hF rfl) (sub hR rfl) h)

theorem State.cqRing_within {F R} {z s : State} {a1 a2} (hF : F &&& 0x2218002 = 0x2218002) (hR : R &&& 0x40000000000000000000000000000000000 = 0x40000000000000000000000000000000000) (h : Within F R z s) : Within F R z (State.cqRing s a1 a2) := by
  unfold State.cqRing
  extract_lets -merge -useContext -underBinder +onlyGivenNames v1 v2
  clear_value v1 v2
  exact .ite (State.queueError_within (sub hF rfl) (sub hR rfl) h) (State.updQp_within (sub hF rfl) (sub hR rfl) h)

theorem State.doorbell_within {F R} {z s : State} {a1 a2} (hF : F &&& 0x3218002 = 0x3218002) (hR : R &&& 0x8800000000000000000000000000000000000000000000000000800040000000000000000000000000000000000 = 0x8800000000000000000000000000000000000000000000000000800040000000000000000000000000000000000) (h : Within F R z s) : Within F R z (State.doorbell s a1 a2) := by
  unfold State.doorbell
  extract_lets -merge -useContext -underBinder +onlyGivenNames v1 v2 v3 v4 v5
  clear_value v1 v2 v3 v4 v5
  extract_lets -merge -useContext -underBinder +onlyGivenNames v6
  have h6 : Within F R z v6 := (by unfold v6; exact (State.when_within (sub hF rfl) (sub hR rfl) h (fun h7 => (State.exitPower_within (sub hF rfl) (sub hR rfl) h7))))
  clear_value v6
  exact .ite (State.dbIgnored_within (sub hF rfl) (sub hR rfl) h6) (.ite h6 (.ite (State.cqRing_within (sub hF rfl) (sub hR rfl) h6) (State.sqRing_within (sub hF rfl) (sub hR rfl) h6)))

theorem State.setLatch_within {F R} {z s : State} {a1 a2} (hF : F &&& 0x10000 = 0x10000) (_hR : R &&& 0 = 0) (h : Within F R z s) : Within F R z (State.setLatch s a1 a2) :=
  .srv h (elem hF rfl)

theorem State.doorbellWrite_within {F R} {z s : State} {a1 a2} (hF : F &&& 0x3218002 = 0x3218002) (hR : R &&& 0x8800000000000000000000000000000000000000000000000000800040000000000000000000000000000000000 = 0x8800000000000000000000000000000000000000000000000000800040000000000000000000000000000000000) (h : Within F R z s) : Within F R z (State.doorbellWrite s a1 a2) := by
  unfold State.doorbellWrite
  split <;> [exact (State.doorbell_within (sub hF rfl) (sub hR rfl) h); exact (by split <;> [exact (State.dbIgnored_within (sub hF rfl) (sub hR rfl) h); exact (State.doorbell_within (sub hF rfl) (sub hR rfl) (State.setLatch_within (sub hF rfl) (sub hR rfl) h))])]

theorem execDoorbellLowerWrite_within {F R} {s : State} {a0 a1 a2} (hF : F &&& 0x10012 = 0x10012) (hR : R &&& 0 = 0) : Touched F R s (execDoorbellLowerWrite a0 a1 a2 s) :=
  .answer (sub hF rfl) (fun h1 => (State.when_within (sub hF rfl) (sub hR rfl) h1 (fun h2 => (State.setLatch_within (sub hF rfl) (sub hR rfl) h2))))

theorem execSqDoorbell_within {F R} {s : State} {a0 a1 a2} (hF : F &&& 0x3218012 = 0x3218012) (hR : R &&& 0x8800000000000000000000000000000000000000000000000000800040000000000000000000000000000000000 = 0x8800000000000000000000000000000000000000000000000000800040000000000000000000000000000000000) : Touched F R s (execSqDoorbell a0 a1 a2 s) :=
  .answer (sub hF rfl) (fun h1 => (State.when_within (sub hF rfl) (sub hR rfl) h1 (fun h2 => (State.doorbellWrite_within (sub hF rfl) (sub hR rfl) h2))))

theorem execCqDoorbell_within {F R} {s : State} {a0 a1 a2} (hF : F &&& 0x3218012 = 0x3218012) (hR : R &&& 0x8800000000000000000000000000000000000000000000000000800040000000000000000000000000000000000 = 0x8800000000000000000000000000000000000000000000000000800040000000000000000000000000000000000) : Touched F R s (execCqDoorbell a0 a1 a2 s) :=
  .answer (sub hF rfl) (fun h1 => (State.when_within (sub hF rfl) (sub hR rfl) h1 (fun h2 => (State.doorbellWrite_within (sub hF rfl) (sub hR rfl) h2))))

theorem State.admqWrite_within {F R} {z s : State} {a1 a2} (hF : F &&& 0x18000 = 0x18000) (hR : R &&& 0x400000000000000000000000000000000000 = 0x400000000000000000000000000000000000) (h : Within F R z s) : Within F R z (State.admqWrite s a1 a2) := by
  unfold State.admqWrite
  extract_lets -merge -useContext -underBinder +onlyGivenNames v1 v2 v3
  clear_value v1 v2 v3
  exact .ite (.ite h (by extract_lets -merge -useContext -underBinder +onlyGivenNames v4; clear_value v4; exact (by extract_lets -merge -useContext -underBinder +onlyGivenNames v5; have h5 : Within F R z v5 := (by unfold v5; exact (State.updQp_within (sub hF rfl) (sub hR rfl) (State.setNum_within (sub hF rfl) (sub hR rfl) (elem hR rfl) h))); clear_value v5; exact (.srv h5 (elem hF rfl))))) (.ite h (.ite (.ite (State.updQp_within (sub hF rfl) (sub hR rfl) (State.setNum_within (sub hF rfl) (sub hR rfl) (elem hR rfl) h)) h) (State.setNum_within (sub hF rfl) (sub hR rfl) (elem hR rfl) h)))

theorem State.admitAll_within {F R} {z s : State} {a1} (hF : F &&& 0x18000 = 0x18000) (hR : R &&& 0x10000000000000000000000000000000000000 = 0x10000000000000000000000000000000000000) (h : Within F R z s) : Within F R z (State.admitAll s a1) := by
  unfold State.admitAll
  extract_lets -merge -useContext -underBinder +onlyGivenNames v1
  clear_value v1
  exact State.each_within (sub hF rfl) (sub hR rfl) h (fun h2 => (by extract_lets -merge -useContext -underBinder +onlyGivenNames v3; clear_value v3; exact (by extract_lets -merge -useContext -underBinder +onlyGivenNames v4; clear_value v4; exact (by extract_lets -merge -useContext -underBinder +onlyGivenNames v5; clear_value v5; exact (by extract_lets -merge -useContext -underBinder +onlyGivenNames v6; clear_value v6; exact (by extract_lets -merge -useContext -underBinder +onlyGivenNames v7; have h7 : Within F R z v7 := (by unfold v7; exact (State.bumpSrv_within (sub hF rfl) (sub hR rfl) (elem hR rfl) (State.updQp_within (sub hF rfl) (sub hR rfl) h2))); clear_value v7; exact (.srv h7 (elem hF rfl))))))))

theorem State.take_within {F R} {z s : State} {a1 a2 a3 a4 a5} (hF : F &&& 0x18000 = 0x18000) (hR : R &&& 0x800000400000000000000000000000000000000000000000000000000000000000000000000000000000000000000000000000000000000 = 0x800000400000000000000000000000000000000000000000000000000000000000000000000000000000000000000000000000000000000) (h : Within F R z s) (hf5 : ∀ {t : State}, Within F R z t → SWithin F R z (a5 t)) : Within F R z (State.take s a1 a2 a3 a4 a5) := by
  unfold State.take
  split
  · exact h
  · refine .ite h ?_
    extract_lets -merge -useContext -underBinder +onlyGivenNames u v
    have hv : Within F R z v := .srv h (elem hF rfl)
    clear_value v
    extract_lets -merge -useContext -underBinder +onlyGivenNames w
    have hw : Within F R z w := State.when_within (sub hF rfl) (sub hR rfl) hv
      (fun k => State.dmaRd_within (sub hF rfl) (sub hR rfl) k)
    clear_value w
    extract_lets -merge -useContext -underBinder +onlyGivenNames out
    have ho : SWithin F R z out := by
      unfold out
      split
      · exact SWithin.record hw
      · split <;> [exact SWithin.record hw; exact hf5 hw]
    clear_value out
    cases out with
    | record t st d => exact State.post_within (sub hF rfl) (sub hR rfl) ho
    | quiet t => exact ho

theorem execCreateQp_within {F R} {s : State} {a0 a1 a2} (hF : F &&& 0x18012 = 0x18012) (hR : R &&& 0x800000400000000000000000000000000000000000000000000000000000000000000000000000000000000000000000000000000000000 = 0x800000400000000000000000000000000000000000000000000000000000000000000000000000000000000000000000000000000000000) : Touched F R s (execCreateQp a0 a1 a2 s) := by
  unfold execCreateQp
  exact .answer (sub hF rfl) (fun h1 => (State.take_within (sub hF rfl) (sub hR rfl) h1 (fun h2 => (by split <;> [exact (SWithin.record h2); exact (SWithin.record (State.updQp_within (sub hF rfl) (sub hR rfl) h2))]))))

theorem State.dropPages_within {F R} {z s : State} {a1} (hF : F &&& 0x10000 = 0x10000) (_hR : R &&& 0 = 0) (h : Within F R z s) : Within F R z (State.dropPages s a1) :=
  .srv h (elem hF rfl)

theorem execDeleteQp_within {F R} {s : State} {a0 a1 a2} (hF : F &&& 0x18012 = 0x18012) (hR : R &&& 0x800000400000000000000000000000000000000000000000000000000000000000000000000000000000000000000000000000000000000 = 0x800000400000000000000000000000000000000000000000000000000000000000000000000000000000000000000000000000000000000) : Touched F R s (execDeleteQp a0 a1 a2 s) := by
  unfold execDeleteQp
  exact .answer (sub hF rfl) (fun h1 => (State.take_within (sub hF rfl) (sub hR rfl) h1 (fun h2 => (by extract_lets -merge -useContext -underBinder +onlyGivenNames v3; clear_value v3; exact (by extract_lets -merge -useContext -underBinder +onlyGivenNames v4; clear_value v4; exact (by split <;> [exact (SWithin.record h2); exact (by extract_lets -merge -useContext -underBinder +onlyGivenNames v5; have h5 : Within F R s v5 := (by unfold v5; exact (by split <;> [exact h2; exact (State.dropPages_within (sub hF rfl) (sub hR rfl) h2)])); clear_value v5; exact (by extract_lets -merge -useContext -underBinder +onlyGivenNames u6_0 v6; have h6 : Within F R s v6 := (by unfold v6; exact (.srv h5 (elem hF rfl))); clear_value v6; exact (SWithin.record (State.updQp_within (sub hF rfl) (sub hR rfl) h6))))]))))))

theorem execSetRefMode_within {F R} {s : State} {a0 a1 a2} (hF : F &&& 0x218012 = 0x218012) (hR : R &&& 0x800000400000000000000000000000000000000000000000000000000000000000000000000060000000000000000000000000000000000 = 0x800000400000000000000000000000000000000000000000000000000000000000000000000060000000000000000000000000000000000) : Touched F R s (execSetRefMode a0 a1 a2 s) := by
  unfold execSetRefMode
  exact .answer (sub hF rfl) (fun h1 => (State.take_within (sub hF rfl) (sub hR rfl) h1 (fun h2 => (by split <;> [exact (SWithin.record h2); exact (SWithin.record (State.each_within (sub hF rfl) (sub hR rfl) (State.setF_within (sub hF rfl) (sub hR rfl) (elem hR rfl) h2) (fun h3 => (State.raise_within (sub hF rfl) (sub hR rfl) (elem hR rfl) h3))))]))))

theorem execQuerySession_within {F R} {s : State} {a0 a1 a2} (hF : F &&& 0x18012 = 0x18012) (hR : R &&& 0x800000400000000000000000000000000000000000000000000000000000000000000000000000000000000000000000000000000000000 = 0x800000400000000000000000000000000000000000000000000000000000000000000000000000000000000000000000000000000000000) : Touched F R s (execQuerySession a0 a1 a2 s) :=
  .answer (sub hF rfl) (fun h1 => (State.take_within (sub hF rfl) (sub hR rfl) h1 (fun h2 => (SWithin.record (State.updQp_within (sub hF rfl) (sub hR rfl) h2)))))

theorem execUnknownOpcode_within {F R} {s : State} {a0 a1 a2} (hF : F &&& 0x18012 = 0x18012) (hR : R &&& 0x800000400000000000000000000000000000000000000000000000000000000000000000000000000000000000000000000000000000000 = 0x800000400000000000000000000000000000000000000000000000000000000000000000000000000000000000000000000000000000000) : Touched F R s (execUnknownOpcode a0 a1 a2 s) :=
  .answer (sub hF rfl) (fun h1 => (State.when_within (sub hF rfl) (sub hR rfl) h1 (fun h2 => (State.take_within (sub hF rfl) (sub hR rfl) h2 (fun h3 => (SWithin.record h3))))))

/-! Sessions -/

theorem State.refused_within {F R} {z s : State} {a1 a2} (hF : F &&& 0x200002 = 0x200002) (hR : R &&& 0x100000000000000000000000000000000000000000000000000000000000000000000000000000000080002000000000000000000000000000 = 0x100000000000000000000000000000000000000000000000000000000000000000000000000000000080002000000000000000000000000000) (h : Within F R z s) : Within F R z (State.refused s a1 a2) := by
  unfold State.refused
  extract_lets -merge -useContext -underBinder +onlyGivenNames v1
  have h1 : Within F R z v1 := (by unfold v1; exact (State.bump_within (sub hF rfl) (sub hR rfl) (elem hR rfl) h))
  clear_value v1
  exact State.when_within (sub hF rfl) (sub hR rfl) h1 (fun h2 => (State.raise_within (sub hF rfl) (sub hR rfl) (elem hR rfl) (State.bump_within (sub hF rfl) (sub hR rfl) (elem hR rfl) h2)))

theorem State.openSession_within {F R} {z s : State} {a1 a2} (hF : F &&& 0x3208002 = 0x3208002) (hR : R &&& 0x100000000000000000000008800000000000000000000000000000000000000000000000000000000080002000000000000000000000000000 = 0x100000000000000000000008800000000000000000000000000000000000000000000000000000000080002000000000000000000000000000) (h : Within F R z s) : SWithin F R z (State.openSession s a1 a2) := by
  unfold State.openSession
  extract_lets -merge -useContext -underBinder +onlyGivenNames v1
  clear_value v1
  split <;> [exact (SWithin.record h); exact (by split <;> [exact (SWithin.record (State.refused_within (sub hF rfl) (sub hR rfl) h)); exact (by split <;> [exact (SWithin.record (State.refused_within (sub hF rfl) (sub hR rfl) h)); exact (SWithin.record (State.refused_within (sub hF rfl) (sub hR rfl) h)); exact (SWithin.record (State.updQp_within (sub hF rfl) (sub hR rfl) (State.exitPower_within (sub hF rfl) (sub hR rfl) h)))])])]

theorem execOpenSession_within {F R} {s : State} {a0 a1 a2} (hF : F &&& 0x3218012 = 0x3218012) (hR : R &&& 0x100800000400000000000008800000000000000000000000000000000000000000000000000000000080002000000000000000000000000000 = 0x100800000400000000000008800000000000000000000000000000000000000000000000000000000080002000000000000000000000000000) : Touched F R s (execOpenSession a0 a1 a2 s) :=
  .answer (sub hF rfl) (fun h1 => (State.take_within (sub hF rfl) (sub hR rfl) h1 (fun h2 => (State.openSession_within (sub hF rfl) (sub hR rfl) h2))))

theorem State.enqueue_within {F R} {z s : State} {a1 a2} (hF : F &&& 0x8000 = 0x8000) (hR : R &&& 0 = 0) (h : Within F R z s) : SWithin F R z (State.enqueue s a1 a2) :=
  SWithin.quiet (State.updSess_within (sub hF rfl) (sub hR rfl) h)

theorem execAudioIn_within {F R} {s : State} {a0 a1 a2 a3} (hF : F &&& 0x3018012 = 0x3018012) (hR : R &&& 0x800000400000000000008800000000000000000000000000000000000000000000000000000000000000000000000000000000000000000 = 0x800000400000000000008800000000000000000000000000000000000000000000000000000000000000000000000000000000000000000) : Touched F R s (execAudioIn a0 a1 a2 a3 s) := by
  unfold execAudioIn
  exact .answer (sub hF rfl) (fun h1 => (State.take_within (sub hF rfl) (sub hR rfl) h1 (fun h2 => (by split <;> [exact (SWithin.record h2); exact (State.enqueue_within (sub hF rfl) (sub hR rfl) (State.dmaRd_within (sub hF rfl) (sub hR rfl) (State.exitPower_within (sub hF rfl) (sub hR rfl) h2)))]))))

theorem execTextIn_within {F R} {s : State} {a0 a1 a2 a3} (hF : F &&& 0x3018012 = 0x3018012) (hR : R &&& 0x800000400000000000008800000000000000000000000000000000000000000000000000000000000000000000000000000000000000000 = 0x800000400000000000008800000000000000000000000000000000000000000000000000000000000000000000000000000000000000000) : Touched F R s (execTextIn a0 a1 a2 a3 s) :=
  .answer (sub hF rfl) (fun h1 => (State.take_within (sub hF rfl) (sub hR rfl) h1 (fun h2 => (State.enqueue_within (sub hF rfl) (sub hR rfl) (State.dmaRd_within (sub hF rfl) (sub hR rfl) (State.exitPower_within (sub hF rfl) (sub hR rfl) h2))))))

theorem execPrompt_within {F R} {s : State} {a0 a1 a2} (hF : F &&& 0x18012 = 0x18012) (hR : R &&& 0x800000400000000000000000000000000000000000000000000000000000000000000000000000000000000000000000000000000000000 = 0x800000400000000000000000000000000000000000000000000000000000000000000000000000000000000000000000000000000000000) : Touched F R s (execPrompt a0 a1 a2 s) :=
  .answer (sub hF rfl) (fun h1 => (State.take_within (sub hF rfl) (sub hR rfl) h1 (fun h2 => (State.enqueue_within (sub hF rfl) (sub hR rfl) h2))))

theorem execGenerate_within {F R} {s : State} {a0 a1 a2} (hF : F &&& 0x18012 = 0x18012) (hR : R &&& 0x800000400000000000000000000000000000000000000000000000000000000000000000000000000000000000000000000000000000000 = 0x800000400000000000000000000000000000000000000000000000000000000000000000000000000000000000000000000000000000000) : Touched F R s (execGenerate a0 a1 a2 s) :=
  .answer (sub hF rfl) (fun h1 => (State.take_within (sub hF rfl) (sub hR rfl) h1 (fun h2 => (State.enqueue_within (sub hF rfl) (sub hR rfl) h2))))

theorem execCancel_within {F R} {s : State} {a0 a1 a2} (hF : F &&& 0x18012 = 0x18012) (hR : R &&& 0x800000400000000000000000000000000000000000000000000000000000000000000000080000000000000000000000000000000000000 = 0x800000400000000000000000000000000000000000000000000000000000000000000000080000000000000000000000000000000000000) : Touched F R s (execCancel a0 a1 a2 s) := by
  unfold execCancel
  exact .answer (sub hF rfl) (fun h1 => (State.take_within (sub hF rfl) (sub hR rfl) h1 (fun h2 => (by split <;> [exact (SWithin.record h2); exact (by extract_lets -merge -useContext -underBinder +onlyGivenNames v3; clear_value v3; exact (by extract_lets -merge -useContext -underBinder +onlyGivenNames v4; have h4 : Within F R s v4 := (by unfold v4; exact (State.when_within (sub hF rfl) (sub hR rfl) h2 (fun h5 => (State.dropPages_within (sub hF rfl) (sub hR rfl) h5)))); clear_value v4; exact (SWithin.record (State.bumpSrv_within (sub hF rfl) (sub hR rfl) (elem hR rfl) (State.updSess_within (sub hF rfl) (sub hR rfl) h4)))))]))))

theorem execClose_within {F R} {s : State} {a0 a1 a2} (hF : F &&& 0x18012 = 0x18012) (hR : R &&& 0x800000400000000000000000000000000000000000000000000000000000000000000000000000000000000000000000000000000000000 = 0x800000400000000000000000000000000000000000000000000000000000000000000000000000000000000000000000000000000000000) : Touched F R s (execClose a0 a1 a2 s) :=
  .answer (sub hF rfl) (fun h1 => (State.take_within (sub hF rfl) (sub hR rfl) h1 (fun h2 => (SWithin.quiet (State.updSess_within (sub hF rfl) (sub hR rfl) h2)))))

theorem execSetAdapter_within {F R} {s : State} {a0 a1 a2} (hF : F &&& 0x18012 = 0x18012) (hR : R &&& 0x800000400000000000000000000000000000000000000000000000000000000000000000000000000000000000000000000000000000000 = 0x800000400000000000000000000000000000000000000000000000000000000000000000000000000000000000000000000000000000000) : Touched F R s (execSetAdapter a0 a1 a2 s) := by
  unfold execSetAdapter
  exact .answer (sub hF rfl) (fun h1 => (State.take_within (sub hF rfl) (sub hR rfl) h1 (fun h2 => (by split <;> [exact (SWithin.record (State.updSess_within (sub hF rfl) (sub hR rfl) h2)); exact (SWithin.record h2)]))))

theorem execSetSampling_within {F R} {s : State} {a0 a1 a2} (hF : F &&& 0x18012 = 0x18012) (hR : R &&& 0x800000400000000000000000000000000000000000000000000000000000000000000000000000000000000000000000000000000000000 = 0x800000400000000000000000000000000000000000000000000000000000000000000000000000000000000000000000000000000000000) : Touched F R s (execSetSampling a0 a1 a2 s) :=
  .answer (sub hF rfl) (fun h1 => (State.take_within (sub hF rfl) (sub hR rfl) h1 (fun h2 => (SWithin.record (State.updSess_within (sub hF rfl) (sub hR rfl) h2)))))

/-! Steps -/

theorem State.spend_within {F R} {z s : State} {a1 a2 a3} (hF : F &&& 0x10000 = 0x10000) (hR : R &&& 0x2020000000000000000000000000000000000000000000000000000000000000000000000000000000000000000000000000000000000000 = 0x2020000000000000000000000000000000000000000000000000000000000000000000000000000000000000000000000000000000000000) (h : Within F R z s) : Within F R z (State.spend s a1 a2 a3) := by
  unfold State.spend
  extract_lets -merge -useContext -underBinder +onlyGivenNames u1_0 u1_1 v1
  have h1 : Within F R z v1 := (by unfold v1; exact (.ite (.srv h (elem hF rfl)) (.srv h (elem hF rfl))))
  clear_value v1
  exact State.bump_within (sub hF rfl) (sub hR rfl) (elem hR rfl) (State.bump_within (sub hF rfl) (sub hR rfl) (elem hR rfl) (.srv h1 (elem hF rfl)))

theorem State.groupsOut_within {F R} {z s : State} {a1 a2 a3 a4} (hF : F &&& 0 = 0) (hR : R &&& 0x63f0000000000000000000000000000000000000000000000000000000000000000000000000000000000000000000000000000000 = 0x63f0000000000000000000000000000000000000000000000000000000000000000000000000000000000000000000000000000000) (h : Within F R z s) : Within F R z (State.groupsOut s a1 a2 a3 a4) := by
  unfold State.groupsOut
  extract_lets -merge -useContext -underBinder +onlyGivenNames v1
  clear_value v1
  exact State.each_within (sub hF rfl) (sub hR rfl) h (fun h2 => (State.each_within (sub hF rfl) (sub hR rfl) h2 (fun h3 => (by extract_lets -merge -useContext -underBinder +onlyGivenNames v4; clear_value v4; exact (by split <;> [exact h3; exact (State.moves_within (sub hF rfl) (sub hR rfl) h3)])))))

theorem State.moved_within {F R} {z s : State} {a1 a2 a3} (hF : F &&& 0 = 0) (hR : R &&& 0xc0000063f000000000000000000000000000000000000000000000000000000000000000000000002c000000000000000000000000000000 = 0xc0000063f000000000000000000000000000000000000000000000000000000000000000000000002c000000000000000000000000000000) (h : Within F R z s) : Within F R z (State.moved s a1 a2 a3) := by
  unfold State.moved
  split <;> [exact (by extract_lets -merge -useContext -underBinder +onlyGivenNames v1; clear_value v1; exact (by extract_lets -merge -useContext -underBinder +onlyGivenNames v2; clear_value v2; exact (by extract_lets -merge -useContext -underBinder +onlyGivenNames v3; clear_value v3; exact (by extract_lets -merge -useContext -underBinder +onlyGivenNames v4; clear_value v4; exact (by extract_lets -merge -useContext -underBinder +onlyGivenNames v5; have h5 : Within F R z v5 := (by unfold v5; exact (State.bump_within (sub hF rfl) (sub hR rfl) (elem hR rfl) (State.bump_within (sub hF rfl) (sub hR rfl) (elem hR rfl) h))); clear_value v5; exact (by extract_lets -merge -useContext -underBinder +onlyGivenNames v6; have h6 : Within F R z v6 := (by unfold v6; exact (State.bump_within (sub hF rfl) (sub hR rfl) (elem hR rfl) (State.bump_within (sub hF rfl) (sub hR rfl) (elem hR rfl) h5))); clear_value v6; exact (State.groupsOut_within (sub hF rfl) (sub hR rfl) (State.bump_within (sub hF rfl) (sub hR rfl) (elem hR rfl) h6)))))))); exact h]

theorem State.endCur_within {F R} {z s : State} {a1 a2} (hF : F &&& 0x8000 = 0x8000) (hR : R &&& 0 = 0) (h : Within F R z s) : Within F R z (State.endCur s a1 a2) :=
  State.updSess_within (sub hF rfl) (sub hR rfl) h

theorem State.endPrompt_within {F R} {z s : State} {a1 a2} (hF : F &&& 0x8000 = 0x8000) (hR : R &&& 0 = 0) (h : Within F R z s) : Within F R z (State.endPrompt s a1 a2) :=
  State.updSess_within (sub hF rfl) (sub hR rfl) h

theorem State.planStep_within {F R} {z s : State} {a1 a2 a3} (hF : F &&& 0x218002 = 0x218002) (hR : R &&& 0x82020000000000000000000000000000000000000000000000000000000000000000000000000000040002000000000000000000000000000 = 0x82020000000000000000000000000000000000000000000000000000000000000000000000000000040002000000000000000000000000000) (h : Within F R z s) : Within F R z (State.planStep s a1 a2 a3) := by
  unfold State.planStep
  extract_lets -merge -useContext -underBinder +onlyGivenNames v1
  have h1 : Within F R z v1 := (by unfold v1; exact (State.slideTo_within (sub hF rfl) (sub hR rfl) h))
  clear_value v1
  extract_lets -merge -useContext -underBinder +onlyGivenNames v2
  clear_value v2
  extract_lets -merge -useContext -underBinder +onlyGivenNames v3
  have h3 : Within F R z v3 := (by unfold v3; exact (State.spend_within (sub hF rfl) (sub hR rfl) (State.allocate_within (sub hF rfl) (sub hR rfl) h1)))
  clear_value v3
  extract_lets -merge -useContext -underBinder +onlyGivenNames v4 v5
  clear_value v4 v5
  extract_lets -merge -useContext -underBinder +onlyGivenNames u6_0 v6
  have h6 : Within F R z v6 := (by unfold v6; exact (.srv h3 (elem hF rfl)))
  clear_value v6
  exact State.updSess_within (sub hF rfl) (sub hR rfl) h6

theorem State.holdStep_within {F R} {z s : State} {a1} (hF : F &&& 0x218002 = 0x218002) (hR : R &&& 0x200003000000000000000000000000000 = 0x200003000000000000000000000000000) (h : Within F R z s) : Within F R z (State.holdStep s a1) := by
  unfold State.holdStep
  extract_lets -merge -useContext -underBinder +onlyGivenNames v1
  have h1 : Within F R z v1 := (by unfold v1; exact (State.setF_within (sub hF rfl) (sub hR rfl) (elem hR rfl) (State.raise_within (sub hF rfl) (sub hR rfl) (elem hR rfl) (State.bump_within (sub hF rfl) (sub hR rfl) (elem hR rfl) h))))
  clear_value v1
  extract_lets -merge -useContext -underBinder +onlyGivenNames v2
  have h2 : Within F R z v2 := (by unfold v2; exact (State.updSess_within (sub hF rfl) (sub hR rfl) h1))
  clear_value v2
  exact .srv h2 (elem hF rfl)

theorem State.pausePrompt_within {F R} {z s : State} {a1} (hF : F &&& 0x208002 = 0x208002) (hR : R &&& 0x100003000000000000000000000000000 = 0x100003000000000000000000000000000) (h : Within F R z s) : Within F R z (State.pausePrompt s a1) := by
  unfold State.pausePrompt
  extract_lets -merge -useContext -underBinder +onlyGivenNames v1
  have h1 : Within F R z v1 := (by unfold v1; exact (State.updSess_within (sub hF rfl) (sub hR rfl) h))
  clear_value v1
  exact .ite h1 (State.raise_within (sub hF rfl) (sub hR rfl) (elem hR rfl) (State.bump_within (sub hF rfl) (sub hR rfl) (elem hR rfl) (State.setF_within (sub hF rfl) (sub hR rfl) (elem hR rfl) h1)))

theorem State.stopStep_within {F R} {z s : State} {a1 a2 a3} (hF : F &&& 0x8000 = 0x8000) (hR : R &&& 0 = 0) (h : Within F R z s) : Within F R z (State.stopStep s a1 a2 a3) :=
  .ite (State.updSess_within (sub hF rfl) (sub hR rfl) h) (.ite (State.endCur_within (sub hF rfl) (sub hR rfl) h) (State.updSess_within (sub hF rfl) (sub hR rfl) (State.endPrompt_within (sub hF rfl) (sub hR rfl) h)))

theorem State.planOne_within {F R} {z s : State} {a1 a2 a3} (hF : F &&& 0x218002 = 0x218002) (hR : R &&& 0x82020000000000000000000000000000000000000000000000000000000000000000000000000000340003000000000000000000000000000 = 0x82020000000000000000000000000000000000000000000000000000000000000000000000000000340003000000000000000000000000000) (h : Within F R z s) : PWithin F R z (State.planOne s a1 a2 a3) := by
  unfold State.planOne
  split <;> [exact (PWithin.mk h); exact (by extract_lets -merge -useContext -underBinder +onlyGivenNames v1; clear_value v1; exact (by extract_lets -merge -useContext -underBinder +onlyGivenNames v2; clear_value v2; exact (by extract_lets -merge -useContext -underBinder +onlyGivenNames v3; clear_value v3; exact (by extract_lets -merge -useContext -underBinder +onlyGivenNames v4; have h4 : ∀ {t : State}, Within F R z t → Within F R z (v4 t) := (by intros; rename_i h0; unfold v4; exact (fun h5 => (State.updSess_within (sub hF rfl) (sub hR rfl) h5)) h0); clear_value v4; exact (by split <;> [exact (PWithin.mk (State.endCur_within (sub hF rfl) (sub hR rfl) h)); exact (by split <;> [exact (PWithin.mk (.ite (State.stopStep_within (sub hF rfl) (sub hR rfl) h) (h4 h))); exact (by split <;> [exact (PWithin.mk (.ite (State.stopStep_within (sub hF rfl) (sub hR rfl) h) (.ite (State.pausePrompt_within (sub hF rfl) (sub hR rfl) h) (.ite (State.holdStep_within (sub hF rfl) (sub hR rfl) h) (h4 h))))); exact (by split <;> [exact (PWithin.mk (State.pausePrompt_within (sub hF rfl) (sub hR rfl) h)); exact (by split <;> [exact (PWithin.mk h); exact (PWithin.mk (State.planStep_within (sub hF rfl) (sub hR rfl) h))])])])])])))))]

theorem State.planList_within {F R} {z s : State} {a1 a2} (hF : F &&& 0x218002 = 0x218002) (hR : R &&& 0x82020000000000000000000000000000000000000000000000000000000000000000000000000000340003000000000000000000000000000 = 0x82020000000000000000000000000000000000000000000000000000000000000000000000000000340003000000000000000000000000000) (h : Within F R z s) : PWithin F R z (State.planList s a1 a2) := by
  induction a2 generalizing s with
  | nil => exact h
  | cons e l ih =>
    unfold State.planList
    have r := State.planOne_within (a1 := e.1) (a2 := e.2) (a3 := a1) (sub hF rfl) (sub hR rfl) h
    split <;> rename_i hq
    · exact ih (r.fst' hq)
    · exact r.fst' hq

theorem State.planRounds_within {F R} {z s : State} {a1 a2 a3 a4} (hF : F &&& 0x218002 = 0x218002) (hR : R &&& 0x82020000000000000000000000000000000000000000000000000000000000000000000000000000340003000000000000000000000000000 = 0x82020000000000000000000000000000000000000000000000000000000000000000000000000000340003000000000000000000000000000) (h : Within F R z s) : Within F R z (State.planRounds s a1 a2 a3 a4) := by
  induction a4 generalizing s a3 with
  | zero => exact h
  | succ n ih =>
    unfold State.planRounds
    split
    rename_i v cut hq
    extract_lets -merge -useContext -underBinder +onlyGivenNames w
    have hw : Within F R z w := State.when_within (sub hF rfl) (sub hR rfl)
      ((State.planList_within (sub hF rfl) (sub hR rfl) h).fst' hq)
      (fun k => State.raise_within (sub hF rfl) (sub hR rfl) (elem hR rfl)
        (State.bump_within (sub hF rfl) (sub hR rfl) (elem hR rfl) k))
    clear_value w
    extract_lets -merge -useContext -underBinder +onlyGivenNames r u
    have hu : Within F R z u := .srv hw (elem hF rfl)
    clear_value u
    exact .ite hu (ih hu)

theorem State.takeUp_within {F R} {z s : State}  (hF : F &&& 0x400 = 0x400) (hR : R &&& 0 = 0) (h : Within F R z s) : Within F R z (State.takeUp s) := by
  unfold State.takeUp
  split <;> [exact (State.each_within (sub hF rfl) (sub hR rfl) h (fun h1 => (by split <;> [exact h1; exact (State.each_within (sub hF rfl) (sub hR rfl) h1 (fun h2 => (by extract_lets -merge -useContext -underBinder +onlyGivenNames v3; clear_value v3; exact (.ite h2 (State.updCtx_within (sub hF rfl) (sub hR rfl) h2)))))]))); exact h]

theorem State.expire_within {F R} {z s : State}  (hF : F &&& 0x8000 = 0x8000) (hR : R &&& 0 = 0) (h : Within F R z s) : Within F R z (State.expire s) :=
  State.each_within (sub hF rfl) (sub hR rfl) h (fun h1 => (State.updSess_within (sub hF rfl) (sub hR rfl) h1))

theorem State.refitRolled_within {F R} {z s : State}  (hF : F &&& 0x8000 = 0x8000) (hR : R &&& 0 = 0) (h : Within F R z s) : Within F R z (State.refitRolled s) := by
  unfold State.refitRolled
  exact State.each_within (sub hF rfl) (sub hR rfl) h (fun h1 => (State.each_within (sub hF rfl) (sub hR rfl) h1 (fun h2 => (by split <;> [exact h2; exact (by extract_lets -merge -useContext -underBinder +onlyGivenNames v3; clear_value v3; exact (.ite (State.updSess_within (sub hF rfl) (sub hR rfl) h2) (State.updSess_within (sub hF rfl) (sub hR rfl) (State.allocate_within (sub hF rfl) (sub hR rfl) h2))))]))))

theorem State.chargeRolled_within {F R} {z s : State}  (hF : F &&& 0x10000 = 0x10000) (hR : R &&& 0x2020000000000000000000000000000000000000000000000000000000000000000000000000000000000000000000000000000000000000 = 0x2020000000000000000000000000000000000000000000000000000000000000000000000000000000000000000000000000000000000000) (h : Within F R z s) : Within F R z (State.chargeRolled s) :=
  State.each_within (sub hF rfl) (sub hR rfl) h (fun h1 => (State.each_within (sub hF rfl) (sub hR rfl) h1 (fun h2 => (State.spend_within (sub hF rfl) (sub hR rfl) h2))))

theorem State.planTide_within {F R} {z s : State}  (hF : F &&& 0x218406 = 0x218406) (hR : R &&& 0x82020000000000000000000000000000000000000000000000000000000000000000000000000000340003000000000000000000000000000 = 0x82020000000000000000000000000000000000000000000000000000000000000000000000000000340003000000000000000000000000000) (h : Within F R z s) : Within F R z (State.planTide s) := by
  unfold State.planTide
  extract_lets -merge -useContext -underBinder +onlyGivenNames u1_0 v1
  have h1 : Within F R z v1 := (by unfold v1; exact (.srv h (elem hF rfl)))
  clear_value v1
  extract_lets -merge -useContext -underBinder +onlyGivenNames v2
  have h2 : Within F R z v2 := (by unfold v2; exact (State.chargeRolled_within (sub hF rfl) (sub hR rfl) (State.refitRolled_within (sub hF rfl) (sub hR rfl) (State.expire_within (sub hF rfl) (sub hR rfl) (State.setF_within (sub hF rfl) (sub hR rfl) (elem hR rfl) (State.tick_within (sub hF rfl) (sub hR rfl) h1))))))
  clear_value v2
  split <;> [exact h2; exact (by extract_lets -merge -useContext -underBinder +onlyGivenNames v3; clear_value v3; exact (by extract_lets -merge -useContext -underBinder +onlyGivenNames v4; clear_value v4; exact (by extract_lets -merge -useContext -underBinder +onlyGivenNames u5_0 u5_1 v5; have h5 : Within F R z v5 := (by unfold v5; exact (.srv (State.slideFor_within (sub hF rfl) (sub hR rfl) h2) (elem hF rfl))); clear_value v5; exact (by extract_lets -merge -useContext -underBinder +onlyGivenNames v6; have h6 : Within F R z v6 := (by unfold v6; exact (State.planRounds_within (sub hF rfl) (sub hR rfl) h5)); clear_value v6; exact (State.takeUp_within (sub hF rfl) (sub hR rfl) (State.tick_within (sub hF rfl) (sub hR rfl) (.ite (State.planRounds_within (sub hF rfl) (sub hR rfl) h6) h6)))))))]

theorem State.endSched_within {F R} {z s : State} {a1 a2} (hF : F &&& 0x400 = 0x400) (hR : R &&& 0 = 0) (h : Within F R z s) : Within F R z (State.endSched s a1 a2) := by
  unfold State.endSched
  extract_lets -merge -useContext -underBinder +onlyGivenNames v1
  clear_value v1
  extract_lets -merge -useContext -underBinder +onlyGivenNames v2
  have h2 : Within F R z v2 := (by unfold v2; exact (State.updCore_within (sub hF rfl) (sub hR rfl) h))
  clear_value v2
  extract_lets -merge -useContext -underBinder +onlyGivenNames v3 v4 v5
  clear_value v3 v4 v5
  split <;> [exact (State.updCtx_within (sub hF rfl) (sub hR rfl) h2); exact (State.updCtx_within (sub hF rfl) (sub hR rfl) h2); exact (State.updCtx_within (sub hF rfl) (sub hR rfl) h2)]

theorem State.cfgUe_within {F R} {z s : State} {a1 a2 a3 a4} (hF : F &&& 0x2a8f682 = 0x2a8f682) (hR : R &&& 0x800000000000000000208000400000000000000000000000041c00008000000400000000000000000000000000000000000000 = 0x800000000000000000208000400000000000000000000000041c00008000000400000000000000000000000000000000000000) (h : Within F R z s) : Within F R z (State.cfgUe s a1 a2 a3 a4) := by
  unfold State.cfgUe
  extract_lets -merge -useContext -underBinder +onlyGivenNames v1
  clear_value v1
  extract_lets -merge -useContext -underBinder +onlyGivenNames v2
  have h2 : Within F R z v2 := (by unfold v2; exact (State.faultRec_within (sub hF rfl) (sub hR rfl) (State.voidAll_within (sub hF rfl) (sub hR rfl) h)))
  clear_value v2
  split <;> [exact h2; exact (State.charge_within (sub hF rfl) (sub hR rfl) h2)]

theorem State.cfgRead_within {F R} {z s : State} {a1 a2 a3} (hF : F &&& 0x2a8f682 = 0x2a8f682) (hR : R &&& 0x800000000000000000218000400000000000000000000000041c00008000000400000000000000000000000000000000000000 = 0x800000000000000000218000400000000000000000000000041c00008000000400000000000000000000000000000000000000) (h : Within F R z s) : Within F R z (State.cfgRead s a1 a2 a3) := by
  unfold State.cfgRead
  split <;> [exact h; exact (State.bump_within (sub hF rfl) (sub hR rfl) (elem hR rfl) h); exact (State.cfgUe_within (sub hF rfl) (sub hR rfl) h)]

theorem execStepStart_within {F R} {s : State} {a0 a1 a2} (hF : F &&& 0x2a8f692 = 0x2a8f692) (hR : R &&& 0x800000000000000000218000400000000000000000000000041e00008000000400000000000000000000000000000000000000 = 0x800000000000000000218000400000000000000000000000041e00008000000400000000000000000000000000000000000000) : Touched F R s (execStepStart a0 a1 a2 s) := by
  unfold execStepStart
  exact .answer (sub hF rfl) (fun h1 => (State.when_within (sub hF rfl) (sub hR rfl) h1 (fun h2 => (by extract_lets -merge -useContext -underBinder +onlyGivenNames v3; clear_value v3; exact (by extract_lets -merge -useContext -underBinder +onlyGivenNames v4; clear_value v4; exact (by extract_lets -merge -useContext -underBinder +onlyGivenNames v5; have h5 : Within F R s v5 := (by unfold v5; exact (by split <;> [exact h2; exact (.ite (State.updCtx_within (sub hF rfl) (sub hR rfl) h2) (State.endSched_within (sub hF rfl) (sub hR rfl) h2))])); clear_value v5; exact (by split <;> [exact h5; exact (by extract_lets -merge -useContext -underBinder +onlyGivenNames v6; have h6 : Within F R s v6 := (by unfold v6; exact (State.updCore_within (sub hF rfl) (sub hR rfl) (State.updCtx_within (sub hF rfl) (sub hR rfl) h5))); clear_value v6; exact (by extract_lets -merge -useContext -underBinder +onlyGivenNames v7; have h7 : Within F R s v7 := (by unfold v7; exact (State.when_within (sub hF rfl) (sub hR rfl) h6 (fun h8 => (State.bump_within (sub hF rfl) (sub hR rfl) (elem hR rfl) h8)))); clear_value v7; exact (.ite h7 (by extract_lets -merge -useContext -underBinder +onlyGivenNames v8; have h8 : Within F R s v8 := (by unfold v8; exact (State.cfgRead_within (sub hF rfl) (sub hR rfl) h7)); clear_value v8; exact (by extract_lets -merge -useContext -underBinder +onlyGivenNames v9; have h9 : Within F R s v9 := (by unfold v9; exact (State.when_within (sub hF rfl) (sub hR rfl) h8 (fun h10 => (State.deschedule_within (sub hF rfl) (sub hR rfl) h10)))); clear_value v9; exact (State.when_within (sub hF rfl) (sub hR rfl) h9 (fun h10 => (State.deschedule_within (sub hF rfl) (sub hR rfl) h10))))))))])))))))

theorem State.attention_within {F R} {z s : State} {a1 a2 a3} (hF : F &&& 0x2000000 = 0x2000000) (hR : R &&& 0x10000000000000000000000000000000 = 0x10000000000000000000000000000000) (h : Within F R z s) : Within F R z (State.attention s a1 a2 a3) := by
  unfold State.attention
  extract_lets -merge -useContext -underBinder +onlyGivenNames v1 v2 v3
  clear_value v1 v2 v3
  extract_lets -merge -useContext -underBinder +onlyGivenNames v4
  have h4 : Within F R z v4 := (by unfold v4; exact (State.each_within (sub hF rfl) (sub hR rfl) h (fun h5 => (State.event_within (sub hF rfl) (sub hR rfl) h5))))
  clear_value v4
  exact State.bump_within (sub hF rfl) (sub hR rfl) (elem hR rfl) h4

theorem State.deliverStep_within {F R} {z s : State} {a1 a2 a3 a4 a5 a6} (hF : F &&& 0x8002 = 0x8002) (hR : R &&& 0x1000000800000000000000000000000000000000000000000000000000000000000000000340000000000000000000000000000000000000 = 0x1000000800000000000000000000000000000000000000000000000000000000000000000340000000000000000000000000000000000000) (h : Within F R z s) : Within F R z (State.deliverStep s a1 a2 a3 a4 a5 a6) := by
  unfold State.deliverStep
  extract_lets -merge -useContext -underBinder +onlyGivenNames v1 v2
  clear_value v1 v2
  exact .ite (State.bumpSrv_within (sub hF rfl) (sub hR rfl) (elem hR rfl) (State.endCur_within (sub hF rfl) (sub hR rfl) h)) (by extract_lets -merge -useContext -underBinder +onlyGivenNames v3; clear_value v3; exact (by extract_lets -merge -useContext -underBinder +onlyGivenNames v4; clear_value v4; exact (by extract_lets -merge -useContext -underBinder +onlyGivenNames v5; clear_value v5; exact (by extract_lets -merge -useContext -underBinder +onlyGivenNames v6; clear_value v6; exact (by extract_lets -merge -useContext -underBinder +onlyGivenNames v7; have h7 : Within F R z v7 := (by unfold v7; exact (State.updSess_within (sub hF rfl) (sub hR rfl) h)); clear_value v7; exact (by extract_lets -merge -useContext -underBinder +onlyGivenNames v8; have h8 : Within F R z v8 := (by unfold v8; exact (State.bumpSrv_within (sub hF rfl) (sub hR rfl) (elem hR rfl) (State.bumpSrv_within (sub hF rfl) (sub hR rfl) (elem hR rfl) h7))); clear_value v8; exact (State.when_within (sub hF rfl) (sub hR rfl) h8 (fun h9 => (State.dmaWr_within (sub hF rfl) (sub hR rfl) (State.emit_within (sub hF rfl) (sub hR rfl) h9))))))))))

theorem execStepComplete_within {F R} {s : State} {a0 a1 a2} (hF : F &&& 0x12008412 = 0x12008412) (hR : R &&& 0x4d010006bf0000000000000000000000000000000000000000000000000041c0000000000034000003c000000000000000000000000000000 = 0x4d010006bf0000000000000000000000000000000000000000000000000041c0000000000034000003c000000000000000000000000000000) : Touched F R s (execStepComplete a0 a1 a2 s) := by
  unfold execStepComplete
  split
  · exact .refused
  · refine .answer (sub hF rfl) (fun h => State.when_within (sub hF rfl) (sub hR rfl) h (fun h => ?_))
    split
    · split
      · exact h
      · refine State.when_within (sub hF rfl) (sub hR rfl) h (fun h => ?_)
        extract_lets -merge -useContext -underBinder +onlyGivenNames q
        split
        rename_i u o hq
        have hu : Within F R s u := (State.runOps_within (sub hF rfl) (sub hR rfl) h).fst' hq
        clear hq
        extract_lets -merge -useContext -underBinder +onlyGivenNames v w l y
        have hv : Within F R s v := State.attention_within (sub hF rfl) (sub hR rfl)
          (State.moved_within (sub hF rfl) (sub hR rfl) hu)
        clear_value v
        have hw : Within F R s w := State.updSess_within (sub hF rfl) (sub hR rfl) hv
        clear_value w
        have hy : Within F R s y := State.each_within (sub hF rfl) (sub hR rfl) hw
          (fun k => State.idleCtx_within (sub hF rfl) (sub hR rfl) k)
        clear_value y
        extract_lets -merge -useContext -underBinder +onlyGivenNames g
        have hg : Within F R s g := by
          unfold g
          split <;> [exact State.deliverStep_within (sub hF rfl) (sub hR rfl) hy; exact hy]
        clear_value g
        exact State.takeUp_within (sub hF rfl) (sub hR rfl) (State.updSess_within (sub hF rfl) (sub hR rfl) hg)
    · exact h

end Sys2Proof.Machine
end

