-- ==== Sys2Proof/Laws/WithinHost.lean ====
section
/-! SUPPORT. `Within` (Within.lean) through publishing, records, the seal, power, start-up, resets, firmware, the host and registers: one lemma for each operation, in the order
of the model's files; `Touched` for each meaning. -/

namespace Sys2Proof.Machine

/-! Publish -/

theorem State.rollOver_within {F R} {z s : State} {a1 a2} (hF : F &&& 0x8004 = 0x8004) (hR : R &&& 0x2c0000063f000000000000000000000000000000000000000000000000000000000000000000000002c000000000000000000000000010000 = 0x2c0000063f000000000000000000000000000000000000000000000000000000000000000000000002c000000000000000000000000010000) (h : Within F R z s) : Within F R z (State.rollOver s a1 a2) := by
  unfold State.rollOver
  split <;> [exact (State.updSess_within (sub hF rfl) (sub hR rfl) h); exact (by extract_lets -merge -useContext -underBinder +onlyGivenNames v1; clear_value v1; exact (by extract_lets -merge -useContext -underBinder +onlyGivenNames v2; clear_value v2; exact (by extract_lets -merge -useContext -underBinder +onlyGivenNames v3; have h3 : Within F R z v3 := (by unfold v3; exact (State.moved_within (sub hF rfl) (sub hR rfl) (State.tick_within (sub hF rfl) (sub hR rfl) h))); clear_value v3; exact (by extract_lets -merge -useContext -underBinder +onlyGivenNames v4; have h4 : Within F R z v4 := (by unfold v4; exact (State.bump_within (sub hF rfl) (sub hR rfl) (elem hR rfl) (State.bump_within (sub hF rfl) (sub hR rfl) (elem hR rfl) h3))); clear_value v4; exact (State.updSess_within (sub hF rfl) (sub hR rfl) h4)))))]

theorem State.endTide_within {F R} {z s : State} {a1} (hF : F &&& 0x208006 = 0x208006) (hR : R &&& 0x2c0000063f000000000000000000000000000000000000000000000000000000000000000000000002c000000000000000000000000034000 = 0x2c0000063f000000000000000000000000000000000000000000000000000000000000000000000002c000000000000000000000000034000) (h : Within F R z s) : Within F R z (State.endTide s a1) := by
  unfold State.endTide
  extract_lets -merge -useContext -underBinder +onlyGivenNames v1
  clear_value v1
  extract_lets -merge -useContext -underBinder +onlyGivenNames v2
  have h2 : Within F R z v2 := (by unfold v2; exact (State.setNum_within (sub hF rfl) (sub hR rfl) (elem hR rfl) (State.each_within (sub hF rfl) (sub hR rfl) h (fun h3 => (State.rollOver_within (sub hF rfl) (sub hR rfl) h3)))))
  clear_value v2
  extract_lets -merge -useContext -underBinder +onlyGivenNames v3
  have h3 : Within F R z v3 := (by unfold v3; exact (State.when_within (sub hF rfl) (sub hR rfl) h2 (fun h4 => (State.raise_within (sub hF rfl) (sub hR rfl) (elem hR rfl) h4))))
  clear_value v3
  exact State.each_within (sub hF rfl) (sub hR rfl) h3 (fun h4 => (State.updSess_within (sub hF rfl) (sub hR rfl) h4))

theorem State.commitSession_within {F R} {z s : State} {a1 a2} (hF : F &&& 0xa18002 = 0xa18002) (hR : R &&& 0x100000080000000000000000000000000000000000000000000000000000000000000000e020040000000000000000000000000000000000 = 0x100000080000000000000000000000000000000000000000000000000000000000000000e020040000000000000000000000000000000000) (h : Within F R z s) : Within F R z (State.commitSession s a1 a2) := by
  unfold State.commitSession
  extract_lets -merge -useContext -underBinder +onlyGivenNames v1 v2 v3 v4
  clear_value v1 v2 v3 v4
  split <;> [exact (by extract_lets -merge -useContext -underBinder +onlyGivenNames v5; clear_value v5; exact (by extract_lets -merge -useContext -underBinder +onlyGivenNames v6; clear_value v6; exact (by extract_lets -merge -useContext -underBinder +onlyGivenNames v7; clear_value v7; exact (by extract_lets -merge -useContext -underBinder +onlyGivenNames v8; clear_value v8; exact (by extract_lets -merge -useContext -underBinder +onlyGivenNames v9; clear_value v9; exact (by extract_lets -merge -useContext -underBinder +onlyGivenNames v10; clear_value v10; exact (by extract_lets -merge -useContext -underBinder +onlyGivenNames v11; clear_value v11; exact (by extract_lets -merge -useContext -underBinder +onlyGivenNames v12; clear_value v12; exact (by extract_lets -merge -useContext -underBinder +onlyGivenNames v13; clear_value v13; exact (by extract_lets -merge -useContext -underBinder +onlyGivenNames v14; have h14 : Within F R z v14 := (by unfold v14; exact (State.updQp_within (sub hF rfl) (sub hR rfl) h)); clear_value v14; exact (by extract_lets -merge -useContext -underBinder +onlyGivenNames v15; have h15 : Within F R z v15 := (by unfold v15; exact (State.when_within (sub hF rfl) (sub hR rfl) h14 (fun h16 => (State.raise_within (sub hF rfl) (sub hR rfl) (elem hR rfl) h16)))); clear_value v15; exact (by extract_lets -merge -useContext -underBinder +onlyGivenNames u16_0 v16; have h16 : Within F R z v16 := (by unfold v16; exact (.srv h15 (elem hF rfl))); clear_value v16; exact (by extract_lets -merge -useContext -underBinder +onlyGivenNames v17; have h17 : Within F R z v17 := (by unfold v17; exact (State.bumpSrv_within (sub hF rfl) (sub hR rfl) (elem hR rfl) (State.bumpSrv_within (sub hF rfl) (sub hR rfl) (elem hR rfl) h16))); clear_value v17; exact (by extract_lets -merge -useContext -underBinder +onlyGivenNames v18; have h18 : Within F R z v18 := (by unfold v18; exact (.ite (State.bumpSrv_within (sub hF rfl) (sub hR rfl) (elem hR rfl) h17) (State.bumpSrv_within (sub hF rfl) (sub hR rfl) (elem hR rfl) h17))); clear_value v18; exact (by extract_lets -merge -useContext -underBinder +onlyGivenNames v19; have h19 : Within F R z v19 := (by unfold v19; exact (State.when_within (sub hF rfl) (sub hR rfl) h18 (fun h20 => (.hlt h20 (elem hF rfl))))); clear_value v19; exact (by split <;> [exact h19; exact (State.when_within (sub hF rfl) (sub hR rfl) h19 (fun h20 => (State.dmaWr_within (sub hF rfl) (sub hR rfl) (State.emit_within (sub hF rfl) (sub hR rfl) h20))))]))))))))))))))))]

theorem State.writeStatus_within {F R} {z s : State} {a1 a2} (hF : F &&& 0x8002 = 0x8002) (hR : R &&& 0x1000000800000000000000000000000000000000000000000000000000000000000000000000000000000000000000000000000000000000 = 0x1000000800000000000000000000000000000000000000000000000000000000000000000000000000000000000000000000000000000000) (h : Within F R z s) : Within F R z (State.writeStatus s a1 a2) := by
  unfold State.writeStatus
  split <;> [exact h; exact (by extract_lets -merge -useContext -underBinder +onlyGivenNames v1; clear_value v1; exact (.ite h (by extract_lets -merge -useContext -underBinder +onlyGivenNames v2; clear_value v2; exact (State.updSess_within (sub hF rfl) (sub hR rfl) (State.dmaWr_within (sub hF rfl) (sub hR rfl) (State.emit_within (sub hF rfl) (sub hR rfl) h))))))]

theorem State.answerQueries_within {F R} {z s : State} {a1 a2} (hF : F &&& 0x8002 = 0x8002) (hR : R &&& 0x1000000800000000000000000000000000000000000000000000000000000000000000000000000000000000000000000000000000000000 = 0x1000000800000000000000000000000000000000000000000000000000000000000000000000000000000000000000000000000000000000) (h : Within F R z s) : Within F R z (State.answerQueries s a1 a2) := by
  unfold State.answerQueries
  extract_lets -merge -useContext -underBinder +onlyGivenNames v1
  have h1 : Within F R z v1 := (by unfold v1; exact (State.each_within (sub hF rfl) (sub hR rfl) h (fun h2 => (by extract_lets -merge -useContext -underBinder +onlyGivenNames v3; clear_value v3; exact (State.dmaWr_within (sub hF rfl) (sub hR rfl) (State.emit_within (sub hF rfl) (sub hR rfl) h2))))))
  clear_value v1
  exact State.updQp_within (sub hF rfl) (sub hR rfl) h1

theorem State.writeCpl_within {F R} {z s : State} {a1 a2 a3 a4} (hF : F &&& 0x20008006 = 0x20008006) (hR : R &&& 0x1000000800000000000000000000000000000000000000000000000000000000000000000000000000000000000000000000000000000000 = 0x1000000800000000000000000000000000000000000000000000000000000000000000000000000000000000000000000000000000000000) (h : Within F R z s) : Within F R z (State.writeCpl s a1 a2 a3 a4) := by
  unfold State.writeCpl
  extract_lets -merge -useContext -underBinder +onlyGivenNames v1 v2 v3
  clear_value v1 v2 v3
  extract_lets -merge -useContext -underBinder +onlyGivenNames v4
  have h4 : Within F R z v4 := (by unfold v4; exact (.ite (State.tick_within (sub hF rfl) (sub hR rfl) h) h))
  clear_value v4
  extract_lets -merge -useContext -underBinder +onlyGivenNames v5
  have h5 : Within F R z v5 := (by unfold v5; exact (.ite (State.ringWrite_within (sub hF rfl) (sub hR rfl) h4) (State.dmaWr_within (sub hF rfl) (sub hR rfl) h4)))
  clear_value v5
  exact State.updQp_within (sub hF rfl) (sub hR rfl) (State.emit_within (sub hF rfl) (sub hR rfl) h5)

theorem State.publishQp_within {F R} {z s : State} {a1 a2 a3} (hF : F &&& 0x20008006 = 0x20008006) (hR : R &&& 0x1000000800000000000000000000000000000000000000000000000000000000000000001000000000000000000000000000000000000000 = 0x1000000800000000000000000000000000000000000000000000000000000000000000001000000000000000000000000000000000000000) (h : Within F R z s) : Within F R z (State.publishQp s a1 a2 a3) := by
  unfold State.publishQp
  extract_lets -merge -useContext -underBinder +onlyGivenNames v1 v2 v3
  clear_value v1 v2 v3
  extract_lets -merge -useContext -underBinder +onlyGivenNames v4
  have h4 : Within F R z v4 := (by unfold v4; exact (State.each_within (sub hF rfl) (sub hR rfl) h (fun h5 => (State.writeCpl_within (sub hF rfl) (sub hR rfl) h5))))
  clear_value v4
  extract_lets -merge -useContext -underBinder +onlyGivenNames v5
  have h5 : Within F R z v5 := (by unfold v5; exact (State.updQp_within (sub hF rfl) (sub hR rfl) h4))
  clear_value v5
  extract_lets -merge -useContext -underBinder +onlyGivenNames v6
  clear_value v6
  extract_lets -merge -useContext -underBinder +onlyGivenNames v7
  have h7 : Within F R z v7 := (by unfold v7; exact (State.updQp_within (sub hF rfl) (sub hR rfl) h5))
  clear_value v7
  exact State.when_within (sub hF rfl) (sub hR rfl) h7 (fun h8 => (State.bumpSrv_within (sub hF rfl) (sub hR rfl) (elem hR rfl) h8))

theorem State.freeClosed_within {F R} {z s : State} {a1} (hF : F &&& 0x18000 = 0x18000) (hR : R &&& 0 = 0) (h : Within F R z s) : Within F R z (State.freeClosed s a1) := by
  unfold State.freeClosed
  split <;> [exact h; exact (.ite (State.updQp_within (sub hF rfl) (sub hR rfl) (State.dropPages_within (sub hF rfl) (sub hR rfl) h)) h)]

theorem State.coalesce_within {F R} {z s : State} {a1 a2} (hF : F &&& 0x208002 = 0x208002) (hR : R &&& 0 = 0) (h : Within F R z s) : Within F R z (State.coalesce s a1 a2) := by
  unfold State.coalesce
  extract_lets -merge -useContext -underBinder +onlyGivenNames v1 v2 v3
  clear_value v1 v2 v3
  exact .ite h (State.sendMsix_within (sub hF rfl) (sub hR rfl) (State.each_within (sub hF rfl) (sub hR rfl) h (fun h4 => (State.updQp_within (sub hF rfl) (sub hR rfl) h4))))

theorem State.signalAll_within {F R} {z s : State}  (hF : F &&& 0x208002 = 0x208002) (hR : R &&& 0 = 0) (h : Within F R z s) : Within F R z (State.signalAll s) := by
  unfold State.signalAll
  extract_lets -merge -useContext -underBinder +onlyGivenNames v1
  clear_value v1
  exact State.each_within (sub hF rfl) (sub hR rfl) h (fun h2 => (State.coalesce_within (sub hF rfl) (sub hR rfl) h2))

theorem State.publish_within {F R} {z s : State} {a1 a2} (hF : F &&& 0x20a18006 = 0x20a18006) (hR : R &&& 0x100000080000000000000000000000000000000000000000000000000000000000000000f020040000000000000000000000000000000000 = 0x100000080000000000000000000000000000000000000000000000000000000000000000f020040000000000000000000000000000000000) (h : Within F R z s) : Within F R z (State.publish s a1 a2) := by
  unfold State.publish
  exact .ite h (by extract_lets -merge -useContext -underBinder +onlyGivenNames v1; have h1 : Within F R z v1 := (by unfold v1; exact (State.each_within (sub hF rfl) (sub hR rfl) h (fun h2 => (State.commitSession_within (sub hF rfl) (sub hR rfl) h2)))); clear_value v1; exact (by extract_lets -merge -useContext -underBinder +onlyGivenNames v2; clear_value v2; exact (by extract_lets -merge -useContext -underBinder +onlyGivenNames v3; have h3 : Within F R z v3 := (by unfold v3; exact (State.each_within (sub hF rfl) (sub hR rfl) h1 (fun h4 => (State.answerQueries_within (sub hF rfl) (sub hR rfl) (State.writeStatus_within (sub hF rfl) (sub hR rfl) h4))))); clear_value v3; exact (by extract_lets -merge -useContext -underBinder +onlyGivenNames v4; have h4 : Within F R z v4 := (by unfold v4; exact (State.each_within (sub hF rfl) (sub hR rfl) h3 (fun h5 => (State.when_within (sub hF rfl) (sub hR rfl) h5 (fun h6 => (State.publishQp_within (sub hF rfl) (sub hR rfl) h6)))))); clear_value v4; exact (State.signalAll_within (sub hF rfl) (sub hR rfl) (State.each_within (sub hF rfl) (sub hR rfl) h4 (fun h5 => (State.freeClosed_within (sub hF rfl) (sub hR rfl) h5))))))))

/-! Records -/

theorem State.storeRec_within {F R} {z s : State} {a1} (hF : F &&& 0x2200002 = 0x2200002) (hR : R &&& 0x2c00000000000000000000000000000000000000000000000000000000000000000000000000000000000000000000000000000000000000000 = 0x2c00000000000000000000000000000000000000000000000000000000000000000000000000000000000000000000000000000000000000000) (h : Within F R z s) : Within F R z (State.storeRec s a1) := by
  unfold State.storeRec
  extract_lets -merge -useContext -underBinder +onlyGivenNames v1
  clear_value v1
  exact .ite (State.bump_within (sub hF rfl) (sub hR rfl) (elem hR rfl) h) (.ite (.evt h (elem hF rfl)) (by extract_lets -merge -useContext -underBinder +onlyGivenNames v2; clear_value v2; exact (State.when_within (sub hF rfl) (sub hR rfl) (State.setF_within (sub hF rfl) (sub hR rfl) (elem hR rfl) (State.bump_within (sub hF rfl) (sub hR rfl) (elem hR rfl) h)) (fun h3 => (State.raise_within (sub hF rfl) (sub hR rfl) (elem hR rfl) h3)))))

theorem State.tailRec_within {F R} {z s : State} {a1} (hF : F &&& 0x2000000 = 0x2000000) (_hR : R &&& 0 = 0) (h : Within F R z s) : Within F R z (State.tailRec s a1) :=
  .evt h (elem hF rfl)

theorem State.arrive_within {F R} {z s : State} {a1} (hF : F &&& 0x2200002 = 0x2200002) (hR : R &&& 0x6c00000000000000000000000000000000000000000000000000000000000000000000000000000000000000000000000000000000000000000 = 0x6c00000000000000000000000000000000000000000000000000000000000000000000000000000000000000000000000000000000000000000) (h : Within F R z s) : Within F R z (State.arrive s a1) := by
  unfold State.arrive
  split <;> [exact h; exact (by extract_lets -merge -useContext -underBinder +onlyGivenNames v1; clear_value v1; exact (by extract_lets -merge -useContext -underBinder +onlyGivenNames v2; clear_value v2; exact (by extract_lets -merge -useContext -underBinder +onlyGivenNames u3_0 v3; clear_value v3; exact (State.tailRec_within (sub hF rfl) (sub hR rfl) (State.storeRec_within (sub hF rfl) (sub hR rfl) (State.bump_within (sub hF rfl) (sub hR rfl) (elem hR rfl) (.evt h (elem hF rfl))))))))]

theorem execEventRecordArrival_within {F R} {s : State} {a0 a1} (hF : F &&& 0x2200012 = 0x2200012) (hR : R &&& 0x6c00000000000000000000000000000000000000000000000000000000000000000000000000000000000000000000000000000000000000000 = 0x6c00000000000000000000000000000000000000000000000000000000000000000000000000000000000000000000000000000000000000000) : Touched F R s (execEventRecordArrival a0 a1 s) :=
  .answer (sub hF rfl) (fun h1 => (State.arrive_within (sub hF rfl) (sub hR rfl) h1))

theorem State.clearedRec_within {F R} {z s : State}  (hF : F &&& 0x2000000 = 0x2000000) (hR : R &&& 0x4000000000000000000000000000000000000000000000000000000000000000000000000000000000000000000000000000000000000000000 = 0x4000000000000000000000000000000000000000000000000000000000000000000000000000000000000000000000000000000000000000000) (h : Within F R z s) : Within F R z (State.clearedRec s) := by
  unfold State.clearedRec
  split <;> [exact h; exact (.ite h (by extract_lets -merge -useContext -underBinder +onlyGivenNames v1; clear_value v1; exact (by extract_lets -merge -useContext -underBinder +onlyGivenNames u2_0 v2; have h2 : Within F R z v2 := (by unfold v2; exact (.evt h (elem hF rfl))); clear_value v2; exact (State.tailRec_within (sub hF rfl) (sub hR rfl) (State.bump_within (sub hF rfl) (sub hR rfl) (elem hR rfl) h2)))))]

theorem State.evtFreeze_within {F R} {z s : State} {a1} (hF : F &&& 0x2000000 = 0x2000000) (hR : R &&& 0x4200000000000000000000000000000000000000000000000000000000000000000000000000000000000000000000000000000000000000000 = 0x4200000000000000000000000000000000000000000000000000000000000000000000000000000000000000000000000000000000000000000) (h : Within F R z s) : Within F R z (State.evtFreeze s a1) := by
  unfold State.evtFreeze
  extract_lets -merge -useContext -underBinder +onlyGivenNames u1_0 v1
  have h1 : Within F R z v1 := (by unfold v1; exact (.ite (.evt h (elem hF rfl)) h))
  clear_value v1
  exact State.clearedRec_within (sub hF rfl) (sub hR rfl) (State.setF_within (sub hF rfl) (sub hR rfl) (elem hR rfl) h1)

theorem State.evtClear_within {F R} {z s : State}  (hF : F &&& 0x2000000 = 0x2000000) (hR : R &&& 0x6400000000000000000000000000000000000000000000000000000000000000000000000000000000000000000000000000000000000000000 = 0x6400000000000000000000000000000000000000000000000000000000000000000000000000000000000000000000000000000000000000000) (h : Within F R z s) : Within F R z (State.evtClear s) := by
  unfold State.evtClear
  extract_lets -merge -useContext -underBinder +onlyGivenNames v1 v2 v3 v4 v5 v6 u7_0 v7
  clear_value v1 v2 v3 v4 v5 v6 v7
  exact State.clearedRec_within (sub hF rfl) (sub hR rfl) (State.setF_within (sub hF rfl) (sub hR rfl) (elem hR rfl) (State.setNum_within (sub hF rfl) (sub hR rfl) (elem hR rfl) (.evt h (elem hF rfl))))

theorem State.wfgTrigger_within {F R} {z s : State} {a1 a2} (hF : F &&& 0x2000000 = 0x2000000) (_hR : R &&& 0 = 0) (h : Within F R z s) : Within F R z (State.wfgTrigger s a1 a2) :=
  .ite h (.evt h (elem hF rfl))

theorem State.wfgReq_within {F R} {z s : State}  (hF : F &&& 0x2000000 = 0x2000000) (hR : R &&& 0x200000000000000000000000000000000000000000000000000000000000000000000000000000000000000000000000000000000000000000 = 0x200000000000000000000000000000000000000000000000000000000000000000000000000000000000000000000000000000000000000000) (h : Within F R z s) : Within F R z (State.wfgReq s) :=
  State.wfgTrigger_within (sub hF rfl) (sub hR rfl) (State.setF_within (sub hF rfl) (sub hR rfl) (elem hR rfl) h)

theorem State.wfgAtSeal_within {F R} {z s : State}  (hF : F &&& 0x2008000 = 0x2008000) (_hR : R &&& 0 = 0) (h : Within F R z s) : Within F R z (State.wfgAtSeal s) := by
  unfold State.wfgAtSeal
  extract_lets -merge -useContext -underBinder +onlyGivenNames v1 v2
  clear_value v1 v2
  extract_lets -merge -useContext -underBinder +onlyGivenNames u3_0 v3
  have h3 : Within F R z v3 := (by unfold v3; exact (.qps h (elem hF rfl)))
  clear_value v3
  split <;> [exact h3; exact (.ite h3 (.evt h3 (elem hF rfl)))]

theorem execWfgWriteDone_within {F R} {s : State} {a0} (hF : F &&& 0x2200012 = 0x2200012) (hR : R &&& 0x20a01000000800000000000000000000000000000000000000000000000000000000000000000000000000000000000000000000000000000000 = 0x20a01000000800000000000000000000000000000000000000000000000000000000000000000000000000000000000000000000000000000000) : Touched F R s (execWfgWriteDone a0 s) := by
  unfold execWfgWriteDone
  exact .answer (sub hF rfl) (fun h1 => (by split <;> [exact h1; exact (by extract_lets -merge -useContext -underBinder +onlyGivenNames v2; clear_value v2; exact (by extract_lets -merge -useContext -underBinder +onlyGivenNames v3; clear_value v3; exact (by extract_lets -merge -useContext -underBinder +onlyGivenNames v4; clear_value v4; exact (by extract_lets -merge -useContext -underBinder +onlyGivenNames u5_0 v5; have h5 : Within F R s v5 := (by unfold v5; exact (.evt h1 (elem hF rfl))); clear_value v5; exact (by extract_lets -merge -useContext -underBinder +onlyGivenNames v6; have h6 : Within F R s v6 := (by unfold v6; exact (State.setF_within (sub hF rfl) (sub hR rfl) (elem hR rfl) (State.setNum_within (sub hF rfl) (sub hR rfl) (elem hR rfl) h5))); clear_value v6; exact (by extract_lets -merge -useContext -underBinder +onlyGivenNames v7; have h7 : Within F R s v7 := (by unfold v7; exact (State.when_within (sub hF rfl) (sub hR rfl) h6 (fun h8 => (State.dmaWr_within (sub hF rfl) (sub hR rfl) (State.emit_within (sub hF rfl) (sub hR rfl) h8))))); clear_value v7; exact (State.event_within (sub hF rfl) (sub hR rfl) (State.raise_within (sub hF rfl) (sub hR rfl) (elem hR rfl) h7))))))))]))

theorem State.bbxEmpty_within {F R} {z s : State}  (hF : F &&& 0x2000080 = 0x2000080) (hR : R &&& 0x10000000000000000000000000000000000000000000000000000000000000000000000000000000000000000000000000000 = 0x10000000000000000000000000000000000000000000000000000000000000000000000000000000000000000000000000000) (h : Within F R z s) : Within F R z (State.bbxEmpty s) := by
  unfold State.bbxEmpty
  extract_lets -merge -useContext -underBinder +onlyGivenNames v1
  clear_value v1
  extract_lets -merge -useContext -underBinder +onlyGivenNames u2_0 v2
  have h2 : Within F R z v2 := (by unfold v2; exact (.mram h (elem hF rfl)))
  clear_value v2
  exact State.event_within (sub hF rfl) (sub hR rfl) (State.setF_within (sub hF rfl) (sub hR rfl) (elem hR rfl) h2)

theorem State.bbxClear_within {F R} {z s : State}  (hF : F &&& 0x2000080 = 0x2000080) (hR : R &&& 0x10000000000000000000000000000000000000000000000000000000000000000000000000000000000000000000000000000 = 0x10000000000000000000000000000000000000000000000000000000000000000000000000000000000000000000000000000) (h : Within F R z s) : Within F R z (State.bbxClear s) :=
  .ite h (.ite (State.bbxEmpty_within (sub hF rfl) (sub hR rfl) h) (State.setF_within (sub hF rfl) (sub hR rfl) (elem hR rfl) h))

theorem State.bbxSnap_within {F R} {z s : State}  (hF : F &&& 0x4200082 = 0x4200082) (hR : R &&& 0x810000000000000000000000000000000000000000000000000000000000000000000000000000000000000000000000000000 = 0x810000000000000000000000000000000000000000000000000000000000000000000000000000000000000000000000000000) (h : Within F R z s) : Within F R z (State.bbxSnap s) := by
  unfold State.bbxSnap
  extract_lets -merge -useContext -underBinder +onlyGivenNames v1
  clear_value v1
  extract_lets -merge -useContext -underBinder +onlyGivenNames v2
  have h2 : Within F R z v2 := (by unfold v2; exact (State.snapTrigger_within (sub hF rfl) (sub hR rfl) h))
  clear_value v2
  exact .ite h2 (State.setF_within (sub hF rfl) (sub hR rfl) (elem hR rfl) h2)

theorem execSnapshotDone_within {F R} {s : State} {a0} (hF : F &&& 0x3ffffff2 = 0x3ffffff2) (hR : R &&& 0xffffffffffffffffffffffffffff80ffffffffffffffffffffffffffffffffffffffffffffffffffffffffffffffffffffffffffffffffffffffffffffffffff = 0xffffffffffffffffffffffffffff80ffffffffffffffffffffffffffffffffffffffffffffffffffffffffffffffffffffffffffffffffffffffffffffffffff) : Touched F R s (execSnapshotDone a0 s) := by
  unfold execSnapshotDone
  exact .answer (sub hF rfl) (fun h1 => (by split <;> [exact h1; exact (by extract_lets -merge -useContext -underBinder +onlyGivenNames v2; clear_value v2; exact (by extract_lets -merge -useContext -underBinder +onlyGivenNames v3; clear_value v3; exact (by extract_lets -merge -useContext -underBinder +onlyGivenNames u4_0 v4; have h4 : Within F R s v4 := (by unfold v4; exact (.chg 67108992 h1 (sub hF rfl) rfl (fun g hg => by cases g <;> first | rfl | exact absurd hg (by decide)))); clear_value v4; exact (by extract_lets -merge -useContext -underBinder +onlyGivenNames v5; have h5 : Within F R s v5 := (by unfold v5; exact (State.when_within (sub hF rfl) (sub hR rfl) h4 (fun h6 => (State.setF_within (sub hF rfl) (sub hR rfl) (elem hR rfl) h6)))); clear_value v5; exact (by extract_lets -merge -useContext -underBinder +onlyGivenNames v6; have h6 : Within F R s v6 := (by unfold v6; exact (State.event_within (sub hF rfl) (sub hR rfl) (State.raise_within (sub hF rfl) (sub hR rfl) (elem hR rfl) h5))); clear_value v6; exact (by extract_lets -merge -useContext -underBinder +onlyGivenNames v7; have h7 : Within F R s v7 := (by unfold v7; exact (State.when_within (sub hF rfl) (sub hR rfl) h6 (fun h8 => (State.bbxEmpty_within (sub hF rfl) (sub hR rfl) h8)))); clear_value v7; exact (State.when_within (sub hF rfl) (sub hR rfl) h7 (fun h8 => (State.stopOff_within (sub hF rfl) (sub hR rfl) h8)))))))))]))

/-! SealOps -/

theorem State.stopPans_within {F R} {z s : State}  (hF : F &&& 512 = 512) (hR : R &&& 0x8000000000 = 0x8000000000) (h : Within F R z s) : Within F R z (State.stopPans s) := by
  unfold State.stopPans
  exact State.each_within (sub hF rfl) (sub hR rfl) h (fun h1 => (by extract_lets -merge -useContext -underBinder +onlyGivenNames v2; clear_value v2; exact (State.when_within (sub hF rfl) (sub hR rfl) h1 (fun h3 => (State.bump_within (sub hF rfl) (sub hR rfl) (elem hR rfl) (State.updPan_within (sub hF rfl) (sub hR rfl) h3))))))

theorem State.sealWork_within {F R} {z s : State}  (hF : F &&& 768 = 768) (hR : R &&& 0x8000000000 = 0x8000000000) (h : Within F R z s) : Within F R z (State.sealWork s) :=
  .ite h (State.stopPans_within (sub hF rfl) (sub hR rfl) (.tide h (elem hF rfl)))

/-! Power -/

theorem State.pwrCode_within {F R} {z s : State} {a1} (hF : F &&& 0 = 0) (hR : R &&& 0x800000000000000000000000000000000000000000000000000000000000000000000000000000000000000000 = 0x800000000000000000000000000000000000000000000000000000000000000000000000000000000000000000) (h : Within F R z s) : Within F R z (State.pwrCode s a1) :=
  State.setF_within (sub hF rfl) (sub hR rfl) (elem hR rfl) h

theorem State.powerRequest_within {F R} {z s : State}  (hF : F &&& 0x3000000 = 0x3000000) (hR : R &&& 0x8c00000000000000000000000000000000000000000000000000000000000000000000000000000000000000000 = 0x8c00000000000000000000000000000000000000000000000000000000000000000000000000000000000000000) (h : Within F R z s) : Within F R z (State.powerRequest s) :=
  .ite (State.exitPower_within (sub hF rfl) (sub hR rfl) (State.setF_within (sub hF rfl) (sub hR rfl) (elem hR rfl) h)) (State.setF_within (sub hF rfl) (sub hR rfl) (elem hR rfl) h)

theorem State.vcoreTarget_within {F R} {z s : State} {a1} (hF : F &&& 0 = 0) (hR : R &&& 0x4800000000000000000000000000000000000000000000000000000000000000000000000000000000000000000 = 0x4800000000000000000000000000000000000000000000000000000000000000000000000000000000000000000) (h : Within F R z s) : Within F R z (State.vcoreTarget s a1) :=
  .ite (State.setNum_within (sub hF rfl) (sub hR rfl) (elem hR rfl) h) (State.pwrCode_within (sub hF rfl) (sub hR rfl) h)

theorem State.pwrLimit_within {F R} {z s : State} {a1} (hF : F &&& 0 = 0) (hR : R &&& 0x10800000000000000000000000000000000000000000000000000000000000000000000000000000000000000000 = 0x10800000000000000000000000000000000000000000000000000000000000000000000000000000000000000000) (h : Within F R z s) : Within F R z (State.pwrLimit s a1) :=
  .ite (State.setNum_within (sub hF rfl) (sub hR rfl) (elem hR rfl) h) (State.pwrCode_within (sub hF rfl) (sub hR rfl) h)

theorem State.startCal_within {F R} {z s : State} {a1} (hF : F &&& 0x1000000 = 0x1000000) (hR : R &&& 0x300000000000000000000000000000000000000000000000000000000000000000000000000000000000000000000000 = 0x300000000000000000000000000000000000000000000000000000000000000000000000000000000000000000000000) (h : Within F R z s) : Within F R z (State.startCal s a1) := by
  unfold State.startCal
  exact .ite (State.setF_within (sub hF rfl) (sub hR rfl) (elem hR rfl) h) (by extract_lets -merge -useContext -underBinder +onlyGivenNames v1; have h1 : Within F R z v1 := (by unfold v1; exact (State.setF_within (sub hF rfl) (sub hR rfl) (elem hR rfl) (State.setF_within (sub hF rfl) (sub hR rfl) (elem hR rfl) h))); clear_value v1; exact (.pwr h1 (elem hF rfl)))

theorem State.sensorRead_within {F R} {z s : State} {a1 a2} (hF : F &&& 0x1000000 = 0x1000000) (hR : R &&& 0x80000000000000000000000000000000000000000000000000000000000000000000000000000000000000000000000 = 0x80000000000000000000000000000000000000000000000000000000000000000000000000000000000000000000000) (h : Within F R z s) : Within F R z (State.sensorRead s a1 a2) := by
  unfold State.sensorRead
  extract_lets -merge -useContext -underBinder +onlyGivenNames v1 v2
  clear_value v1 v2
  extract_lets -merge -useContext -underBinder +onlyGivenNames u3_0 v3
  have h3 : Within F R z v3 := (by unfold v3; exact (.pwr h (elem hF rfl)))
  clear_value v3
  exact State.when_within (sub hF rfl) (sub hR rfl) h3 (fun h4 => (State.setNum_within (sub hF rfl) (sub hR rfl) (elem hR rfl) h4))

theorem execHkaConversion_within {F R} {s : State} {a0 a1} (hF : F &&& 0x1000012 = 0x1000012) (hR : R &&& 0x18080000000000000000000000000000000000000000000000000000000000000000000000000000000000000000000000 = 0x18080000000000000000000000000000000000000000000000000000000000000000000000000000000000000000000000) : Touched F R s (execHkaConversion a0 a1 s) := by
  unfold execHkaConversion
  exact .answer (sub hF rfl) (fun h1 => (.ite h1 (by extract_lets -merge -useContext -underBinder +onlyGivenNames v2; clear_value v2; exact (by extract_lets -merge -useContext -underBinder +onlyGivenNames v3; clear_value v3; exact (by extract_lets -merge -useContext -underBinder +onlyGivenNames v4; clear_value v4; exact (by extract_lets -merge -useContext -underBinder +onlyGivenNames v5; have h5 : Within F R s v5 := (by unfold v5; exact (State.setNum_within (sub hF rfl) (sub hR rfl) (elem hR rfl) (State.setNum_within (sub hF rfl) (sub hR rfl) (elem hR rfl) h1))); clear_value v5; exact (by extract_lets -merge -useContext -underBinder +onlyGivenNames v6; have h6 : Within F R s v6 := (by unfold v6; exact (State.when_within (sub hF rfl) (sub hR rfl) h5 (fun h7 => (State.sensorRead_within (sub hF rfl) (sub hR rfl) h7)))); clear_value v6; exact (.pwr h6 (elem hF rfl)))))))))

theorem State.orderlyStop_within {F R} {z s : State} {a1 a2} (hF : F &&& 0x3200302 = 0x3200302) (hR : R &&& 0x6000000000000000000000000000480000000000000000000000000000000000000000000000000000008000000000 = 0x6000000000000000000000000000480000000000000000000000000000000000000000000000000000008000000000) (h : Within F R z s) : Within F R z (State.orderlyStop s a1 a2) := by
  unfold State.orderlyStop
  exact .ite h (by extract_lets -merge -useContext -underBinder +onlyGivenNames v1; have h1 : Within F R z v1 := (by unfold v1; exact (State.raise_within (sub hF rfl) (sub hR rfl) (elem hR rfl) (State.setDevState_within (sub hF rfl) (sub hR rfl) (State.setF_within (sub hF rfl) (sub hR rfl) (elem hR rfl) h)))); clear_value v1; exact (State.sealWork_within (sub hF rfl) (sub hR rfl) (by extract_lets -merge -useContext -underBinder +onlyGivenNames v2; have h2 : Within F R z v2 := (by unfold v2; exact (State.event_within (sub hF rfl) (sub hR rfl) h1)); clear_value v2; exact (.pwr h2 (elem hF rfl)))))

theorem State.judgeWarn_within {F R} {z s : State} {a1 a2} (hF : F &&& 0x3200002 = 0x3200002) (hR : R &&& 0x46000000000000000000000000000000000000000000000000000000000000000000000000000000000000000000000 = 0x46000000000000000000000000000000000000000000000000000000000000000000000000000000000000000000000) (h : Within F R z s) : Within F R z (State.judgeWarn s a1 a2) := by
  unfold State.judgeWarn
  extract_lets -merge -useContext -underBinder +onlyGivenNames v1
  clear_value v1
  extract_lets -merge -useContext -underBinder +onlyGivenNames u2_0 u2_1 v2
  have h2 : Within F R z v2 := (by unfold v2; exact (.pwr (State.setF_within (sub hF rfl) (sub hR rfl) (elem hR rfl) h) (elem hF rfl)))
  clear_value v2
  extract_lets -merge -useContext -underBinder +onlyGivenNames v3
  have h3 : Within F R z v3 := (by unfold v3; exact (State.when_within (sub hF rfl) (sub hR rfl) h2 (fun h4 => (State.raise_within (sub hF rfl) (sub hR rfl) (elem hR rfl) h4))))
  clear_value v3
  exact State.when_within (sub hF rfl) (sub hR rfl) h3 (fun h4 => (State.event_within (sub hF rfl) (sub hR rfl) (State.bump_within (sub hF rfl) (sub hR rfl) (elem hR rfl) (State.raise_within (sub hF rfl) (sub hR rfl) (elem hR rfl) h4))))

theorem State.judgeThrottle_within {F R} {z s : State} {a1} (hF : F &&& 0x1200002 = 0x1200002) (hR : R &&& 0x6000000000000000000000000000000000000000000000000000000000000000000000000000000000000000000000 = 0x6000000000000000000000000000000000000000000000000000000000000000000000000000000000000000000000) (h : Within F R z s) : Within F R z (State.judgeThrottle s a1) := by
  unfold State.judgeThrottle
  extract_lets -merge -useContext -underBinder +onlyGivenNames v1
  clear_value v1
  extract_lets -merge -useContext -underBinder +onlyGivenNames u2_0 u2_1 v2
  have h2 : Within F R z v2 := (by unfold v2; exact (.pwr (State.setF_within (sub hF rfl) (sub hR rfl) (elem hR rfl) h) (elem hF rfl)))
  clear_value v2
  exact State.when_within (sub hF rfl) (sub hR rfl) (State.when_within (sub hF rfl) (sub hR rfl) h2 (fun h3 => (State.raise_within (sub hF rfl) (sub hR rfl) (elem hR rfl) h3))) (fun h3 => (State.raise_within (sub hF rfl) (sub hR rfl) (elem hR rfl) h3))

theorem State.judgeThermal_within {F R} {z s : State}  (hF : F &&& 0x3200302 = 0x3200302) (hR : R &&& 0x56000000000000000000000000000480000000000000000000000000000000000000000000000000000008000000000 = 0x56000000000000000000000000000480000000000000000000000000000000000000000000000000000008000000000) (h : Within F R z s) : Within F R z (State.judgeThermal s) := by
  unfold State.judgeThermal
  split <;> [exact h; exact (by extract_lets -merge -useContext -underBinder +onlyGivenNames v1; have h1 : Within F R z v1 := (by unfold v1; exact (State.judgeThrottle_within (sub hF rfl) (sub hR rfl) (State.judgeWarn_within (sub hF rfl) (sub hR rfl) (State.setNum_within (sub hF rfl) (sub hR rfl) (elem hR rfl) h)))); clear_value v1; exact (State.when_within (sub hF rfl) (sub hR rfl) h1 (fun h2 => (State.orderlyStop_within (sub hF rfl) (sub hR rfl) h2))))]

theorem State.judgeRails_within {F R} {z s : State}  (hF : F &&& 0x17a9c682 = 0x17a9c682) (hR : R &&& 0x800000000000000000000000000104000000480000000000000000000000000000040000000000000003000000000000000000 = 0x800000000000000000000000000104000000480000000000000000000000000000040000000000000003000000000000000000) (h : Within F R z s) : Within F R z (State.judgeRails s) := by
  unfold State.judgeRails
  extract_lets -merge -useContext -underBinder +onlyGivenNames v1 v2
  clear_value v1 v2
  extract_lets -merge -useContext -underBinder +onlyGivenNames u3_0 v3
  have h3 : Within F R z v3 := (by unfold v3; exact (.pwr h (elem hF rfl)))
  clear_value v3
  exact State.when_within (sub hF rfl) (sub hR rfl) h3 (fun h4 => (State.uncontained_within (sub hF rfl) (sub hR rfl) h4))

theorem State.setCalibrated_within {F R} {z s : State} {a1} (hF : F &&& 0 = 0) (hR : R &&& 0x202000800000000000000000000000000000000000000000000000000000000000000000000000000000000000000000 = 0x202000800000000000000000000000000000000000000000000000000000000000000000000000000000000000000000) (h : Within F R z s) : Within F R z (State.setCalibrated s a1) :=
  State.setF_within (sub hF rfl) (sub hR rfl) (elem hR rfl) (State.setF_within (sub hF rfl) (sub hR rfl) (elem hR rfl) (State.setF_within (sub hF rfl) (sub hR rfl) (elem hR rfl) h))

theorem State.judgeRefin_within {F R} {z s : State}  (hF : F &&& 0x3200002 = 0x3200002) (hR : R &&& 0x602000800000000000000000000000000000000000000000000000000000000000000000000000000000000000000000 = 0x602000800000000000000000000000000000000000000000000000000000000000000000000000000000000000000000) (h : Within F R z s) : Within F R z (State.judgeRefin s) := by
  unfold State.judgeRefin
  exact .ite (.pwr h (elem hF rfl)) (by extract_lets -merge -useContext -underBinder +onlyGivenNames v1; clear_value v1; exact (by extract_lets -merge -useContext -underBinder +onlyGivenNames v2; clear_value v2; exact (.ite (.pwr h (elem hF rfl)) (by extract_lets -merge -useContext -underBinder +onlyGivenNames u3_0 v3; have h3 : Within F R z v3 := (by unfold v3; exact (.pwr h (elem hF rfl))); clear_value v3; exact (State.event_within (sub hF rfl) (sub hR rfl) (State.raise_within (sub hF rfl) (sub hR rfl) (elem hR rfl) (State.setF_within (sub hF rfl) (sub hR rfl) (elem hR rfl) (State.setCalibrated_within (sub hF rfl) (sub hR rfl) h3))))))))

theorem State.sampleCore_within {F R} {z s : State}  (hF : F &&& 0x1000000 = 0x1000000) (_hR : R &&& 0 = 0) (h : Within F R z s) : Within F R z (State.sampleCore s) := by
  unfold State.sampleCore
  extract_lets -merge -useContext -underBinder +onlyGivenNames v1 v2
  clear_value v1 v2
  exact .pwr h (elem hF rfl)

theorem execHkaScanComplete_within {F R} {s : State} {a0} (hF : F &&& 0x17a9c792 = 0x17a9c792) (hR : R &&& 0x800004656000800000000000000104000000480000000000000000000000000000040000000000000003000000008000000000 = 0x800004656000800000000000000104000000480000000000000000000000000000040000000000000003000000008000000000) : Touched F R s (execHkaScanComplete a0 s) := by
  unfold execHkaScanComplete
  exact .answer (sub hF rfl) (fun h1 => (.ite h1 (by extract_lets -merge -useContext -underBinder +onlyGivenNames u2_0 v2; have h2 : Within F R s v2 := (by unfold v2; exact (State.bump_within (sub hF rfl) (sub hR rfl) (elem hR rfl) (.pwr h1 (elem hF rfl)))); clear_value v2; exact (.ite h2 (by extract_lets -merge -useContext -underBinder +onlyGivenNames v3; have h3 : Within F R s v3 := (by unfold v3; exact (State.judgeThermal_within (sub hF rfl) (sub hR rfl) (State.sampleCore_within (sub hF rfl) (sub hR rfl) h2))); clear_value v3; exact (State.judgeRefin_within (sub hF rfl) (sub hR rfl) (State.when_within (sub hF rfl) (sub hR rfl) h3 (fun h4 => (State.judgeRails_within (sub hF rfl) (sub hR rfl) h4)))))))))

theorem execThermalDwellEnd_within {F R} {s : State} {a0 a1} (hF : F &&& 0x1200012 = 0x1200012) (hR : R &&& 0x6000000000000000000000000000000000000000000000000000000000000000000000000000000000000000000000 = 0x6000000000000000000000000000000000000000000000000000000000000000000000000000000000000000000000) : Touched F R s (execThermalDwellEnd a0 a1 s) := by
  unfold execThermalDwellEnd
  exact .answer (sub hF rfl) (fun h1 => (.ite h1 (.ite (State.when_within (sub hF rfl) (sub hR rfl) h1 (fun h2 => (State.raise_within (sub hF rfl) (sub hR rfl) (elem hR rfl) (by extract_lets -merge -useContext -underBinder +onlyGivenNames v3; have h3 : Within F R s v3 := (by unfold v3; exact (State.setF_within (sub hF rfl) (sub hR rfl) (elem hR rfl) h2)); clear_value v3; exact (.pwr h3 (elem hF rfl)))))) (State.when_within (sub hF rfl) (sub hR rfl) h1 (fun h2 => (State.raise_within (sub hF rfl) (sub hR rfl) (elem hR rfl) (by extract_lets -merge -useContext -underBinder +onlyGivenNames v3; have h3 : Within F R s v3 := (by unfold v3; exact (State.setF_within (sub hF rfl) (sub hR rfl) (elem hR rfl) h2)); clear_value v3; exact (.pwr h3 (elem hF rfl)))))))))

theorem State.stopNow_within {F R} {z s : State}  (hF : F &&& 0x3fffffe2 = 0x3fffffe2) (hR : R &&& 0xffffffffffffffffffffffffffff80ffffffffffffffffffffffffffffffffffffffffffffffffffffffffffffffffffffffffffffffffffffffffffffffffff = 0xffffffffffffffffffffffffffff80ffffffffffffffffffffffffffffffffffffffffffffffffffffffffffffffffffffffffffffffffffffffffffffffffff) (h : Within F R z s) : Within F R z (State.stopNow s) := by
  unfold State.stopNow
  exact .ite h (by extract_lets -merge -useContext -underBinder +onlyGivenNames v1; have h1 : Within F R z v1 := (by unfold v1; exact (State.snapTrigger_within (sub hF rfl) (sub hR rfl) (State.shutRecord_within (sub hF rfl) (sub hR rfl) h))); clear_value v1; exact (.ite h1 (State.stopOff_within (sub hF rfl) (sub hR rfl) h1)))

theorem execOrderlyStopDeadline_within {F R} {s : State} {a0} (hF : F &&& 0x3ffffff2 = 0x3ffffff2) (hR : R &&& 0xffffffffffffffffffffffffffff80ffffffffffffffffffffffffffffffffffffffffffffffffffffffffffffffffffffffffffffffffffffffffffffffffff = 0xffffffffffffffffffffffffffff80ffffffffffffffffffffffffffffffffffffffffffffffffffffffffffffffffffffffffffffffffffffffffffffffffff) : Touched F R s (execOrderlyStopDeadline a0 s) := by
  unfold execOrderlyStopDeadline
  exact .answer (sub hF rfl) (fun h1 => (by split <;> [exact h1; exact (State.when_within (sub hF rfl) (sub hR rfl) h1 (fun h2 => (State.stopNow_within (sub hF rfl) (sub hR rfl) h2)))]))

theorem State.closeMs_within {F R} {z s : State} {a1} (hF : F &&& 0x1000000 = 0x1000000) (hR : R &&& 0x1c0000000000000000000000000000000000000000000000000000000000000000000000000000000000000000000 = 0x1c0000000000000000000000000000000000000000000000000000000000000000000000000000000000000000000) (h : Within F R z s) : Within F R z (State.closeMs s a1) := by
  unfold State.closeMs
  extract_lets -merge -useContext -underBinder +onlyGivenNames v1 v2 v3 v4
  clear_value v1 v2 v3 v4
  extract_lets -merge -useContext -underBinder +onlyGivenNames v5
  have h5 : Within F R z v5 := (by unfold v5; exact (.pwr h (elem hF rfl)))
  clear_value v5
  exact State.bump_within (sub hF rfl) (sub hR rfl) (elem hR rfl) (State.setNum_within (sub hF rfl) (sub hR rfl) (elem hR rfl) (State.setNum_within (sub hF rfl) (sub hR rfl) (elem hR rfl) h5))

theorem execBrakeEvaluation_within {F R} {s : State} {a0 a1} (hF : F &&& 0x3200012 = 0x3200012) (hR : R &&& 0x5c1800000000000000000000000000000000000000000000000000000000000000000000000000000000000000000 = 0x5c1800000000000000000000000000000000000000000000000000000000000000000000000000000000000000000) : Touched F R s (execBrakeEvaluation a0 a1 s) := by
  unfold execBrakeEvaluation
  exact .answer (sub hF rfl) (fun h1 => (.ite h1 (by extract_lets -merge -useContext -underBinder +onlyGivenNames v2; have h2 : Within F R s v2 := (by unfold v2; exact (State.closeMs_within (sub hF rfl) (sub hR rfl) h1)); clear_value v2; exact (by split <;> [exact h2; exact (.ite h2 (by extract_lets -merge -useContext -underBinder +onlyGivenNames u3_0 u3_1 v3; have h3 : Within F R s v3 := (by unfold v3; exact (.pwr (State.setF_within (sub hF rfl) (sub hR rfl) (elem hR rfl) h2) (elem hF rfl))); clear_value v3; exact (State.event_within (sub hF rfl) (sub hR rfl) (State.raise_within (sub hF rfl) (sub hR rfl) (elem hR rfl) (State.bump_within (sub hF rfl) (sub hR rfl) (elem hR rfl) h3)))))]))))

theorem execPmbAlert_within {F R} {s : State} {a0 a1} (hF : F &&& 0x17a9c692 = 0x17a9c692) (hR : R &&& 0x800000000801000000000000000104000000480000000000000000000000000000040000000000000003000000000000000000 = 0x800000000801000000000000000104000000480000000000000000000000000000040000000000000003000000000000000000) : Touched F R s (execPmbAlert a0 a1 s) := by
  unfold execPmbAlert
  exact .answer (sub hF rfl) (fun h1 => (.ite h1 (by split <;> [exact (by extract_lets -merge -useContext -underBinder +onlyGivenNames v2; have h2 : Within F R s v2 := (by unfold v2; exact (State.raise_within (sub hF rfl) (sub hR rfl) (elem hR rfl) (State.bump_within (sub hF rfl) (sub hR rfl) (elem hR rfl) h1))); clear_value v2; exact (.pwr h2 (elem hF rfl))); exact (State.uncontained_within (sub hF rfl) (sub hR rfl) h1)])))

theorem State.calEnd_within {F R} {z s : State} {a1} (hF : F &&& 0x1200002 = 0x1200002) (hR : R &&& 0x700000000000000000000000000000000000000000000000000000000000000000000000000000000000000000000000 = 0x700000000000000000000000000000000000000000000000000000000000000000000000000000000000000000000000) (h : Within F R z s) : Within F R z (State.calEnd s a1) := by
  unfold State.calEnd
  exact State.raise_within (sub hF rfl) (sub hR rfl) (elem hR rfl) (by extract_lets -merge -useContext -underBinder +onlyGivenNames v1; have h1 : Within F R z v1 := (by unfold v1; exact (State.setF_within (sub hF rfl) (sub hR rfl) (elem hR rfl) (State.setF_within (sub hF rfl) (sub hR rfl) (elem hR rfl) h))); clear_value v1; exact (.pwr h1 (elem hF rfl)))

theorem State.calChannel_within {F R} {z s : State} {a1 a2 a3} (hF : F &&& 0 = 0) (hR : R &&& 0x60000000000000000000000000000000000000000000000000000000000000000000000000000000000000000000000000 = 0x60000000000000000000000000000000000000000000000000000000000000000000000000000000000000000000000000) (h : Within F R z s) : Within F R z (State.calChannel s a1 a2 a3) := by
  unfold State.calChannel
  split <;> [exact h; exact (State.setNum_within (sub hF rfl) (sub hR rfl) (elem hR rfl) (State.setNum_within (sub hF rfl) (sub hR rfl) (elem hR rfl) h))]

theorem execSelfCalDone_within {F R} {s : State} {a0 a1} (hF : F &&& 0x1200012 = 0x1200012) (hR : R &&& 0x60700000000000000000000004000000000000000000000000000000000000000000000000000000000000000000000000 = 0x60700000000000000000000004000000000000000000000000000000000000000000000000000000000000000000000000) : Touched F R s (execSelfCalDone a0 a1 s) := by
  unfold execSelfCalDone
  exact .answer (sub hF rfl) (fun h1 => (.ite h1 (by extract_lets -merge -useContext -underBinder +onlyGivenNames v2; have h2 : Within F R s v2 := (by unfold v2; exact (State.each_within (sub hF rfl) (sub hR rfl) h1 (fun h3 => (State.calChannel_within (sub hF rfl) (sub hR rfl) h3)))); clear_value v2; exact (by extract_lets -merge -useContext -underBinder +onlyGivenNames v3; have h3 : Within F R s v3 := (by unfold v3; exact (State.calEnd_within (sub hF rfl) (sub hR rfl) h2)); clear_value v3; exact (.ite (State.startCal_within (sub hF rfl) (sub hR rfl) (State.setF_within (sub hF rfl) (sub hR rfl) (elem hR rfl) h3)) h3)))))

theorem execRefCalDone_within {F R} {s : State} {a0 a1} (hF : F &&& 0x3200012 = 0x3200012) (hR : R &&& 0x3702000800000000000000004000000000000000000000000000000000000000000000000000000000000000000000000 = 0x3702000800000000000000004000000000000000000000000000000000000000000000000000000000000000000000000) : Touched F R s (execRefCalDone a0 a1 s) := by
  unfold execRefCalDone
  exact .answer (sub hF rfl) (fun h1 => (.ite h1 (by extract_lets -merge -useContext -underBinder +onlyGivenNames v2; clear_value v2; exact (by extract_lets -merge -useContext -underBinder +onlyGivenNames v3; have h3 : Within F R s v3 := (by unfold v3; exact (State.setNum_within (sub hF rfl) (sub hR rfl) (elem hR rfl) h1)); clear_value v3; exact (by extract_lets -merge -useContext -underBinder +onlyGivenNames v4; have h4 : Within F R s v4 := (by unfold v4; exact (.ite (State.setF_within (sub hF rfl) (sub hR rfl) (elem hR rfl) (State.setCalibrated_within (sub hF rfl) (sub hR rfl) (State.setNum_within (sub hF rfl) (sub hR rfl) (elem hR rfl) h3))) (State.event_within (sub hF rfl) (sub hR rfl) (State.raise_within (sub hF rfl) (sub hR rfl) (elem hR rfl) (State.setF_within (sub hF rfl) (sub hR rfl) (elem hR rfl) (State.setCalibrated_within (sub hF rfl) (sub hR rfl) (State.setNum_within (sub hF rfl) (sub hR rfl) (elem hR rfl) h3))))))); clear_value v4; exact (by extract_lets -merge -useContext -underBinder +onlyGivenNames v5; have h5 : Within F R s v5 := (by unfold v5; exact (State.calEnd_within (sub hF rfl) (sub hR rfl) h4)); clear_value v5; exact (.ite (State.setF_within (sub hF rfl) (sub hR rfl) (elem hR rfl) h5) h5)))))))

theorem execPowerExitComplete_within {F R} {s : State} {a0} (hF : F &&& 0x3200216 = 0x3200216) (hR : R &&& 0x1800000000000000000000000000000000000000000000000000000000000000000000000000000000000000000 = 0x1800000000000000000000000000000000000000000000000000000000000000000000000000000000000000000) : Touched F R s (execPowerExitComplete a0 s) := by
  unfold execPowerExitComplete
  exact .answer (sub hF rfl) (fun h1 => (by split <;> [exact h1; exact (.ite h1 (by extract_lets -merge -useContext -underBinder +onlyGivenNames v2; clear_value v2; exact (by extract_lets -merge -useContext -underBinder +onlyGivenNames v3; have h3 : Within F R s v3 := (by unfold v3; exact (State.setPwrState_within (sub hF rfl) (sub hR rfl) (State.tick_within (sub hF rfl) (sub hR rfl) h1))); clear_value v3; exact (by extract_lets -merge -useContext -underBinder +onlyGivenNames u4_0 v4; have h4 : Within F R s v4 := (by unfold v4; exact (.chg 16777728 h3 (sub hF rfl) rfl (fun g hg => by cases g <;> first | rfl | exact absurd hg (by decide)))); clear_value v4; exact (by extract_lets -merge -useContext -underBinder +onlyGivenNames v5; have h5 : Within F R s v5 := (by unfold v5; exact (State.each_within (sub hF rfl) (sub hR rfl) h4 (fun h6 => (State.updPan_within (sub hF rfl) (sub hR rfl) h6)))); clear_value v5; exact (State.raise_within (sub hF rfl) (sub hR rfl) (elem hR rfl) h5))))))]))

theorem execHbmSelfRefreshExit_within {F R} {s : State} {a0} (hF : F &&& 0x1000012 = 0x1000012) (hR : R &&& 0 = 0) : Touched F R s (execHbmSelfRefreshExit a0 s) :=
  .answer (sub hF rfl) (fun h1 => (State.when_within (sub hF rfl) (sub hR rfl) h1 (fun h2 => (.pwr h2 (elem hF rfl)))))

theorem State.powerLevelEdge_within {F R} {z s : State} {a1} (hF : F &&& 0x1200002 = 0x1200002) (hR : R &&& 0x1800000000000000000000000000000000000000000000000000000000000000000000000000000000000000000 = 0x1800000000000000000000000000000000000000000000000000000000000000000000000000000000000000000) (h : Within F R z s) : Within F R z (State.powerLevelEdge s a1) := by
  unfold State.powerLevelEdge
  extract_lets -merge -useContext -underBinder +onlyGivenNames v1 v2 v3 v4 v5 v6
  clear_value v1 v2 v3 v4 v5 v6
  extract_lets -merge -useContext -underBinder +onlyGivenNames u7_0 v7
  have h7 : Within F R z v7 := (by unfold v7; exact (.pwr (State.setF_within (sub hF rfl) (sub hR rfl) (elem hR rfl) h) (elem hF rfl)))
  clear_value v7
  exact .ite h7 (State.raise_within (sub hF rfl) (sub hR rfl) (elem hR rfl) h7)

theorem State.thermLevelEdge_within {F R} {z s : State}  (hF : F &&& 0x1000000 = 0x1000000) (_hR : R &&& 0 = 0) (h : Within F R z s) : Within F R z (State.thermLevelEdge s) := by
  unfold State.thermLevelEdge
  extract_lets -merge -useContext -underBinder +onlyGivenNames v1 v2 v3 v4
  clear_value v1 v2 v3 v4
  exact .pwr h (elem hF rfl)

theorem State.showLevels_within {F R} {z s : State}  (hF : F &&& 0x200002 = 0x200002) (hR : R &&& 0x6000000000000000000000000000000000000000000000000000000000000000000000000000000000000000000000 = 0x6000000000000000000000000000000000000000000000000000000000000000000000000000000000000000000000) (h : Within F R z s) : Within F R z (State.showLevels s) := by
  unfold State.showLevels
  extract_lets -merge -useContext -underBinder +onlyGivenNames v1
  clear_value v1
  extract_lets -merge -useContext -underBinder +onlyGivenNames v2
  have h2 : Within F R z v2 := (by unfold v2; exact (State.setF_within (sub hF rfl) (sub hR rfl) (elem hR rfl) h))
  clear_value v2
  exact .ite h2 (State.raise_within (sub hF rfl) (sub hR rfl) (elem hR rfl) h2)

theorem State.powerEdge_within {F R} {z s : State} {a1 a2} (hF : F &&& 0x1200002 = 0x1200002) (hR : R &&& 0x26009800000000000000000000000000000000000000000000000000000000000000000000000000000000000000000 = 0x26009800000000000000000000000000000000000000000000000000000000000000000000000000000000000000000) (h : Within F R z s) : Within F R z (State.powerEdge s a1 a2) := by
  unfold State.powerEdge
  extract_lets -merge -useContext -underBinder +onlyGivenNames v1
  have h1 : Within F R z v1 := (by unfold v1; exact (State.when_within (sub hF rfl) (sub hR rfl) h (fun h2 => (State.showLevels_within (sub hF rfl) (sub hR rfl) (State.thermLevelEdge_within (sub hF rfl) (sub hR rfl) (State.powerLevelEdge_within (sub hF rfl) (sub hR rfl) h2))))))
  clear_value v1
  extract_lets -merge -useContext -underBinder +onlyGivenNames u2_0 u2_1 v2
  have h2 : Within F R z v2 := (by unfold v2; exact (.pwr (State.setF_within (sub hF rfl) (sub hR rfl) (elem hR rfl) h1) (elem hF rfl)))
  clear_value v2
  extract_lets -merge -useContext -underBinder +onlyGivenNames v3
  have h3 : Within F R z v3 := (by unfold v3; exact (State.when_within (sub hF rfl) (sub hR rfl) h2 (fun h4 => (State.setNum_within (sub hF rfl) (sub hR rfl) (elem hR rfl) h4))))
  clear_value v3
  exact State.when_within (sub hF rfl) (sub hR rfl) h3 (fun h4 => (State.bump_within (sub hF rfl) (sub hR rfl) (elem hR rfl) h4))

theorem State.rest_within {F R} {z s : State} {a1} (hF : F &&& 0x3200202 = 0x3200202) (hR : R &&& 0x9800000000000000000000000000000000000000000000000000000000000000000000000000000000000000000 = 0x9800000000000000000000000000000000000000000000000000000000000000000000000000000000000000000) (h : Within F R z s) : Within F R z (State.rest s a1) := by
  unfold State.rest
  extract_lets -merge -useContext -underBinder +onlyGivenNames v1
  clear_value v1
  extract_lets -merge -useContext -underBinder +onlyGivenNames u2_0 v2
  have h2 : Within F R z v2 := (by unfold v2; exact (.chg 16777728 h (sub hF rfl) rfl (fun g hg => by cases g <;> first | rfl | exact absurd hg (by decide))))
  clear_value v2
  exact State.raise_within (sub hF rfl) (sub hR rfl) (elem hR rfl) (State.setNum_within (sub hF rfl) (sub hR rfl) (elem hR rfl) (State.setPwrState_within (sub hF rfl) (sub hR rfl) h2))

theorem State.sleepGrant_within {F R} {z s : State}  (hF : F &&& 0x2b0a4a2 = 0x2b0a4a2) (hR : R &&& 0x8000000080000001000000200000000000000000001900020600041c00000000000400000000000000000000000000000000000002 = 0x8000000080000001000000200000000000000000001900020600041c00000000000400000000000000000000000000000000000002) (h : Within F R z s) : Within F R z (State.sleepGrant s) := by
  unfold State.sleepGrant
  extract_lets -merge -useContext -underBinder +onlyGivenNames v1
  have h1 : Within F R z v1 := (by unfold v1; exact (State.each_within (sub hF rfl) (sub hR rfl) (State.shutRecord_within (sub hF rfl) (sub hR rfl) h) (fun h2 => (State.linkDown_within (sub hF rfl) (sub hR rfl) h2))))
  clear_value v1
  extract_lets -merge -useContext -underBinder +onlyGivenNames v2
  have h2 : Within F R z v2 := (by unfold v2; exact (State.raise_within (sub hF rfl) (sub hR rfl) (elem hR rfl) (State.event_within (sub hF rfl) (sub hR rfl) (State.setF_within (sub hF rfl) (sub hR rfl) (elem hR rfl) h1))))
  clear_value v2
  exact .aon h2 (elem hF rfl)

theorem State.judgePower_within {F R} {z s : State}  (hF : F &&& 0x3b0a6a2 = 0x3b0a6a2) (hR : R &&& 0x8000000080000009c00000200000000000000000001900020600041c00000000000400000000000000000000000000000000000002 = 0x8000000080000009c00000200000000000000000001900020600041c00000000000400000000000000000000000000000000000002) (h : Within F R z s) : Within F R z (State.judgePower s) := by
  unfold State.judgePower
  exact .ite h (.ite (by extract_lets -merge -useContext -underBinder +onlyGivenNames v1; have h1 : Within F R z v1 := (by unfold v1; exact (State.setF_within (sub hF rfl) (sub hR rfl) (elem hR rfl) h)); clear_value v1; exact (by extract_lets -merge -useContext -underBinder +onlyGivenNames v2; clear_value v2; exact (.ite (State.raise_within (sub hF rfl) (sub hR rfl) (elem hR rfl) (State.pwrCode_within (sub hF rfl) (sub hR rfl) h1)) (.ite (State.sleepGrant_within (sub hF rfl) (sub hR rfl) h1) (.ite h1 (State.rest_within (sub hF rfl) (sub hR rfl) h1)))))) (.ite (by extract_lets -merge -useContext -underBinder +onlyGivenNames v1; clear_value v1; exact (.ite (State.rest_within (sub hF rfl) (sub hR rfl) h) (.pwr h (elem hF rfl)))) (.pwr h (elem hF rfl))))

/-! PowerUp -/

theorem State.cold_within {F R} {z s : State}  (hF : F &&& 0x3fffff72 = 0x3fffff72) (hR : R &&& 0xffffffffffffffffffffffffffffffffffffffffffffffffffffffffffffffffffffffffffffffffffffffffffffffffffffffffffffffffffffffffffffffff = 0xffffffffffffffffffffffffffffffffffffffffffffffffffffffffffffffffffffffffffffffffffffffffffffffffffffffffffffffffffffffffffffffff) (h : Within F R z s) : Within F R z (State.cold s) := by
  refine ⟨fun f hf => ?_, fun q hq _ _ => ?_⟩
  · have h1 := h.1 f hf
    cases f <;> first | exact h1 | (rw [elem hF rfl] at hf; exact Bool.noConfusion hf)
  · rw [allRegs_elem hR q] at hq; exact Bool.noConfusion hq

theorem execColdStart_within {F R} {s : State}  (hF : F &&& 0x3fffff72 = 0x3fffff72) (hR : R &&& 0xffffffffffffffffffffffffffffffffffffffffffffffffffffffffffffffffffffffffffffffffffffffffffffffffffffffffffffffffffffffffffffffff = 0xffffffffffffffffffffffffffffffffffffffffffffffffffffffffffffffffffffffffffffffffffffffffffffffffffffffffffffffffffffffffffffffff) : Touched F R s (execColdStart s) := by
  exact .next (State.cold_within hF hR (.refl s))

theorem State.cmpOut_within {F R} {z s : State} {a1 a2} (hF : F &&& 0 = 0) (hR : R &&& 0x80000000000000000000000000000000000000000000000000000000000000000000000000000000000000000000000000 = 0x80000000000000000000000000000000000000000000000000000000000000000000000000000000000000000000000000) (h : Within F R z s) : Within F R z (State.cmpOut s a1 a2) :=
  State.setF_within (sub hF rfl) (sub hR rfl) (elem hR rfl) h

theorem State.seqFail_within {F R} {z s : State}  (hF : F &&& 32 = 32) (_hR : R &&& 0 = 0) (h : Within F R z s) : Within F R z (State.seqFail s) := by
  unfold State.seqFail
  extract_lets -merge -useContext -underBinder +onlyGivenNames v1
  clear_value v1
  exact .aon h (elem hF rfl)

theorem execVioCheck_within {F R} {s : State} {a0 a1} (hF : F &&& 50 = 50) (hR : R &&& 0x80000000000000000000000000000000000000000000000000000000000000000000000000000000000000000000000000 = 0x80000000000000000000000000000000000000000000000000000000000000000000000000000000000000000000000000) : Touched F R s (execVioCheck a0 a1 s) := by
  unfold execVioCheck
  exact .answer (sub hF rfl) (fun h1 => (.ite h1 (by extract_lets -merge -useContext -underBinder +onlyGivenNames v2; clear_value v2; exact (by extract_lets -merge -useContext -underBinder +onlyGivenNames v3; have h3 : Within F R s v3 := (by unfold v3; exact (State.cmpOut_within (sub hF rfl) (sub hR rfl) h1)); clear_value v3; exact (.ite (.aon h3 (elem hF rfl)) (State.seqFail_within (sub hF rfl) (sub hR rfl) h3))))))

theorem execVcoreCheck_within {F R} {s : State} {a0 a1} (hF : F &&& 50 = 50) (hR : R &&& 0x80000000000000000000000000000000000000000000000000000000000000000000000000000000000000000000000000 = 0x80000000000000000000000000000000000000000000000000000000000000000000000000000000000000000000000000) : Touched F R s (execVcoreCheck a0 a1 s) := by
  unfold execVcoreCheck
  exact .answer (sub hF rfl) (fun h1 => (.ite h1 (by extract_lets -merge -useContext -underBinder +onlyGivenNames v2; clear_value v2; exact (by extract_lets -merge -useContext -underBinder +onlyGivenNames v3; have h3 : Within F R s v3 := (by unfold v3; exact (State.cmpOut_within (sub hF rfl) (sub hR rfl) h1)); clear_value v3; exact (.ite (.aon h3 (elem hF rfl)) (State.seqFail_within (sub hF rfl) (sub hR rfl) h3))))))

theorem execPowerSequenceRetry_within {F R} {s : State} {a0} (hF : F &&& 50 = 50) (hR : R &&& 0 = 0) : Touched F R s (execPowerSequenceRetry a0 s) :=
  .answer (sub hF rfl) (fun h1 => (State.when_within (sub hF rfl) (sub hR rfl) h1 (fun h2 => (.aon h2 (elem hF rfl)))))

theorem execBrownOut_within {F R} {s : State} {a0} (hF : F &&& 0x3fffff72 = 0x3fffff72) (hR : R &&& 0xffffffffffffffffffffffffffffffffffffffffffffffffffffffffffffffffffffffffffffffffffffffffffffffffffffffffffffffffffffffffffffffff = 0xffffffffffffffffffffffffffffffffffffffffffffffffffffffffffffffffffffffffffffffffffffffffffffffffffffffffffffffffffffffffffffffff) : Touched F R s (execBrownOut a0 s) := by
  unfold execBrownOut
  exact .answer (sub hF rfl) (fun h1 => (by extract_lets -merge -useContext -underBinder +onlyGivenNames v2; have h2 : Within F R s v2 := (by unfold v2; exact (State.cold_within (sub hF rfl) (sub hR rfl) h1)); clear_value v2; exact (.chg 50 h2 (sub hF rfl) rfl (fun g hg => by cases g <;> first | rfl | exact absurd hg (by decide)))))

theorem State.romRegs_within {F R} {z s : State}  (hF : F &&& 4 = 4) (hR : R &&& 0x2002070000000000000000000000000000000000000000000000000000000000000000 = 0x2002070000000000000000000000000000000000000000000000000000000000000000) (h : Within F R z s) : Within F R z (State.romRegs s) := by
  unfold State.romRegs
  extract_lets -merge -useContext -underBinder +onlyGivenNames v1
  clear_value v1
  exact State.tick_within (sub hF rfl) (sub hR rfl) (State.setNum_within (sub hF rfl) (sub hR rfl) (elem hR rfl) (State.setNum_within (sub hF rfl) (sub hR rfl) (elem hR rfl) (State.setNum_within (sub hF rfl) (sub hR rfl) (elem hR rfl) (State.setNum_within (sub hF rfl) (sub hR rfl) (elem hR rfl) (State.setNum_within (sub hF rfl) (sub hR rfl) (elem hR rfl) h)))))

theorem execHouseDieResetRelease_within {F R} {s : State} {a0 a1 a2} (hF : F &&& 118 = 118) (hR : R &&& 0x4002002070000000000000000000000000000000000000000000000000000000000000000 = 0x4002002070000000000000000000000000000000000000000000000000000000000000000) : Touched F R s (execHouseDieResetRelease a0 a1 a2 s) := by
  unfold execHouseDieResetRelease
  exact .answer (sub hF rfl) (fun h1 => (.ite h1 (by extract_lets -merge -useContext -underBinder +onlyGivenNames u2_0 v2; have h2 : Within F R s v2 := (by unfold v2; exact (.chg 96 h1 (sub hF rfl) rfl (fun g hg => by cases g <;> first | rfl | exact absurd hg (by decide)))); clear_value v2; exact (State.setF_within (sub hF rfl) (sub hR rfl) (elem hR rfl) (State.setF_within (sub hF rfl) (sub hR rfl) (elem hR rfl) (State.romRegs_within (sub hF rfl) (sub hR rfl) h2))))))

theorem State.setIdentity_within {F R} {z s : State} {a1 a2} (hF : F &&& 64 = 64) (hR : R &&& 0x64000000000000000000000000000000000000000000000000000000000000000000000 = 0x64000000000000000000000000000000000000000000000000000000000000000000000) (h : Within F R z s) : Within F R z (State.setIdentity s a1 a2) := by
  unfold State.setIdentity
  extract_lets -merge -useContext -underBinder +onlyGivenNames v1
  clear_value v1
  extract_lets -merge -useContext -underBinder +onlyGivenNames u2_0 v2
  have h2 : Within F R z v2 := (by unfold v2; exact (.boot h (elem hF rfl)))
  clear_value v2
  exact State.setF_within (sub hF rfl) (sub hR rfl) (elem hR rfl) (State.setNum_within (sub hF rfl) (sub hR rfl) (elem hR rfl) (State.setNum_within (sub hF rfl) (sub hR rfl) (elem hR rfl) (State.setNum_within (sub hF rfl) (sub hR rfl) (elem hR rfl) h2)))

theorem execIdentityDerived_within {F R} {s : State} {a0 a1 a2 a3 a4} (hF : F &&& 0x16a9c6d2 = 0x16a9c6d2) (hR : R &&& 0x8000000000000000000000000001040e4000480000000000000000000000000000040000000000000003000000000000000000 = 0x8000000000000000000000000001040e4000480000000000000000000000000000040000000000000003000000000000000000) : Touched F R s (execIdentityDerived a0 a1 a2 a3 a4 s) := by
  unfold execIdentityDerived
  exact .answer (sub hF rfl) (fun h1 => (.ite h1 (by extract_lets -merge -useContext -underBinder +onlyGivenNames v2; have h2 : Within F R s v2 := (by unfold v2; exact (State.setNum_within (sub hF rfl) (sub hR rfl) (elem hR rfl) (State.setF_within (sub hF rfl) (sub hR rfl) (elem hR rfl) h1))); clear_value v2; exact (.ite (State.setF_within (sub hF rfl) (sub hR rfl) (elem hR rfl) (State.setIdentity_within (sub hF rfl) (sub hR rfl) h2)) (State.enterSafe_within (sub hF rfl) (sub hR rfl) h2)))))

theorem State.stRegs_within {F R} {z s : State} {a1} (hF : F &&& 64 = 64) (hR : R &&& 0x43800000000000000000000000000000000000000000000000000000000000000000000000000 = 0x43800000000000000000000000000000000000000000000000000000000000000000000000000) (h : Within F R z s) : Within F R z (State.stRegs s a1) := by
  unfold State.stRegs
  extract_lets -merge -useContext -underBinder +onlyGivenNames u1_0 v1
  have h1 : Within F R z v1 := (by unfold v1; exact (.boot h (elem hF rfl)))
  clear_value v1
  extract_lets -merge -useContext -underBinder +onlyGivenNames v2
  have h2 : Within F R z v2 := (by unfold v2; exact (State.setNum_within (sub hF rfl) (sub hR rfl) (elem hR rfl) (State.setNum_within (sub hF rfl) (sub hR rfl) (elem hR rfl) h1)))
  clear_value v2
  extract_lets -merge -useContext -underBinder +onlyGivenNames v3
  have h3 : Within F R z v3 := (by unfold v3; exact (State.setNum_within (sub hF rfl) (sub hR rfl) (elem hR rfl) h2))
  clear_value v3
  exact State.each_within (sub hF rfl) (sub hR rfl) h3 (fun h4 => (State.setNum_within (sub hF rfl) (sub hR rfl) (elem hR rfl) h4))

theorem State.repair_within {F R} {z s : State} {a1} (hF : F &&& 512 = 512) (hR : R &&& 0 = 0) (h : Within F R z s) : Within F R z (State.repair s a1) :=
  State.each_within (sub hF rfl) (sub hR rfl) h (fun h1 => (State.updPan_within (sub hF rfl) (sub hR rfl) h1))

theorem execRomSelfTestDone_within {F R} {s : State} {a0 a1} (hF : F &&& 0x16a9c6d2 = 0x16a9c6d2) (hR : R &&& 0x800000000000000000000000043904000000480000000000000000000000000000040000000000000003000000000000000000 = 0x800000000000000000000000043904000000480000000000000000000000000000040000000000000003000000000000000000) : Touched F R s (execRomSelfTestDone a0 a1 s) := by
  unfold execRomSelfTestDone
  exact .answer (sub hF rfl) (fun h1 => (.ite h1 (by extract_lets -merge -useContext -underBinder +onlyGivenNames v2; clear_value v2; exact (by extract_lets -merge -useContext -underBinder +onlyGivenNames v3; have h3 : Within F R s v3 := (by unfold v3; exact (State.repair_within (sub hF rfl) (sub hR rfl) (State.stRegs_within (sub hF rfl) (sub hR rfl) h1))); clear_value v3; exact (.ite (State.enterSafe_within (sub hF rfl) (sub hR rfl) h3) (by extract_lets -merge -useContext -underBinder +onlyGivenNames v4; have h4 : Within F R s v4 := (by unfold v4; exact (State.setF_within (sub hF rfl) (sub hR rfl) (elem hR rfl) h3)); clear_value v4; exact (.ite (State.raise_within (sub hF rfl) (sub hR rfl) (elem hR rfl) (State.setF_within (sub hF rfl) (sub hR rfl) (elem hR rfl) h4)) h4)))))))

theorem State.fwpLoad_within {F R} {z s : State}  (hF : F &&& 0 = 0) (hR : R &&& 0xc000000000000000000000000000000000000000000000000000000000000000000000000 = 0xc000000000000000000000000000000000000000000000000000000000000000000000000) (h : Within F R z s) : Within F R z (State.fwpLoad s) :=
  State.when_within (sub hF rfl) (sub hR rfl) h (fun h1 => (State.setF_within (sub hF rfl) (sub hR rfl) (elem hR rfl) (State.setF_within (sub hF rfl) (sub hR rfl) (elem hR rfl) h1)))

theorem execFirmwareVerified_within {F R} {s : State} {a0 a1} (hF : F &&& 0x16a9c6d2 = 0x16a9c6d2) (hR : R &&& 0x80000000000000000000000000013c000000480000000000000000000000000000040000000000000003000000000000000000 = 0x80000000000000000000000000013c000000480000000000000000000000000000040000000000000003000000000000000000) : Touched F R s (execFirmwareVerified a0 a1 s) := by
  unfold execFirmwareVerified
  exact .answer (sub hF rfl) (fun h1 => (.ite h1 (by extract_lets -merge -useContext -underBinder +onlyGivenNames v2; clear_value v2; exact (by extract_lets -merge -useContext -underBinder +onlyGivenNames u3_0 v3; have h3 : Within F R s v3 := (by unfold v3; exact (State.setF_within (sub hF rfl) (sub hR rfl) (elem hR rfl) (.boot h1 (elem hF rfl)))); clear_value v3; exact (by extract_lets -merge -useContext -underBinder +onlyGivenNames v4; have h4 : Within F R s v4 := (by unfold v4; exact (State.setF_within (sub hF rfl) (sub hR rfl) (elem hR rfl) h3)); clear_value v4; exact (.ite (State.setF_within (sub hF rfl) (sub hR rfl) (elem hR rfl) (State.setF_within (sub hF rfl) (sub hR rfl) (elem hR rfl) (State.setNum_within (sub hF rfl) (sub hR rfl) (elem hR rfl) h4))) (State.enterSafe_within (sub hF rfl) (sub hR rfl) h4)))))))

theorem State.fwRegs_within {F R} {z s : State} {a1} (hF : F &&& 0 = 0) (hR : R &&& 0x4000000000010200000000000080000000000000000000080000000000000010000010000018800000000800000000000000000 = 0x4000000000010200000000000080000000000000000000080000000000000010000010000018800000000800000000000000000) (h : Within F R z s) : Within F R z (State.fwRegs s a1) := by
  have set : ∀ {t : State} {r : Reg} {v : Nat}, R.testBit r.ctorIdx = true → Within F R z t → Within F R z (t.setNum r v) :=
    fun e k => State.setNum_within (sub hF rfl) (sub hR rfl) e k
  unfold State.fwRegs
  extract_lets p caps s1 s2 s3
  have hc : ∀ e ∈ caps, R.testBit e.1.ctorIdx = true := fun e he => by
    have : e.1 ∈ [Reg.WGT_CAPS, .KVC_CAPS, .SRV_CAPS, .BPL_CAPS, .FAB_CAPS, .HLT_CAPS, .CNT_CAPS] := List.mem_map_of_mem (f := Prod.fst) he
    exact elem hR (memBit this rfl)
  exact set (elem hR rfl) (set (elem hR rfl) (set (elem hR rfl) (set (elem hR rfl)
    (Within.foldl_mem h (fun t x hx k => set (hc x hx) k)))))

theorem State.applyList_within {F R} {z s : State}  (hF : F &&& 0x801000 = 0x801000) (hR : R &&& 0 = 0) (h : Within F R z s) : Within F R z (State.applyList s) := by
  unfold State.applyList
  extract_lets -merge -useContext -underBinder +onlyGivenNames v1 v2 v3
  clear_value v1 v2 v3
  extract_lets -merge -useContext -underBinder +onlyGivenNames u4_0 v4
  have h4 : Within F R z v4 := (by unfold v4; exact (.chg 8392704 h (sub hF rfl) rfl (fun g hg => by cases g <;> first | rfl | exact absurd hg (by decide))))
  clear_value v4
  extract_lets -merge -useContext -underBinder +onlyGivenNames v5
  have h5 : Within F R z v5 := (by unfold v5; exact (State.each_within (sub hF rfl) (sub hR rfl) h4 (fun h6 => (State.updPhys_within (sub hF rfl) (sub hR rfl) h6))))
  clear_value v5
  extract_lets -merge -useContext -underBinder +onlyGivenNames v6
  clear_value v6
  exact State.each_within (sub hF rfl) (sub hR rfl) h5 (fun h7 => (by split <;> [exact (State.updPhys_within (sub hF rfl) (sub hR rfl) h7); exact (.hlt h7 (elem hF rfl))]))

theorem State.startTimer_within {F R} {z s : State}  (hF : F &&& 256 = 256) (hR : R &&& 256 = 256) (h : Within F R z s) : Within F R z (State.startTimer s) := by
  unfold State.startTimer
  exact .ite h (by extract_lets -merge -useContext -underBinder +onlyGivenNames v1; clear_value v1; exact (by extract_lets -merge -useContext -underBinder +onlyGivenNames v2; clear_value v2; exact (by extract_lets -merge -useContext -underBinder +onlyGivenNames v3; clear_value v3; exact (by extract_lets -merge -useContext -underBinder +onlyGivenNames v4; have h4 : Within F R z v4 := (by unfold v4; exact (.tide h (elem hF rfl))); clear_value v4; exact (.ite (State.setNum_within (sub hF rfl) (sub hR rfl) (elem hR rfl) h4) h4)))))

theorem State.tripRecord_within {F R} {z s : State}  (hF : F &&& 160 = 160) (_hR : R &&& 0 = 0) (h : Within F R z s) : Within F R z (State.tripRecord s) := by
  unfold State.tripRecord
  split <;> [exact h; exact (by extract_lets -merge -useContext -underBinder +onlyGivenNames u1_0 v1; clear_value v1; exact (.chg 160 h (sub hF rfl) rfl (fun g hg => by cases g <;> first | rfl | exact absurd hg (by decide))))]

theorem execFirmwareStarted_within {F R} {s : State} {a0 a1 a2 a3} (hF : F &&& 0x17a9d7f2 = 0x17a9d7f2) (hR : R &&& 0x48000003000102000000000000c3904000000480000000080000000000000010000050000018800000003800000000000000100 = 0x48000003000102000000000000c3904000000480000000080000000000000010000050000018800000003800000000000000100) : Touched F R s (execFirmwareStarted a0 a1 a2 a3 s) := by
  unfold execFirmwareStarted
  exact .answer (sub hF rfl) (fun h1 => (.ite h1 (by extract_lets -merge -useContext -underBinder +onlyGivenNames u2_0 u2_1 v2; have h2 : Within F R s v2 := (by unfold v2; exact (.chg 16777280 h1 (sub hF rfl) rfl (fun g hg => by cases g <;> first | rfl | exact absurd hg (by decide)))); clear_value v2; exact (by extract_lets -merge -useContext -underBinder +onlyGivenNames v3; have h3 : Within F R s v3 := (by unfold v3; exact (State.tripRecord_within (sub hF rfl) (sub hR rfl) (State.startTimer_within (sub hF rfl) (sub hR rfl) (State.applyList_within (sub hF rfl) (sub hR rfl) (State.fwRegs_within (sub hF rfl) (sub hR rfl) h2))))); clear_value v3; exact (by extract_lets -merge -useContext -underBinder +onlyGivenNames v4; clear_value v4; exact (by extract_lets -merge -useContext -underBinder +onlyGivenNames v5; have h5 : Within F R s v5 := (by unfold v5; exact (State.stRegs_within (sub hF rfl) (sub hR rfl) h3)); clear_value v5; exact (by extract_lets -merge -useContext -underBinder +onlyGivenNames v6; have h6 : Within F R s v6 := (by unfold v6; exact (.ite (.phys h5 (elem hF rfl)) h5)); clear_value v6; exact (by extract_lets -merge -useContext -underBinder +onlyGivenNames u7_0 v7; have h7 : Within F R s v7 := (by unfold v7; exact (.aon h6 (elem hF rfl))); clear_value v7; exact (.ite (State.enterSafe_within (sub hF rfl) (sub hR rfl) h7) (State.startCal_within (sub hF rfl) (sub hR rfl) (State.setF_within (sub hF rfl) (sub hR rfl) (elem hR rfl) h7)))))))))))

theorem execStartRakeDone_within {F R} {s : State} {a0 a1} (hF : F &&& 0x16a9c6d6 = 0x16a9c6d6) (hR : R &&& 0x800000000000000000000000043904000000480000000000000000000000000000040000000000000003000000000000000000 = 0x800000000000000000000000043904000000480000000000000000000000000000040000000000000003000000000000000000) : Touched F R s (execStartRakeDone a0 a1 s) := by
  unfold execStartRakeDone
  refine .answer (sub hF rfl) (fun h => .ite h ?_)
  extract_lets -merge -useContext -underBinder +onlyGivenNames id v p w
  have hw : Within F R s w := .pans (State.tick_within (sub hF rfl) (sub hR rfl) h) (elem hF rfl)
  clear_value w
  extract_lets -merge -useContext -underBinder +onlyGivenNames x
  exact .ite (State.setF_within (sub hF rfl) (sub hR rfl) (elem hR rfl) hw)
    (State.enterSafe_within (sub hF rfl) (sub hR rfl) (State.stRegs_within (sub hF rfl) (sub hR rfl) hw))

theorem execStartupPublish_within {F R} {s : State} {a0} (hF : F &&& 0x20218016 = 0x20218016) (hR : R &&& 0x1000000800000000000000000000000000000000000000000000000000000000000000001010000000000000000000000000000000000000 = 0x1000000800000000000000000000000000000000000000000000000000000000000000001010000000000000000000000000000000000000) : Touched F R s (execStartupPublish a0 s) := by
  unfold execStartupPublish
  exact .answer (sub hF rfl) (fun h1 => (State.when_within (sub hF rfl) (sub hR rfl) h1 (fun h2 => (by extract_lets -merge -useContext -underBinder +onlyGivenNames v3; clear_value v3; exact (State.admitAll_within (sub hF rfl) (sub hR rfl) (State.signalAll_within (sub hF rfl) (sub hR rfl) (State.each_within (sub hF rfl) (sub hR rfl) h2 (fun h4 => (State.publishQp_within (sub hF rfl) (sub hR rfl) h4)))))))))

theorem execHardwareTrip_within {F R} {s : State} {a0} (hF : F &&& 0x3fffff72 = 0x3fffff72) (hR : R &&& 0xffffffffffffffffffffffffffff80ffffffffffffffffffffffffffffffffffffffffffffffffffffffffffffffffffffffffffffffffffffffffffffffffff = 0xffffffffffffffffffffffffffff80ffffffffffffffffffffffffffffffffffffffffffffffffffffffffffffffffffffffffffffffffffffffffffffffffff) : Touched F R s (execHardwareTrip a0 s) := by
  unfold execHardwareTrip
  exact .answer (sub hF rfl) (fun h1 => (State.when_within (sub hF rfl) (sub hR rfl) h1 (fun h2 => (by extract_lets -merge -useContext -underBinder +onlyGivenNames v3; have h3 : Within F R s v3 := (by unfold v3; exact (State.setF_within (sub hF rfl) (sub hR rfl) (elem hR rfl) (State.setF_within (sub hF rfl) (sub hR rfl) (elem hR rfl) (State.cmpOut_within (sub hF rfl) (sub hR rfl) h2)))); clear_value v3; exact (by extract_lets -merge -useContext -underBinder +onlyGivenNames v4; clear_value v4; exact (by extract_lets -merge -useContext -underBinder +onlyGivenNames v5; have h5 : Within F R s v5 := (by unfold v5; exact (State.powerDown_within (sub hF rfl) (sub hR rfl) h3)); clear_value v5; exact (.aon h5 (elem hF rfl))))))))

theorem State.wakeUp_within {F R} {z s : State} {a1} (hF : F &&& 32 = 32) (hR : R &&& 0x80000000000000000000000000000000000000000000000000000000000000000000000000000000000000000000000000 = 0x80000000000000000000000000000000000000000000000000000000000000000000000000000000000000000000000000) (h : Within F R z s) : Within F R z (State.wakeUp s a1) := by
  unfold State.wakeUp
  exact .ite (by extract_lets -merge -useContext -underBinder +onlyGivenNames v1; have h1 : Within F R z v1 := (by unfold v1; exact (State.setF_within (sub hF rfl) (sub hR rfl) (elem hR rfl) h)); clear_value v1; exact (.aon h1 (elem hF rfl))) (.ite (by extract_lets -merge -useContext -underBinder +onlyGivenNames v1; have h1 : Within F R z v1 := (by unfold v1; exact (State.setF_within (sub hF rfl) (sub hR rfl) (elem hR rfl) h)); clear_value v1; exact (.aon h1 (elem hF rfl))) h)

theorem execTimerWake_within {F R} {s : State} {a0} (hF : F &&& 50 = 50) (hR : R &&& 0x80000000000000000000000000000000000000000000000000000000000000000000000000000000000000000000000000 = 0x80000000000000000000000000000000000000000000000000000000000000000000000000000000000000000000000000) : Touched F R s (execTimerWake a0 s) :=
  .answer (sub hF rfl) (fun h1 => (State.when_within (sub hF rfl) (sub hR rfl) h1 (fun h2 => (State.wakeUp_within (sub hF rfl) (sub hR rfl) h2))))

theorem execLinkPresenceWake_within {F R} {s : State} {a0} (hF : F &&& 50 = 50) (hR : R &&& 0x80000000000000000000000000000000000000000000000000000000000000000000000000000000000000000000000000 = 0x80000000000000000000000000000000000000000000000000000000000000000000000000000000000000000000000000) : Touched F R s (execLinkPresenceWake a0 s) :=
  .answer (sub hF rfl) (fun h1 => (State.when_within (sub hF rfl) (sub hR rfl) h1 (fun h2 => (State.when_within (sub hF rfl) (sub hR rfl) (State.cmpOut_within (sub hF rfl) (sub hR rfl) h2) (fun h3 => (State.wakeUp_within (sub hF rfl) (sub hR rfl) h3))))))

theorem execWakeIn_within {F R} {s : State} {a0 a1} (hF : F &&& 50 = 50) (hR : R &&& 0x80000000000000000000000000000000000000000000000000000000000000000000000000000000000000000000000000 = 0x80000000000000000000000000000000000000000000000000000000000000000000000000000000000000000000000000) : Touched F R s (execWakeIn a0 a1 s) :=
  .answer (sub hF rfl) (fun h1 => (State.when_within (sub hF rfl) (sub hR rfl) (State.cmpOut_within (sub hF rfl) (sub hR rfl) h1) (fun h2 => (State.wakeUp_within (sub hF rfl) (sub hR rfl) h2))))

theorem execDeepSleepPowerOff_within {F R} {s : State} {a0} (hF : F &&& 0x3fffff72 = 0x3fffff72) (hR : R &&& 0xffffffffffffffffffffffffffff907fffffffffffffffffffffffffffffffffffffffffffffffffffffffffffffffffffffffffffffffffffffffffffffffff = 0xffffffffffffffffffffffffffff907fffffffffffffffffffffffffffffffffffffffffffffffffffffffffffffffffffffffffffffffffffffffffffffffff) : Touched F R s (execDeepSleepPowerOff a0 s) :=
  .answer (sub hF rfl) (fun h1 => (State.when_within (sub hF rfl) (sub hR rfl) h1 (fun h2 => (State.powerDown_within (sub hF rfl) (sub hR rfl) (State.bump_within (sub hF rfl) (sub hR rfl) (elem hR rfl) h2)))))

theorem State.clearLatches_within {F R} {z s : State}  (hF : F &&& 32 = 32) (hR : R &&& 0x80000000000000000000000000000000000000000000000000000000000000000000000000000000000000000000000000 = 0x80000000000000000000000000000000000000000000000000000000000000000000000000000000000000000000000000) (h : Within F R z s) : Within F R z (State.clearLatches s) := by
  unfold State.clearLatches
  extract_lets -merge -useContext -underBinder +onlyGivenNames v1
  have h1 : Within F R z v1 := (by unfold v1; exact (State.setF_within (sub hF rfl) (sub hR rfl) (elem hR rfl) h))
  clear_value v1
  exact .aon h1 (elem hF rfl)

/-! Resets -/

theorem State.resetRegs_within {F R} {z s : State} {a1} (hF : F &&& 0 = 0) (hR : R &&& 0x19800140000001c00000c0c03740000a000037d003c0318fb1c0000006000fc00000000e193200027c0800016606023f9900000000000000c000 = 0x19800140000001c00000c0c03740000a000037d003c0318fb1c0000006000fc00000000e193200027c0800016606023f9900000000000000c000) (h : Within F R z s) : Within F R z (State.resetRegs s a1) := by
  unfold State.resetRegs
  extract_lets l
  have hl : ∀ r ∈ l, Reg.resets r = true ∧ (blocksOfFn 0).contains r.info.block = true := fun r hr => by
    obtain ⟨b, hb, hr⟩ := List.mem_flatMap.mp hr
    refine ⟨(List.mem_filter.mp hr).2, ?_⟩
    have hm := (List.mem_filter.mp hr).1
    have hb' : (blocksOfFn 0).contains b = true := by
      unfold blocksOfFn at hb
      split at hb
      · exact List.contains_iff_mem.mpr hb
      · simp only [List.mem_cons, List.not_mem_nil, or_false] at hb
        rcases hb with rfl | rfl | rfl <;> rfl
    rw [RegBlock.regs_block hm]; exact hb'
  refine Within.foldl_mem h (fun t r hr k => State.each_within (sub hF rfl) (sub hR rfl) k (fun k2 =>
    State.setNum_within (sub hF rfl) (sub hR rfl) (elem hR ?_) k2))
  have := hl r hr
  revert this
  cases r <;> first | exact fun _ => rfl | exact fun e => absurd e (by decide)

theorem State.resetCounters_within {F R} {z s : State} {a1} (hF : F &&& 0 = 0) (hR : R &&& 0x1ff80000000000000000000000000000000000000000000c00000000000000000000000000fff0000000000000000000000000000000000000 = 0x1ff80000000000000000000000000000000000000000000c00000000000000000000000000fff0000000000000000000000000000000000000) (h : Within F R z s) : Within F R z (State.resetCounters s a1) := by
  have set : ∀ {t : State} {r : Reg} {v u i : Nat}, R.testBit r.ctorIdx = true → Within F R z t → Within F R z (t.setNum r v u i) :=
    fun e k => State.setNum_within (sub hF rfl) (sub hR rfl) e k
  unfold State.resetCounters
  extract_lets l s1
  exact Within.foldl_mem (Within.foldl_mem h (fun t r hr k => set (elem hR (memBit hr rfl)) k))
    (fun t e he k => set (elem hR (memBit (List.mem_map_of_mem (f := Prod.fst) he) rfl)) k)

theorem State.zeroShare_within {F R} {z s : State} {a1} (hF : F &&& 0x2400 = 0x2400) (hR : R &&& 0x41e00000000000000000000000000000000000000000000000000 = 0x41e00000000000000000000000000000000000000000000000000) (h : Within F R z s) : Within F R z (State.zeroShare s a1) := by
  unfold State.zeroShare
  extract_lets -merge -useContext -underBinder +onlyGivenNames v1 v2
  clear_value v1 v2
  exact State.each_within (sub hF rfl) (sub hR rfl) h (fun h3 => (State.when_within (sub hF rfl) (sub hR rfl) h3 (fun h4 => (State.writeWord_within (sub hF rfl) (sub hR rfl) h4))))

theorem State.freeQp_within {F R} {z s : State} {a1} (hF : F &&& 0x18000 = 0x18000) (hR : R &&& 0 = 0) (h : Within F R z s) : Within F R z (State.freeQp s a1) := by
  unfold State.freeQp
  extract_lets -merge -useContext -underBinder +onlyGivenNames v1
  have h1 : Within F R z v1 := (by unfold v1; exact (by split <;> [exact h; exact (State.dropPages_within (sub hF rfl) (sub hR rfl) h)]))
  clear_value v1
  extract_lets -merge -useContext -underBinder +onlyGivenNames v2
  have h2 : Within F R z v2 := (by unfold v2; exact (State.updQp_within (sub hF rfl) (sub hR rfl) h1))
  clear_value v2
  exact .srv h2 (elem hF rfl)

theorem State.fnReset_within {F R} {z s : State} {a1} (hF : F &&& 0x21a440 = 0x21a440) (hR : R &&& 0x19800140000001c00000c0c03740000a000037d003c0318fb1c0000006000fc41e00000e193200027c0800016606023f9900000000000000c000 = 0x19800140000001c00000c0c03740000a000037d003c0318fb1c0000006000fc41e00000e193200027c0800016606023f9900000000000000c000) (h : Within F R z s) : Within F R z (State.fnReset s a1) := by
  unfold State.fnReset
  extract_lets -merge -useContext -underBinder +onlyGivenNames v1
  clear_value v1
  extract_lets -merge -useContext -underBinder +onlyGivenNames v2
  have h2 : Within F R z v2 := (by unfold v2; exact (State.zeroShare_within (sub hF rfl) (sub hR rfl) (State.each_within (sub hF rfl) (sub hR rfl) h (fun h3 => (State.freeQp_within (sub hF rfl) (sub hR rfl) h3)))))
  clear_value v2
  extract_lets -merge -useContext -underBinder +onlyGivenNames v3 u4_0 v4 u5_0 v5
  clear_value v3 v4 v5
  exact State.resetRegs_within (sub hF rfl) (sub hR rfl) (State.setLatch_within (sub hF rfl) (sub hR rfl) (.chg 2097216 h2 (sub hF rfl) rfl (fun g hg => by cases g <;> first | rfl | exact absurd hg (by decide))))

theorem State.resetAll_within {F R} {z s : State}  (hF : F &&& 0x1239e442 = 0x1239e442) (hR : R &&& 0x19800140008001c00000c0c03740000a000037d003c0318fb1c0000006000fc41e00000e193600027c0800016606023f9b00000000000000c000 = 0x19800140008001c00000c0c03740000a000037d003c0318fb1c0000006000fc41e00000e193600027c0800016606023f9b00000000000000c000) (h : Within F R z s) : Within F R z (State.resetAll s) := by
  unfold State.resetAll
  exact .ite (by extract_lets -merge -useContext -underBinder +onlyGivenNames v1; have h1 : Within F R z v1 := (by unfold v1; exact (State.each_within (sub hF rfl) (sub hR rfl) h (fun h2 => (State.fnReset_within (sub hF rfl) (sub hR rfl) h2)))); clear_value v1; exact (State.failPlan_within (sub hF rfl) (sub hR rfl) (State.failLoad_within (sub hF rfl) (sub hR rfl) (.hif h1 (elem hF rfl))))) h

theorem execPerstAssert_within {F R} {s : State} {a0} (hF : F &&& 0x1239e472 = 0x1239e472) (hR : R &&& 0x19800140008001c00080c0c03740000a000037d003c0318fb1c0000006000fc41e00000e193600027c0800016606023f9b00000000000000c000 = 0x19800140008001c00080c0c03740000a000037d003c0318fb1c0000006000fc41e00000e193600027c0800016606023f9b00000000000000c000) : Touched F R s (execPerstAssert a0 s) := by
  unfold execPerstAssert
  exact .answer (sub hF rfl) (fun h1 => (by extract_lets -merge -useContext -underBinder +onlyGivenNames v2; have h2 : Within F R s v2 := (by unfold v2; exact (State.cmpOut_within (sub hF rfl) (sub hR rfl) h1)); clear_value v2; exact (State.resetAll_within (sub hF rfl) (sub hR rfl) (.aon h2 (elem hF rfl)))))

theorem execPerstDeassert_within {F R} {s : State} {a0 a1} (hF : F &&& 50 = 50) (hR : R &&& 0x2080000000000000000000000000000000000000000000000000000000000000000000000000000000000000000000000000 = 0x2080000000000000000000000000000000000000000000000000000000000000000000000000000000000000000000000000) : Touched F R s (execPerstDeassert a0 a1 s) := by
  unfold execPerstDeassert
  exact .answer (sub hF rfl) (fun h1 => (by extract_lets -merge -useContext -underBinder +onlyGivenNames v2; clear_value v2; exact (by extract_lets -merge -useContext -underBinder +onlyGivenNames v3; clear_value v3; exact (by extract_lets -merge -useContext -underBinder +onlyGivenNames v4; have h4 : Within F R s v4 := (by unfold v4; exact (State.cmpOut_within (sub hF rfl) (sub hR rfl) h1)); clear_value v4; exact (by extract_lets -merge -useContext -underBinder +onlyGivenNames u5_0 v5; have h5 : Within F R s v5 := (by unfold v5; exact (.aon h4 (elem hF rfl))); clear_value v5; exact (.ite h5 (.ite (State.wakeUp_within (sub hF rfl) (sub hR rfl) h5) (.ite (by extract_lets -merge -useContext -underBinder +onlyGivenNames v6; clear_value v6; exact (by extract_lets -merge -useContext -underBinder +onlyGivenNames v7; have h7 : Within F R s v7 := (by unfold v7; exact (State.setF_within (sub hF rfl) (sub hR rfl) (elem hR rfl) h5)); clear_value v7; exact (.ite (by extract_lets -merge -useContext -underBinder +onlyGivenNames v8; have h8 : Within F R s v8 := (by unfold v8; exact (State.setF_within (sub hF rfl) (sub hR rfl) (elem hR rfl) h7)); clear_value v8; exact (.aon h8 (elem hF rfl))) (State.bump_within (sub hF rfl) (sub hR rfl) (elem hR rfl) h7)))) h5))))))))

theorem execHotReset_within {F R} {s : State} {a0} (hF : F &&& 0x1239e452 = 0x1239e452) (hR : R &&& 0x19800140008001c00000c0c03740000a000037d003c0318fb1c0000006000fc41e00000e193600027c0800016606023f9b00000000000000c000 = 0x19800140008001c00000c0c03740000a000037d003c0318fb1c0000006000fc41e00000e193600027c0800016606023f9b00000000000000c000) : Touched F R s (execHotReset a0 s) :=
  .answer (sub hF rfl) (fun h1 => (State.resetAll_within (sub hF rfl) (sub hR rfl) h1))

theorem execPcieLinkDisable_within {F R} {s : State} {a0} (hF : F &&& 0x1239e452 = 0x1239e452) (hR : R &&& 0x19800140008001c00000c0c03740000a000037d003c0318fb1c0000006000fc41e00000e193600027c0800016606023f9b00000000000000c000 = 0x19800140008001c00000c0c03740000a000037d003c0318fb1c0000006000fc41e00000e193600027c0800016606023f9b00000000000000c000) : Touched F R s (execPcieLinkDisable a0 s) :=
  .answer (sub hF rfl) (fun h1 => (State.resetAll_within (sub hF rfl) (sub hR rfl) h1))

theorem execPcieLinkDown_within {F R} {s : State} {a0} (hF : F &&& 0x1239e452 = 0x1239e452) (hR : R &&& 0x19800140008001c00000c0c03740000a000037d003c0318fb1c0000006000fc41e00000e193600027c0800016606023f9b00000000000000c000 = 0x19800140008001c00000c0c03740000a000037d003c0318fb1c0000006000fc41e00000e193600027c0800016606023f9b00000000000000c000) : Touched F R s (execPcieLinkDown a0 s) :=
  .answer (sub hF rfl) (fun h1 => (State.resetAll_within (sub hF rfl) (sub hR rfl) h1))

theorem execPfFlr_within {F R} {s : State} {a0} (hF : F &&& 0x1239e452 = 0x1239e452) (hR : R &&& 0x19800140008001c00000c0c03740000a000037d003c0318fb1c0000006000fc41e00000e193600027c0800016606023f9b00000000000000c000 = 0x19800140008001c00000c0c03740000a000037d003c0318fb1c0000006000fc41e00000e193600027c0800016606023f9b00000000000000c000) : Touched F R s (execPfFlr a0 s) :=
  .answer (sub hF rfl) (fun h1 => (State.resetAll_within (sub hF rfl) (sub hR rfl) h1))

theorem execVfFlr_within {F R} {s : State} {a0 a1} (hF : F &&& 0x21a452 = 0x21a452) (hR : R &&& 0x199ff940000001c00000c0c03740000a000037d003c0318fbdc0000006000fc41e00000e1932fff27c0800016606023f9900000000000000c000 = 0x199ff940000001c00000c0c03740000a000037d003c0318fbdc0000006000fc41e00000e1932fff27c0800016606023f9900000000000000c000) : Touched F R s (execVfFlr a0 a1 s) :=
  .answer (sub hF rfl) (fun h1 => (State.when_within (sub hF rfl) (sub hR rfl) h1 (fun h2 => (State.resetCounters_within (sub hF rfl) (sub hR rfl) (State.fnReset_within (sub hF rfl) (sub hR rfl) h2)))))

theorem execVfEnable_within {F R} {s : State} {a0 a1} (hF : F &&& 0x21a452 = 0x21a452) (hR : R &&& 0x199ff940000001c00000c0c03740000a000037d003c0318fbdc0000006000fc41e00000e1932fff27c0800016606023f9900000000000000c000 = 0x199ff940000001c00000c0c03740000a000037d003c0318fbdc0000006000fc41e00000e1932fff27c0800016606023f9900000000000000c000) : Touched F R s (execVfEnable a0 a1 s) := by
  unfold execVfEnable
  exact .answer (sub hF rfl) (fun h1 => (State.when_within (sub hF rfl) (sub hR rfl) h1 (fun h2 => (by extract_lets -merge -useContext -underBinder +onlyGivenNames v3; clear_value v3; exact (by extract_lets -merge -useContext -underBinder +onlyGivenNames v4; have h4 : Within F R s v4 := (by unfold v4; exact (State.each_within (sub hF rfl) (sub hR rfl) h2 (fun h5 => (State.resetCounters_within (sub hF rfl) (sub hR rfl) (State.fnReset_within (sub hF rfl) (sub hR rfl) h5))))); clear_value v4; exact (.hif h4 (elem hF rfl)))))))

/-! Firmware -/

theorem State.stopCluster_within {F R} {z s : State} {a1} (hF : F &&& 0x2a84a82 = 0x2a84a82) (hR : R &&& 0x800000000000000000000000440000000000000000000000000000008000000000000000000000000000000000000000000000 = 0x800000000000000000000000440000000000000000000000000000008000000000000000000000000000000000000000000000) (h : Within F R z s) : Within F R z (State.stopCluster s a1) := by
  unfold State.stopCluster
  extract_lets -merge -useContext -underBinder +onlyGivenNames v1
  have h1 : Within F R z v1 := (by unfold v1; exact (.clusters h (elem hF rfl)))
  clear_value v1
  extract_lets -merge -useContext -underBinder +onlyGivenNames v2
  have h2 : Within F R z v2 := (by unfold v2; exact (State.setF_within (sub hF rfl) (sub hR rfl) (elem hR rfl) h1))
  clear_value v2
  exact State.each_within (sub hF rfl) (sub hR rfl) h2 (fun h3 => (State.degrade_within (sub hF rfl) (sub hR rfl) h3))

theorem State.restartEffect_within {F R} {z s : State} {a1} (hF : F &&& 0x12704002 = 0x12704002) (hR : R &&& 0x8000000000000000000000000000000000008000000000000000000000000000000000000000000002000003000000000000000000 = 0x8000000000000000000000000000000000008000000000000000000000000000000000000000000002000003000000000000000000) (h : Within F R z s) : Within F R z (State.restartEffect s a1) := by
  unfold State.restartEffect
  split <;> [exact (by extract_lets -merge -useContext -underBinder +onlyGivenNames v1; clear_value v1; exact (by extract_lets -merge -useContext -underBinder +onlyGivenNames u2_0 v2; have h2 : Within F R z v2 := (by unfold v2; exact (.sec h (elem hF rfl))); clear_value v2; exact (State.failLoad_within (sub hF rfl) (sub hR rfl) (State.when_within (sub hF rfl) (sub hR rfl) h2 (fun h3 => (State.raise_within (sub hF rfl) (sub hR rfl) (elem hR rfl) h3)))))); exact h]

theorem State.restartProc_within {F R} {z s : State} {a1 a2} (hF : F &&& 0x16f9ce82 = 0x16f9ce82) (hR : R &&& 0x800080000000000000000000000047c10c008000480000000000000000008000000000040000000002000003000000000000000000 = 0x800080000000000000000000000047c10c008000480000000000000000008000000000040000000002000003000000000000000000) (h : Within F R z s) : Within F R z (State.restartProc s a1 a2) := by
  unfold State.restartProc
  exact .ite h (by extract_lets -merge -useContext -underBinder +onlyGivenNames u1_0 v1; have h1 : Within F R z v1 := (by unfold v1; exact (.hif h (elem hF rfl))); clear_value v1; exact (by extract_lets -merge -useContext -underBinder +onlyGivenNames v2; clear_value v2; exact (by extract_lets -merge -useContext -underBinder +onlyGivenNames v3; have h3 : Within F R z v3 := (by unfold v3; exact (State.event_within (sub hF rfl) (sub hR rfl) (State.raise_within (sub hF rfl) (sub hR rfl) (elem hR rfl) (State.bump_within (sub hF rfl) (sub hR rfl) (by unfold Sys2Proof.Proc.counter; split <;> exact (elem hR rfl)) h1)))); clear_value v3; exact (by extract_lets -merge -useContext -underBinder +onlyGivenNames v4; have h4 : Within F R z v4 := (by unfold v4; exact (State.restartEffect_within (sub hF rfl) (sub hR rfl) h3)); clear_value v4; exact (by split <;> [exact (.ite (State.setF_within (sub hF rfl) (sub hR rfl) (elem hR rfl) (State.stopCluster_within (sub hF rfl) (sub hR rfl) h4)) (.hif h4 (elem hF rfl))); exact (by extract_lets -merge -useContext -underBinder +onlyGivenNames u5_0 v5; have h5 : Within F R z v5 := (by unfold v5; exact (.hif h4 (elem hF rfl))); clear_value v5; exact (by extract_lets -merge -useContext -underBinder +onlyGivenNames v6; have h6 : Within F R z v6 := (by unfold v6; exact (State.each_within (sub hF rfl) (sub hR rfl) h5 (fun h7 => (State.raise_within (sub hF rfl) (sub hR rfl) (elem hR rfl) h7)))); clear_value v6; exact (.ite (State.enterSafe_within (sub hF rfl) (sub hR rfl) h6) h6)))])))))

theorem execWatchdogExpiry_within {F R} {s : State} {a0 a1} (hF : F &&& 0x16f9ce92 = 0x16f9ce92) (hR : R &&& 0x800080000000000000000000000047c10c008000480000000000000000008000000000040000000002000003000000000000000000 = 0x800080000000000000000000000047c10c008000480000000000000000008000000000040000000002000003000000000000000000) : Touched F R s (execWatchdogExpiry a0 a1 s) :=
  .answer (sub hF rfl) (fun h1 => (State.when_within (sub hF rfl) (sub hR rfl) h1 (fun h2 => (State.restartProc_within (sub hF rfl) (sub hR rfl) (State.wfgTrigger_within (sub hF rfl) (sub hR rfl) h2)))))

theorem State.restartRequest_within {F R} {z s : State}  (hF : F &&& 0x16f9ce82 = 0x16f9ce82) (hR : R &&& 0x800080000000000000000000000047c10c008000480000000000000000008000000000040000000002000003000000000000000000 = 0x800080000000000000000000000047c10c008000480000000000000000008000000000040000000002000003000000000000000000) (h : Within F R z s) : Within F R z (State.restartRequest s) := by
  unfold State.restartRequest
  extract_lets -merge -useContext -underBinder +onlyGivenNames v1
  clear_value v1
  exact .ite (State.restartProc_within (sub hF rfl) (sub hR rfl) (State.setF_within (sub hF rfl) (sub hR rfl) (elem hR rfl) h)) h

theorem State.commitSvn_within {F R} {z s : State}  (hF : F &&& 0x200082 = 0x200082) (hR : R &&& 0x100000000000000000000000000000000000000000000000000000000000000000000000000 = 0x100000000000000000000000000000000000000000000000000000000000000000000000000) (h : Within F R z s) : Within F R z (State.commitSvn s) :=
  State.when_within (sub hF rfl) (sub hR rfl) h (fun h1 => (State.raise_within (sub hF rfl) (sub hR rfl) (elem hR rfl) (.mram h1 (elem hF rfl))))

theorem State.restartDevice_within {F R} {z s : State} {a1} (hF : F &&& 0x13a9c642 = 0x13a9c642) (hR : R &&& 0x30000080000000000000000c000000480000000000000000000000000000040000000000000003000000000000000000 = 0x30000080000000000000000c000000480000000000000000000000000000040000000000000003000000000000000000) (h : Within F R z s) : Within F R z (State.restartDevice s a1) := by
  unfold State.restartDevice
  extract_lets -merge -useContext -underBinder +onlyGivenNames v1
  have h1 : Within F R z v1 := (by unfold v1; exact (State.keepAdmin_within (sub hF rfl) (sub hR rfl) (State.closeAll_within (sub hF rfl) (sub hR rfl) h)))
  clear_value v1
  extract_lets -merge -useContext -underBinder +onlyGivenNames u2_0 v2 u3_0 v3
  clear_value v2 v3
  extract_lets -merge -useContext -underBinder +onlyGivenNames u4_0 v4
  have h4 : Within F R z v4 := (by unfold v4; exact (.chg 18874432 h1 (sub hF rfl) rfl (fun g hg => by cases g <;> first | rfl | exact absurd hg (by decide))))
  clear_value v4
  extract_lets -merge -useContext -underBinder +onlyGivenNames v5
  have h5 : Within F R z v5 := (by unfold v5; exact (State.setF_within (sub hF rfl) (sub hR rfl) (elem hR rfl) (State.setF_within (sub hF rfl) (sub hR rfl) (elem hR rfl) (State.setF_within (sub hF rfl) (sub hR rfl) (elem hR rfl) h4))))
  clear_value v5
  exact State.setDevState_within (sub hF rfl) (sub hR rfl) (State.setF_within (sub hF rfl) (sub hR rfl) (elem hR rfl) (State.setF_within (sub hF rfl) (sub hR rfl) (elem hR rfl) (State.setF_within (sub hF rfl) (sub hR rfl) (elem hR rfl) (State.setF_within (sub hF rfl) (sub hR rfl) (elem hR rfl) h5))))

theorem State.retireFailed_within {F R} {z s : State}  (hF : F &&& 0x200086 = 0x200086) (hR : R &&& 0x400000000000000000000000000000000000000000000000000000000000000000000000000000 = 0x400000000000000000000000000000000000000000000000000000000000000000000000000000) (h : Within F R z s) : Within F R z (State.retireFailed s) := by
  unfold State.retireFailed
  extract_lets -merge -useContext -underBinder +onlyGivenNames v1
  clear_value v1
  extract_lets -merge -useContext -underBinder +onlyGivenNames v2
  have h2 : ∀ {x0} {x1} {t : State}, Within F R z t → Within F R z (v2 x0 x1 t) := (by intros; rename_i h0; unfold v2; exact (fun h3 => (.ite h3 (State.listRetired_within (sub hF rfl) (sub hR rfl) (State.tick_within (sub hF rfl) (sub hR rfl) h3)))) h0)
  clear_value v2
  extract_lets -merge -useContext -underBinder +onlyGivenNames v3
  have h3 : Within F R z v3 := (by unfold v3; exact (State.each_within (sub hF rfl) (sub hR rfl) h (fun h4 => (h2 h4))))
  clear_value v3
  exact State.each_within (sub hF rfl) (sub hR rfl) h3 (fun h4 => (h2 h4))

theorem State.internal_within {F R} {z s : State} {a1 a2} (hF : F &&& 0x2008000 = 0x2008000) (hR : R &&& 0 = 0) (h : Within F R z s) : Within F R z (State.internal s a1 a2) :=
  State.post_within (sub hF rfl) (sub hR rfl) (State.event_within (sub hF rfl) (sub hR rfl) h)

theorem State.fwRecord_within {F R} {z s : State} {a1 a2 a3 a4} (hF : F &&& 0x8000 = 0x8000) (hR : R &&& 0 = 0) (h : Within F R z s) : Within F R z (State.fwRecord s a1 a2 a3 a4) :=
  State.when_within (sub hF rfl) (sub hR rfl) h (fun h1 => (State.post_within (sub hF rfl) (sub hR rfl) h1))

theorem State.runFw_within {F R} {z s : State} {a1 a2 a3} (hF : F &&& 0x13a9c6c6 = 0x13a9c6c6) (hR : R &&& 0x80000040000000030000080000000000044380c000000480000000000000000000000000000040000000000000003000000000000000000 = 0x80000040000000030000080000000000044380c000000480000000000000000000000000000040000000000000003000000000000000000) (h : Within F R z s) : Within F R z (State.runFw s a1 a2 a3) := by
  unfold State.runFw
  split <;> [exact (by extract_lets -merge -useContext -underBinder +onlyGivenNames v1; clear_value v1; exact (by extract_lets -merge -useContext -underBinder +onlyGivenNames v2; have h2 : Within F R z v2 := (by unfold v2; exact (State.setF_within (sub hF rfl) (sub hR rfl) (elem hR rfl) (State.dmaRd_within (sub hF rfl) (sub hR rfl) h))); clear_value v2; exact (.ite (State.fwRecord_within (sub hF rfl) (sub hR rfl) h2) (by extract_lets -merge -useContext -underBinder +onlyGivenNames v3; have h3 : Within F R z v3 := (by unfold v3; exact (State.setF_within (sub hF rfl) (sub hR rfl) (elem hR rfl) h2)); clear_value v3; exact (.boot h3 (elem hF rfl)))))); exact (.ite (State.fwRecord_within (sub hF rfl) (sub hR rfl) (State.stRegs_within (sub hF rfl) (sub hR rfl) h)) (State.internal_within (sub hF rfl) (sub hR rfl) h)); exact (State.fwRecord_within (sub hF rfl) (sub hR rfl) (State.restartDevice_within (sub hF rfl) (sub hR rfl) (State.retireFailed_within (sub hF rfl) (sub hR rfl) h))); exact (State.fwRecord_within (sub hF rfl) (sub hR rfl) (State.restartDevice_within (sub hF rfl) (sub hR rfl) h))]

theorem State.takeFw_within {F R} {z s : State} {a1 a2 a3 a4} (hF : F &&& 0x13a9c6c6 = 0x13a9c6c6) (hR : R &&& 0x80000040000000030000080000000000044380c000000480000000000000000000000000000040000000000000003000000000000000000 = 0x80000040000000030000080000000000044380c000000480000000000000000000000000000040000000000000003000000000000000000) (h : Within F R z s) : Within F R z (State.takeFw s a1 a2 a3 a4) := by
  unfold State.takeFw
  exact State.take_within (sub hF rfl) (sub hR rfl) h (fun h1 => (by split <;> [exact (SWithin.quiet (.boot h1 (elem hF rfl))); exact (SWithin.quiet (State.runFw_within (sub hF rfl) (sub hR rfl) h1))]))

theorem execFwFlash_within {F R} {s : State} {a0 a1 a2 a3} (hF : F &&& 0x13a9c6d6 = 0x13a9c6d6) (hR : R &&& 0x80000040000000030000080000000000044380c000000480000000000000000000000000000040000000000000003000000000000000000 = 0x80000040000000030000080000000000044380c000000480000000000000000000000000000040000000000000003000000000000000000) : Touched F R s (execFwFlash a0 a1 a2 a3 s) :=
  .answer (sub hF rfl) (fun h1 => (State.takeFw_within (sub hF rfl) (sub hR rfl) h1))

theorem execSelfTest_within {F R} {s : State} {a0 a1 a2 a3} (hF : F &&& 0x13a9c6d6 = 0x13a9c6d6) (hR : R &&& 0x80000040000000030000080000000000044380c000000480000000000000000000000000000040000000000000003000000000000000000 = 0x80000040000000030000080000000000044380c000000480000000000000000000000000000040000000000000003000000000000000000) : Touched F R s (execSelfTest a0 a1 a2 a3 s) :=
  .answer (sub hF rfl) (fun h1 => (State.takeFw_within (sub hF rfl) (sub hR rfl) h1))

theorem execRetireFailed_within {F R} {s : State} {a0 a1 a2} (hF : F &&& 0x13a9c6d6 = 0x13a9c6d6) (hR : R &&& 0x80000040000000030000080000000000044380c000000480000000000000000000000000000040000000000000003000000000000000000 = 0x80000040000000030000080000000000044380c000000480000000000000000000000000000040000000000000003000000000000000000) : Touched F R s (execRetireFailed a0 a1 a2 s) :=
  .answer (sub hF rfl) (fun h1 => (State.takeFw_within (sub hF rfl) (sub hR rfl) h1))

theorem execRestartDevice_within {F R} {s : State} {a0 a1 a2} (hF : F &&& 0x13a9c6d6 = 0x13a9c6d6) (hR : R &&& 0x80000040000000030000080000000000044380c000000480000000000000000000000000000040000000000000003000000000000000000 = 0x80000040000000030000080000000000044380c000000480000000000000000000000000000040000000000000003000000000000000000) : Touched F R s (execRestartDevice a0 a1 a2 s) :=
  .answer (sub hF rfl) (fun h1 => (State.takeFw_within (sub hF rfl) (sub hR rfl) h1))

theorem State.runWaiting_within {F R} {z s : State} {a1} (hF : F &&& 0x13a9c6c6 = 0x13a9c6c6) (hR : R &&& 0x80000040000000030000080000000000044380c000000480000000000000000000000000000040000000000000003000000000000000000 = 0x80000040000000030000080000000000044380c000000480000000000000000000000000000040000000000000003000000000000000000) (h : Within F R z s) : Within F R z (State.runWaiting s a1) := by
  induction a1 generalizing s with
  | nil => exact .boot h (elem hF rfl)
  | cons e l ih =>
    unfold State.runWaiting
    extract_lets v
    have k : Within F R z v := by
      unfold v; split <;> [exact State.fwRecord_within (sub hF rfl) (sub hR rfl) h;
        exact State.runFw_within (sub hF rfl) (sub hR rfl) h]
    exact .ite (.boot k (elem hF rfl)) (ih k)

theorem execFlashWriteDone_within {F R} {s : State} {a0 a1} (hF : F &&& 0x13a9c6d6 = 0x13a9c6d6) (hR : R &&& 0x80000040000000030000080000000000044390c000000480000000000000000000000000000040000000000000003000000000000000000 = 0x80000040000000030000080000000000044390c000000480000000000000000000000000000040000000000000003000000000000000000) : Touched F R s (execFlashWriteDone a0 a1 s) := by
  unfold execFlashWriteDone
  exact .answer (sub hF rfl) (fun h1 => (by split <;> [exact h1; exact (by extract_lets -merge -useContext -underBinder +onlyGivenNames u2_0 v2; have h2 : Within F R s v2 := (by unfold v2; exact (State.setF_within (sub hF rfl) (sub hR rfl) (elem hR rfl) (.boot h1 (elem hF rfl)))); clear_value v2; exact (by extract_lets -merge -useContext -underBinder +onlyGivenNames v3; clear_value v3; exact (by extract_lets -merge -useContext -underBinder +onlyGivenNames v4; have h4 : Within F R s v4 := (by unfold v4; exact (.ite (State.raise_within (sub hF rfl) (sub hR rfl) (elem hR rfl) (State.fwRecord_within (sub hF rfl) (sub hR rfl) h2)) (State.raise_within (sub hF rfl) (sub hR rfl) (elem hR rfl) (State.internal_within (sub hF rfl) (sub hR rfl) (State.setF_within (sub hF rfl) (sub hR rfl) (elem hR rfl) h2))))); clear_value v4; exact (State.runWaiting_within (sub hF rfl) (sub hR rfl) h4))))]))

/-! Host -/

theorem State.dmaErr_within {F R} {z s : State} {a1} (hF : F &&& 0x200002 = 0x200002) (hR : R &&& 0x4400000000000000000000000000000000000000000000000000000000000000000 = 0x4400000000000000000000000000000000000000000000000000000000000000000) (h : Within F R z s) : Within F R z (State.dmaErr s a1) :=
  State.raise_within (sub hF rfl) (sub hR rfl) (elem hR rfl) (State.bump_within (sub hF rfl) (sub hR rfl) (elem hR rfl) h)

theorem State.commandDma_within {F R} {z s : State} {a1 a2} (hF : F &&& 0x18000 = 0x18000) (hR : R &&& 0x800000400000000000000000000000000000000000000000000000000000000000000000000000000000000000000000000000000000000 = 0x800000400000000000000000000000000000000000000000000000000000000000000000000000000000000000000000000000000000000) (h : Within F R z s) : Within F R z (State.commandDma s a1 a2) := by
  unfold State.commandDma
  extract_lets -merge -useContext -underBinder +onlyGivenNames v1
  clear_value v1
  exact .ite (State.updSess_within (sub hF rfl) (sub hR rfl) h) (State.take_within (sub hF rfl) (sub hR rfl) h (fun h2 => (SWithin.record h2)))

theorem execDmaError_within {F R} {s : State} {a0 a1 a2} (hF : F &&& 0x16b9c692 = 0x16b9c692) (hR : R &&& 0x80000e7f080000000000000000000000000010c000004481000000000000000000008060000040000000042000043000000008000000000 = 0x80000e7f080000000000000000000000000010c000004481000000000000000000008060000040000000042000043000000008000000000) : Touched F R s (execDmaError a0 a1 a2 s) := by
  unfold execDmaError
  exact .answer (sub hF rfl) (fun h1 => (State.when_within (sub hF rfl) (sub hR rfl) h1 (fun h2 => (by extract_lets -merge -useContext -underBinder +onlyGivenNames v3; have h3 : Within F R s v3 := (by unfold v3; exact (State.dmaErr_within (sub hF rfl) (sub hR rfl) h2)); clear_value v3; exact (by split <;> [exact (State.commandDma_within (sub hF rfl) (sub hR rfl) h3); exact (State.when_within (sub hF rfl) (sub hR rfl) h3 (fun h4 => (State.shard_within (sub hF rfl) (sub hR rfl) h4))); exact (State.when_within (sub hF rfl) (sub hR rfl) h3 (fun h4 => (State.setF_within (sub hF rfl) (sub hR rfl) (elem hR rfl) (State.failPlan_within (sub hF rfl) (sub hR rfl) h4)))); exact (.ite (State.enterSafe_within (sub hF rfl) (sub hR rfl) (State.setF_within (sub hF rfl) (sub hR rfl) (elem hR rfl) (State.setF_within (sub hF rfl) (sub hR rfl) (elem hR rfl) h3))) h3); exact h3])))))

theorem State.logAer_within {F R} {z s : State} {a1 a2} (hF : F &&& 0x200000 = 0x200000) (_hR : R &&& 0 = 0) (h : Within F R z s) : Within F R z (State.logAer s a1 a2) :=
  .ite h (.hif h (elem hF rfl))

theorem execPoisonedWrite_within {F R} {s : State} {a0 a1} (hF : F &&& 0x200012 = 0x200012) (hR : R &&& 0 = 0) : Touched F R s (execPoisonedWrite a0 a1 s) :=
  .answer (sub hF rfl) (fun h1 => (State.when_within (sub hF rfl) (sub hR rfl) h1 (fun h2 => (State.logAer_within (sub hF rfl) (sub hR rfl) h2))))

theorem execIdeCheckFail_within {F R} {s : State} {a0} (hF : F &&& 0x600012 = 0x600012) (hR : R &&& 0x2000000000000000000000000000000000000000000000000000000000000000000 = 0x2000000000000000000000000000000000000000000000000000000000000000000) : Touched F R s (execIdeCheckFail a0 s) := by
  unfold execIdeCheckFail
  exact .answer (sub hF rfl) (fun h1 => (State.when_within (sub hF rfl) (sub hR rfl) h1 (fun h2 => (State.logAer_within (sub hF rfl) (sub hR rfl) (by extract_lets -merge -useContext -underBinder +onlyGivenNames v3; have h3 : Within F R s v3 := (by unfold v3; exact (State.setF_within (sub hF rfl) (sub hR rfl) (elem hR rfl) h2)); clear_value v3; exact (.sec h3 (elem hF rfl)))))))

theorem State.setStage_within {F R} {z s : State} {a1 a2} (hF : F &&& 0x400000 = 0x400000) (_hR : R &&& 0 = 0) (h : Within F R z s) : Within F R z (State.setStage s a1 a2) :=
  .sec h (elem hF rfl)

theorem State.spdmError_within {F R} {z s : State} {a1} (hF : F &&& 0x200002 = 0x200002) (hR : R &&& 0x408000000000000000000000000000000000000000000000000000000000000000000000 = 0x408000000000000000000000000000000000000000000000000000000000000000000000) (h : Within F R z s) : Within F R z (State.spdmError s a1) :=
  State.emit_within (sub hF rfl) (sub hR rfl) (State.raise_within (sub hF rfl) (sub hR rfl) (elem hR rfl) (State.bump_within (sub hF rfl) (sub hR rfl) (elem hR rfl) h))

theorem State.spdm_within {F R} {z s : State} {a1 a2 a3} (hF : F &&& 0x200002 = 0x200002) (hR : R &&& 0x408000000000000000000000000000000000000000000000000000000000000000000000 = 0x408000000000000000000000000000000000000000000000000000000000000000000000) (h : Within F R z s) (hf3 : ∀ {t : State}, Within F R z t → Within F R z (a3 t)) : Within F R z (State.spdm s a1 a2 a3) :=
  .ite h (.ite (State.spdmError_within (sub hF rfl) (sub hR rfl) h) (.ite (State.spdmError_within (sub hF rfl) (sub hR rfl) h) (hf3 h)))

theorem execGetVersion_within {F R} {s : State} {a0 a1} (hF : F &&& 0x600012 = 0x600012) (hR : R &&& 0x408000000000000000000000000000000000000000000000000000000000000000000000 = 0x408000000000000000000000000000000000000000000000000000000000000000000000) : Touched F R s (execGetVersion a0 a1 s) :=
  .answer (sub hF rfl) (fun h1 => (State.spdm_within (sub hF rfl) (sub hR rfl) h1 (fun h2 => (State.emit_within (sub hF rfl) (sub hR rfl) (State.setStage_within (sub hF rfl) (sub hR rfl) h2)))))

theorem execGetCapabilities_within {F R} {s : State} {a0 a1} (hF : F &&& 0x600012 = 0x600012) (hR : R &&& 0x408000000000000000000000000000000000000000000000000000000000000000000000 = 0x408000000000000000000000000000000000000000000000000000000000000000000000) : Touched F R s (execGetCapabilities a0 a1 s) :=
  .answer (sub hF rfl) (fun h1 => (State.spdm_within (sub hF rfl) (sub hR rfl) h1 (fun h2 => (State.emit_within (sub hF rfl) (sub hR rfl) (State.setStage_within (sub hF rfl) (sub hR rfl) h2)))))

theorem execNegotiateAlgorithms_within {F R} {s : State} {a0 a1} (hF : F &&& 0x600012 = 0x600012) (hR : R &&& 0x408000000000000000000000000000000000000000000000000000000000000000000000 = 0x408000000000000000000000000000000000000000000000000000000000000000000000) : Touched F R s (execNegotiateAlgorithms a0 a1 s) :=
  .answer (sub hF rfl) (fun h1 => (State.spdm_within (sub hF rfl) (sub hR rfl) h1 (fun h2 => (State.emit_within (sub hF rfl) (sub hR rfl) (State.setStage_within (sub hF rfl) (sub hR rfl) h2)))))

theorem execGetDigests_within {F R} {s : State} {a0 a1} (hF : F &&& 0x200012 = 0x200012) (hR : R &&& 0x408000000000000000000000000000000000000000000000000000000000000000000000 = 0x408000000000000000000000000000000000000000000000000000000000000000000000) : Touched F R s (execGetDigests a0 a1 s) :=
  .answer (sub hF rfl) (fun h1 => (State.spdm_within (sub hF rfl) (sub hR rfl) h1 (fun h2 => (State.emit_within (sub hF rfl) (sub hR rfl) h2))))

theorem execGetCertificate_within {F R} {s : State} {a0 a1 a2 a3 a4} (hF : F &&& 0x200012 = 0x200012) (hR : R &&& 0x408000000000000000000000000000000000000000000000000000000000000000000000 = 0x408000000000000000000000000000000000000000000000000000000000000000000000) : Touched F R s (execGetCertificate a0 a1 a2 a3 a4 s) := by
  unfold execGetCertificate
  exact .answer (sub hF rfl) (fun h1 => (State.spdm_within (sub hF rfl) (sub hR rfl) h1 (fun h2 => (by extract_lets -merge -useContext -underBinder +onlyGivenNames v3; clear_value v3; exact (.ite (State.spdmError_within (sub hF rfl) (sub hR rfl) h2) (by extract_lets -merge -useContext -underBinder +onlyGivenNames v4; clear_value v4; exact (State.emit_within (sub hF rfl) (sub hR rfl) h2)))))))

theorem execChallenge_within {F R} {s : State} {a0 a1 a2} (hF : F &&& 0x200016 = 0x200016) (hR : R &&& 0x408000000000000000000000000000000000000000000000000000000000000000000000 = 0x408000000000000000000000000000000000000000000000000000000000000000000000) : Touched F R s (execChallenge a0 a1 a2 s) :=
  .answer (sub hF rfl) (fun h1 => (State.spdm_within (sub hF rfl) (sub hR rfl) h1 (fun h2 => (State.emit_within (sub hF rfl) (sub hR rfl) (State.tick_within (sub hF rfl) (sub hR rfl) h2)))))

theorem execGetMeasurements_within {F R} {s : State} {a0 a1 a2} (hF : F &&& 0x200012 = 0x200012) (hR : R &&& 0x408000000000000000000000000000000000000000000000000000000000000000000000 = 0x408000000000000000000000000000000000000000000000000000000000000000000000) : Touched F R s (execGetMeasurements a0 a1 a2 s) :=
  .answer (sub hF rfl) (fun h1 => (State.spdm_within (sub hF rfl) (sub hR rfl) h1 (fun h2 => (.ite (State.emit_within (sub hF rfl) (sub hR rfl) h2) (.ite (State.emit_within (sub hF rfl) (sub hR rfl) h2) (.ite (State.emit_within (sub hF rfl) (sub hR rfl) h2) (State.spdmError_within (sub hF rfl) (sub hR rfl) h2)))))))

theorem execKeyExchange_within {F R} {s : State} {a0 a1} (hF : F &&& 0x600012 = 0x600012) (hR : R &&& 0x408000000000000000000000000000000000000000000000000000000000000000000000 = 0x408000000000000000000000000000000000000000000000000000000000000000000000) : Touched F R s (execKeyExchange a0 a1 s) := by
  unfold execKeyExchange
  exact .answer (sub hF rfl) (fun h1 => (State.spdm_within (sub hF rfl) (sub hR rfl) h1 (fun h2 => (.ite (State.spdmError_within (sub hF rfl) (sub hR rfl) h2) (by extract_lets -merge -useContext -underBinder +onlyGivenNames v3; clear_value v3; exact (State.emit_within (sub hF rfl) (sub hR rfl) (.sec h2 (elem hF rfl))))))))

theorem State.dropSession_within {F R} {z s : State} {a1} (hF : F &&& 0x400000 = 0x400000) (_hR : R &&& 0 = 0) (h : Within F R z s) : Within F R z (State.dropSession s a1) :=
  .sec h (elem hF rfl)

theorem State.updSession_within {F R} {z s : State} {a1 a2} (hF : F &&& 0x400000 = 0x400000) (_hR : R &&& 0 = 0) (h : Within F R z s) : Within F R z (State.updSession s a1 a2) :=
  .sec h (elem hF rfl)

theorem execFinish_within {F R} {s : State} {a0 a1 a2 a3} (hF : F &&& 0x600012 = 0x600012) (hR : R &&& 0x408000000000000000000000000000000000000000000000000000000000000000000000 = 0x408000000000000000000000000000000000000000000000000000000000000000000000) : Touched F R s (execFinish a0 a1 a2 a3 s) := by
  unfold execFinish
  exact .answer (sub hF rfl) (fun h1 => (State.spdm_within (sub hF rfl) (sub hR rfl) h1 (fun h2 => (by split <;> [exact (State.spdmError_within (sub hF rfl) (sub hR rfl) h2); exact (.ite (State.spdmError_within (sub hF rfl) (sub hR rfl) h2) (.ite (State.emit_within (sub hF rfl) (sub hR rfl) (State.raise_within (sub hF rfl) (sub hR rfl) (elem hR rfl) (State.updSession_within (sub hF rfl) (sub hR rfl) h2))) (State.spdmError_within (sub hF rfl) (sub hR rfl) (State.dropSession_within (sub hF rfl) (sub hR rfl) h2))))]))))

theorem State.inSession_within {F R} {z s : State} {a1 a2 a3} (hF : F &&& 0x200002 = 0x200002) (hR : R &&& 0x408000000000000000000000000000000000000000000000000000000000000000000000 = 0x408000000000000000000000000000000000000000000000000000000000000000000000) (h : Within F R z s) (hf3 : ∀ {t : State}, Within F R z t → Within F R z (a3 t)) : Within F R z (State.inSession s a1 a2 a3) := by
  unfold State.inSession
  exact State.spdm_within (sub hF rfl) (sub hR rfl) h (fun h1 => (by split <;> [exact (State.spdmError_within (sub hF rfl) (sub hR rfl) h1); exact (.ite (hf3 h1) (State.spdmError_within (sub hF rfl) (sub hR rfl) h1))]))

theorem execHeartbeat_within {F R} {s : State} {a0 a1 a2} (hF : F &&& 0x600012 = 0x600012) (hR : R &&& 0x408000000000000000000000000000000000000000000000000000000000000000000000 = 0x408000000000000000000000000000000000000000000000000000000000000000000000) : Touched F R s (execHeartbeat a0 a1 a2 s) :=
  .answer (sub hF rfl) (fun h1 => (State.inSession_within (sub hF rfl) (sub hR rfl) h1 (fun h2 => (State.emit_within (sub hF rfl) (sub hR rfl) (State.updSession_within (sub hF rfl) (sub hR rfl) h2)))))

theorem execKeyUpdate_within {F R} {s : State} {a0 a1 a2} (hF : F &&& 0x600012 = 0x600012) (hR : R &&& 0x408000000000000000000000000000000000000000000000000000000000000000000000 = 0x408000000000000000000000000000000000000000000000000000000000000000000000) : Touched F R s (execKeyUpdate a0 a1 a2 s) :=
  .answer (sub hF rfl) (fun h1 => (State.inSession_within (sub hF rfl) (sub hR rfl) h1 (fun h2 => (State.emit_within (sub hF rfl) (sub hR rfl) (State.updSession_within (sub hF rfl) (sub hR rfl) h2)))))

theorem execEndSession_within {F R} {s : State} {a0 a1 a2} (hF : F &&& 0x600012 = 0x600012) (hR : R &&& 0x408000000000000000000000000000000000000000000000000000000000000000000000 = 0x408000000000000000000000000000000000000000000000000000000000000000000000) : Touched F R s (execEndSession a0 a1 a2 s) :=
  .answer (sub hF rfl) (fun h1 => (State.inSession_within (sub hF rfl) (sub hR rfl) h1 (fun h2 => (State.emit_within (sub hF rfl) (sub hR rfl) (State.raise_within (sub hF rfl) (sub hR rfl) (elem hR rfl) (State.dropSession_within (sub hF rfl) (sub hR rfl) h2))))))

theorem execIdeKm_within {F R} {s : State} {a0 a1 a2} (hF : F &&& 0x600012 = 0x600012) (hR : R &&& 0x408002000000000000000000000000000000000000000000000000000000000000000000 = 0x408002000000000000000000000000000000000000000000000000000000000000000000) : Touched F R s (execIdeKm a0 a1 a2 s) := by
  unfold execIdeKm
  exact .answer (sub hF rfl) (fun h1 => (State.inSession_within (sub hF rfl) (sub hR rfl) h1 (fun h2 => (.ite (State.spdmError_within (sub hF rfl) (sub hR rfl) h2) (by extract_lets -merge -useContext -underBinder +onlyGivenNames v3; have h3 : Within F R s v3 := (by unfold v3; exact (State.setF_within (sub hF rfl) (sub hR rfl) (elem hR rfl) h2)); clear_value v3; exact (.sec h3 (elem hF rfl)))))))

theorem execDoeDiscovery_within {F R} {s : State} {a0 a1 a2} (hF : F &&& 18 = 18) (hR : R &&& 0 = 0) : Touched F R s (execDoeDiscovery a0 a1 a2 s) :=
  .answer (sub hF rfl) (fun h1 => (State.when_within (sub hF rfl) (sub hR rfl) h1 (fun h2 => (.ite (State.emit_within (sub hF rfl) (sub hR rfl) h2) (.ite (State.emit_within (sub hF rfl) (sub hR rfl) h2) (.ite (State.emit_within (sub hF rfl) (sub hR rfl) h2) (State.emit_within (sub hF rfl) (sub hR rfl) h2)))))))

theorem State.horeno_within {F R} {z s : State} {a1 a2 a3 a4 a5 a6} (hF : F &&& 2 = 2) (hR : R &&& 0 = 0) (h : Within F R z s) (hf6 : ∀ {t : State}, Within F R z t → Within F R z (a6 t)) : Within F R z (State.horeno s a1 a2 a3 a4 a5 a6) :=
  .ite h (.ite (State.emit_within (sub hF rfl) (sub hR rfl) h) (.ite (State.emit_within (sub hF rfl) (sub hR rfl) h) (.ite (State.emit_within (sub hF rfl) (sub hR rfl) h) (.ite (State.emit_within (sub hF rfl) (sub hR rfl) h) (hf6 h)))))

theorem execHorId_within {F R} {s : State} {a0 a1 a2} (hF : F &&& 22 = 22) (hR : R &&& 0 = 0) : Touched F R s (execHorId a0 a1 a2 s) := by
  unfold execHorId
  exact .answer (sub hF rfl) (fun h1 => (State.horeno_within (sub hF rfl) (sub hR rfl) h1 (fun h2 => (by extract_lets -merge -useContext -underBinder +onlyGivenNames v3; clear_value v3; exact (by extract_lets -merge -useContext -underBinder +onlyGivenNames v4; clear_value v4; exact (State.emit_within (sub hF rfl) (sub hR rfl) (State.tick_within (sub hF rfl) (sub hR rfl) h2)))))))

theorem execHorState_within {F R} {s : State} {a0 a1 a2} (hF : F &&& 22 = 22) (hR : R &&& 0 = 0) : Touched F R s (execHorState a0 a1 a2 s) := by
  unfold execHorState
  exact .answer (sub hF rfl) (fun h1 => (State.horeno_within (sub hF rfl) (sub hR rfl) h1 (fun h2 => (by extract_lets -merge -useContext -underBinder +onlyGivenNames v3; clear_value v3; exact (State.emit_within (sub hF rfl) (sub hR rfl) (State.tick_within (sub hF rfl) (sub hR rfl) h2))))))

theorem execHorTemp_within {F R} {s : State} {a0 a1 a2} (hF : F &&& 22 = 22) (hR : R &&& 0 = 0) : Touched F R s (execHorTemp a0 a1 a2 s) := by
  unfold execHorTemp
  exact .answer (sub hF rfl) (fun h1 => (State.horeno_within (sub hF rfl) (sub hR rfl) h1 (fun h2 => (by extract_lets -merge -useContext -underBinder +onlyGivenNames v3; clear_value v3; exact (State.emit_within (sub hF rfl) (sub hR rfl) (State.tick_within (sub hF rfl) (sub hR rfl) h2))))))

theorem execHorPower_within {F R} {s : State} {a0 a1 a2} (hF : F &&& 18 = 18) (hR : R &&& 0 = 0) : Touched F R s (execHorPower a0 a1 a2 s) :=
  .answer (sub hF rfl) (fun h1 => (State.horeno_within (sub hF rfl) (sub hR rfl) h1 (fun h2 => (State.emit_within (sub hF rfl) (sub hR rfl) h2))))

theorem execHorFaults_within {F R} {s : State} {a0 a1 a2} (hF : F &&& 22 = 22) (hR : R &&& 0 = 0) : Touched F R s (execHorFaults a0 a1 a2 s) := by
  unfold execHorFaults
  exact .answer (sub hF rfl) (fun h1 => (State.horeno_within (sub hF rfl) (sub hR rfl) h1 (fun h2 => (by extract_lets -merge -useContext -underBinder +onlyGivenNames v3; clear_value v3; exact (State.emit_within (sub hF rfl) (sub hR rfl) (State.tick_within (sub hF rfl) (sub hR rfl) h2))))))

theorem execHorCperRead_within {F R} {s : State} {a0 a1 a2} (hF : F &&& 18 = 18) (hR : R &&& 0 = 0) : Touched F R s (execHorCperRead a0 a1 a2 s) := by
  unfold execHorCperRead
  exact .answer (sub hF rfl) (fun h1 => (State.horeno_within (sub hF rfl) (sub hR rfl) h1 (fun h2 => (by extract_lets -merge -useContext -underBinder +onlyGivenNames v3; clear_value v3; exact (by extract_lets -merge -useContext -underBinder +onlyGivenNames v4; clear_value v4; exact (by extract_lets -merge -useContext -underBinder +onlyGivenNames v5; clear_value v5; exact (by split <;> [exact (State.emit_within (sub hF rfl) (sub hR rfl) h2); exact (.ite (State.emit_within (sub hF rfl) (sub hR rfl) h2) (by extract_lets -merge -useContext -underBinder +onlyGivenNames v6; clear_value v6; exact (by extract_lets -merge -useContext -underBinder +onlyGivenNames v7; clear_value v7; exact (State.emit_within (sub hF rfl) (sub hR rfl) h2))))])))))))

theorem execHorLimits_within {F R} {s : State} {a0 a1 a2} (hF : F &&& 18 = 18) (hR : R &&& 0 = 0) : Touched F R s (execHorLimits a0 a1 a2 s) := by
  unfold execHorLimits
  exact .answer (sub hF rfl) (fun h1 => (State.horeno_within (sub hF rfl) (sub hR rfl) h1 (fun h2 => (by extract_lets -merge -useContext -underBinder +onlyGivenNames v3; clear_value v3; exact (State.emit_within (sub hF rfl) (sub hR rfl) h2)))))

theorem execHorUnknown_within {F R} {s : State} {a0 a1 a2 a3} (hF : F &&& 18 = 18) (hR : R &&& 0 = 0) : Touched F R s (execHorUnknown a0 a1 a2 a3 s) :=
  .answer (sub hF rfl) (fun h1 => (State.when_within (sub hF rfl) (sub hR rfl) h1 (fun h2 => (State.horeno_within (sub hF rfl) (sub hR rfl) h2 (fun h3 => (State.emit_within (sub hF rfl) (sub hR rfl) h3))))))

/-! RegRead -/

theorem State.badAccess_within {F R} {z s : State} {a1} (hF : F &&& 0x200002 = 0x200002) (hR : R &&& 0x8400000000000000000000000000000000000000000000000000000000000000000 = 0x8400000000000000000000000000000000000000000000000000000000000000000) (h : Within F R z s) : Within F R z (State.badAccess s a1) :=
  State.raise_within (sub hF rfl) (sub hR rfl) (elem hR rfl) (State.bump_within (sub hF rfl) (sub hR rfl) (elem hR rfl) h)

theorem State.read32_within {F R} {z s : State} {a1 a2 a3} (hF : F &&& 0x200000 = 0x200000) (_hR : R &&& 0 = 0) (h : Within F R z s) : PWithin F R z (State.read32 s a1 a2 a3) := by
  unfold State.read32
  extract_lets -merge -useContext -underBinder +onlyGivenNames v1 v2
  clear_value v1 v2
  split <;> [exact (by split <;> [exact (PWithin.mk h); exact (by split <;> [exact (by extract_lets -merge -useContext -underBinder +onlyGivenNames v3; clear_value v3; exact (PWithin.mk (.hif h (elem hF rfl)))); exact (by split <;> [exact (PWithin.mk h); exact (PWithin.mk (.hif h (elem hF rfl)))])])]); exact (PWithin.mk h)]

theorem State.barRead_within {F R} {z s : State} {a1 a2 a3 a4} (hF : F &&& 0x200002 = 0x200002) (hR : R &&& 0x8500000000010000000000000000000000000000000000000000000000000000000 = 0x8500000000010000000000000000000000000000000000000000000000000000000) (h : Within F R z s) : PWithin F R z (State.barRead s a1 a2 a3 a4) := by
  unfold State.barRead
  split <;> [exact (PWithin.mk (State.badAccess_within (sub hF rfl) (sub hR rfl) h)); exact (by split <;> [exact (by extract_lets -merge -useContext -underBinder +onlyGivenNames v1; clear_value v1; exact (PWithin.mk (State.setF_within (sub hF rfl) (sub hR rfl) (elem hR rfl) h))); exact (by split <;> [exact (State.read32_within (sub hF rfl) (sub hR rfl) h); exact (by split <;> [exact (by split <;> [exact (PWithin.mk h); exact (PWithin.mk (State.countPool_within (sub hF rfl) (sub hR rfl) h))]); exact (PWithin.mk h)])])])]

theorem State.hostRead_within {F R} {z s : State} {a1 a2 a3 a4} (hF : F &&& 0x200002 = 0x200002) (hR : R &&& 0x8500000000010000000000000000000000000000000000000000000000000000000 = 0x8500000000010000000000000000000000000000000000000000000000000000000) (h : Within F R z s) : PWithin F R z (State.hostRead s a1 a2 a3 a4) := by
  unfold State.hostRead
  split <;> [exact (State.barRead_within (sub hF rfl) (sub hR rfl) h); exact (by split <;> [exact (by split <;> [exact (PWithin.mk h); exact (PWithin.mk (State.badAccess_within (sub hF rfl) (sub hR rfl) h))]); exact (PWithin.mk h)])]

theorem execRegisterRead_within {F R} {s : State} {a0 a1 a2 a3 a4} (hF : F &&& 0x200012 = 0x200012) (hR : R &&& 0x8500000000010000000000000000000000000000000000000000000000000000000 = 0x8500000000010000000000000000000000000000000000000000000000000000000) : Touched F R s (execRegisterRead a0 a1 a2 a3 a4 s) := by
  unfold execRegisterRead
  exact .answer (sub hF rfl) (fun h1 => (.ite (by extract_lets -merge -useContext -underBinder +onlyGivenNames v2; have h2 : PWithin F R s v2 := (by unfold v2; exact (State.hostRead_within (sub hF rfl) (sub hR rfl) h1)); clear_value v2; exact (State.emit_within (sub hF rfl) (sub hR rfl) (PWithin.fst h2))) (State.emit_within (sub hF rfl) (sub hR rfl) h1)))

/-! RegWrite -/

theorem State.writeRw_within {F R} {z s : State} {a1 a2 a3 a4} (hF : F &&& 0 = 0) (hR : R &&& 0 = 0) (hr1 : R.testBit (Reg.ctorIdx a1) = true) (h : Within F R z s) : Within F R z (State.writeRw s a1 a2 a3 a4) := by
  unfold State.writeRw
  extract_lets -merge -useContext -underBinder +onlyGivenNames v1
  clear_value v1
  exact .ite (State.setNum_within (sub hF rfl) (sub hR rfl) hr1 h) h

theorem State.writeFields_within {F R} {z s : State} {a1 a2 a3 a4} (hF : F &&& 0 = 0) (hR : R &&& 0 = 0) (hr1 : R.testBit (Reg.ctorIdx a1) = true) (h : Within F R z s) : Within F R z (State.writeFields s a1 a2 a3 a4) :=
  State.each_within (sub hF rfl) (sub hR rfl) h (fun h1 => (State.setF_within (sub hF rfl) (sub hR rfl) hr1 h1))

theorem State.tdeCtrl_within {F R} {z s : State} {a1} (hF : F &&& 0 = 0) (hR : R &&& 1 = 1) (h : Within F R z s) : Within F R z (State.tdeCtrl s a1) :=
  .ite h (State.when_within (sub hF rfl) (sub hR rfl) (State.setF_within (sub hF rfl) (sub hR rfl) (elem hR rfl) h) (fun h1 => (State.setF_within (sub hF rfl) (sub hR rfl) (elem hR rfl) h1)))

theorem State.panCtrl_within {F R} {z s : State} {a1 a2} (hF : F &&& 512 = 512) (hR : R &&& 0 = 0) (h : Within F R z s) : Within F R z (State.panCtrl s a1 a2) :=
  State.when_within (sub hF rfl) (sub hR rfl) (State.when_within (sub hF rfl) (sub hR rfl) h (fun h1 => (State.refreshReq_within (sub hF rfl) (sub hR rfl) h1))) (fun h1 => (State.rakeReq_within (sub hF rfl) (sub hR rfl) h1))

theorem State.captureCtrl_within {F R} {z s : State} {a1 a2} (hF : F &&& 0 = 0) (hR : R &&& 0x800000000000 = 0x800000000000) (h : Within F R z s) : Within F R z (State.captureCtrl s a1 a2) :=
  State.when_within (sub hF rfl) (sub hR rfl) (State.setF_within (sub hF rfl) (sub hR rfl) (elem hR rfl) h) (fun h1 => (State.setF_within (sub hF rfl) (sub hR rfl) (elem hR rfl) h1))

theorem State.wgtCtrl_within {F R} {z s : State} {a1} (hF : F &&& 0x13384202 = 0x13384202) (hR : R &&& 0x8000000000000008800000000000000000000000000000000000000000000008040000000000000002000063000000008000000000 = 0x8000000000000008800000000000000000000000000000000000000000000008040000000000000002000063000000008000000000) (h : Within F R z s) : Within F R z (State.wgtCtrl s a1) := by
  unfold State.wgtCtrl
  extract_lets -merge -useContext -underBinder +onlyGivenNames v1
  have h1 : Within F R z v1 := (by unfold v1; exact (State.writeFields_within (sub hF rfl) (sub hR rfl) (elem hR rfl) h))
  clear_value v1
  extract_lets -merge -useContext -underBinder +onlyGivenNames v2
  have h2 : Within F R z v2 := (by unfold v2; exact (State.when_within (sub hF rfl) (sub hR rfl) h1 (fun h3 => (by extract_lets -merge -useContext -underBinder +onlyGivenNames v4; have h4 : Within F R z v4 := (by unfold v4; exact (State.loadStart_within (sub hF rfl) (sub hR rfl) (State.setF_within (sub hF rfl) (sub hR rfl) (elem hR rfl) h3))); clear_value v4; exact (.ite (State.exitPower_within (sub hF rfl) (sub hR rfl) h4) h4)))))
  clear_value v2
  extract_lets -merge -useContext -underBinder +onlyGivenNames v3
  have h3 : Within F R z v3 := (by unfold v3; exact (State.when_within (sub hF rfl) (sub hR rfl) h2 (fun h4 => (State.loadAbort_within (sub hF rfl) (sub hR rfl) h4))))
  clear_value v3
  extract_lets -merge -useContext -underBinder +onlyGivenNames v4
  have h4 : Within F R z v4 := (by unfold v4; exact (State.when_within (sub hF rfl) (sub hR rfl) h3 (fun h5 => (State.restage_within (sub hF rfl) (sub hR rfl) h5))))
  clear_value v4
  extract_lets -merge -useContext -underBinder +onlyGivenNames v5
  have h5 : Within F R z v5 := (by unfold v5; exact (State.when_within (sub hF rfl) (sub hR rfl) h4 (fun h6 => (State.wgtRelease_within (sub hF rfl) (sub hR rfl) h6))))
  clear_value v5
  exact State.when_within (sub hF rfl) (sub hR rfl) h5 (fun h6 => (State.adapterUnload_within (sub hF rfl) (sub hR rfl) h6))

theorem State.trustCtrl_within {F R} {z s : State} {a1} (hF : F &&& 128 = 128) (hR : R &&& 0x200000000000000000000000000 = 0x200000000000000000000000000) (h : Within F R z s) : Within F R z (State.trustCtrl s a1) := by
  unfold State.trustCtrl
  extract_lets -merge -useContext -underBinder +onlyGivenNames v1
  have h1 : Within F R z v1 := (by unfold v1; exact (State.setF_within (sub hF rfl) (sub hR rfl) (elem hR rfl) h))
  clear_value v1
  extract_lets -merge -useContext -underBinder +onlyGivenNames v2
  have h2 : Within F R z v2 := (by unfold v2; exact (State.when_within (sub hF rfl) (sub hR rfl) h1 (fun h3 => (State.trustSet_within (sub hF rfl) (sub hR rfl) h3))))
  clear_value v2
  exact State.when_within (sub hF rfl) (sub hR rfl) h2 (fun h3 => (State.trustSet_within (sub hF rfl) (sub hR rfl) h3))

theorem State.bplCtrl_within {F R} {z s : State} {a1} (hF : F &&& 0x13284202 = 0x13284202) (hR : R &&& 0x8800000000000000000000000000000000000000000000008060000000000000002000002000000008000000000 = 0x8800000000000000000000000000000000000000000000008060000000000000002000002000000008000000000) (h : Within F R z s) : Within F R z (State.bplCtrl s a1) := by
  unfold State.bplCtrl
  extract_lets -merge -useContext -underBinder +onlyGivenNames v1
  have h1 : Within F R z v1 := (by unfold v1; exact (State.writeFields_within (sub hF rfl) (sub hR rfl) (elem hR rfl) h))
  clear_value v1
  extract_lets -merge -useContext -underBinder +onlyGivenNames v2
  have h2 : Within F R z v2 := (by unfold v2; exact (State.when_within (sub hF rfl) (sub hR rfl) h1 (fun h3 => (by extract_lets -merge -useContext -underBinder +onlyGivenNames v4; have h4 : Within F R z v4 := (by unfold v4; exact (State.planStart_within (sub hF rfl) (sub hR rfl) (State.setF_within (sub hF rfl) (sub hR rfl) (elem hR rfl) h3))); clear_value v4; exact (.ite (State.exitPower_within (sub hF rfl) (sub hR rfl) h4) h4)))))
  clear_value v2
  extract_lets -merge -useContext -underBinder +onlyGivenNames v3
  have h3 : Within F R z v3 := (by unfold v3; exact (State.when_within (sub hF rfl) (sub hR rfl) h2 (fun h4 => (State.planAbort_within (sub hF rfl) (sub hR rfl) h4))))
  clear_value v3
  extract_lets -merge -useContext -underBinder +onlyGivenNames v4
  have h4 : Within F R z v4 := (by unfold v4; exact (State.when_within (sub hF rfl) (sub hR rfl) h3 (fun h5 => (State.planRelease_within (sub hF rfl) (sub hR rfl) h5))))
  clear_value v4
  exact State.when_within (sub hF rfl) (sub hR rfl) h4 (fun h5 => (State.planDump_within (sub hF rfl) (sub hR rfl) (State.setF_within (sub hF rfl) (sub hR rfl) (elem hR rfl) h5)))

theorem State.allocCtrl_within {F R} {z s : State} {a1} (hF : F &&& 0x220002 = 0x220002) (hR : R &&& 0x5000000000000000000000000000000000000000000000000000000 = 0x5000000000000000000000000000000000000000000000000000000) (h : Within F R z s) : Within F R z (State.allocCtrl s a1) := by
  unfold State.allocCtrl
  extract_lets -merge -useContext -underBinder +onlyGivenNames v1
  have h1 : Within F R z v1 := (by unfold v1; exact (State.writeFields_within (sub hF rfl) (sub hR rfl) (elem hR rfl) h))
  clear_value v1
  exact State.when_within (sub hF rfl) (sub hR rfl) h1 (fun h2 => (State.shareApply_within (sub hF rfl) (sub hR rfl) h2))

theorem State.fabCtrl_within {F R} {z s : State} {a1} (hF : F &&& 0x2b0a402 = 0x2b0a402) (hR : R &&& 0x8000000000000000000000200000000000000000001900021700041c00000000000400000000000000000000000000000000000002 = 0x8000000000000000000000200000000000000000001900021700041c00000000000400000000000000000000000000000000000002) (h : Within F R z s) : Within F R z (State.fabCtrl s a1) := by
  unfold State.fabCtrl
  extract_lets -merge -useContext -underBinder +onlyGivenNames v1
  have h1 : Within F R z v1 := (by unfold v1; exact (State.writeFields_within (sub hF rfl) (sub hR rfl) (elem hR rfl) h))
  clear_value v1
  extract_lets -merge -useContext -underBinder +onlyGivenNames v2
  have h2 : Within F R z v2 := (by unfold v2; exact (State.when_within (sub hF rfl) (sub hR rfl) h1 (fun h3 => (State.each_within (sub hF rfl) (sub hR rfl) h3 (fun h4 => (State.linkDown_within (sub hF rfl) (sub hR rfl) h4))))))
  clear_value v2
  extract_lets -merge -useContext -underBinder +onlyGivenNames v3
  have h3 : Within F R z v3 := (by unfold v3; exact (State.when_within (sub hF rfl) (sub hR rfl) h2 (fun h4 => (State.setF_within (sub hF rfl) (sub hR rfl) (elem hR rfl) h4))))
  clear_value v3
  exact State.fabStatus_within (sub hF rfl) (sub hR rfl) (State.rootSelf_within (sub hF rfl) (sub hR rfl) h3)

theorem State.linkCtrl_within {F R} {z s : State} {a1} (hF : F &&& 0x2b0a402 = 0x2b0a402) (hR : R &&& 0x8000000000000000000000200000000000000000001980020600041c00000000000400000000000000000000000000000000000002 = 0x8000000000000000000000200000000000000000001980020600041c00000000000400000000000000000000000000000000000002) (h : Within F R z s) : Within F R z (State.linkCtrl s a1) := by
  unfold State.linkCtrl
  extract_lets -merge -useContext -underBinder +onlyGivenNames v1
  clear_value v1
  extract_lets -merge -useContext -underBinder +onlyGivenNames v2
  have h2 : Within F R z v2 := (by unfold v2; exact (State.updLink_within (sub hF rfl) (sub hR rfl) h))
  clear_value v2
  extract_lets -merge -useContext -underBinder +onlyGivenNames v3
  have h3 : Within F R z v3 := (by unfold v3; exact (State.when_within (sub hF rfl) (sub hR rfl) h2 (fun h4 => (State.enterRetrain_within (sub hF rfl) (sub hR rfl) h4))))
  clear_value v3
  extract_lets -merge -useContext -underBinder +onlyGivenNames v4
  have h4 : Within F R z v4 := (by unfold v4; exact (State.when_within (sub hF rfl) (sub hR rfl) h3 (fun h5 => (State.linkDown_within (sub hF rfl) (sub hR rfl) h5))))
  clear_value v4
  exact State.when_within (sub hF rfl) (sub hR rfl) h4 (fun h5 => (State.linkDown_within (sub hF rfl) (sub hR rfl) h5))

theorem State.stageShare_within {F R} {z s : State} {a1} (hF : F &&& 0x40000 = 0x40000) (_hR : R &&& 0 = 0) (h : Within F R z s) : Within F R z (State.stageShare s a1) := by
  unfold State.stageShare
  extract_lets -merge -useContext -underBinder +onlyGivenNames v1
  clear_value v1
  exact .stages h (elem hF rfl)

theorem State.fnApply_within {F R} {z s : State}  (hF : F &&& 0x260002 = 0x260002) (hR : R &&& 0x400000000000000000000000000000000000000000000000000000000000000000 = 0x400000000000000000000000000000000000000000000000000000000000000000) (h : Within F R z s) : Within F R z (State.fnApply s) := by
  unfold State.fnApply
  extract_lets -merge -useContext -underBinder +onlyGivenNames v1 v2
  clear_value v1 v2
  exact .ite (State.raise_within (sub hF rfl) (sub hR rfl) (elem hR rfl) h) (State.raise_within (sub hF rfl) (sub hR rfl) (elem hR rfl) (State.setShare_within (sub hF rfl) (sub hR rfl) (.stages h (elem hF rfl))))

theorem State.fwpCtrl_within {F R} {z s : State} {a1} (hF : F &&& 0x16f9ce82 = 0x16f9ce82) (hR : R &&& 0x800080000000000000000000000047c10c008000480000000000000000008000000000040000000002000003000000000000000000 = 0x800080000000000000000000000047c10c008000480000000000000000008000000000040000000002000003000000000000000000) (h : Within F R z s) : Within F R z (State.fwpCtrl s a1) := by
  unfold State.fwpCtrl
  extract_lets -merge -useContext -underBinder +onlyGivenNames v1
  have h1 : Within F R z v1 := (by unfold v1; exact (State.writeFields_within (sub hF rfl) (sub hR rfl) (elem hR rfl) h))
  clear_value v1
  extract_lets -merge -useContext -underBinder +onlyGivenNames v2
  have h2 : Within F R z v2 := (by unfold v2; exact (State.when_within (sub hF rfl) (sub hR rfl) h1 (fun h3 => (State.fwpLoad_within (sub hF rfl) (sub hR rfl) h3))))
  clear_value v2
  extract_lets -merge -useContext -underBinder +onlyGivenNames v3
  have h3 : Within F R z v3 := (by unfold v3; exact (State.when_within (sub hF rfl) (sub hR rfl) h2 (fun h4 => (State.commitSvn_within (sub hF rfl) (sub hR rfl) h4))))
  clear_value v3
  exact State.when_within (sub hF rfl) (sub hR rfl) h3 (fun h4 => (State.restartRequest_within (sub hF rfl) (sub hR rfl) h4))

theorem State.hltCtrl_within {F R} {z s : State} {a1} (hF : F &&& 0x201082 = 0x201082) (hR : R &&& 0x40500000000000000000000000000000000000000000000000000000000000000000000000000000 = 0x40500000000000000000000000000000000000000000000000000000000000000000000000000000) (h : Within F R z s) : Within F R z (State.hltCtrl s a1) :=
  State.when_within (sub hF rfl) (sub hR rfl) (State.writeFields_within (sub hF rfl) (sub hR rfl) (elem hR rfl) h) (fun h1 => (State.hltRequest_within (sub hF rfl) (sub hR rfl) h1))

theorem State.pwrCtrl_within {F R} {z s : State} {a1} (hF : F &&& 0x3000000 = 0x3000000) (hR : R &&& 0x8c00000000000000000000000000000000000000000000000000000000000000000000000000000000000000000 = 0x8c00000000000000000000000000000000000000000000000000000000000000000000000000000000000000000) (h : Within F R z s) : Within F R z (State.pwrCtrl s a1) :=
  State.when_within (sub hF rfl) (sub hR rfl) (State.writeFields_within (sub hF rfl) (sub hR rfl) (elem hR rfl) h) (fun h1 => (State.powerRequest_within (sub hF rfl) (sub hR rfl) h1))

theorem State.hkaCtrl_within {F R} {z s : State} {a1} (hF : F &&& 0x1000000 = 0x1000000) (hR : R &&& 0x300000000000000000000000000000000000000000000000000000000000000000000000000000000000000000000000 = 0x300000000000000000000000000000000000000000000000000000000000000000000000000000000000000000000000) (h : Within F R z s) : Within F R z (State.hkaCtrl s a1) :=
  State.when_within (sub hF rfl) (sub hR rfl) (State.when_within (sub hF rfl) (sub hR rfl) h (fun h1 => (State.startCal_within (sub hF rfl) (sub hR rfl) h1))) (fun h1 => (State.startCal_within (sub hF rfl) (sub hR rfl) h1))

theorem State.wakeEn_within {F R} {z s : State} {a1} (hF : F &&& 0 = 0) (hR : R &&& 0x200000000000000000000000000000000000000000000000000000000000000000000000000000000000000000000000000 = 0x200000000000000000000000000000000000000000000000000000000000000000000000000000000000000000000000000) (h : Within F R z s) : Within F R z (State.wakeEn s a1) :=
  State.setNum_within (sub hF rfl) (sub hR rfl) (elem hR rfl) h

theorem State.cmpWrite_within {F R} {z s : State} {a1 a2} (hF : F &&& 0 = 0) (hR : R &&& 0x4000000000000000000000000000000000000000000000000000000000000000000000000000000000000000000000000000 = 0x4000000000000000000000000000000000000000000000000000000000000000000000000000000000000000000000000000) (h : Within F R z s) : Within F R z (State.cmpWrite s a1 a2) :=
  State.when_within (sub hF rfl) (sub hR rfl) h (fun h1 => (State.writeRw_within (sub hF rfl) (sub hR rfl) (elem hR rfl) h1))

theorem State.bbxCtrl_within {F R} {z s : State} {a1} (hF : F &&& 0x6200082 = 0x6200082) (hR : R &&& 0x810000000000000000000000000000000000000000000000000000000000000000000000000000000000000000000000000000 = 0x810000000000000000000000000000000000000000000000000000000000000000000000000000000000000000000000000000) (h : Within F R z s) : Within F R z (State.bbxCtrl s a1) :=
  State.when_within (sub hF rfl) (sub hR rfl) (State.when_within (sub hF rfl) (sub hR rfl) h (fun h1 => (State.bbxClear_within (sub hF rfl) (sub hR rfl) h1))) (fun h1 => (State.bbxSnap_within (sub hF rfl) (sub hR rfl) h1))

theorem State.evtCtrl_within {F R} {z s : State} {a1} (hF : F &&& 0x2000000 = 0x2000000) (hR : R &&& 0x6600000000000000000000000000000000000000000000000000000000000000000000000000000000000000000000000000000000000000000 = 0x6600000000000000000000000000000000000000000000000000000000000000000000000000000000000000000000000000000000000000000) (h : Within F R z s) : Within F R z (State.evtCtrl s a1) :=
  State.when_within (sub hF rfl) (sub hR rfl) (State.when_within (sub hF rfl) (sub hR rfl) (State.evtFreeze_within (sub hF rfl) (sub hR rfl) h) (fun h1 => (State.evtClear_within (sub hF rfl) (sub hR rfl) h1))) (fun h1 => (State.wfgReq_within (sub hF rfl) (sub hR rfl) h1))

theorem State.writeOwn_within {F R} {z s : State} {a1 a2 a3 a4 a5} (hF : F &&& 0x13bfe682 = 0x13bfe682) (hR : R &&& 0x8000000000000008800000200000000000000000501980021705041c0000000806040040000000a602d00063000000808000000003 = 0x8000000000000008800000200000000000000000501980021705041c0000000806040040000000a602d00063000000808000000003) (hr2 : R.testBit (Reg.ctorIdx a2) = true) (h : Within F R z s) : OWithin F R z (State.writeOwn s a1 a2 a3 a4 a5) := by
  unfold State.writeOwn
  split <;> [exact (OWithin.some (State.tdeCtrl_within (sub hF rfl) (sub hR rfl) h)); exact (OWithin.some (State.panCtrl_within (sub hF rfl) (sub hR rfl) h)); exact (OWithin.some (State.captureCtrl_within (sub hF rfl) (sub hR rfl) h)); exact (OWithin.some (State.wgtCtrl_within (sub hF rfl) (sub hR rfl) h)); exact (OWithin.some (State.tierWritten_within (sub hF rfl) (sub hR rfl) (State.setNum_within (sub hF rfl) (sub hR rfl) (elem hR rfl) h))); exact (OWithin.some (State.when_within (sub hF rfl) (sub hR rfl) h (fun h1 => (State.setNum_within (sub hF rfl) (sub hR rfl) (elem hR rfl) h1)))); exact (OWithin.some (State.when_within (sub hF rfl) (sub hR rfl) h (fun h1 => (State.setNum_within (sub hF rfl) (sub hR rfl) (elem hR rfl) h1)))); exact (OWithin.some (State.trustCtrl_within (sub hF rfl) (sub hR rfl) h)); exact (OWithin.some (State.when_within (sub hF rfl) (sub hR rfl) h (fun h1 => (State.setNum_within (sub hF rfl) (sub hR rfl) (elem hR rfl) h1)))); exact (OWithin.some (State.kvcReserve_within (sub hF rfl) (sub hR rfl) h)); exact (OWithin.some (State.admqWrite_within (sub hF rfl) (sub hR rfl) h)); exact (OWithin.some (State.bplCtrl_within (sub hF rfl) (sub hR rfl) h)); exact (OWithin.some (State.allocCtrl_within (sub hF rfl) (sub hR rfl) h)); exact (OWithin.some (State.fabCtrl_within (sub hF rfl) (sub hR rfl) h)); exact (OWithin.some (State.when_within (sub hF rfl) (sub hR rfl) h (fun h1 => (State.writeRw_within (sub hF rfl) (sub hR rfl) hr2 h1)))); exact (OWithin.some (State.when_within (sub hF rfl) (sub hR rfl) h (fun h1 => (State.writeRw_within (sub hF rfl) (sub hR rfl) hr2 h1)))); exact (OWithin.some (State.linkCtrl_within (sub hF rfl) (sub hR rfl) h)); exact (OWithin.some (State.setNum_within (sub hF rfl) (sub hR rfl) (elem hR rfl) h)); exact (OWithin.some (State.stageShare_within (sub hF rfl) (sub hR rfl) h)); exact (OWithin.some (State.stageShare_within (sub hF rfl) (sub hR rfl) h)); exact (OWithin.some (State.stageShare_within (sub hF rfl) (sub hR rfl) h)); exact (OWithin.some (State.when_within (sub hF rfl) (sub hR rfl) h (fun h1 => (State.fnApply_within (sub hF rfl) (sub hR rfl) h1)))); exact OWithin.none]

theorem State.writeOther_within {F R} {z s : State} {a1 a2 a3} (hF : F &&& 0x17f9dea2 = 0x17f9dea2) (hR : R &&& 0x660000000800081428030001cc0000000004057c10c008000480000000000000000008000000000040000000002000003000000000000000000 = 0x660000000800081428030001cc0000000004057c10c008000480000000000000000008000000000040000000002000003000000000000000000) (h : Within F R z s) : OWithin F R z (State.writeOther s a1 a2 a3) := by
  unfold State.writeOther
  split <;> [exact (OWithin.some (State.fwpCtrl_within (sub hF rfl) (sub hR rfl) h)); exact (OWithin.some (State.hltCtrl_within (sub hF rfl) (sub hR rfl) h)); exact (OWithin.some (State.pwrCtrl_within (sub hF rfl) (sub hR rfl) h)); exact (OWithin.some (State.vcoreTarget_within (sub hF rfl) (sub hR rfl) h)); exact (OWithin.some (State.pwrLimit_within (sub hF rfl) (sub hR rfl) h)); exact (OWithin.some (State.hkaCtrl_within (sub hF rfl) (sub hR rfl) h)); exact (OWithin.some (State.when_within (sub hF rfl) (sub hR rfl) h (fun h1 => (State.clearLatches_within (sub hF rfl) (sub hR rfl) h1)))); exact (OWithin.some (State.wakeEn_within (sub hF rfl) (sub hR rfl) h)); exact (OWithin.some (State.cmpWrite_within (sub hF rfl) (sub hR rfl) h)); exact (OWithin.some (State.bbxCtrl_within (sub hF rfl) (sub hR rfl) h)); exact (OWithin.some (State.evtCtrl_within (sub hF rfl) (sub hR rfl) h)); exact OWithin.none]

theorem State.writeReg_within {F R} {z s : State} {a1 a2 a3 a4 a5} (hF : F &&& 0x17fffea2 = 0x17fffea2) (hR : R &&& 0x660000000800081428030001cc0000020004057c10c008000581980021705041c0000800806040044000000a602d00063000000808000000003 = 0x660000000800081428030001cc0000020004057c10c008000581980021705041c0000800806040044000000a602d00063000000808000000003) (hr2 : R.testBit (Reg.ctorIdx a2) = true) (h : Within F R z s) : Within F R z (State.writeReg s a1 a2 a3 a4 a5) := by
  unfold State.writeReg
  split <;> [(rename_i hq; have h1 := OWithin.some' (State.writeOwn_within (sub hF rfl) (sub hR rfl) hr2 h) hq; exact h1); exact (by split <;> [(rename_i hq; have h1 := OWithin.some' (State.writeOther_within (sub hF rfl) (sub hR rfl) h) hq; exact h1); exact (by split <;> [exact (State.writeRw_within (sub hF rfl) (sub hR rfl) hr2 h); exact (State.setReg_within (sub hF rfl) (sub hR rfl) hr2 h); exact h; exact h])])]

theorem State.msixWrite_within {F R} {z s : State} {a1 a2 a3 a4} (hF : F &&& 0x200002 = 0x200002) (hR : R &&& 0 = 0) (h : Within F R z s) : Within F R z (State.msixWrite s a1 a2 a3 a4) := by
  unfold State.msixWrite
  exact .ite h (by extract_lets -merge -useContext -underBinder +onlyGivenNames v1; clear_value v1; exact (by extract_lets -merge -useContext -underBinder +onlyGivenNames v2; clear_value v2; exact (by extract_lets -merge -useContext -underBinder +onlyGivenNames v3; clear_value v3; exact (.ite (State.emit_within (sub hF rfl) (sub hR rfl) (State.setMsix_within (sub hF rfl) (sub hR rfl) h)) (State.setMsix_within (sub hF rfl) (sub hR rfl) h)))))

theorem State.write32_within {F R} {z s : State} {a1 a2 a3 a4} (hF : F &&& 0x17fffea2 = 0x17fffea2) (hR : R &&& 0xffffffffffffffffffffffffffffffffffffffffffffffffffffffffffffffffffffffffffffffffffffffffffffffffffffffffffffffffffffffffffffffff = 0xffffffffffffffffffffffffffffffffffffffffffffffffffffffffffffffffffffffffffffffffffffffffffffffffffffffffffffffffffffffffffffffff) (h : Within F R z s) : Within F R z (State.write32 s a1 a2 a3 a4) := by
  unfold State.write32
  split <;> [exact (.ite h (.ite (State.writeReg_within (sub hF rfl) (sub hR rfl) (allRegs_elem (sub hR (by decide)) _) h) (.ite (.hif h (elem hF rfl)) (by split <;> [exact (State.writeReg_within (sub hF rfl) (sub hR rfl) (allRegs_elem (sub hR (by decide)) _) h); exact (State.writeReg_within (sub hF rfl) (sub hR rfl) (allRegs_elem (sub hR (by decide)) _) (.hif h (elem hF rfl)))])))); exact (State.msixWrite_within (sub hF rfl) (sub hR rfl) h); exact (State.setLatch_within (sub hF rfl) (sub hR rfl) h); exact (State.doorbellWrite_within (sub hF rfl) (sub hR rfl) h); exact h; exact h; exact h; exact h]

theorem State.applyWrite_within {F R} {z s : State} {a1 a2 a3 a4 a5} (hF : F &&& 0x17fffea2 = 0x17fffea2) (hR : R &&& 0xffffffffffffffffffffffffffffffffffffffffffffffffffffffffffffffffffffffffffffffffffffffffffffffffffffffffffffffffffffffffffffffff = 0xffffffffffffffffffffffffffffffffffffffffffffffffffffffffffffffffffffffffffffffffffffffffffffffffffffffffffffffffffffffffffffffff) (h : Within F R z s) : Within F R z (State.applyWrite s a1 a2 a3 a4 a5) := by
  unfold State.applyWrite
  exact .ite (State.write32_within (sub hF rfl) (sub hR rfl) h) (by split <;> [exact (.ite (.ite h (State.writeReg_within (sub hF rfl) (sub hR rfl) (allRegs_elem (sub hR (by decide)) _) h)) (State.write32_within (sub hF rfl) (sub hR rfl) (State.write32_within (sub hF rfl) (sub hR rfl) h))); exact (State.doorbellWrite_within (sub hF rfl) (sub hR rfl) h); exact (by split <;> [exact h; exact (.ite (State.syncAdd_within (sub hF rfl) (sub hR rfl) h) (State.syncStore_within (sub hF rfl) (sub hR rfl) h))]); exact (State.write32_within (sub hF rfl) (sub hR rfl) (State.write32_within (sub hF rfl) (sub hR rfl) h))])

theorem State.holdWrite_within {F R} {z s : State} {a1 a2 a3 a4 a5 a6} (hF : F &&& 0x200002 = 0x200002) (hR : R &&& 0x600000000000000000000000000000000000000000000000000000000000000000 = 0x600000000000000000000000000000000000000000000000000000000000000000) (h : Within F R z s) : Within F R z (State.holdWrite s a1 a2 a3 a4 a5 a6) :=
  .ite (State.raise_within (sub hF rfl) (sub hR rfl) (elem hR rfl) (State.bumpSat_within (sub hF rfl) (sub hR rfl) (elem hR rfl) h)) (.hif h (elem hF rfl))

theorem State.hostWrite_within {F R} {z s : State} {a1 a2 a3 a4 a5} (hF : F &&& 0x37fffea2 = 0x37fffea2) (hR : R &&& 0xffffffffffffffffffffffffffffffffffffffffffffffffffffffffffffffffffffffffffffffffffffffffffffffffffffffffffffffffffffffffffffffff = 0xffffffffffffffffffffffffffffffffffffffffffffffffffffffffffffffffffffffffffffffffffffffffffffffffffffffffffffffffffffffffffffffff) (h : Within F R z s) : Within F R z (State.hostWrite s a1 a2 a3 a4 a5) := by
  unfold State.hostWrite
  extract_lets -merge -useContext -underBinder +onlyGivenNames v1
  have h1 : Within F R z v1 := (by unfold v1; exact (State.bump_within (sub hF rfl) (sub hR rfl) (elem hR rfl) h))
  clear_value v1
  exact .ite (.ite (State.badAccess_within (sub hF rfl) (sub hR rfl) h1) (.ite (State.holdWrite_within (sub hF rfl) (sub hR rfl) h1) (State.applyWrite_within (sub hF rfl) (sub hR rfl) h1))) (.ite (.ite (State.ringWrite_within (sub hF rfl) (sub hR rfl) h1) (State.badAccess_within (sub hF rfl) (sub hR rfl) h1)) h1)

theorem execRegisterWrite_within {F R} {s : State} {a0 a1 a2 a3 a4 a5} (hF : F &&& 0x37fffeb2 = 0x37fffeb2) (hR : R &&& 0xffffffffffffffffffffffffffffffffffffffffffffffffffffffffffffffffffffffffffffffffffffffffffffffffffffffffffffffffffffffffffffffff = 0xffffffffffffffffffffffffffffffffffffffffffffffffffffffffffffffffffffffffffffffffffffffffffffffffffffffffffffffffffffffffffffffff) : Touched F R s (execRegisterWrite a0 a1 a2 a3 a4 a5 s) :=
  .answer (sub hF rfl) (fun h1 => (State.when_within (sub hF rfl) (sub hR rfl) h1 (fun h2 => (State.hostWrite_within (sub hF rfl) (sub hR rfl) h2))))

/-! RegRows -/

theorem State.regWrite_within {F R} {z s : State} {a1 a2 a3} (hF : F &&& 0x37fffea2 = 0x37fffea2) (hR : R &&& 0xffffffffffffffffffffffffffffffffffffffffffffffffffffffffffffffffffffffffffffffffffffffffffffffffffffffffffffffffffffffffffffffff = 0xffffffffffffffffffffffffffffffffffffffffffffffffffffffffffffffffffffffffffffffffffffffffffffffffffffffffffffffffffffffffffffffff) (h : Within F R z s) : Within F R z (State.regWrite s a1 a2 a3) := by
  exact State.when_within (sub hF rfl) (sub hR rfl) h (fun k => State.hostWrite_within (sub hF rfl) (sub hR rfl) k)

theorem bitRow_within {F R} {s : State} {a0 a1 a2 a3 a4} (hF : F &&& 0x37fffeb2 = 0x37fffeb2) (hR : R &&& 0xffffffffffffffffffffffffffffffffffffffffffffffffffffffffffffffffffffffffffffffffffffffffffffffffffffffffffffffffffffffffffffffff = 0xffffffffffffffffffffffffffffffffffffffffffffffffffffffffffffffffffffffffffffffffffffffffffffffffffffffffffffffffffffffffffffffff) : Touched F R s (bitRow a0 a1 a2 a3 a4 s) :=
  .answer (sub hF rfl) (fun h1 => (State.when_within (sub hF rfl) (sub hR rfl) h1 (fun h2 => (State.regWrite_within (sub hF rfl) (sub hR rfl) h2))))

theorem fieldRow_within {F R} {s : State} {a0 a1 a2 a3 a4 a5 a6 a7} (hF : F &&& 0x37fffeb2 = 0x37fffeb2) (hR : R &&& 0xffffffffffffffffffffffffffffffffffffffffffffffffffffffffffffffffffffffffffffffffffffffffffffffffffffffffffffffffffffffffffffffff = 0xffffffffffffffffffffffffffffffffffffffffffffffffffffffffffffffffffffffffffffffffffffffffffffffffffffffffffffffffffffffffffffffff) : Touched F R s (fieldRow a0 a1 a2 a3 a4 a5 a6 a7 s) :=
  .answer (sub hF rfl) (fun h1 => (State.when_within (sub hF rfl) (sub hR rfl) h1 (fun h2 => (State.regWrite_within (sub hF rfl) (sub hR rfl) h2))))

theorem unitRow_within {F R} {s : State} {a0 a1 a2 a3 a4 a5 a6} (hF : F &&& 0x17fffeb2 = 0x17fffeb2) (hR : R &&& 0x660000000900081428030001cc0000020004057c10c008000581980021705041c0000800806040044000000a602d00063000000808000000003 = 0x660000000900081428030001cc0000020004057c10c008000581980021705041c0000800806040044000000a602d00063000000808000000003) (hr4 : R.testBit (Reg.ctorIdx a4) = true) : Touched F R s (unitRow a0 a1 a2 a3 a4 a5 a6 s) := by
  unfold unitRow
  exact .answer (sub hF rfl) (fun h1 => (State.when_within (sub hF rfl) (sub hR rfl) h1 (fun h2 => (by extract_lets -merge -useContext -underBinder +onlyGivenNames v3; have h3 : Within F R s v3 := (by unfold v3; exact (State.bump_within (sub hF rfl) (sub hR rfl) (elem hR rfl) h2)); clear_value v3; exact (State.when_within (sub hF rfl) (sub hR rfl) h3 (fun h4 => (State.writeReg_within (sub hF rfl) (sub hR rfl) hr4 h4)))))))

theorem execTdeApply_within {F R} {s : State} {a0 a1 a2} (hF : F &&& 0x37fffeb2 = 0x37fffeb2) (hR : R &&& 0xffffffffffffffffffffffffffffffffffffffffffffffffffffffffffffffffffffffffffffffffffffffffffffffffffffffffffffffffffffffffffffffff = 0xffffffffffffffffffffffffffffffffffffffffffffffffffffffffffffffffffffffffffffffffffffffffffffffffffffffffffffffffffffffffffffffff) : Touched F R s (execTdeApply a0 a1 a2 s) :=
  bitRow_within (sub hF rfl) (sub hR rfl) 

theorem execAonClearLatches_within {F R} {s : State} {a0 a1 a2} (hF : F &&& 0x37fffeb2 = 0x37fffeb2) (hR : R &&& 0xffffffffffffffffffffffffffffffffffffffffffffffffffffffffffffffffffffffffffffffffffffffffffffffffffffffffffffffffffffffffffffffff = 0xffffffffffffffffffffffffffffffffffffffffffffffffffffffffffffffffffffffffffffffffffffffffffffffffffffffffffffffffffffffffffffffff) : Touched F R s (execAonClearLatches a0 a1 a2 s) :=
  bitRow_within (sub hF rfl) (sub hR rfl) 

theorem execCaptureArm_within {F R} {s : State} {a0 a1 a2 a3} (hF : F &&& 0x17fffeb2 = 0x17fffeb2) (hR : R &&& 0x660000000900081428030001cc0000020004057c10c008000581980021705041c0000800806040044000000a602d00063000000808000000003 = 0x660000000900081428030001cc0000020004057c10c008000581980021705041c0000800806040044000000a602d00063000000808000000003) : Touched F R s (execCaptureArm a0 a1 a2 a3 s) :=
  unitRow_within (sub hF rfl) (sub hR rfl) (elem hR rfl) 

theorem execRefreshReq_within {F R} {s : State} {a0 a1 a2 a3} (hF : F &&& 0x17fffeb2 = 0x17fffeb2) (hR : R &&& 0x660000000900081428030001cc0000020004057c10c008000581980021705041c0000800806040044000000a602d00063000000808000200003 = 0x660000000900081428030001cc0000020004057c10c008000581980021705041c0000800806040044000000a602d00063000000808000200003) : Touched F R s (execRefreshReq a0 a1 a2 a3 s) :=
  unitRow_within (sub hF rfl) (sub hR rfl) (elem hR rfl) 

theorem execRakeReq_within {F R} {s : State} {a0 a1 a2 a3} (hF : F &&& 0x17fffeb2 = 0x17fffeb2) (hR : R &&& 0x660000000900081428030001cc0000020004057c10c008000581980021705041c0000800806040044000000a602d00063000000808000200003 = 0x660000000900081428030001cc0000020004057c10c008000581980021705041c0000800806040044000000a602d00063000000808000200003) : Touched F R s (execRakeReq a0 a1 a2 a3 s) :=
  unitRow_within (sub hF rfl) (sub hR rfl) (elem hR rfl) 

theorem execLoadStart_within {F R} {s : State} {a0 a1 a2} (hF : F &&& 0x37fffeb2 = 0x37fffeb2) (hR : R &&& 0xffffffffffffffffffffffffffffffffffffffffffffffffffffffffffffffffffffffffffffffffffffffffffffffffffffffffffffffffffffffffffffffff = 0xffffffffffffffffffffffffffffffffffffffffffffffffffffffffffffffffffffffffffffffffffffffffffffffffffffffffffffffffffffffffffffffff) : Touched F R s (execLoadStart a0 a1 a2 s) :=
  bitRow_within (sub hF rfl) (sub hR rfl) 

theorem execLoadAbort_within {F R} {s : State} {a0 a1 a2} (hF : F &&& 0x37fffeb2 = 0x37fffeb2) (hR : R &&& 0xffffffffffffffffffffffffffffffffffffffffffffffffffffffffffffffffffffffffffffffffffffffffffffffffffffffffffffffffffffffffffffffff = 0xffffffffffffffffffffffffffffffffffffffffffffffffffffffffffffffffffffffffffffffffffffffffffffffffffffffffffffffffffffffffffffffff) : Touched F R s (execLoadAbort a0 a1 a2 s) :=
  bitRow_within (sub hF rfl) (sub hR rfl) 

theorem execRestage_within {F R} {s : State} {a0 a1 a2} (hF : F &&& 0x37fffeb2 = 0x37fffeb2) (hR : R &&& 0xffffffffffffffffffffffffffffffffffffffffffffffffffffffffffffffffffffffffffffffffffffffffffffffffffffffffffffffffffffffffffffffff = 0xffffffffffffffffffffffffffffffffffffffffffffffffffffffffffffffffffffffffffffffffffffffffffffffffffffffffffffffffffffffffffffffff) : Touched F R s (execRestage a0 a1 a2 s) :=
  bitRow_within (sub hF rfl) (sub hR rfl) 

theorem execWgtRelease_within {F R} {s : State} {a0 a1 a2} (hF : F &&& 0x37fffeb2 = 0x37fffeb2) (hR : R &&& 0xffffffffffffffffffffffffffffffffffffffffffffffffffffffffffffffffffffffffffffffffffffffffffffffffffffffffffffffffffffffffffffffff = 0xffffffffffffffffffffffffffffffffffffffffffffffffffffffffffffffffffffffffffffffffffffffffffffffffffffffffffffffffffffffffffffffff) : Touched F R s (execWgtRelease a0 a1 a2 s) :=
  bitRow_within (sub hF rfl) (sub hR rfl) 

theorem execAdapterUnload_within {F R} {s : State} {a0 a1 a2} (hF : F &&& 0x37fffeb2 = 0x37fffeb2) (hR : R &&& 0xffffffffffffffffffffffffffffffffffffffffffffffffffffffffffffffffffffffffffffffffffffffffffffffffffffffffffffffffffffffffffffffff = 0xffffffffffffffffffffffffffffffffffffffffffffffffffffffffffffffffffffffffffffffffffffffffffffffffffffffffffffffffffffffffffffffff) : Touched F R s (execAdapterUnload a0 a1 a2 s) :=
  bitRow_within (sub hF rfl) (sub hR rfl) 

theorem execHostTierRegister_within {F R} {s : State} {a0 a1 a2} (hF : F &&& 0x37fffeb2 = 0x37fffeb2) (hR : R &&& 0xffffffffffffffffffffffffffffffffffffffffffffffffffffffffffffffffffffffffffffffffffffffffffffffffffffffffffffffffffffffffffffffff = 0xffffffffffffffffffffffffffffffffffffffffffffffffffffffffffffffffffffffffffffffffffffffffffffffffffffffffffffffffffffffffffffffff) : Touched F R s (execHostTierRegister a0 a1 a2 s) :=
  .answer (sub hF rfl) (fun h1 => (State.regWrite_within (sub hF rfl) (sub hR rfl) h1))

theorem execTrustWrite_within {F R} {s : State} {a0 a1 a2} (hF : F &&& 0x37fffeb2 = 0x37fffeb2) (hR : R &&& 0xffffffffffffffffffffffffffffffffffffffffffffffffffffffffffffffffffffffffffffffffffffffffffffffffffffffffffffffffffffffffffffffff = 0xffffffffffffffffffffffffffffffffffffffffffffffffffffffffffffffffffffffffffffffffffffffffffffffffffffffffffffffffffffffffffffffff) : Touched F R s (execTrustWrite a0 a1 a2 s) :=
  bitRow_within (sub hF rfl) (sub hR rfl) 

theorem execTrustErase_within {F R} {s : State} {a0 a1 a2} (hF : F &&& 0x37fffeb2 = 0x37fffeb2) (hR : R &&& 0xffffffffffffffffffffffffffffffffffffffffffffffffffffffffffffffffffffffffffffffffffffffffffffffffffffffffffffffffffffffffffffffff = 0xffffffffffffffffffffffffffffffffffffffffffffffffffffffffffffffffffffffffffffffffffffffffffffffffffffffffffffffffffffffffffffffff) : Touched F R s (execTrustErase a0 a1 a2 s) :=
  bitRow_within (sub hF rfl) (sub hR rfl) 

theorem execKvcReserveWrite_within {F R} {s : State} {a0 a1 a2} (hF : F &&& 0x37fffeb2 = 0x37fffeb2) (hR : R &&& 0xffffffffffffffffffffffffffffffffffffffffffffffffffffffffffffffffffffffffffffffffffffffffffffffffffffffffffffffffffffffffffffffff = 0xffffffffffffffffffffffffffffffffffffffffffffffffffffffffffffffffffffffffffffffffffffffffffffffffffffffffffffffffffffffffffffffff) : Touched F R s (execKvcReserveWrite a0 a1 a2 s) :=
  .answer (sub hF rfl) (fun h1 => (State.regWrite_within (sub hF rfl) (sub hR rfl) h1))

theorem execAdmqCtrlWrite_within {F R} {s : State} {a0 a1 a2} (hF : F &&& 0x37fffeb2 = 0x37fffeb2) (hR : R &&& 0xffffffffffffffffffffffffffffffffffffffffffffffffffffffffffffffffffffffffffffffffffffffffffffffffffffffffffffffffffffffffffffffff = 0xffffffffffffffffffffffffffffffffffffffffffffffffffffffffffffffffffffffffffffffffffffffffffffffffffffffffffffffffffffffffffffffff) : Touched F R s (execAdmqCtrlWrite a0 a1 a2 s) :=
  .answer (sub hF rfl) (fun h1 => (State.regWrite_within (sub hF rfl) (sub hR rfl) h1))

theorem execPlanLoadStart_within {F R} {s : State} {a0 a1 a2} (hF : F &&& 0x37fffeb2 = 0x37fffeb2) (hR : R &&& 0xffffffffffffffffffffffffffffffffffffffffffffffffffffffffffffffffffffffffffffffffffffffffffffffffffffffffffffffffffffffffffffffff = 0xffffffffffffffffffffffffffffffffffffffffffffffffffffffffffffffffffffffffffffffffffffffffffffffffffffffffffffffffffffffffffffffff) : Touched F R s (execPlanLoadStart a0 a1 a2 s) :=
  bitRow_within (sub hF rfl) (sub hR rfl) 

theorem execPlanLoadAbort_within {F R} {s : State} {a0 a1 a2} (hF : F &&& 0x37fffeb2 = 0x37fffeb2) (hR : R &&& 0xffffffffffffffffffffffffffffffffffffffffffffffffffffffffffffffffffffffffffffffffffffffffffffffffffffffffffffffffffffffffffffffff = 0xffffffffffffffffffffffffffffffffffffffffffffffffffffffffffffffffffffffffffffffffffffffffffffffffffffffffffffffffffffffffffffffff) : Touched F R s (execPlanLoadAbort a0 a1 a2 s) :=
  bitRow_within (sub hF rfl) (sub hR rfl) 

theorem execPlanRelease_within {F R} {s : State} {a0 a1 a2} (hF : F &&& 0x37fffeb2 = 0x37fffeb2) (hR : R &&& 0xffffffffffffffffffffffffffffffffffffffffffffffffffffffffffffffffffffffffffffffffffffffffffffffffffffffffffffffffffffffffffffffff = 0xffffffffffffffffffffffffffffffffffffffffffffffffffffffffffffffffffffffffffffffffffffffffffffffffffffffffffffffffffffffffffffffff) : Touched F R s (execPlanRelease a0 a1 a2 s) :=
  bitRow_within (sub hF rfl) (sub hR rfl) 

theorem execPlacementDump_within {F R} {s : State} {a0 a1 a2} (hF : F &&& 0x37fffeb2 = 0x37fffeb2) (hR : R &&& 0xffffffffffffffffffffffffffffffffffffffffffffffffffffffffffffffffffffffffffffffffffffffffffffffffffffffffffffffffffffffffffffffff = 0xffffffffffffffffffffffffffffffffffffffffffffffffffffffffffffffffffffffffffffffffffffffffffffffffffffffffffffffffffffffffffffffff) : Touched F R s (execPlacementDump a0 a1 a2 s) :=
  bitRow_within (sub hF rfl) (sub hR rfl) 

theorem execShareApply_within {F R} {s : State} {a0 a1 a2} (hF : F &&& 0x37fffeb2 = 0x37fffeb2) (hR : R &&& 0xffffffffffffffffffffffffffffffffffffffffffffffffffffffffffffffffffffffffffffffffffffffffffffffffffffffffffffffffffffffffffffffff = 0xffffffffffffffffffffffffffffffffffffffffffffffffffffffffffffffffffffffffffffffffffffffffffffffffffffffffffffffffffffffffffffffff) : Touched F R s (execShareApply a0 a1 a2 s) :=
  bitRow_within (sub hF rfl) (sub hR rfl) 

theorem execRetrain_within {F R} {s : State} {a0 a1 a2} (hF : F &&& 0x37fffeb2 = 0x37fffeb2) (hR : R &&& 0xffffffffffffffffffffffffffffffffffffffffffffffffffffffffffffffffffffffffffffffffffffffffffffffffffffffffffffffffffffffffffffffff = 0xffffffffffffffffffffffffffffffffffffffffffffffffffffffffffffffffffffffffffffffffffffffffffffffffffffffffffffffffffffffffffffffff) : Touched F R s (execRetrain a0 a1 a2 s) :=
  bitRow_within (sub hF rfl) (sub hR rfl) 

theorem execLinkReset_within {F R} {s : State} {a0 a1 a2} (hF : F &&& 0x37fffeb2 = 0x37fffeb2) (hR : R &&& 0xffffffffffffffffffffffffffffffffffffffffffffffffffffffffffffffffffffffffffffffffffffffffffffffffffffffffffffffffffffffffffffffff = 0xffffffffffffffffffffffffffffffffffffffffffffffffffffffffffffffffffffffffffffffffffffffffffffffffffffffffffffffffffffffffffffffff) : Touched F R s (execLinkReset a0 a1 a2 s) :=
  bitRow_within (sub hF rfl) (sub hR rfl) 

theorem execMapLoad_within {F R} {s : State} {a0 a1 a2 a3} (hF : F &&& 0x37fffeb2 = 0x37fffeb2) (hR : R &&& 0xffffffffffffffffffffffffffffffffffffffffffffffffffffffffffffffffffffffffffffffffffffffffffffffffffffffffffffffffffffffffffffffff = 0xffffffffffffffffffffffffffffffffffffffffffffffffffffffffffffffffffffffffffffffffffffffffffffffffffffffffffffffffffffffffffffffff) : Touched F R s (execMapLoad a0 a1 a2 a3 s) := by
  unfold execMapLoad
  exact .answer (sub hF rfl) (fun h1 => (State.when_within (sub hF rfl) (sub hR rfl) h1 (fun h2 => (by extract_lets -merge -useContext -underBinder +onlyGivenNames v3; have h3 : Within F R s v3 := (by unfold v3; exact (State.regWrite_within (sub hF rfl) (sub hR rfl) h2)); clear_value v3; exact (State.when_within (sub hF rfl) (sub hR rfl) h3 (fun h4 => (State.setF_within (sub hF rfl) (sub hR rfl) (elem hR rfl) (State.mapRead_within (sub hF rfl) (sub hR rfl) h4))))))))

theorem execFnApply_within {F R} {s : State} {a0 a1 a2} (hF : F &&& 0x37fffeb2 = 0x37fffeb2) (hR : R &&& 0xffffffffffffffffffffffffffffffffffffffffffffffffffffffffffffffffffffffffffffffffffffffffffffffffffffffffffffffffffffffffffffffff = 0xffffffffffffffffffffffffffffffffffffffffffffffffffffffffffffffffffffffffffffffffffffffffffffffffffffffffffffffffffffffffffffffff) : Touched F R s (execFnApply a0 a1 a2 s) :=
  bitRow_within (sub hF rfl) (sub hR rfl) 

theorem execFwpLoad_within {F R} {s : State} {a0 a1 a2} (hF : F &&& 0x37fffeb2 = 0x37fffeb2) (hR : R &&& 0xffffffffffffffffffffffffffffffffffffffffffffffffffffffffffffffffffffffffffffffffffffffffffffffffffffffffffffffffffffffffffffffff = 0xffffffffffffffffffffffffffffffffffffffffffffffffffffffffffffffffffffffffffffffffffffffffffffffffffffffffffffffffffffffffffffffff) : Touched F R s (execFwpLoad a0 a1 a2 s) :=
  bitRow_within (sub hF rfl) (sub hR rfl) 

theorem execCommitSvn_within {F R} {s : State} {a0 a1 a2} (hF : F &&& 0x37fffeb2 = 0x37fffeb2) (hR : R &&& 0xffffffffffffffffffffffffffffffffffffffffffffffffffffffffffffffffffffffffffffffffffffffffffffffffffffffffffffffffffffffffffffffff = 0xffffffffffffffffffffffffffffffffffffffffffffffffffffffffffffffffffffffffffffffffffffffffffffffffffffffffffffffffffffffffffffffff) : Touched F R s (execCommitSvn a0 a1 a2 s) :=
  bitRow_within (sub hF rfl) (sub hR rfl) 

theorem execProcRestartRequest_within {F R} {s : State} {a0 a1 a2} (hF : F &&& 0x37fffeb2 = 0x37fffeb2) (hR : R &&& 0xffffffffffffffffffffffffffffffffffffffffffffffffffffffffffffffffffffffffffffffffffffffffffffffffffffffffffffffffffffffffffffffff = 0xffffffffffffffffffffffffffffffffffffffffffffffffffffffffffffffffffffffffffffffffffffffffffffffffffffffffffffffffffffffffffffffff) : Touched F R s (execProcRestartRequest a0 a1 a2 s) :=
  bitRow_within (sub hF rfl) (sub hR rfl) 

theorem execHltReqSweep_within {F R} {s : State} {a0 a1 a2} (hF : F &&& 0x37fffeb2 = 0x37fffeb2) (hR : R &&& 0xffffffffffffffffffffffffffffffffffffffffffffffffffffffffffffffffffffffffffffffffffffffffffffffffffffffffffffffffffffffffffffffff = 0xffffffffffffffffffffffffffffffffffffffffffffffffffffffffffffffffffffffffffffffffffffffffffffffffffffffffffffffffffffffffffffffff) : Touched F R s (execHltReqSweep a0 a1 a2 s) :=
  fieldRow_within (sub hF rfl) (sub hR rfl) 

theorem execHltReqRetire_within {F R} {s : State} {a0 a1 a2} (hF : F &&& 0x37fffeb2 = 0x37fffeb2) (hR : R &&& 0xffffffffffffffffffffffffffffffffffffffffffffffffffffffffffffffffffffffffffffffffffffffffffffffffffffffffffffffffffffffffffffffff = 0xffffffffffffffffffffffffffffffffffffffffffffffffffffffffffffffffffffffffffffffffffffffffffffffffffffffffffffffffffffffffffffffff) : Touched F R s (execHltReqRetire a0 a1 a2 s) :=
  fieldRow_within (sub hF rfl) (sub hR rfl) 

theorem execHltReqUnlist_within {F R} {s : State} {a0 a1 a2} (hF : F &&& 0x37fffeb2 = 0x37fffeb2) (hR : R &&& 0xffffffffffffffffffffffffffffffffffffffffffffffffffffffffffffffffffffffffffffffffffffffffffffffffffffffffffffffffffffffffffffffff = 0xffffffffffffffffffffffffffffffffffffffffffffffffffffffffffffffffffffffffffffffffffffffffffffffffffffffffffffffffffffffffffffffff) : Touched F R s (execHltReqUnlist a0 a1 a2 s) :=
  fieldRow_within (sub hF rfl) (sub hR rfl) 

theorem execHltReqInvalid_within {F R} {s : State} {a0 a1 a2} (hF : F &&& 0x37fffeb2 = 0x37fffeb2) (hR : R &&& 0xffffffffffffffffffffffffffffffffffffffffffffffffffffffffffffffffffffffffffffffffffffffffffffffffffffffffffffffffffffffffffffffff = 0xffffffffffffffffffffffffffffffffffffffffffffffffffffffffffffffffffffffffffffffffffffffffffffffffffffffffffffffffffffffffffffffff) : Touched F R s (execHltReqInvalid a0 a1 a2 s) :=
  fieldRow_within (sub hF rfl) (sub hR rfl) 

theorem execPowerReqActive_within {F R} {s : State} {a0 a1 a2} (hF : F &&& 0x37fffeb2 = 0x37fffeb2) (hR : R &&& 0xffffffffffffffffffffffffffffffffffffffffffffffffffffffffffffffffffffffffffffffffffffffffffffffffffffffffffffffffffffffffffffffff = 0xffffffffffffffffffffffffffffffffffffffffffffffffffffffffffffffffffffffffffffffffffffffffffffffffffffffffffffffffffffffffffffffff) : Touched F R s (execPowerReqActive a0 a1 a2 s) :=
  fieldRow_within (sub hF rfl) (sub hR rfl) 

theorem execPowerReqIdle_within {F R} {s : State} {a0 a1 a2} (hF : F &&& 0x37fffeb2 = 0x37fffeb2) (hR : R &&& 0xffffffffffffffffffffffffffffffffffffffffffffffffffffffffffffffffffffffffffffffffffffffffffffffffffffffffffffffffffffffffffffffff = 0xffffffffffffffffffffffffffffffffffffffffffffffffffffffffffffffffffffffffffffffffffffffffffffffffffffffffffffffffffffffffffffffff) : Touched F R s (execPowerReqIdle a0 a1 a2 s) :=
  fieldRow_within (sub hF rfl) (sub hR rfl) 

theorem execPowerReqStandby_within {F R} {s : State} {a0 a1 a2} (hF : F &&& 0x37fffeb2 = 0x37fffeb2) (hR : R &&& 0xffffffffffffffffffffffffffffffffffffffffffffffffffffffffffffffffffffffffffffffffffffffffffffffffffffffffffffffffffffffffffffffff = 0xffffffffffffffffffffffffffffffffffffffffffffffffffffffffffffffffffffffffffffffffffffffffffffffffffffffffffffffffffffffffffffffff) : Touched F R s (execPowerReqStandby a0 a1 a2 s) :=
  fieldRow_within (sub hF rfl) (sub hR rfl) 

theorem execPowerReqDeepSleep_within {F R} {s : State} {a0 a1 a2} (hF : F &&& 0x37fffeb2 = 0x37fffeb2) (hR : R &&& 0xffffffffffffffffffffffffffffffffffffffffffffffffffffffffffffffffffffffffffffffffffffffffffffffffffffffffffffffffffffffffffffffff = 0xffffffffffffffffffffffffffffffffffffffffffffffffffffffffffffffffffffffffffffffffffffffffffffffffffffffffffffffffffffffffffffffff) : Touched F R s (execPowerReqDeepSleep a0 a1 a2 s) :=
  fieldRow_within (sub hF rfl) (sub hR rfl) 

theorem execVcoreTargetWrite_within {F R} {s : State} {a0 a1 a2} (hF : F &&& 0x37fffeb2 = 0x37fffeb2) (hR : R &&& 0xffffffffffffffffffffffffffffffffffffffffffffffffffffffffffffffffffffffffffffffffffffffffffffffffffffffffffffffffffffffffffffffff = 0xffffffffffffffffffffffffffffffffffffffffffffffffffffffffffffffffffffffffffffffffffffffffffffffffffffffffffffffffffffffffffffffff) : Touched F R s (execVcoreTargetWrite a0 a1 a2 s) :=
  .answer (sub hF rfl) (fun h1 => (State.regWrite_within (sub hF rfl) (sub hR rfl) h1))

theorem execPwrLimitWrite_within {F R} {s : State} {a0 a1 a2} (hF : F &&& 0x37fffeb2 = 0x37fffeb2) (hR : R &&& 0xffffffffffffffffffffffffffffffffffffffffffffffffffffffffffffffffffffffffffffffffffffffffffffffffffffffffffffffffffffffffffffffff = 0xffffffffffffffffffffffffffffffffffffffffffffffffffffffffffffffffffffffffffffffffffffffffffffffffffffffffffffffffffffffffffffffff) : Touched F R s (execPwrLimitWrite a0 a1 a2 s) :=
  .answer (sub hF rfl) (fun h1 => (State.regWrite_within (sub hF rfl) (sub hR rfl) h1))

theorem execHkaSelfCal_within {F R} {s : State} {a0 a1 a2} (hF : F &&& 0x37fffeb2 = 0x37fffeb2) (hR : R &&& 0xffffffffffffffffffffffffffffffffffffffffffffffffffffffffffffffffffffffffffffffffffffffffffffffffffffffffffffffffffffffffffffffff = 0xffffffffffffffffffffffffffffffffffffffffffffffffffffffffffffffffffffffffffffffffffffffffffffffffffffffffffffffffffffffffffffffff) : Touched F R s (execHkaSelfCal a0 a1 a2 s) :=
  bitRow_within (sub hF rfl) (sub hR rfl) 

theorem execHkaRefCal_within {F R} {s : State} {a0 a1 a2} (hF : F &&& 0x37fffeb2 = 0x37fffeb2) (hR : R &&& 0xffffffffffffffffffffffffffffffffffffffffffffffffffffffffffffffffffffffffffffffffffffffffffffffffffffffffffffffffffffffffffffffff = 0xffffffffffffffffffffffffffffffffffffffffffffffffffffffffffffffffffffffffffffffffffffffffffffffffffffffffffffffffffffffffffffffff) : Touched F R s (execHkaRefCal a0 a1 a2 s) :=
  bitRow_within (sub hF rfl) (sub hR rfl) 

theorem execEvtFreeze_within {F R} {s : State} {a0 a1 a2} (hF : F &&& 0x37fffeb2 = 0x37fffeb2) (hR : R &&& 0xffffffffffffffffffffffffffffffffffffffffffffffffffffffffffffffffffffffffffffffffffffffffffffffffffffffffffffffffffffffffffffffff = 0xffffffffffffffffffffffffffffffffffffffffffffffffffffffffffffffffffffffffffffffffffffffffffffffffffffffffffffffffffffffffffffffff) : Touched F R s (execEvtFreeze a0 a1 a2 s) :=
  .answer (sub hF rfl) (fun h1 => (State.regWrite_within (sub hF rfl) (sub hR rfl) h1))

theorem execEvtClear_within {F R} {s : State} {a0 a1 a2} (hF : F &&& 0x37fffeb2 = 0x37fffeb2) (hR : R &&& 0xffffffffffffffffffffffffffffffffffffffffffffffffffffffffffffffffffffffffffffffffffffffffffffffffffffffffffffffffffffffffffffffff = 0xffffffffffffffffffffffffffffffffffffffffffffffffffffffffffffffffffffffffffffffffffffffffffffffffffffffffffffffffffffffffffffffff) : Touched F R s (execEvtClear a0 a1 a2 s) :=
  bitRow_within (sub hF rfl) (sub hR rfl) 

theorem execWfgReq_within {F R} {s : State} {a0 a1 a2} (hF : F &&& 0x37fffeb2 = 0x37fffeb2) (hR : R &&& 0xffffffffffffffffffffffffffffffffffffffffffffffffffffffffffffffffffffffffffffffffffffffffffffffffffffffffffffffffffffffffffffffff = 0xffffffffffffffffffffffffffffffffffffffffffffffffffffffffffffffffffffffffffffffffffffffffffffffffffffffffffffffffffffffffffffffff) : Touched F R s (execWfgReq a0 a1 a2 s) :=
  bitRow_within (sub hF rfl) (sub hR rfl) 

theorem execBbxClear_within {F R} {s : State} {a0 a1 a2} (hF : F &&& 0x37fffeb2 = 0x37fffeb2) (hR : R &&& 0xffffffffffffffffffffffffffffffffffffffffffffffffffffffffffffffffffffffffffffffffffffffffffffffffffffffffffffffffffffffffffffffff = 0xffffffffffffffffffffffffffffffffffffffffffffffffffffffffffffffffffffffffffffffffffffffffffffffffffffffffffffffffffffffffffffffff) : Touched F R s (execBbxClear a0 a1 a2 s) :=
  bitRow_within (sub hF rfl) (sub hR rfl) 

theorem execBbxSnap_within {F R} {s : State} {a0 a1 a2} (hF : F &&& 0x37fffeb2 = 0x37fffeb2) (hR : R &&& 0xffffffffffffffffffffffffffffffffffffffffffffffffffffffffffffffffffffffffffffffffffffffffffffffffffffffffffffffffffffffffffffffff = 0xffffffffffffffffffffffffffffffffffffffffffffffffffffffffffffffffffffffffffffffffffffffffffffffffffffffffffffffffffffffffffffffff) : Touched F R s (execBbxSnap a0 a1 a2 s) :=
  bitRow_within (sub hF rfl) (sub hR rfl) 

theorem State.applyHeld_within {F R} {z s : State} {a1} (hF : F &&& 0x17fffea2 = 0x17fffea2) (hR : R &&& 0xffffffffffffffffffffffffffffffffffffffffffffffffffffffffffffffffffffffffffffffffffffffffffffffffffffffffffffffffffffffffffffffff = 0xffffffffffffffffffffffffffffffffffffffffffffffffffffffffffffffffffffffffffffffffffffffffffffffffffffffffffffffffffffffffffffffff) (h : Within F R z s) : Within F R z (State.applyHeld s a1) := by
  unfold State.applyHeld
  extract_lets -merge -useContext -underBinder +onlyGivenNames v1
  clear_value v1
  exact State.each_within (sub hF rfl) (sub hR rfl) (.hif h (elem hF rfl)) (fun h2 => (State.applyWrite_within (sub hF rfl) (sub hR rfl) h2))

theorem execProcRestartDone_within {F R} {s : State} {a0 a1} (hF : F &&& 0x17fffeb2 = 0x17fffeb2) (hR : R &&& 0xffffffffffffffffffffffffffffffffffffffffffffffffffffffffffffffffffffffffffffffffffffffffffffffffffffffffffffffffffffffffffffffff = 0xffffffffffffffffffffffffffffffffffffffffffffffffffffffffffffffffffffffffffffffffffffffffffffffffffffffffffffffffffffffffffffffff) : Touched F R s (execProcRestartDone a0 a1 s) := by
  unfold execProcRestartDone
  exact .answer (sub hF rfl) (fun h1 => (State.when_within (sub hF rfl) (sub hR rfl) h1 (fun h2 => (by extract_lets -merge -useContext -underBinder +onlyGivenNames u3_0 v3; have h3 : Within F R s v3 := (by unfold v3; exact (.hif h2 (elem hF rfl))); clear_value v3; exact (by extract_lets -merge -useContext -underBinder +onlyGivenNames v4; have h4 : Within F R s v4 := (by unfold v4; exact (State.when_within (sub hF rfl) (sub hR rfl) h3 (fun h5 => (State.setF_within (sub hF rfl) (sub hR rfl) (elem hR rfl) h5)))); clear_value v4; exact (by split <;> [exact (State.applyHeld_within (sub hF rfl) (sub hR rfl) h4); exact (State.applyHeld_within (sub hF rfl) (sub hR rfl) h4); exact (State.applyHeld_within (sub hF rfl) (sub hR rfl) h4); exact h4]))))))

end Sys2Proof.Machine
end

