-- ==== Sys2Proof/Laws/WithinTide.lean ====
section
/-! SUPPORT. `Within` (Within.lean) through edges and tides: one lemma for each operation, in the order
of the model's files; `Touched` for each meaning. -/

namespace Sys2Proof.Machine

/-! TideShift -/

theorem State.shiftTides_within {F R} {z s : State} {a1} (hF : F &&& 0x90f600 = 0x90f600) (hR : R &&& 0x3000000000000000000060000000000000000000380 = 0x3000000000000000000060000000000000000000380) (h : Within F R z s) : Within F R z (State.shiftTides s a1) := by
  unfold State.shiftTides
  extract_lets v
  have hv : Within F R z v := Within.foldl_mem h (fun t r hr k => State.setNum_within (sub hF rfl) (sub hR rfl)
    (elem hR (memBit hr rfl)) k)
  exact .chg 9500160 hv (sub hF rfl) rfl (fun g hg => by cases g <;> first | rfl | exact absurd hg (by decide))

theorem State.rebase_within {F R} {z s : State} {a1 a2} (hF : F &&& 0x2b0f602 = 0x2b0f602) (hR : R &&& 0x3000000000000000000060000000000000000006380 = 0x3000000000000000000060000000000000000006380) (h : Within F R z s) : Within F R z (State.rebase s a1 a2) := by
  unfold State.rebase
  extract_lets -merge -useContext -underBinder +onlyGivenNames v1 v2
  clear_value v1 v2
  exact State.event_within (sub hF rfl) (sub hR rfl) (State.raise_within (sub hF rfl) (sub hR rfl) (elem hR rfl) (State.setNum_within (sub hF rfl) (sub hR rfl) (elem hR rfl) (State.shiftTides_within (sub hF rfl) (sub hR rfl) h)))

/-! Switch -/

theorem State.countDeferred_within {F R} {z s : State}  (hF : F &&& 0x1000 = 0x1000) (hR : R &&& 0x2000000000000000000000000000000000000000000000000000000000000000000000000000000000 = 0x2000000000000000000000000000000000000000000000000000000000000000000000000000000000) (h : Within F R z s) : Within F R z (State.countDeferred s) := by
  unfold State.countDeferred
  exact .ite h (by extract_lets -merge -useContext -underBinder +onlyGivenNames v1; clear_value v1; exact (by extract_lets -merge -useContext -underBinder +onlyGivenNames v2; clear_value v2; exact (by extract_lets -merge -useContext -underBinder +onlyGivenNames v3; clear_value v3; exact (by extract_lets -merge -useContext -underBinder +onlyGivenNames v4; have h4 : Within F R z v4 := (by unfold v4; exact (State.bump_within (sub hF rfl) (sub hR rfl) (elem hR rfl) h)); clear_value v4; exact (State.when_within (sub hF rfl) (sub hR rfl) h4 (fun h5 => (.phys h5 (elem hF rfl))))))))

theorem State.judgeDue_within {F R} {z s : State} {a1} (hF : F &&& 0x1000 = 0x1000) (_hR : R &&& 0 = 0) (h : Within F R z s) : Within F R z (State.judgeDue s a1) := by
  unfold State.judgeDue
  extract_lets -merge -useContext -underBinder +onlyGivenNames v1
  clear_value v1
  exact .phys h (elem hF rfl)

theorem State.takeRequests_within {F R} {z s : State}  (hF : F &&& 0x2a8f682 = 0x2a8f682) (hR : R &&& 0x800000000000000000208000400000000000000000000000041c00008000000400000000000000000000000000000000000000 = 0x800000000000000000208000400000000000000000000000041c00008000000400000000000000000000000000000000000000) (h : Within F R z s) : Within F R z (State.takeRequests s) := by
  unfold State.takeRequests
  exact State.each_within (sub hF rfl) (sub hR rfl) h (fun h1 => (by split <;> [exact h1; exact (by extract_lets -merge -useContext -underBinder +onlyGivenNames v2; have h2 : Within F R z v2 := (by unfold v2; exact (State.updPhys_within (sub hF rfl) (sub hR rfl) h1)); clear_value v2; exact (.ite h2 (State.retire_within (sub hF rfl) (sub hR rfl) (State.lastFault_within (sub hF rfl) (sub hR rfl) (State.faultRec_within (sub hF rfl) (sub hR rfl) h2)))))]))

theorem State.carry_within {F R} {z s : State} {a1 a2} (hF : F &&& 0x1000 = 0x1000) (hR : R &&& 0 = 0) (h : Within F R z s) : Within F R z (State.carry s a1 a2) :=
  State.updPhys_within (sub hF rfl) (sub hR rfl) h

theorem State.freeAgain_within {F R} {z s : State} {a1} (hF : F &&& 0x1000 = 0x1000) (hR : R &&& 0 = 0) (h : Within F R z s) : Within F R z (State.freeAgain s a1) :=
  State.updPhys_within (sub hF rfl) (sub hR rfl) h

theorem State.migrateOut_within {F R} {z s : State} {a1 a2} (hF : F &&& 0x8885e04 = 0x8885e04) (hR : R &&& 0x63f0000000000000000000004000000000000000000000000000041e00000000000000000000000000000000000080000000000000 = 0x63f0000000000000000000004000000000000000000000000000041e00000000000000000000000000000000000080000000000000) (h : Within F R z s) : Within F R z (State.migrateOut s a1 a2) := by
  unfold State.migrateOut
  extract_lets -merge -useContext -underBinder +onlyGivenNames v1 v2 v3
  clear_value v1 v2 v3
  extract_lets -merge -useContext -underBinder +onlyGivenNames v4
  have h4 : Within F R z v4 := (by unfold v4; exact (State.each_within (sub hF rfl) (sub hR rfl) (State.unstage_within (sub hF rfl) (sub hR rfl) (State.tick_within (sub hF rfl) (sub hR rfl) h)) (fun h5 => (State.updPan_within (sub hF rfl) (sub hR rfl) h5))))
  clear_value v4
  extract_lets -merge -useContext -underBinder +onlyGivenNames v5
  have h5 : Within F R z v5 := (by unfold v5; exact (State.updPhys_within (sub hF rfl) (sub hR rfl) (State.updPhys_within (sub hF rfl) (sub hR rfl) h4)))
  clear_value v5
  extract_lets -merge -useContext -underBinder +onlyGivenNames v6
  clear_value v6
  exact State.restoreMoved_within (sub hF rfl) (sub hR rfl) (State.bump_within (sub hF rfl) (sub hR rfl) (elem hR rfl) (.hlt h5 (elem hF rfl)))

theorem State.migrateBack_within {F R} {z s : State} {a1} (hF : F &&& 0xaa85e82 = 0xaa85e82) (hR : R &&& 0x63f0800000000000000000000000400000000000000000000000041e00008000000000000000000000000000000080000000000000 = 0x63f0800000000000000000000000400000000000000000000000041e00008000000000000000000000000000000080000000000000) (h : Within F R z s) : Within F R z (State.migrateBack s a1) := by
  unfold State.migrateBack
  extract_lets -merge -useContext -underBinder +onlyGivenNames v1 v2
  clear_value v1 v2
  exact .ite (.ite (State.remap_within (sub hF rfl) (sub hR rfl) h) h) (by extract_lets -merge -useContext -underBinder +onlyGivenNames v3; have h3 : Within F R z v3 := (by unfold v3; exact (State.carry_within (sub hF rfl) (sub hR rfl) (State.freeAgain_within (sub hF rfl) (sub hR rfl) h))); clear_value v3; exact (State.restoreMoved_within (sub hF rfl) (sub hR rfl) (State.each_within (sub hF rfl) (sub hR rfl) (State.unstage_within (sub hF rfl) (sub hR rfl) h3) (fun h4 => (State.updPan_within (sub hF rfl) (sub hR rfl) h4)))))

theorem State.migrations_within {F R} {z s : State}  (hF : F &&& 0xaa85e86 = 0xaa85e86) (hR : R &&& 0x63f0800000000000000000004000400000000000000000000000041e00008000000000000000000000000000000080000000000000 = 0x63f0800000000000000000004000400000000000000000000000041e00008000000000000000000000000000000080000000000000) (h : Within F R z s) : Within F R z (State.migrations s) := by
  unfold State.migrations
  extract_lets -merge -useContext -underBinder +onlyGivenNames v1
  clear_value v1
  exact State.each_within (sub hF rfl) (sub hR rfl) (.hlt h (elem hF rfl)) (fun h2 => (.ite (State.migrateBack_within (sub hF rfl) (sub hR rfl) h2) (by split <;> [exact (State.freeAgain_within (sub hF rfl) (sub hR rfl) h2); exact (.ite (State.migrateOut_within (sub hF rfl) (sub hR rfl) h2) (State.freeAgain_within (sub hF rfl) (sub hR rfl) h2))])))

theorem State.startMigration_within {F R} {z s : State} {a1 a2} (hF : F &&& 0xa01002 = 0xa01002) (hR : R &&& 0x400000000000000000000000000000000000000000000000000000000000000000000000000000 = 0x400000000000000000000000000000000000000000000000000000000000000000000000000000) (h : Within F R z s) : Within F R z (State.startMigration s a1 a2) := by
  unfold State.startMigration
  split <;> [exact (by extract_lets -merge -useContext -underBinder +onlyGivenNames v1; have h1 : Within F R z v1 := (by unfold v1; exact (State.updPhys_within (sub hF rfl) (sub hR rfl) h)); clear_value v1; exact (State.raise_within (sub hF rfl) (sub hR rfl) (elem hR rfl) (.hlt h1 (elem hF rfl)))); exact h]

theorem State.startMigrations_within {F R} {z s : State} {a1} (hF : F &&& 0xa01002 = 0xa01002) (hR : R &&& 0x400000000000000000000000000000000000000000000000000000000000000000000000000000 = 0x400000000000000000000000000000000000000000000000000000000000000000000000000000) (h : Within F R z s) : Within F R z (State.startMigrations s a1) := by
  unfold State.startMigrations
  extract_lets -merge -useContext -underBinder +onlyGivenNames v1
  clear_value v1
  exact .ite h (State.each_within (sub hF rfl) (sub hR rfl) h (fun h2 => (State.startMigration_within (sub hF rfl) (sub hR rfl) h2)))

theorem State.swapCore_within {F R} {z s : State} {a1 a2} (hF : F &&& 512 = 512) (hR : R &&& 0 = 0) (h : Within F R z s) : Within F R z (State.swapCore s a1 a2) :=
  State.each_within (sub hF rfl) (sub hR rfl) h (fun h1 => (State.updPan_within (sub hF rfl) (sub hR rfl) h1))

theorem State.endFills_within {F R} {z s : State} {a1} (hF : F &&& 0x1200 = 0x1200) (hR : R &&& 0 = 0) (h : Within F R z s) : Within F R z (State.endFills s a1) := by
  unfold State.endFills
  exact State.each_within (sub hF rfl) (sub hR rfl) h (fun h1 => (by split <;> [exact (.ite (State.swapCore_within (sub hF rfl) (sub hR rfl) (State.updPhys_within (sub hF rfl) (sub hR rfl) h1)) h1); exact h1]))

theorem State.endMoves_within {F R} {z s : State} {a1} (hF : F &&& 0x80200 = 0x80200) (hR : R &&& 0 = 0) (h : Within F R z s) : Within F R z (State.endMoves s a1) := by
  unfold State.endMoves
  split <;> [exact h; exact (State.each_within (sub hF rfl) (sub hR rfl) h (fun h1 => (by split <;> [exact h1; exact (.ite (by extract_lets -merge -useContext -underBinder +onlyGivenNames v2; clear_value v2; exact (State.swapCore_within (sub hF rfl) (sub hR rfl) (State.clearPans_within (sub hF rfl) (sub hR rfl) (.plans h1 (elem hF rfl))))) h1)])))]

theorem State.detachAdapters_within {F R} {z s : State} {a1} (hF : F &&& 0x2008000 = 0x2008000) (hR : R &&& 0 = 0) (h : Within F R z s) : Within F R z (State.detachAdapters s a1) :=
  State.each_within (sub hF rfl) (sub hR rfl) h (fun h1 => (.ite (State.event_within (sub hF rfl) (sub hR rfl) (State.updSess_within (sub hF rfl) (sub hR rfl) h1)) h1))

theorem State.switchSlot_within {F R} {z s : State} {a1 a2} (hF : F &&& 0x228c002 = 0x228c002) (hR : R &&& 0x2040000000000000000000000 = 0x2040000000000000000000000) (h : Within F R z s) : Within F R z (State.switchSlot s a1 a2) := by
  unfold State.switchSlot
  extract_lets -merge -useContext -underBinder +onlyGivenNames v1 v2 v3
  clear_value v1 v2 v3
  extract_lets -merge -useContext -underBinder +onlyGivenNames v4
  have h4 : Within F R z v4 := (by unfold v4; exact (by split <;> [exact h; exact (State.updWslot_within (sub hF rfl) (sub hR rfl) h)]))
  clear_value v4
  extract_lets -merge -useContext -underBinder +onlyGivenNames v5
  have h5 : Within F R z v5 := (by unfold v5; exact (State.setNum_within (sub hF rfl) (sub hR rfl) (elem hR rfl) (State.updWslot_within (sub hF rfl) (sub hR rfl) h4)))
  clear_value v5
  extract_lets -merge -useContext -underBinder +onlyGivenNames v6
  clear_value v6
  extract_lets -merge -useContext -underBinder +onlyGivenNames u7_0 v7
  have h7 : Within F R z v7 := (by unfold v7; exact (.plans h5 (elem hF rfl)))
  clear_value v7
  extract_lets -merge -useContext -underBinder +onlyGivenNames v8
  have h8 : Within F R z v8 := (by unfold v8; exact (State.event_within (sub hF rfl) (sub hR rfl) (State.raise_within (sub hF rfl) (sub hR rfl) (elem hR rfl) h7)))
  clear_value v8
  exact State.when_within (sub hF rfl) (sub hR rfl) h8 (fun h9 => (State.detachAdapters_within (sub hF rfl) (sub hR rfl) h9))

theorem State.kvResetAll_within {F R} {z s : State} {a1} (hF : F &&& 0x2218002 = 0x2218002) (hR : R &&& 0x2000000000000000000000000000 = 0x2000000000000000000000000000) (h : Within F R z s) : Within F R z (State.kvResetAll s a1) := by
  unfold State.kvResetAll
  extract_lets -merge -useContext -underBinder +onlyGivenNames v1
  clear_value v1
  extract_lets -merge -useContext -underBinder +onlyGivenNames v2
  have h2 : Within F R z v2 := (by unfold v2; exact (State.each_within (sub hF rfl) (sub hR rfl) h (fun h3 => (State.updSess_within (sub hF rfl) (sub hR rfl) (State.dropPages_within (sub hF rfl) (sub hR rfl) h3)))))
  clear_value v2
  exact State.event_within (sub hF rfl) (sub hR rfl) (State.raise_within (sub hF rfl) (sub hR rfl) (elem hR rfl) h2)

theorem State.clearLayers_within {F R} {z s : State}  (_hF : F &&& 0 = 0) (hR : R &&& 0x80000000000000000000000000000000000000000000000000000000000000000000000000000000000000000000000000000000000000 = 0x80000000000000000000000000000000000000000000000000000000000000000000000000000000000000000000000000000000000000) (h : Within F R z s) : Within F R z (State.clearLayers s) := by
  refine ⟨fun f hf => ?_, fun q hq u i => ?_⟩
  · have h1 := h.1 f hf
    cases f <;> exact h1
  · refine Eq.trans ?_ (h.2 q hq u i)
    refine Cells.get_filter _ (fun k => k / 1024 % 512 != Reg.CNT_LAYER.ctorIdx || k / 1024 / 512 == 65536) _ _ ?_
    have hk := Reg.key_block u q i
    have hn : q ≠ .CNT_LAYER := fun e => by rw [e, elem hR rfl] at hq; exact Bool.noConfusion hq
    simp only [hk, bne_iff_ne, ne_eq, Bool.or_eq_true]
    exact .inl (fun e => hn (Reg.ctorIdx_inj e))

theorem State.switchPlan_within {F R} {z s : State} {a1 a2} (hF : F &&& 0x2298002 = 0x2298002) (hR : R &&& 0x8000000000000000000000000000000000000000000000000000000000000000000a000000000000002000000000000000000000000000 = 0x8000000000000000000000000000000000000000000000000000000000000000000a000000000000002000000000000000000000000000) (h : Within F R z s) : Within F R z (State.switchPlan s a1 a2) := by
  unfold State.switchPlan
  extract_lets -merge -useContext -underBinder +onlyGivenNames v1 v2
  clear_value v1 v2
  extract_lets -merge -useContext -underBinder +onlyGivenNames v3
  have h3 : Within F R z v3 := (by unfold v3; exact (.foldl h (fun h4 => (.ite (State.updPslot_within (sub hF rfl) (sub hR rfl) h4) h4))))
  clear_value v3
  extract_lets -merge -useContext -underBinder +onlyGivenNames v4
  have h4 : Within F R z v4 := (by unfold v4; exact (State.setNum_within (sub hF rfl) (sub hR rfl) (elem hR rfl) (State.updPslot_within (sub hF rfl) (sub hR rfl) h3)))
  clear_value v4
  extract_lets -merge -useContext -underBinder +onlyGivenNames v5
  have h5 : Within F R z v5 := (by unfold v5; exact (State.event_within (sub hF rfl) (sub hR rfl) (State.raise_within (sub hF rfl) (sub hR rfl) (elem hR rfl) h4)))
  clear_value v5
  exact State.when_within (sub hF rfl) (sub hR rfl) (State.clearLayers_within (sub hF rfl) (sub hR rfl) h5) (fun h6 => (State.kvResetAll_within (sub hF rfl) (sub hR rfl) h6))

theorem State.switchPans_within {F R} {z s : State} {a1} (hF : F &&& 512 = 512) (hR : R &&& 0 = 0) (h : Within F R z s) : Within F R z (State.switchPans s a1) := by
  unfold State.switchPans
  split <;> [exact (by split <;> [exact h; exact (by extract_lets -merge -useContext -underBinder +onlyGivenNames v1; clear_value v1; exact (by extract_lets -merge -useContext -underBinder +onlyGivenNames v2; clear_value v2; exact (by extract_lets -merge -useContext -underBinder +onlyGivenNames v3; clear_value v3; exact (by extract_lets -merge -useContext -underBinder +onlyGivenNames v4; have h4 : Within F R z v4 := (by unfold v4; exact (State.each_within (sub hF rfl) (sub hR rfl) h (fun h5 => (State.updPan_within (sub hF rfl) (sub hR rfl) h5)))); clear_value v4; exact (by extract_lets -merge -useContext -underBinder +onlyGivenNames v5; have h5 : Within F R z v5 := (by unfold v5; exact (State.each_within (sub hF rfl) (sub hR rfl) h4 (fun h6 => (State.updPan_within (sub hF rfl) (sub hR rfl) h6)))); clear_value v5; exact (State.each_within (sub hF rfl) (sub hR rfl) h5 (fun h6 => (State.updPan_within (sub hF rfl) (sub hR rfl) h6))))))))]); exact h]

theorem State.switchNow_within {F R} {z s : State} {a1 a2 a3} (hF : F &&& 0x229c202 = 0x229c202) (hR : R &&& 0x8000000000000000000000000000000000000000800000000000000000000000000a000000000000002002040000000000000000000000 = 0x8000000000000000000000000000000000000000800000000000000000000000000a000000000000002002040000000000000000000000) (h : Within F R z s) : Within F R z (State.switchNow s a1 a2 a3) := by
  unfold State.switchNow
  extract_lets -merge -useContext -underBinder +onlyGivenNames v1
  have h1 : Within F R z v1 := (by unfold v1; exact (by split <;> [exact h; exact (State.switchSlot_within (sub hF rfl) (sub hR rfl) h)]))
  clear_value v1
  extract_lets -merge -useContext -underBinder +onlyGivenNames v2
  have h2 : Within F R z v2 := (by unfold v2; exact (by split <;> [exact h1; exact (State.switchPlan_within (sub hF rfl) (sub hR rfl) h1)]))
  clear_value v2
  extract_lets -merge -useContext -underBinder +onlyGivenNames v3
  have h3 : Within F R z v3 := (by unfold v3; exact (State.raise_within (sub hF rfl) (sub hR rfl) (elem hR rfl) (State.switchPans_within (sub hF rfl) (sub hR rfl) h2)))
  clear_value v3
  exact .wgt h3 (elem hF rfl)

theorem State.holdSwitch_within {F R} {z s : State} {a1} (hF : F &&& 0x204002 = 0x204002) (hR : R &&& 0x2080000000000000000000000 = 0x2080000000000000000000000) (h : Within F R z s) : Within F R z (State.holdSwitch s a1) := by
  unfold State.holdSwitch
  split <;> [exact (State.bump_within (sub hF rfl) (sub hR rfl) (elem hR rfl) h); exact (State.raise_within (sub hF rfl) (sub hR rfl) (elem hR rfl) (State.setNum_within (sub hF rfl) (sub hR rfl) (elem hR rfl) (.wgt h (elem hF rfl))))]

theorem State.switchEdge_within {F R} {z s : State} {a1} (hF : F &&& 0x229c202 = 0x229c202) (hR : R &&& 0x8000000000000000000000000000000000000000800000000000000000000000000a0000000000000020020c0000000000000000000000 = 0x8000000000000000000000000000000000000000800000000000000000000000000a0000000000000020020c0000000000000000000000) (h : Within F R z s) : PWithin F R z (State.switchEdge s a1) := by
  unfold State.switchEdge
  split <;> [exact (PWithin.mk (State.when_within (sub hF rfl) (sub hR rfl) h (fun h1 => (.wgt h1 (elem hF rfl))))); exact (by split <;> [exact (PWithin.mk (State.holdSwitch_within (sub hF rfl) (sub hR rfl) h)); exact (PWithin.mk (State.switchNow_within (sub hF rfl) (sub hR rfl) h))])]

theorem State.refreshSwap_within {F R} {z s : State} {a1 a2} (hF : F &&& 0x800200 = 0x800200) (hR : R &&& 0x1000000000 = 0x1000000000) (h : Within F R z s) : Within F R z (State.refreshSwap s a1 a2) := by
  unfold State.refreshSwap
  extract_lets -merge -useContext -underBinder +onlyGivenNames v1
  have h1 : Within F R z v1 := (by unfold v1; exact (State.bump_within (sub hF rfl) (sub hR rfl) (elem hR rfl) (State.updPan_within (sub hF rfl) (sub hR rfl) h)))
  clear_value v1
  extract_lets -merge -useContext -underBinder +onlyGivenNames v2
  clear_value v2
  exact .hlt h1 (elem hF rfl)

theorem State.refreshSwaps_within {F R} {z s : State} {a1} (hF : F &&& 0x800200 = 0x800200) (hR : R &&& 0x1000000000 = 0x1000000000) (h : Within F R z s) : Within F R z (State.refreshSwaps s a1) :=
  State.each_within (sub hF rfl) (sub hR rfl) h (fun h1 => (State.when_within (sub hF rfl) (sub hR rfl) h1 (fun h2 => (State.refreshSwap_within (sub hF rfl) (sub hR rfl) h2))))

theorem State.agePans_within {F R} {z s : State}  (hF : F &&& 0x4200 = 0x4200) (hR : R &&& 0x28000000000000000000000000 = 0x28000000000000000000000000) (h : Within F R z s) : Within F R z (State.agePans s) := by
  unfold State.agePans
  extract_lets -merge -useContext -underBinder +onlyGivenNames v1 v2
  clear_value v1 v2
  exact State.bump_within (sub hF rfl) (sub hR rfl) (elem hR rfl) (State.bump_within (sub hF rfl) (sub hR rfl) (elem hR rfl) (.chg 16896 h (sub hF rfl) rfl (fun g hg => by cases g <;> first | rfl | exact absurd hg (by decide))))

theorem State.bounceEdge_within {F R} {z s : State} {a1} (hF : F &&& 0x10004000 = 0x10004000) (hR : R &&& 0 = 0) (h : Within F R z s) : Within F R z (State.bounceEdge s a1) :=
  .ite h (State.releaseBounce_within (sub hF rfl) (sub hR rfl) (.wgt h (elem hF rfl)))

theorem State.refreshDue_within {F R} {z s : State} {a1} (hF : F &&& 0x2200282 = 0x2200282) (hR : R &&& 0x800000000000000000000000000000000000000000000000000000000000000000000000000000000000000000002000000000 = 0x800000000000000000000000000000000000000000000000000000000000000000000000000000000000000000002000000000) (h : Within F R z s) : Within F R z (State.refreshDue s a1) := by
  unfold State.refreshDue
  extract_lets -merge -useContext -underBinder +onlyGivenNames v1 v2
  clear_value v1 v2
  exact .ite h (by extract_lets -merge -useContext -underBinder +onlyGivenNames v3; have h3 : Within F R z v3 := (by unfold v3; exact (State.updPan_within (sub hF rfl) (sub hR rfl) h)); clear_value v3; exact (.ite h3 (by extract_lets -merge -useContext -underBinder +onlyGivenNames v4; have h4 : Within F R z v4 := (by unfold v4; exact (State.event_within (sub hF rfl) (sub hR rfl) (State.bump_within (sub hF rfl) (sub hR rfl) (elem hR rfl) (State.updPan_within (sub hF rfl) (sub hR rfl) h3)))); clear_value v4; exact (State.faultRec_within (sub hF rfl) (sub hR rfl) h4))))

theorem State.pansEdge_within {F R} {z s : State}  (hF : F &&& 0x12204282 = 0x12204282) (hR : R &&& 0x800000000000000000000000000000000000000000000000000000000000000000000000000028000000000000002000000000 = 0x800000000000000000000000000000000000000000000000000000000000000000000000000028000000000000002000000000) (h : Within F R z s) : Within F R z (State.pansEdge s) := by
  unfold State.pansEdge
  extract_lets -merge -useContext -underBinder +onlyGivenNames v1
  clear_value v1
  extract_lets -merge -useContext -underBinder +onlyGivenNames v2
  have h2 : Within F R z v2 := (by unfold v2; exact (State.bounceEdge_within (sub hF rfl) (sub hR rfl) (State.agePans_within (sub hF rfl) (sub hR rfl) h)))
  clear_value v2
  extract_lets -merge -useContext -underBinder +onlyGivenNames v3
  have h3 : Within F R z v3 := (by unfold v3; exact (State.each_within (sub hF rfl) (sub hR rfl) h2 (fun h4 => (State.refreshDue_within (sub hF rfl) (sub hR rfl) h4))))
  clear_value v3
  exact .pans h3 (elem hF rfl)

theorem State.placeEdge_within {F R} {z s : State} {a1} (hF : F &&& 0x2280002 = 0x2280002) (hR : R &&& 0xc000000000000000000000000000000000000000000 = 0xc000000000000000000000000000000000000000000) (h : Within F R z s) : Within F R z (State.placeEdge s a1) := by
  unfold State.placeEdge
  extract_lets -merge -useContext -underBinder +onlyGivenNames v1 v2 v3 v4 v5
  clear_value v1 v2 v3 v4 v5
  extract_lets -merge -useContext -underBinder +onlyGivenNames v6
  have h6 : Within F R z v6 := (by unfold v6; exact (State.when_within (sub hF rfl) (sub hR rfl) h (fun h7 => (State.bump_within (sub hF rfl) (sub hR rfl) (elem hR rfl) h7))))
  clear_value v6
  extract_lets -merge -useContext -underBinder +onlyGivenNames v7
  clear_value v7
  extract_lets -merge -useContext -underBinder +onlyGivenNames v8
  have h8 : Within F R z v8 := (by unfold v8; exact (State.each_within (sub hF rfl) (sub hR rfl) h6 (fun h9 => (State.event_within (sub hF rfl) (sub hR rfl) h9))))
  clear_value v8
  extract_lets -merge -useContext -underBinder +onlyGivenNames v9
  have h9 : Within F R z v9 := (by unfold v9; exact (State.when_within (sub hF rfl) (sub hR rfl) h8 (fun h10 => (State.raise_within (sub hF rfl) (sub hR rfl) (elem hR rfl) h10))))
  clear_value v9
  exact .plans h9 (elem hF rfl)

theorem State.dumpEdge_within {F R} {z s : State} {a1} (hF : F &&& 0x280002 = 0x280002) (hR : R &&& 0x1000000800000000000000000000000000000000000000000000000000000000000008020000000000000000000000000000000000000000 = 0x1000000800000000000000000000000000000000000000000000000000000000000008020000000000000000000000000000000000000000) (h : Within F R z s) : Within F R z (State.dumpEdge s a1) := by
  unfold State.dumpEdge
  exact .ite h (by extract_lets -merge -useContext -underBinder +onlyGivenNames u1_0 v1; have h1 : Within F R z v1 := (by unfold v1; exact (State.setF_within (sub hF rfl) (sub hR rfl) (elem hR rfl) (.plans h (elem hF rfl)))); clear_value v1; exact (by extract_lets -merge -useContext -underBinder +onlyGivenNames v2; clear_value v2; exact (.ite (State.raise_within (sub hF rfl) (sub hR rfl) (elem hR rfl) h1) (State.raise_within (sub hF rfl) (sub hR rfl) (elem hR rfl) (State.dmaWr_within (sub hF rfl) (sub hR rfl) (State.emit_within (sub hF rfl) (sub hR rfl) h1))))))

theorem State.drawEdge_within {F R} {z s : State} {a1} (hF : F &&& 0x600 = 0x600) (hR : R &&& 0 = 0) (h : Within F R z s) : Within F R z (State.drawEdge s a1) := by
  unfold State.drawEdge
  extract_lets -merge -useContext -underBinder +onlyGivenNames v1 v2 v3
  clear_value v1 v2 v3
  extract_lets -merge -useContext -underBinder +onlyGivenNames v4
  have h4 : Within F R z v4 := (by unfold v4; exact (.cores h (elem hF rfl)))
  clear_value v4
  exact .ite h4 (State.each_within (sub hF rfl) (sub hR rfl) h4 (fun h5 => (by split <;> [exact h5; exact (State.each_within (sub hF rfl) (sub hR rfl) h5 (fun h6 => (State.when_within (sub hF rfl) (sub hR rfl) h6 (fun h7 => (State.updPan_within (sub hF rfl) (sub hR rfl) h7)))))])))

theorem State.adapterEdge_within {F R} {z s : State}  (hF : F &&& 0x10204002 = 0x10204002) (hR : R &&& 0x2000000000000000000000000 = 0x2000000000000000000000000) (h : Within F R z s) : Within F R z (State.adapterEdge s) := by
  unfold State.adapterEdge
  extract_lets -merge -useContext -underBinder +onlyGivenNames v1 v2 v3 v4
  clear_value v1 v2 v3 v4
  extract_lets -merge -useContext -underBinder +onlyGivenNames v5
  have h5 : Within F R z v5 := (by unfold v5; exact (State.each_within (sub hF rfl) (sub hR rfl) h (fun h6 => (State.clearShards_within (sub hF rfl) (sub hR rfl) h6))))
  clear_value v5
  extract_lets -merge -useContext -underBinder +onlyGivenNames u6_0 v6
  have h6 : Within F R z v6 := (by unfold v6; exact (.wgt h5 (elem hF rfl)))
  clear_value v6
  exact State.when_within (sub hF rfl) (sub hR rfl) h6 (fun h7 => (State.raise_within (sub hF rfl) (sub hR rfl) (elem hR rfl) h7))

theorem State.resideAgain_within {F R} {z s : State} {a1} (hF : F &&& 0x10284202 = 0x10284202) (hR : R &&& 0x8040000000000000002000002000000008000000000 = 0x8040000000000000002000002000000008000000000) (h : Within F R z s) : Within F R z (State.resideAgain s a1) := by
  unfold State.resideAgain
  exact State.each_within (sub hF rfl) (sub hR rfl) h (fun h1 => (by split <;> [exact h1; exact (.ite (State.switchPans_within (sub hF rfl) (sub hR rfl) (State.updPslot_within (sub hF rfl) (sub hR rfl) h1)) (State.bindPlan_within (sub hF rfl) (sub hR rfl) (State.updPslot_within (sub hF rfl) (sub hR rfl) (State.endStaging_within (sub hF rfl) (sub hR rfl) h1))))]))

theorem State.stageThree_within {F R} {z s : State} {a1} (hF : F &&& 0x1aa9fe86 = 0x1aa9fe86) (hR : R &&& 0x1080006bf080000000000000000020e000400000008000000000000000041e0000800e06040000000000202a0c000200008000b000000000 = 0x1080006bf080000000000000000020e000400000008000000000000000041e0000800e06040000000000202a0c000200008000b000000000) (h : Within F R z s) : Within F R z (State.stageThree s a1) := by
  unfold State.stageThree
  extract_lets -merge -useContext -underBinder +onlyGivenNames v1
  have h1 : Within F R z v1 := (by unfold v1; exact (State.judgeDue_within (sub hF rfl) (sub hR rfl) (State.countDeferred_within (sub hF rfl) (sub hR rfl) h)))
  clear_value v1
  extract_lets -merge -useContext -underBinder +onlyGivenNames v2
  clear_value v2
  split <;> [(rename_i hq; have h3 := PWithin.fst' (by split <;> [exact (PWithin.mk h1); exact (by extract_lets -merge -useContext -underBinder +onlyGivenNames v3; have h3 : Within F R z v3 := (by unfold v3; exact (State.tryStage_within (sub hF rfl) (sub hR rfl) (State.resideAgain_within (sub hF rfl) (sub hR rfl) (State.endMoves_within (sub hF rfl) (sub hR rfl) (State.endFills_within (sub hF rfl) (sub hR rfl) (State.migrations_within (sub hF rfl) (sub hR rfl) (State.takeRequests_within (sub hF rfl) (sub hR rfl) h1))))))); clear_value v3; exact (by split <;> [(rename_i hq; have h4 := PWithin.fst' (State.switchEdge_within (sub hF rfl) (sub hR rfl) h3) hq; exact (PWithin.mk (State.refreshSwaps_within (sub hF rfl) (sub hR rfl) h4)))]))]) hq; exact (by extract_lets -merge -useContext -underBinder +onlyGivenNames v4; have h4 : Within F R z v4 := (by unfold v4; exact (State.pansEdge_within (sub hF rfl) (sub hR rfl) h3)); clear_value v4; exact (by extract_lets -merge -useContext -underBinder +onlyGivenNames v5; have h5 : Within F R z v5 := (by unfold v5; exact (State.when_within (sub hF rfl) (sub hR rfl) h4 (fun h6 => (State.startMigrations_within (sub hF rfl) (sub hR rfl) h6)))); clear_value v5; exact (by extract_lets -merge -useContext -underBinder +onlyGivenNames v6; have h6 : Within F R z v6 := (by unfold v6; exact (State.when_within (sub hF rfl) (sub hR rfl) h5 (fun h7 => (State.dumpEdge_within (sub hF rfl) (sub hR rfl) (State.placeEdge_within (sub hF rfl) (sub hR rfl) h7))))); clear_value v6; exact (by extract_lets -merge -useContext -underBinder +onlyGivenNames v7; have h7 : Within F R z v7 := (by unfold v7; exact (State.adapterEdge_within (sub hF rfl) (sub hR rfl) h6)); clear_value v7; exact (.wgt h7 (elem hF rfl)))))))]

/-! Tide -/

theorem State.endFreerun_within {F R} {z s : State} {a1} (hF : F &&& 0x2200002 = 0x2200002) (hR : R &&& 0x4002 = 0x4002) (h : Within F R z s) : Within F R z (State.endFreerun s a1) :=
  .ite (State.event_within (sub hF rfl) (sub hR rfl) (State.raise_within (sub hF rfl) (sub hR rfl) (elem hR rfl) (State.setF_within (sub hF rfl) (sub hR rfl) (elem hR rfl) h))) h

theorem State.align_within {F R} {z s : State} {a1 a2 a3} (hF : F &&& 0x2b0f602 = 0x2b0f602) (hR : R &&& 0x3000000000000000000060000000000000000007382 = 0x3000000000000000000060000000000000000007382) (h : Within F R z s) : PWithin F R z (State.align s a1 a2 a3) := by
  unfold State.align
  split <;> [exact (by extract_lets -merge -useContext -underBinder +onlyGivenNames v1; have h1 : Within F R z v1 := (by unfold v1; exact (.ite h (State.rebase_within (sub hF rfl) (sub hR rfl) h))); clear_value v1; exact (by extract_lets -merge -useContext -underBinder +onlyGivenNames v2; have h2 : Within F R z v2 := (by unfold v2; exact (State.setNum_within (sub hF rfl) (sub hR rfl) (elem hR rfl) h1)); clear_value v2; exact (by split <;> [exact (PWithin.mk (State.setF_within (sub hF rfl) (sub hR rfl) (elem hR rfl) (State.endFreerun_within (sub hF rfl) (sub hR rfl) h2))); exact (PWithin.mk (State.setF_within (sub hF rfl) (sub hR rfl) (elem hR rfl) h2))])))]

theorem State.lostMarker_within {F R} {z s : State} {a1} (hF : F &&& 0x2200002 = 0x2200002) (hR : R &&& 0x4002 = 0x4002) (h : Within F R z s) : Within F R z (State.lostMarker s a1) :=
  .ite (State.event_within (sub hF rfl) (sub hR rfl) (State.raise_within (sub hF rfl) (sub hR rfl) (elem hR rfl) (State.setF_within (sub hF rfl) (sub hR rfl) (elem hR rfl) (State.setF_within (sub hF rfl) (sub hR rfl) (elem hR rfl) h)))) h

theorem State.fabricEdgeTime_within {F R} {z s : State} {a1 a2} (hF : F &&& 0x2b0f702 = 0x2b0f702) (hR : R &&& 0x3000000000000000000060000000000000000007382 = 0x3000000000000000000060000000000000000007382) (h : Within F R z s) : PWithin F R z (State.fabricEdgeTime s a1 a2) := by
  unfold State.fabricEdgeTime
  split <;> [exact (State.align_within (sub hF rfl) (sub hR rfl) (.tide h (elem hF rfl))); exact (by extract_lets -merge -useContext -underBinder +onlyGivenNames v1; clear_value v1; exact (PWithin.mk (State.lostMarker_within (sub hF rfl) (sub hR rfl) (.tide h (elem hF rfl)))))]

theorem State.realign_within {F R} {z s : State} {a1 a2} (hF : F &&& 0x2b0f702 = 0x2b0f702) (hR : R &&& 0x3000000000000000000060000000000000000047382 = 0x3000000000000000000060000000000000000047382) (h : Within F R z s) : PWithin F R z (State.realign s a1 a2) := by
  unfold State.realign
  extract_lets -merge -useContext -underBinder +onlyGivenNames v1
  clear_value v1
  split <;> [exact (by extract_lets -merge -useContext -underBinder +onlyGivenNames v2; have h2 : Within F R z v2 := (by unfold v2; exact (State.setF_within (sub hF rfl) (sub hR rfl) (elem hR rfl) (State.setF_within (sub hF rfl) (sub hR rfl) (elem hR rfl) h))); clear_value v2; exact (by split <;> [(rename_i hq; have h3 := PWithin.fst' (State.fabricEdgeTime_within (sub hF rfl) (sub hR rfl) h2) hq; exact (PWithin.mk (State.when_within (sub hF rfl) (sub hR rfl) h3 (fun h4 => (State.bump_within (sub hF rfl) (sub hR rfl) (elem hR rfl) h4)))))])); exact (by extract_lets -merge -useContext -underBinder +onlyGivenNames v2; have h2 : Within F R z v2 := (by unfold v2; exact (State.endFreerun_within (sub hF rfl) (sub hR rfl) (State.setF_within (sub hF rfl) (sub hR rfl) (elem hR rfl) (State.setF_within (sub hF rfl) (sub hR rfl) (elem hR rfl) h)))); clear_value v2; exact (by extract_lets -merge -useContext -underBinder +onlyGivenNames v3; have h3 : Within F R z v3 := (by unfold v3; exact (State.setNum_within (sub hF rfl) (sub hR rfl) (elem hR rfl) (State.setF_within (sub hF rfl) (sub hR rfl) (elem hR rfl) h2))); clear_value v3; exact (PWithin.mk (.tide h3 (elem hF rfl)))))]

theorem State.rootPeriodEdge_within {F R} {z s : State} {a1} (hF : F &&& 0x200102 = 0x200102) (hR : R &&& 0x4014 = 0x4014) (h : Within F R z s) : Within F R z (State.rootPeriodEdge s a1) := by
  unfold State.rootPeriodEdge
  split <;> [exact h; exact (.ite h (by extract_lets -merge -useContext -underBinder +onlyGivenNames u1_0 v1; have h1 : Within F R z v1 := (by unfold v1; exact (State.setNum_within (sub hF rfl) (sub hR rfl) (elem hR rfl) (.tide h (elem hF rfl)))); clear_value v1; exact (.ite (State.raise_within (sub hF rfl) (sub hR rfl) (elem hR rfl) (State.setNum_within (sub hF rfl) (sub hR rfl) (elem hR rfl) h1)) h1)))]

theorem State.noAnnounce_within {F R} {z s : State}  (hF : F &&& 256 = 256) (hR : R &&& 0 = 0) (h : Within F R z s) : Within F R z (State.noAnnounce s) :=
  State.when_within (sub hF rfl) (sub hR rfl) h (fun h1 => (.tide h1 (elem hF rfl)))

theorem State.stageRefused_within {F R} {z s : State}  (hF : F &&& 0x200102 = 0x200102) (hR : R &&& 0x4001 = 0x4001) (h : Within F R z s) : Within F R z (State.stageRefused s) :=
  State.raise_within (sub hF rfl) (sub hR rfl) (elem hR rfl) (State.setF_within (sub hF rfl) (sub hR rfl) (elem hR rfl) (State.noAnnounce_within (sub hF rfl) (sub hR rfl) h))

theorem State.stageEdge_within {F R} {z s : State} {a1 a2} (hF : F &&& 0x200102 = 0x200102) (hR : R &&& 0x4015 = 0x4015) (h : Within F R z s) : Within F R z (State.stageEdge s a1 a2) := by
  unfold State.stageEdge
  extract_lets -merge -useContext -underBinder +onlyGivenNames v1
  have h1 : Within F R z v1 := (by unfold v1; exact (State.when_within (sub hF rfl) (sub hR rfl) h (fun h2 => (State.rootPeriodEdge_within (sub hF rfl) (sub hR rfl) h2))))
  clear_value v1
  exact .ite (State.noAnnounce_within (sub hF rfl) (sub hR rfl) h1) (by extract_lets -merge -useContext -underBinder +onlyGivenNames v2; clear_value v2; exact (by extract_lets -merge -useContext -underBinder +onlyGivenNames v3; clear_value v3; exact (by extract_lets -merge -useContext -underBinder +onlyGivenNames v4; clear_value v4; exact (.ite (.ite (State.stageRefused_within (sub hF rfl) (sub hR rfl) h1) (.tide h1 (elem hF rfl))) (by extract_lets -merge -useContext -underBinder +onlyGivenNames v5; have h5 : Within F R z v5 := (by unfold v5; exact (.ite h1 (State.noAnnounce_within (sub hF rfl) (sub hR rfl) h1))); clear_value v5; exact (.ite h5 (.ite (State.stageRefused_within (sub hF rfl) (sub hR rfl) h5) (by extract_lets -merge -useContext -underBinder +onlyGivenNames v6; have h6 : Within F R z v6 := (by unfold v6; exact (State.noAnnounce_within (sub hF rfl) (sub hR rfl) (State.setF_within (sub hF rfl) (sub hR rfl) (elem hR rfl) (State.setNum_within (sub hF rfl) (sub hR rfl) (elem hR rfl) (State.setNum_within (sub hF rfl) (sub hR rfl) (elem hR rfl) h5))))); clear_value v6; exact (State.raise_within (sub hF rfl) (sub hR rfl) (elem hR rfl) h6)))))))))

theorem State.coreEdge_within {F R} {z s : State} {a1} (hF : F &&& 0x400 = 0x400) (hR : R &&& 0x41c00000000000000000000000000000000000000000000000000 = 0x41c00000000000000000000000000000000000000000000000000) (h : Within F R z s) : Within F R z (State.coreEdge s a1) := by
  unfold State.coreEdge
  extract_lets -merge -useContext -underBinder +onlyGivenNames v1
  clear_value v1
  extract_lets -merge -useContext -underBinder +onlyGivenNames v2
  have h2 : Within F R z v2 := (by unfold v2; exact (State.each_within (sub hF rfl) (sub hR rfl) h (fun h3 => (by split <;> [exact h3; exact (State.bump_within (sub hF rfl) (sub hR rfl) (by unfold WaitReason.counter; split <;> exact (elem hR rfl)) h3)]))))
  clear_value v2
  extract_lets -merge -useContext -underBinder +onlyGivenNames v3 v4
  clear_value v3 v4
  exact State.updCore_within (sub hF rfl) (sub hR rfl) h2

theorem State.coresEdge_within {F R} {z s : State}  (hF : F &&& 0x2400 = 0x2400) (hR : R &&& 0x41c00000000000000000000000000000000000000000000000000 = 0x41c00000000000000000000000000000000000000000000000000) (h : Within F R z s) : Within F R z (State.coresEdge s) := by
  unfold State.coresEdge
  extract_lets -merge -useContext -underBinder +onlyGivenNames v1
  clear_value v1
  extract_lets -merge -useContext -underBinder +onlyGivenNames v2
  have h2 : Within F R z v2 := (by unfold v2; exact (State.each_within (sub hF rfl) (sub hR rfl) h (fun h3 => (State.coreEdge_within (sub hF rfl) (sub hR rfl) h3))))
  clear_value v2
  exact .pool h2 (elem hF rfl)

theorem State.mapEdge_within {F R} {z s : State}  (hF : F &&& 0x2b0a402 = 0x2b0a402) (hR : R &&& 0x8000000000000000000000200000000000000000001900020200041c00000000000400000000000000000000000000000000000002 = 0x8000000000000000000000200000000000000000001900020200041c00000000000400000000000000000000000000000000000002) (h : Within F R z s) : Within F R z (State.mapEdge s) := by
  unfold State.mapEdge
  exact .ite h (State.each_within (sub hF rfl) (sub hR rfl) h (fun h1 => (by split <;> [exact h1; exact (by extract_lets -merge -useContext -underBinder +onlyGivenNames v2; clear_value v2; exact (State.when_within (sub hF rfl) (sub hR rfl) h1 (fun h3 => (State.hold_within (sub hF rfl) (sub hR rfl) h3))))])))

theorem State.sysverEdge_within {F R} {z s : State} {a1} (hF : F &&& 0x300002 = 0x300002) (hR : R &&& 0x20000000000000000000000000000000000000000000000000000000000 = 0x20000000000000000000000000000000000000000000000000000000000) (h : Within F R z s) : Within F R z (State.sysverEdge s a1) := by
  unfold State.sysverEdge
  split <;> [exact h; exact (.ite h (State.raise_within (sub hF rfl) (sub hR rfl) (elem hR rfl) (.fab h (elem hF rfl))))]

theorem State.goUp_within {F R} {z s : State} {a1} (hF : F &&& 0x2300002 = 0x2300002) (hR : R &&& 0x8000000000000000000000000000000000000000000000020000000000000000000000000000000000000000000000000000000000 = 0x8000000000000000000000000000000000000000000000020000000000000000000000000000000000000000000000000000000000) (h : Within F R z s) : Within F R z (State.goUp s a1) := by
  unfold State.goUp
  extract_lets -merge -useContext -underBinder +onlyGivenNames v1
  clear_value v1
  extract_lets -merge -useContext -underBinder +onlyGivenNames v2
  have h2 : Within F R z v2 := (by unfold v2; exact (State.raise_within (sub hF rfl) (sub hR rfl) (elem hR rfl) (State.updLink_within (sub hF rfl) (sub hR rfl) h)))
  clear_value v2
  exact State.sendLsu_within (sub hF rfl) (sub hR rfl) (State.event_within (sub hF rfl) (sub hR rfl) h2)

theorem State.routeEdge_within {F R} {z s : State}  (hF : F &&& 0x300002 = 0x300002) (hR : R &&& 0x220000000000000000000000000000000000000000000000000000000000 = 0x220000000000000000000000000000000000000000000000000000000000) (h : Within F R z s) : Within F R z (State.routeEdge s) := by
  unfold State.routeEdge
  extract_lets -merge -useContext -underBinder +onlyGivenNames v1
  clear_value v1
  exact .ite h (State.raise_within (sub hF rfl) (sub hR rfl) (elem hR rfl) (State.bump_within (sub hF rfl) (sub hR rfl) (elem hR rfl) (.fab h (elem hF rfl))))

theorem State.sendMarker_within {F R} {z s : State} {a1 a2 a3} (hF : F &&& 0x100002 = 0x100002) (hR : R &&& 0x8000000000000000000000000000000000000000000000000000000000000000000000000000000000000000000000000000000000 = 0x8000000000000000000000000000000000000000000000000000000000000000000000000000000000000000000000000000000000) (h : Within F R z s) : Within F R z (State.sendMarker s a1 a2 a3) :=
  State.each_within (sub hF rfl) (sub hR rfl) h (fun h1 => (State.sendCtrl_within (sub hF rfl) (sub hR rfl) h1))

theorem State.fabricEdge_within {F R} {z s : State} {a1} (hF : F &&& 0x2b0a402 = 0x2b0a402) (hR : R &&& 0x8000000000000000000000200000000000000000001900220200041c00000000000400000000000000000000000000000000000002 = 0x8000000000000000000000200000000000000000001900220200041c00000000000400000000000000000000000000000000000002) (h : Within F R z s) : Within F R z (State.fabricEdge s a1) := by
  unfold State.fabricEdge
  exact .ite h (by extract_lets -merge -useContext -underBinder +onlyGivenNames v1; have h1 : Within F R z v1 := (by unfold v1; exact (State.mapEdge_within (sub hF rfl) (sub hR rfl) h)); clear_value v1; exact (by extract_lets -merge -useContext -underBinder +onlyGivenNames u2_0 v2; have h2 : Within F R z v2 := (by unfold v2; exact (.fab h1 (elem hF rfl))); clear_value v2; exact (by extract_lets -merge -useContext -underBinder +onlyGivenNames v3; have h3 : Within F R z v3 := (by unfold v3; exact (State.rootSysver_within (sub hF rfl) (sub hR rfl) (State.sysverEdge_within (sub hF rfl) (sub hR rfl) h2))); clear_value v3; exact (by extract_lets -merge -useContext -underBinder +onlyGivenNames v4; have h4 : Within F R z v4 := (by unfold v4; exact (State.each_within (sub hF rfl) (sub hR rfl) h3 (fun h5 => (State.goUp_within (sub hF rfl) (sub hR rfl) h5)))); clear_value v4; exact (by extract_lets -merge -useContext -underBinder +onlyGivenNames v5; have h5 : Within F R z v5 := (by unfold v5; exact (State.routeEdge_within (sub hF rfl) (sub hR rfl) h4)); clear_value v5; exact (State.fabStatus_within (sub hF rfl) (sub hR rfl) (by split <;> [exact (State.sendMarker_within (sub hF rfl) (sub hR rfl) h5); exact h5])))))))

theorem State.latchCounters_within {F R} {z s : State}  (hF : F &&& 0 = 0) (hR : R &&& 0x1ffffffffffc000000000000000000000000000000000000000000000000000000000000000000000000000000000000000000000000000000 = 0x1ffffffffffc000000000000000000000000000000000000000000000000000000000000000000000000000000000000000000000000000000) (h : Within F R z s) : Within F R z (State.latchCounters s) := by
  rw [State.latchCounters]
  have hc : ∀ {b : RegBlock} {u : Nat} {t : State}, (∀ r ∈ b.regs, R.testBit r.ctorIdx = true) → Within F R z t →
      Within F R z (t.each b.regs (fun r s => s.each (List.range r.info.count) (fun i s => s.setNum r (s.view r u i) (65536 + u) i))) :=
    fun hb ht => Within.foldl_mem ht (fun t r hr k => State.each_within (sub hF rfl) (sub hR rfl) k
      (fun j => State.setNum_within (sub hF rfl) (sub hR rfl) (hb r hr) j))
  exact hc (fun r hr => elem hR (memBit hr rfl)) (State.each_within (sub hF rfl) (sub hR rfl) h
    (fun k => hc (fun r hr => elem hR (memBit hr rfl)) k))

theorem State.latchTide_within {F R} {z s : State}  (hF : F &&& 0x1000000 = 0x1000000) (hR : R &&& 0x200000000000000000000000000000000000000000000000000000000000003800000000000000000000000000000 = 0x200000000000000000000000000000000000000000000000000000000000003800000000000000000000000000000) (h : Within F R z s) : Within F R z (State.latchTide s) := by
  unfold State.latchTide
  extract_lets -merge -useContext -underBinder +onlyGivenNames v1
  clear_value v1
  extract_lets -merge -useContext -underBinder +onlyGivenNames v2
  have h2 : Within F R z v2 := (by unfold v2; exact (State.setNum_within (sub hF rfl) (sub hR rfl) (elem hR rfl) (State.setNum_within (sub hF rfl) (sub hR rfl) (elem hR rfl) (State.setNum_within (sub hF rfl) (sub hR rfl) (elem hR rfl) h))))
  clear_value v2
  extract_lets -merge -useContext -underBinder +onlyGivenNames v3
  clear_value v3
  extract_lets -merge -useContext -underBinder +onlyGivenNames v4
  have h4 : Within F R z v4 := (by unfold v4; exact (State.setNum_within (sub hF rfl) (sub hR rfl) (elem hR rfl) h2))
  clear_value v4
  exact .pwr h4 (elem hF rfl)

theorem State.stallReport_within {F R} {z s : State} {a1 a2 a3} (hF : F &&& 0x2200002 = 0x2200002) (hR : R &&& 0x4000000000000000000000000000000000000000000000000000000 = 0x4000000000000000000000000000000000000000000000000000000) (h : Within F R z s) : Within F R z (State.stallReport s a1 a2 a3) := by
  unfold State.stallReport
  split <;> [exact h; exact (State.event_within (sub hF rfl) (sub hR rfl) (State.raise_within (sub hF rfl) (sub hR rfl) (elem hR rfl) h))]

theorem State.ctxSeal_within {F R} {z s : State} {a1 a2} (hF : F &&& 0x2200402 = 0x2200402) (hR : R &&& 0x4000000000000000000000000000000000000000000000000000000 = 0x4000000000000000000000000000000000000000000000000000000) (h : Within F R z s) : Within F R z (State.ctxSeal s a1 a2) := by
  unfold State.ctxSeal
  extract_lets -merge -useContext -underBinder +onlyGivenNames v1 v2 v3 v4
  clear_value v1 v2 v3 v4
  extract_lets -merge -useContext -underBinder +onlyGivenNames v5
  have h5 : Within F R z v5 := (by unfold v5; exact (State.updCtx_within (sub hF rfl) (sub hR rfl) h))
  clear_value v5
  exact State.when_within (sub hF rfl) (sub hR rfl) h5 (fun h6 => (State.stallReport_within (sub hF rfl) (sub hR rfl) h6))

theorem State.hoistSeal_within {F R} {z s : State} {a1 a2} (hF : F &&& 0x2200402 = 0x2200402) (hR : R &&& 0x4000000000000000000000000000000000000000000000000000000 = 0x4000000000000000000000000000000000000000000000000000000) (h : Within F R z s) : Within F R z (State.hoistSeal s a1 a2) := by
  unfold State.hoistSeal
  extract_lets -merge -useContext -underBinder +onlyGivenNames v1 v2 v3 v4 v5
  clear_value v1 v2 v3 v4 v5
  extract_lets -merge -useContext -underBinder +onlyGivenNames v6
  have h6 : Within F R z v6 := (by unfold v6; exact (State.updHoist_within (sub hF rfl) (sub hR rfl) h))
  clear_value v6
  exact State.when_within (sub hF rfl) (sub hR rfl) h6 (fun h7 => (State.stallReport_within (sub hF rfl) (sub hR rfl) h7))

theorem State.stalls_within {F R} {z s : State}  (hF : F &&& 0x2200402 = 0x2200402) (hR : R &&& 0x4000000000000000000000000000000000000000000000000000000 = 0x4000000000000000000000000000000000000000000000000000000) (h : Within F R z s) : Within F R z (State.stalls s) := by
  unfold State.stalls
  exact State.each_within (sub hF rfl) (sub hR rfl) h (fun h1 => (by extract_lets -merge -useContext -underBinder +onlyGivenNames v2; have h2 : Within F R z v2 := (by unfold v2; exact (State.each_within (sub hF rfl) (sub hR rfl) h1 (fun h3 => (State.ctxSeal_within (sub hF rfl) (sub hR rfl) h3)))); clear_value v2; exact (State.each_within (sub hF rfl) (sub hR rfl) h2 (fun h3 => (State.hoistSeal_within (sub hF rfl) (sub hR rfl) h3)))))

theorem State.doSeal_within {F R} {z s : State}  (hF : F &&& 0x3208702 = 0x3208702) (hR : R &&& 0x1ffffffffffc000000000200000000000000000000000000000000000004000000000000000000000003800000000000000000008000004200 = 0x1ffffffffffc000000000200000000000000000000000000000000000004000000000000000000000003800000000000000000008000004200) (h : Within F R z s) : Within F R z (State.doSeal s) := by
  unfold State.doSeal
  exact .ite h (by extract_lets -merge -useContext -underBinder +onlyGivenNames v1; have h1 : Within F R z v1 := (by unfold v1; exact (State.wfgAtSeal_within (sub hF rfl) (sub hR rfl) (State.stalls_within (sub hF rfl) (sub hR rfl) (State.sealWork_within (sub hF rfl) (sub hR rfl) h)))); clear_value v1; exact (by extract_lets -merge -useContext -underBinder +onlyGivenNames v2; have h2 : Within F R z v2 := (by unfold v2; exact (State.setNum_within (sub hF rfl) (sub hR rfl) (elem hR rfl) (State.latchTide_within (sub hF rfl) (sub hR rfl) (State.latchCounters_within (sub hF rfl) (sub hR rfl) h1)))); clear_value v2; exact (State.raise_within (sub hF rfl) (sub hR rfl) (elem hR rfl) (.tide h2 (elem hF rfl)))))

theorem execSeal_within {F R} {s : State}  (hF : F &&& 0x3208712 = 0x3208712) (hR : R &&& 0x1ffffffffffc000000000200000000000000000000000000000000000004000000000000000000000003800000000000000000008000004200 = 0x1ffffffffffc000000000200000000000000000000000000000000000004000000000000000000000003800000000000000000008000004200) : Touched F R s (execSeal s) := by
  unfold execSeal
  split
  · exact .next (State.doSeal_within (sub hF rfl) (sub hR rfl) (State.enter_within (sub hF rfl) (.refl s)))
  · exact .next (State.enter_within (sub hF rfl) (.refl s))

theorem State.openTide_within {F R} {z s : State} {a1 a2 a3} (hF : F &&& 0x1000100 = 0x1000100) (hR : R &&& 0x900 = 0x900) (h : Within F R z s) : Within F R z (State.openTide s a1 a2 a3) := by
  unfold State.openTide
  extract_lets -merge -useContext -underBinder +onlyGivenNames v1 v2
  clear_value v1 v2
  extract_lets -merge -useContext -underBinder +onlyGivenNames v3
  have h3 : Within F R z v3 := (by unfold v3; exact (State.setNum_within (sub hF rfl) (sub hR rfl) (elem hR rfl) (State.setNum_within (sub hF rfl) (sub hR rfl) (elem hR rfl) h)))
  clear_value v3
  extract_lets -merge -useContext -underBinder +onlyGivenNames u4_0 v4
  clear_value v4
  exact .chg 16777472 h3 (sub hF rfl) rfl (fun g hg => by cases g <;> first | rfl | exact absurd hg (by decide))

theorem State.readyEdge_within {F R} {z s : State}  (hF : F &&& 0x2200002 = 0x2200002) (hR : R &&& 0x400000000480000000000000000000000000000000000000000000000000000000000000000 = 0x400000000480000000000000000000000000000000000000000000000000000000000000000) (h : Within F R z s) : Within F R z (State.readyEdge s) :=
  .ite (State.setDevState_within (sub hF rfl) (sub hR rfl) (State.setNum_within (sub hF rfl) (sub hR rfl) (elem hR rfl) h)) h

theorem State.admitEdge_within {F R} {z s : State} {a1 a2} (hF : F &&& 0x18000 = 0x18000) (hR : R &&& 0x10000000221000000000000000000000000000 = 0x10000000221000000000000000000000000000) (h : Within F R z s) : Within F R z (State.admitEdge s a1 a2) := by
  unfold State.admitEdge
  extract_lets -merge -useContext -underBinder +onlyGivenNames v1
  have h1 : Within F R z v1 := (by unfold v1; exact (State.judgeBudget_within (sub hF rfl) (sub hR rfl) (State.carve_within (sub hF rfl) (sub hR rfl) h)))
  clear_value v1
  extract_lets -merge -useContext -underBinder +onlyGivenNames v2
  have h2 : Within F R z v2 := (by unfold v2; exact (State.each_within (sub hF rfl) (sub hR rfl) h1 (fun h3 => (State.updSess_within (sub hF rfl) (sub hR rfl) h3))))
  clear_value v2
  extract_lets -merge -useContext -underBinder +onlyGivenNames v3
  have h3 : Within F R z v3 := (by unfold v3; exact (State.setNum_within (sub hF rfl) (sub hR rfl) (elem hR rfl) h2))
  clear_value v3
  exact .ite h3 (State.admitAll_within (sub hF rfl) (sub hR rfl) h3)

theorem State.edgeActions_within {F R} {z s : State} {a1 a2 a3} (hF : F &&& 0x3bb9ffa6 = 0x3bb9ffa6) (hR : R &&& 0x2d88000eff0800080026009c0000020e000400400008000481b00220670041e0000800e06f43004002c2230ea0c00630000c000b000034917 = 0x2d88000eff0800080026009c0000020e000400400008000481b00220670041e0000800e06f43004002c2230ea0c00630000c000b000034917) (h : Within F R z s) : Within F R z (State.edgeActions s a1 a2 a3) := by
  unfold State.edgeActions
  extract_lets -merge -useContext -underBinder +onlyGivenNames v1 v2 v3
  clear_value v1 v2 v3
  extract_lets -merge -useContext -underBinder +onlyGivenNames v4
  have h4 : Within F R z v4 := (by unfold v4; exact (State.publish_within (sub hF rfl) (sub hR rfl) (State.when_within (sub hF rfl) (sub hR rfl) h (fun h5 => (State.saveRolled_within (sub hF rfl) (sub hR rfl) (State.endTide_within (sub hF rfl) (sub hR rfl) h5))))))
  clear_value v4
  extract_lets -merge -useContext -underBinder +onlyGivenNames v5
  have h5 : Within F R z v5 := (by unfold v5; exact (State.stageThree_within (sub hF rfl) (sub hR rfl) (State.stageEdge_within (sub hF rfl) (sub hR rfl) h4)))
  clear_value v5
  extract_lets -merge -useContext -underBinder +onlyGivenNames u6_0 u6_1 v6
  have h6 : Within F R z v6 := (by unfold v6; exact (.srv (State.coresEdge_within (sub hF rfl) (sub hR rfl) h5) (elem hF rfl)))
  clear_value v6
  extract_lets -merge -useContext -underBinder +onlyGivenNames v7
  have h7 : Within F R z v7 := (by unfold v7; exact (State.readyEdge_within (sub hF rfl) (sub hR rfl) (State.raise_within (sub hF rfl) (sub hR rfl) (elem hR rfl) (State.openTide_within (sub hF rfl) (sub hR rfl) h6))))
  clear_value v7
  extract_lets -merge -useContext -underBinder +onlyGivenNames v8
  have h8 : Within F R z v8 := (by unfold v8; exact (State.fabricEdge_within (sub hF rfl) (sub hR rfl) h7))
  clear_value v8
  extract_lets -merge -useContext -underBinder +onlyGivenNames v9
  clear_value v9
  extract_lets -merge -useContext -underBinder +onlyGivenNames v10
  have h10 : Within F R z v10 := (by unfold v10; exact (State.judgePower_within (sub hF rfl) (sub hR rfl) (State.powerEdge_within (sub hF rfl) (sub hR rfl) h8)))
  clear_value v10
  exact .ite h10 (by extract_lets -merge -useContext -underBinder +onlyGivenNames v11; have h11 : Within F R z v11 := (by unfold v11; exact (State.when_within (sub hF rfl) (sub hR rfl) (State.admitEdge_within (sub hF rfl) (sub hR rfl) h10) (fun h12 => (State.takeStandby_within (sub hF rfl) (sub hR rfl) h12)))); clear_value v11; exact (by extract_lets -merge -useContext -underBinder +onlyGivenNames v12; clear_value v12; exact (State.when_within (sub hF rfl) (sub hR rfl) h11 (fun h13 => (State.each_within (sub hF rfl) (sub hR rfl) h13 (fun h14 => (State.writeStatus_within (sub hF rfl) (sub hR rfl) h14)))))))

theorem State.stopSession_within {F R} {z s : State} {a1 a2} (hF : F &&& 0x8000 = 0x8000) (hR : R &&& 0 = 0) (h : Within F R z s) : Within F R z (State.stopSession s a1 a2) :=
  State.updSess_within (sub hF rfl) (sub hR rfl) (State.updQp_within (sub hF rfl) (sub hR rfl) h)

theorem State.publishStop_within {F R} {z s : State} {a1} (hF : F &&& 0x20a18046 = 0x20a18046) (hR : R &&& 0x100000080000000000000000000000000000000000000000000000000000000000000000f020040000000000000000000000000000000000 = 0x100000080000000000000000000000000000000000000000000000000000000000000000f020040000000000000000000000000000000000) (h : Within F R z s) : Within F R z (State.publishStop s a1) := by
  unfold State.publishStop
  extract_lets -merge -useContext -underBinder +onlyGivenNames v1
  have h1 : Within F R z v1 := (by unfold v1; exact (State.each_within (sub hF rfl) (sub hR rfl) h (fun h2 => (State.commitSession_within (sub hF rfl) (sub hR rfl) h2))))
  clear_value v1
  extract_lets -merge -useContext -underBinder +onlyGivenNames v2
  have h2 : Within F R z v2 := (by unfold v2; exact (State.each_within (sub hF rfl) (sub hR rfl) h1 (fun h3 => (State.stopSession_within (sub hF rfl) (sub hR rfl) h3))))
  clear_value v2
  extract_lets -merge -useContext -underBinder +onlyGivenNames v3
  have h3 : Within F R z v3 := (by unfold v3; exact (by split <;> [exact h2; exact (State.fwRecord_within (sub hF rfl) (sub hR rfl) h2)]))
  clear_value v3
  extract_lets -merge -useContext -underBinder +onlyGivenNames v4
  have h4 : Within F R z v4 := (by unfold v4; exact (State.each_within (sub hF rfl) (sub hR rfl) h3 (fun h5 => (State.fwRecord_within (sub hF rfl) (sub hR rfl) h5))))
  clear_value v4
  extract_lets -merge -useContext -underBinder +onlyGivenNames u5_0 v5
  have h5 : Within F R z v5 := (by unfold v5; exact (.boot h4 (elem hF rfl)))
  clear_value v5
  extract_lets -merge -useContext -underBinder +onlyGivenNames v6
  clear_value v6
  extract_lets -merge -useContext -underBinder +onlyGivenNames v7
  have h7 : Within F R z v7 := (by unfold v7; exact (State.each_within (sub hF rfl) (sub hR rfl) h5 (fun h8 => (State.answerQueries_within (sub hF rfl) (sub hR rfl) (State.writeStatus_within (sub hF rfl) (sub hR rfl) h8)))))
  clear_value v7
  exact State.signalAll_within (sub hF rfl) (sub hR rfl) (State.each_within (sub hF rfl) (sub hR rfl) h7 (fun h8 => (State.when_within (sub hF rfl) (sub hR rfl) h8 (fun h9 => (State.publishQp_within (sub hF rfl) (sub hR rfl) h9)))))

theorem State.stopEdge_within {F R} {z s : State}  (hF : F &&& 0x3fffffe6 = 0x3fffffe6) (hR : R &&& 0xffffffffffffffffffffffffffff80ffffffffffffffffffffffffffffffffffffffffffffffffffffffffffffffffffffffffffffffffffffffffffffffffff = 0xffffffffffffffffffffffffffff80ffffffffffffffffffffffffffffffffffffffffffffffffffffffffffffffffffffffffffffffffffffffffffffffffff) (h : Within F R z s) : Within F R z (State.stopEdge s) := by
  unfold State.stopEdge
  extract_lets -merge -useContext -underBinder +onlyGivenNames v1
  clear_value v1
  extract_lets -merge -useContext -underBinder +onlyGivenNames v2
  have h2 : Within F R z v2 := (by unfold v2; exact (State.endTide_within (sub hF rfl) (sub hR rfl) h))
  clear_value v2
  extract_lets -merge -useContext -underBinder +onlyGivenNames v3
  have h3 : Within F R z v3 := (by unfold v3; exact (State.when_within (sub hF rfl) (sub hR rfl) h2 (fun h4 => (State.publishStop_within (sub hF rfl) (sub hR rfl) h4))))
  clear_value v3
  extract_lets -merge -useContext -underBinder +onlyGivenNames v4
  have h4 : Within F R z v4 := (by unfold v4; exact (State.openTide_within (sub hF rfl) (sub hR rfl) h3))
  clear_value v4
  exact .ite h4 (State.stopNow_within (sub hF rfl) (sub hR rfl) h4)

theorem execTideEdge_within {F R} {s : State}  (hF : F &&& 0x3ffffff6 = 0x3ffffff6) (hR : R &&& 0xffffffffffffffffffffffffffff80ffffffffffffffffffffffffffffffffffffffffffffffffffffffffffffffffffffffffffffffffffffffffffffffffff = 0xffffffffffffffffffffffffffff80ffffffffffffffffffffffffffffffffffffffffffffffffffffffffffffffffffffffffffffffffffffffffffffffffff) : Touched F R s (execTideEdge s) := by
  unfold execTideEdge
  split
  · extract_lets -merge -useContext -underBinder +onlyGivenNames first v w
    have h : Within F R s w := .now (State.doSeal_within (sub hF rfl) (sub hR rfl)
      (State.enter_within (sub hF rfl) (.refl s))) (elem hF rfl)
    split
    · exact .next (State.stopEdge_within (sub hF rfl) (sub hR rfl) h)
    · split
      rename_i hq
      exact .next (State.edgeActions_within (sub hF rfl) (sub hR rfl)
        ((State.realign_within (sub hF rfl) (sub hR rfl) h).fst' hq))
  · exact .next (State.enter_within (sub hF rfl) (.refl s))

theorem execWorkPhaseStart_within {F R} {s : State}  (hF : F &&& 0x218796 = 0x218796) (hR : R &&& 0x82020000000000000000000000000000000000000000000000000000000000200000000000000000340003000000000000000000000000000 = 0x82020000000000000000000000000000000000000000000000000000000000200000000000000000340003000000000000000000000000000) : Touched F R s (execWorkPhaseStart s) := by
  unfold execWorkPhaseStart
  split
  · extract_lets -merge -useContext -underBinder +onlyGivenNames v r w plans u
    have hw : Within F R s w := .tide (State.enter_within (sub hF rfl) (.refl s)) (elem hF rfl)
    clear_value w
    have hu : Within F R s u := State.drawEdge_within (sub hF rfl) (sub hR rfl) (State.when_within (sub hF rfl) (sub hR rfl) hw
      (fun k => State.planTide_within (sub hF rfl) (sub hR rfl) k))
    clear_value u
    exact .next (State.each_within (sub hF rfl) (sub hR rfl) hu (fun k => State.ctx3_within (sub hF rfl) (sub hR rfl) k))
  · exact .next (State.enter_within (sub hF rfl) (.refl s))

theorem State.takeMarker_within {F R} {z s : State} {a1 a2} (hF : F &&& 0x100100 = 0x100100) (_hR : R &&& 0 = 0) (h : Within F R z s) : Within F R z (State.takeMarker s a1 a2) := by
  unfold State.takeMarker
  extract_lets -merge -useContext -underBinder +onlyGivenNames v1 v2 v3
  clear_value v1 v2 v3
  exact .chg 1048832 h (sub hF rfl) rfl (fun g hg => by cases g <;> first | rfl | exact absurd hg (by decide))

theorem execTideMarker_within {F R} {s : State} {a0 a1 a2 a3} (hF : F &&& 0x3100116 = 0x3100116) (hR : R &&& 0x18000000000000008800000000000000000000000002400000000000000000000000000000000000000000000000000000000000000 = 0x18000000000000008800000000000000000000000002400000000000000000000000000000000000000000000000000000000000000) : Touched F R s (execTideMarker a0 a1 a2 a3 s) := by
  unfold execTideMarker
  exact .answer (sub hF rfl) (fun h1 => (State.arrival_within (sub hF rfl) (sub hR rfl) h1 (fun h2 => (by extract_lets -merge -useContext -underBinder +onlyGivenNames v3; clear_value v3; exact (.ite h2 (by extract_lets -merge -useContext -underBinder +onlyGivenNames v4; clear_value v4; exact (by extract_lets -merge -useContext -underBinder +onlyGivenNames v5; have h5 : Within F R s v5 := (by unfold v5; exact (.ite (State.when_within (sub hF rfl) (sub hR rfl) h2 (fun h6 => (State.bump_within (sub hF rfl) (sub hR rfl) (elem hR rfl) h6))) (State.takeMarker_within (sub hF rfl) (sub hR rfl) h2))); clear_value v5; exact (by extract_lets -merge -useContext -underBinder +onlyGivenNames v6; clear_value v6; exact (by extract_lets -merge -useContext -underBinder +onlyGivenNames v7; clear_value v7; exact (.ite h5 (State.sendMarker_within (sub hF rfl) (sub hR rfl) (State.tick_within (sub hF rfl) (sub hR rfl) h5))))))))))))

end Sys2Proof.Machine
end

