-- ==== Sys2Proof/Laws/RegPath.lean ====
section
/-! SUPPORT. Registers after updates of other registers; and the write path of the physical function while the device
serves every access at once: a write of a register of BAR0 or BAR2 at its place does what `State.writeReg` says of it,
and is counted. -/

namespace Sys2Proof.Machine

variable {s : State}

/-! ### A register after an update of another one -/

@[simp] theorem State.reg_setReg_ne {r q : Reg} {v : W64} {u i u' i' : Nat} (h : r ≠ q) :
    (s.setReg r v u i).reg q u' i' = s.reg q u' i' :=
  State.reg_setReg_other _ _ _ _ _ _ _ _ (fun e => h (Reg.key_inj (r := q) (q := r) e).symm)
@[simp] theorem State.reg_setNum_ne {r q : Reg} {n u i u' i' : Nat} (h : r ≠ q) :
    (s.setNum r n u i).reg q u' i' = s.reg q u' i' := State.reg_setReg_ne h
@[simp] theorem State.reg_setF_ne {r q : Reg} {lo w x u i u' i' : Nat} (h : r ≠ q) :
    (s.setF r lo w x u i).reg q u' i' = s.reg q u' i' := State.reg_setReg_ne h
@[simp] theorem State.reg_bump_ne {r q : Reg} {n u i u' i' : Nat} (h : r ≠ q) :
    (s.bump r n u i).reg q u' i' = s.reg q u' i' := State.reg_setReg_ne h
@[simp] theorem State.reg_enter {t : Stamp} {q : Reg} {u i : Nat} : (s.enter t).reg q u i = s.reg q u i := rfl

/-! ### A register after its own update -/

/-- Bit by bit, a field set. -/
theorem setFld_testBit (v : W64) (lo w x : Nat) (h : lo + w ≤ 64) (j : Nat) : (setFld v lo w x).toNat.testBit j =
    if lo ≤ j ∧ j < lo + w then (x % 2 ^ w).testBit (j - lo) else v.toNat.testBit j := by
  have e : (setFld v lo w x).toNat.testBit j = (setFld v lo w x).getLsbD j := rfl
  rw [e, setFld, BitVec.getLsbD_or, BitVec.getLsbD_and, BitVec.getLsbD_not, BitVec.getLsbD_ofNat, BitVec.getLsbD_ofNat,
    Nat.testBit_mul_two_pow, Nat.testBit_mul_two_pow, Nat.testBit_two_pow_sub_one]
  have hv : v.getLsbD j = v.toNat.testBit j := rfl
  rw [hv]
  by_cases hj : j < 64
  · by_cases h1 : lo ≤ j
    · by_cases h2 : j < lo + w
      · simp [hj, h1, h2, show j - lo < w by omega]
      · have : (x % 2 ^ w).testBit (j - lo) = false :=
          Nat.testBit_lt_two_pow (Nat.lt_of_lt_of_le (Nat.mod_lt _ (Nat.two_pow_pos w)) (Nat.pow_le_pow_right (by decide) (by omega)))
        simp [hj, h1, h2, show ¬ j - lo < w by omega, this]
    · simp [hj, h1]
  · have hb : v.toNat.testBit j = false := Nat.testBit_lt_two_pow (Nat.lt_of_lt_of_le v.isLt (Nat.pow_le_pow_right (by decide) (by omega)))
    simp [hj, hb]
    omega

/-- The field just set. -/
theorem State.fld_setF_same {r : Reg} {lo w x u i : Nat} (h : lo + w ≤ 8 * r.info.size) (h8 : r.info.size ≤ 8) :
    (s.setF r lo w x u i).fld r lo w u i = x % 2 ^ w := by
  unfold State.fld State.setF
  rw [State.reg_setReg_same]
  refine Nat.eq_of_testBit_eq (fun j => ?_)
  have hb := setFld_testBit (s.reg r u i) lo w x (by omega) (j + lo)
  rw [fldOf, BitVec.toNat_ofNat, Nat.testBit_mod_two_pow, Nat.testBit_div_two_pow, Nat.testBit_mod_two_pow, Nat.testBit_mod_two_pow,
    hb, Nat.testBit_mod_two_pow]
  by_cases hj : j < w
  · simp [hj, show j + lo < 64 by omega, show j + lo < 8 * r.info.size by omega]; omega
  · simp [hj]

/-- A field apart from the one set. -/
theorem State.fld_setF_apart {r : Reg} {lo w x u i lo' w' : Nat} (h : lo + w ≤ lo' ∨ lo' + w' ≤ lo) (hl : lo + w ≤ 64)
    (h' : lo' + w' ≤ 8 * r.info.size) (h8 : r.info.size ≤ 8) : (s.setF r lo w x u i).fld r lo' w' u i = s.fld r lo' w' u i := by
  unfold State.fld State.setF
  rw [State.reg_setReg_same]
  refine Nat.eq_of_testBit_eq (fun j => ?_)
  have hb := setFld_testBit (s.reg r u i) lo w x hl (j + lo')
  rw [fldOf, fldOf, BitVec.toNat_ofNat, Nat.testBit_mod_two_pow, Nat.testBit_div_two_pow, Nat.testBit_mod_two_pow, Nat.testBit_mod_two_pow,
    hb, Nat.testBit_mod_two_pow, Nat.testBit_mod_two_pow, Nat.testBit_div_two_pow]
  by_cases hj : j < w'
  · simp [hj, show j + lo' < 64 by omega, show j + lo' < 8 * r.info.size by omega]
    omega
  · simp [hj]

/-- A register set to a number it has room for. -/
theorem State.num_setNum_same {r : Reg} {n u i : Nat} (h : n < 2 ^ (8 * r.info.size)) (h8 : r.info.size ≤ 8) :
    (s.setNum r n u i).num r u i = n := by
  have h64 : n < 2 ^ 64 := Nat.lt_of_lt_of_le h (Nat.pow_le_pow_right (by decide) (by omega))
  unfold State.num State.setNum
  rw [State.reg_setReg_same]
  rw [BitVec.toNat_ofNat, BitVec.toNat_ofNat, Nat.mod_eq_of_lt h64, Nat.mod_eq_of_lt h, Nat.mod_eq_of_lt h64]

/-! ### The write path -/

end Sys2Proof.Machine

namespace Sys2Proof.Safety

open Sys2Proof.Machine

variable {s : State}

theorem Serves.live (h : Serves s) : s.fnLive 0 = true := by
  have := h.1
  simp only [State.ready, Bool.and_eq_true] at this
  simp [State.fnLive, this.1]

theorem Serves.enter {t : Stamp} (h : Serves s) : Serves (s.enter t) := h

theorem Serves.bump {r : Reg} {n u i : Nat} (h : Serves s) (hr : r ≠ .HIF_DEV_STATE) : Serves (s.bump r n u i) := by
  refine ⟨?_, h.2⟩
  have h1 := h.1
  simp only [State.ready, State.powered, State.devState, State.fld, Bool.and_eq_true] at h1 ⊢
  rw [State.reg_bump_ne hr]
  exact h1

theorem Serves.settled (h : Serves s) : s.safe = false ∧ s.starting = false := by
  have := h.1
  simp only [State.ready, Bool.and_eq_true, beq_iff_eq] at this
  simp [State.safe, State.starting, this.2]

/-- While the device serves, the address map shows a present register of the physical function at its place. -/
theorem Serves.place {bar off : Nat} {r : Reg} (h : Serves s) (ha : s.regAbsent r = false)
    (hp : (if bar == 0 then s.pfBar0 off else if bar == 2 then pfBar2 off else .zero) = .reg r 0 0 0 false) :
    s.place 0 bar off = .reg r 0 0 0 false := by
  have := h.settled
  unfold State.place
  simp only [beq_self_eq_true, if_true, hp, ha, this.1, this.2]
  simp

/-- A register of the physical function's map, present and served, is written by a write at its place. -/
theorem Serves.hostWrite {bar : Fin 6} {off : Nat} {r : Reg} (v : W64) (h : Serves s) (ha : s.regAbsent r = false)
    (hb : bar = 0 ∨ bar = 2)
    (hp : (if bar.val == 0 then s.pfBar0 off else if bar.val == 2 then pfBar2 off else .zero) = .reg r 0 0 0 false)
    (hs : r.info.size = 4 ∨ r.info.size = 8) (hm : off % r.info.size = 0) :
    s.hostWrite 0 bar off r.info.size v =
      (s.bump .CNT_PCIE_BAR_WR r.info.size).writeReg 0 r 0 0 (v.toNat % 2 ^ (8 * r.info.size)) := by
  have hq : (s.bump .CNT_PCIE_BAR_WR r.info.size).place 0 bar.val off = .reg r 0 0 0 false := by
    refine Serves.place (Serves.bump h (by decide)) ?_ ?_
    · rw [← ha]
      have hl : (s.bump .CNT_PCIE_BAR_WR r.info.size).selLink = s.selLink := by
        unfold State.selLink State.fld
        rw [State.reg_bump_ne (by decide)]
      simp only [State.regAbsent, State.bump_part, State.linkFitted, hl]
    · have h0 : (s.bump .CNT_PCIE_BAR_WR r.info.size).num .HIF_WIN0_SEL = s.num .HIF_WIN0_SEL := by
        unfold State.num
        rw [State.reg_bump_ne (by decide)]
      have h1 : (s.bump .CNT_PCIE_BAR_WR r.info.size).num .HIF_WIN1_SEL = s.num .HIF_WIN1_SEL := by
        unfold State.num
        rw [State.reg_bump_ne (by decide)]
      have hw : ∀ sel o, (s.bump .CNT_PCIE_BAR_WR r.info.size).window sel o = s.window sel o := fun _ _ => rfl
      rw [← hp]
      simp only [State.pfBar0, h0, h1, hw]
  have hn : (s.bump .CNT_PCIE_BAR_WR r.info.size).emuBusy 0 bar.val off = false := by
    simp [State.emuBusy, State.restarting, h.2]
  unfold State.hostWrite
  have hb' : (bar.val == 0 || bar.val == 2) = true := by rcases hb with rfl | rfl <;> rfl
  have hm' : (!(r.info.size == 4 || r.info.size == 8) || off % r.info.size != 0) = false := by
    rcases hs with hs | hs <;> (rw [hs] at hm ⊢; simp [hm])
  have h0 : (0 : FnId).val = 0 := rfl
  simp only [hb', hm', h0, hn, if_true, Bool.false_eq_true, if_false]
  unfold State.applyWrite
  rcases hs with hs | hs
  · simp [hs] at hq ⊢
    simp [State.write32, hq, hs]
  · simp [hs] at hq ⊢
    simp [hq, hs]
    rw [Nat.mod_eq_of_lt (b := 18446744073709551616) v.isLt]

/-- The row that writes register `r`, for the physical function while the device serves. -/
theorem Serves.regWrite (r : Reg) (w : W64) (h : Serves s) (ha : s.regAbsent r = false)
    (hp : (if (regHome 0 r).1 == 0 then s.pfBar0 ((regHome 0 r).2 + r.info.off) else
      if (regHome 0 r).1 == 2 then pfBar2 ((regHome 0 r).2 + r.info.off) else .zero) = .reg r 0 0 0 false)
    (hb : (regHome 0 r).1 = 0 ∨ (regHome 0 r).1 = 2) (hs : r.info.size = 4 ∨ r.info.size = 8)
    (hm : ((regHome 0 r).2 + r.info.off) % r.info.size = 0) :
    s.regWrite 0 r w = (s.bump .CNT_PCIE_BAR_WR r.info.size).writeReg 0 r 0 0 (w.toNat % 2 ^ (8 * r.info.size)) := by
  unfold State.regWrite
  have h0 : (0 : FnId).val = 0 := rfl
  simp only [h0, Serves.live h, State.when, if_true]
  refine Serves.hostWrite w h ha ?_ ?_ hs hm
  · rcases hb with hb | hb <;> simp [hb]
  · rcases hb with hb | hb <;> simpa [hb] using hp

/-! ### The control registers -/

theorem Serves.tdeCtrl (h : Serves s) (w : W64) : s.regWrite 0 .TDE_CTRL w = (s.bump .CNT_PCIE_BAR_WR 4).tdeCtrl (w.toNat % 2 ^ 32) :=
  Serves.regWrite .TDE_CTRL w h (by simp [State.regAbsent, show Reg.TDE_CTRL.info.block = .tde from rfl]) rfl (.inl rfl) (.inl rfl) rfl
theorem Serves.wgtCtrl (h : Serves s) (w : W64) : s.regWrite 0 .WGT_LOAD_CTRL w = (s.bump .CNT_PCIE_BAR_WR 4).wgtCtrl (w.toNat % 2 ^ 32) :=
  Serves.regWrite .WGT_LOAD_CTRL w h (by simp [State.regAbsent, show Reg.WGT_LOAD_CTRL.info.block = .wgt from rfl]) rfl (.inr rfl) (.inl rfl) rfl
theorem Serves.trustCtrl (h : Serves s) (w : W64) : s.regWrite 0 .WGT_TRUST_CTRL w = (s.bump .CNT_PCIE_BAR_WR 4).trustCtrl (w.toNat % 2 ^ 32) :=
  Serves.regWrite .WGT_TRUST_CTRL w h (by simp [State.regAbsent, show Reg.WGT_TRUST_CTRL.info.block = .wgt from rfl]) rfl (.inr rfl) (.inl rfl) rfl
theorem Serves.bplCtrl (h : Serves s) (w : W64) : s.regWrite 0 .BPL_CTRL w = (s.bump .CNT_PCIE_BAR_WR 4).bplCtrl (w.toNat % 2 ^ 32) :=
  Serves.regWrite .BPL_CTRL w h (by simp [State.regAbsent, show Reg.BPL_CTRL.info.block = .bpl from rfl]) rfl (.inr rfl) (.inl rfl) rfl
theorem Serves.allocCtrl (h : Serves s) (w : W64) : s.regWrite 0 .SYN_ALLOC_CTRL w = (s.bump .CNT_PCIE_BAR_WR 4).allocCtrl (w.toNat % 2 ^ 32) :=
  Serves.regWrite .SYN_ALLOC_CTRL w h (by simp [State.regAbsent, show Reg.SYN_ALLOC_CTRL.info.block = .syn from rfl]) rfl (.inl rfl) (.inl rfl) rfl
theorem Serves.fwpCtrl (h : Serves s) (w : W64) : s.regWrite 0 .FWP_CTRL w = (s.bump .CNT_PCIE_BAR_WR 4).fwpCtrl (w.toNat % 2 ^ 32) :=
  Serves.regWrite .FWP_CTRL w h (by simp [State.regAbsent, show Reg.FWP_CTRL.info.block = .fwp from rfl]) rfl (.inr rfl) (.inl rfl) rfl
theorem Serves.hltCtrl (h : Serves s) (w : W64) : s.regWrite 0 .HLT_CTRL w = (s.bump .CNT_PCIE_BAR_WR 4).hltCtrl (w.toNat % 2 ^ 32) :=
  Serves.regWrite .HLT_CTRL w h (by simp [State.regAbsent, show Reg.HLT_CTRL.info.block = .hlt from rfl]) rfl (.inr rfl) (.inl rfl) rfl
theorem Serves.pwrCtrl (h : Serves s) (w : W64) : s.regWrite 0 .PWR_CTRL w = (s.bump .CNT_PCIE_BAR_WR 4).pwrCtrl (w.toNat % 2 ^ 32) :=
  Serves.regWrite .PWR_CTRL w h (by simp [State.regAbsent, show Reg.PWR_CTRL.info.block = .pwr from rfl]) rfl (.inr rfl) (.inl rfl) rfl
theorem Serves.vcoreTarget (h : Serves s) (w : W64) : s.regWrite 0 .PWR_VCORE_TARGET w = (s.bump .CNT_PCIE_BAR_WR 4).vcoreTarget (w.toNat % 2 ^ 32) :=
  Serves.regWrite .PWR_VCORE_TARGET w h (by simp [State.regAbsent, show Reg.PWR_VCORE_TARGET.info.block = .pwr from rfl]) rfl (.inr rfl) (.inl rfl) rfl
theorem Serves.pwrLimit (h : Serves s) (w : W64) : s.regWrite 0 .PWR_LIMIT w = (s.bump .CNT_PCIE_BAR_WR 4).pwrLimit (w.toNat % 2 ^ 32) :=
  Serves.regWrite .PWR_LIMIT w h (by simp [State.regAbsent, show Reg.PWR_LIMIT.info.block = .pwr from rfl]) rfl (.inr rfl) (.inl rfl) rfl
theorem Serves.hkaCtrl (h : Serves s) (w : W64) : s.regWrite 0 .HKA_CTRL w = (s.bump .CNT_PCIE_BAR_WR 4).hkaCtrl (w.toNat % 2 ^ 32) :=
  Serves.regWrite .HKA_CTRL w h (by simp [State.regAbsent, show Reg.HKA_CTRL.info.block = .hka from rfl]) rfl (.inr rfl) (.inl rfl) rfl
theorem Serves.bbxCtrl (h : Serves s) (w : W64) : s.regWrite 0 .BBX_CTRL w = (s.bump .CNT_PCIE_BAR_WR 4).bbxCtrl (w.toNat % 2 ^ 32) :=
  Serves.regWrite .BBX_CTRL w h (by simp [State.regAbsent, show Reg.BBX_CTRL.info.block = .bbx from rfl]) rfl (.inr rfl) (.inl rfl) rfl
theorem Serves.evtCtrl (h : Serves s) (w : W64) : s.regWrite 0 .EVT_CTRL w = (s.bump .CNT_PCIE_BAR_WR 4).evtCtrl (w.toNat % 2 ^ 32) :=
  Serves.regWrite .EVT_CTRL w h (by simp [State.regAbsent, show Reg.EVT_CTRL.info.block = .evt from rfl]) rfl (.inl rfl) (.inl rfl) rfl
theorem Serves.aonCtrl (h : Serves s) (w : W64) : s.regWrite 0 .AON_CTRL w = (s.bump .CNT_PCIE_BAR_WR 4).when (bitOf (w.toNat % 2 ^ 32) 0) (fun s => s.clearLatches) :=
  Serves.regWrite .AON_CTRL w h (by simp [State.regAbsent, show Reg.AON_CTRL.info.block = .aon from rfl]) rfl (.inl rfl) (.inl rfl) rfl
theorem Serves.fnCtrl (h : Serves s) (w : W64) : s.regWrite 0 .HIF_FN_CTRL w = (s.bump .CNT_PCIE_BAR_WR 4).when (bitOf (w.toNat % 2 ^ 32) 0) (fun s => s.fnApply) :=
  Serves.regWrite .HIF_FN_CTRL w h (by simp [State.regAbsent, show Reg.HIF_FN_CTRL.info.block = .hif from rfl]) rfl (.inl rfl) (.inl rfl) rfl
theorem Serves.admqCtrl (h : Serves s) (w : W64) : s.regWrite 0 .SRV_ADMQ_CTRL w = (s.bump .CNT_PCIE_BAR_WR 4).admqWrite 0 (BitVec.ofNat 32 (w.toNat % 2 ^ 32)) :=
  Serves.regWrite .SRV_ADMQ_CTRL w h (by simp [State.regAbsent, show Reg.SRV_ADMQ_CTRL.info.block = .srv from rfl]) rfl (.inr rfl) (.inl rfl) rfl
theorem Serves.hostTierAddr (h : Serves s) (w : W64) : s.regWrite 0 .WGT_HOST_TIER_ADDR w = ((s.bump .CNT_PCIE_BAR_WR 8).setNum .WGT_HOST_TIER_ADDR (w.toNat % 2 ^ 64)).tierWritten :=
  Serves.regWrite .WGT_HOST_TIER_ADDR w h (by simp [State.regAbsent, show Reg.WGT_HOST_TIER_ADDR.info.block = .wgt from rfl]) rfl (.inr rfl) (.inr rfl) rfl
theorem Serves.kvcReserveBytes (h : Serves s) (w : W64) : s.regWrite 0 .KVC_RESERVE_BYTES w = (s.bump .CNT_PCIE_BAR_WR 8).kvcReserve (BitVec.ofNat 64 (w.toNat % 2 ^ 64)) :=
  Serves.regWrite .KVC_RESERVE_BYTES w h (by simp [State.regAbsent, show Reg.KVC_RESERVE_BYTES.info.block = .kvc from rfl]) rfl (.inr rfl) (.inr rfl) rfl
theorem Serves.fabCtrl (h : Serves s) (hp : s.part ≠ .jn8s) (w : W64) : s.regWrite 0 .FAB_CTRL w = (s.bump .CNT_PCIE_BAR_WR 4).fabCtrl (w.toNat % 2 ^ 32) :=
  Serves.regWrite .FAB_CTRL w h (by simp [State.regAbsent, show Reg.FAB_CTRL.info.block = .fab from rfl, hp]) rfl (.inr rfl) (.inl rfl) rfl
theorem Serves.linkCtrl (h : Serves s) (hp : s.part ≠ .jn8s) (hl : s.linkFitted s.selLink = true) (w : W64) : s.regWrite 0 .FAB_LINK_CTRL w = (s.bump .CNT_PCIE_BAR_WR 4).linkCtrl (w.toNat % 2 ^ 32) :=
  Serves.regWrite .FAB_LINK_CTRL w h (by simp [State.regAbsent, show Reg.FAB_LINK_CTRL.info.block = .fab from rfl, hp, hl]) rfl (.inr rfl) (.inl rfl) rfl

end Sys2Proof.Safety
end

