-- ==== Sys2Proof/Laws/Specs.lean ====
section
/-! SUPPORT. What some shared operations do, said once: entering the safe state, an interrupt's status bits, rows that
are one write of the physical function. -/

namespace Sys2Proof.Machine

open Sys2Proof.Safety

variable {s : State}

@[simp] theorem State.fld_enter {k : Stamp} {r : Reg} {lo w u i : Nat} : (s.enter k).fld r lo w u i = s.fld r lo w u i := rfl
@[simp] theorem State.bit_enter {k : Stamp} {r : Reg} {b u i : Nat} : (s.enter k).bit r b u i = s.bit r b u i := rfl
@[simp] theorem State.num_enter {k : Stamp} {r : Reg} {u i : Nat} : (s.enter k).num r u i = s.num r u i := rfl

theorem State.fld_setF_ne {r q : Reg} {lo w x u i lo' w' u' i' : Nat} (h : r ≠ q) :
    (s.setF r lo w x u i).fld q lo' w' u' i' = s.fld q lo' w' u' i' := by
  unfold State.fld; rw [State.reg_setF_ne h]
theorem State.fld_setNum_ne {r q : Reg} {n u i lo' w' u' i' : Nat} (h : r ≠ q) :
    (s.setNum r n u i).fld q lo' w' u' i' = s.fld q lo' w' u' i' := by
  unfold State.fld; rw [State.reg_setNum_ne h]
theorem State.num_setF_ne {r q : Reg} {lo w x u i u' i' : Nat} (h : r ≠ q) :
    (s.setF r lo w x u i).num q u' i' = s.num q u' i' := by
  unfold State.num; rw [State.reg_setF_ne h]
theorem State.num_setNum_ne {r q : Reg} {n u i u' i' : Nat} (h : r ≠ q) :
    (s.setNum r n u i).num q u' i' = s.num q u' i' := by
  unfold State.num; rw [State.reg_setNum_ne h]

/-- One bit set or cleared. -/
theorem State.bit_setF_same {r : Reg} {b x u i : Nat} (h : b + 1 ≤ 8 * r.info.size) (h8 : r.info.size ≤ 8) :
    (s.setF r b 1 x u i).bit r b u i = (x % 2 == 1) := by
  unfold State.bit; rw [State.fld_setF_same h h8]; rfl

/-- What an operation that keeps a register leaves of its fields. -/
theorem Within.fld {F R : Nat} {z t : State} {r : Reg} {lo w u i : Nat} (h : Within F R z t)
    (hr : R.testBit r.ctorIdx = false) : t.fld r lo w u i = z.fld r lo w u i := by
  unfold State.fld; rw [h.2 r hr]
theorem Within.num {F R : Nat} {z t : State} {r : Reg} {u i : Nat} (h : Within F R z t)
    (hr : R.testBit r.ctorIdx = false) : t.num r u i = z.num r u i := by
  unfold State.num; rw [h.2 r hr]

/-- HIF_DEV_STATE after a change of it. -/
theorem State.devState_setDevState {d : Nat} (h : d < 8) : (s.setDevState d).devState = d := by
  unfold State.setDevState
  split
  · rename_i e; exact (beq_iff_eq.mp e)
  · have w : Within (fieldSet [.out, .hif, .evt]) (regSet [.HIF_INT_STATUS]) (s.setNum .HIF_DEV_STATE d)
        (((s.setNum .HIF_DEV_STATE d).each s.fns (fun fn s => s.raise .HIF_INT_STATUS .HIF_INT_ENABLE 64 fn)).event 0x0D03 0x80
          s.devState d) :=
      State.event_within rfl rfl (State.each_within rfl rfl (.refl _) (fun k => State.raise_within rfl rfl rfl k))
    rw [State.devState, w.fld rfl]
    have e := State.num_setNum_same (s := s) (r := .HIF_DEV_STATE) (n := d) (u := 0) (i := 0)
      (Nat.lt_of_lt_of_le h (by decide)) (by decide)
    unfold State.num at e
    unfold State.fld fldOf
    rw [e]
    simp only [Nat.pow_zero, Nat.div_one]
    exact Nat.mod_eq_of_lt h

/-- From STARTING or READY the device goes into SAFE, with its reason (R412, Table 13.9). -/
theorem State.enterSafe_spec {reason detail : Nat} (h : s.devState = 0 ∨ s.devState = 1) :
    (s.enterSafe reason detail).devState = 2 ∧ (s.enterSafe reason detail).fld .FWP_STATUS 16 8 = reason % 256 := by
  have hc : (s.devState == 0 || s.devState == 1) = true := by rcases h with h | h <;> simp [h]
  unfold State.enterSafe
  rw [if_pos hc]
  extract_lets s1
  have w : Within (fieldSet [.out, .mram, .pans, .cores, .wgt, .qps, .srv, .plans, .hif, .hlt, .evt, .snaps, .mem])
      (regSet [.BBX_INT_STATUS, .SRV_INT_STATUS, .WGT_LOAD_CTRL, .WGT_LOAD_STATUS]) s1 (((((s1.event 0x0D02 1 reason 0 0 0 2).snapTrigger 1 detail).shutRecord 4).closeAll (reason == 5)).keepAdmin s) :=
    State.keepAdmin_within rfl rfl (State.closeAll_within rfl rfl (State.shutRecord_within rfl rfl (State.snapTrigger_within rfl rfl
      (State.event_within rfl rfl (.refl _)))))
  have w1 : Within (fieldSet [.out, .hif, .evt]) (regSet [.FWP_INT_STATUS]) ((s.setF .FWP_STATUS 16 8 reason).setDevState 2) s1 :=
    State.raise_within rfl rfl rfl (.refl _)
  have w2 : Within (fieldSet [.out, .hif, .evt]) (regSet [.HIF_INT_STATUS, .HIF_DEV_STATE]) (s.setF .FWP_STATUS 16 8 reason)
      ((s.setF .FWP_STATUS 16 8 reason).setDevState 2) := State.setDevState_within rfl rfl (.refl _)
  constructor
  · rw [State.devState, w.fld rfl, w1.fld rfl]
    exact State.devState_setDevState (by decide)
  · rw [w.fld rfl, w1.fld rfl, w2.fld rfl]
    exact State.fld_setF_same (by decide) (by decide)

/-- A row that is a write of one bit by the physical function is that write. -/
theorem bitRow_pf {k : Stamp} {r : Reg} {b : Nat} {w : W32} (hb : w.getLsbD b = true) :
    bitRow k 0 r b w s = .next ((s.enter k).regWrite 0 r (w.setWidth 64)) := by
  simp [bitRow, answer, State.when, hb]

/-- The same with a field besides. -/
theorem fieldRow_pf {k : Stamp} {r : Reg} {b lo n x : Nat} {w : W32} (hb : w.getLsbD b = true)
    (hx : w.toNat / 2 ^ lo % 2 ^ n = x) :
    fieldRow k 0 r b lo n x w s = .next ((s.enter k).regWrite 0 r (w.setWidth 64)) := by
  simp [fieldRow, answer, State.when, hb, hx]

/-- A word of 32 bits in a register of 32 bits. -/
theorem setWidth_mod {w : W32} : (w.setWidth 64).toNat % 2 ^ 32 = w.toNat := by
  rw [BitVec.toNat_setWidth, Nat.mod_mod_of_dvd _ (by decide)]
  exact Nat.mod_eq_of_lt w.isLt

/-- A bit of the word written. -/
theorem bitOf_toNat {w : W32} {b : Nat} : bitOf w.toNat b = w.getLsbD b := by
  have : w.getLsbD b = w.toNat.testBit b := rfl
  rw [this, bitOf, Nat.testBit_eq_decide_div_mod_eq]
  cases h : decide (w.toNat / 2 ^ b % 2 = 1) <;> simp_all

end Sys2Proof.Machine
end

