-- ==== Sys2Proof/Tests/Slice0.lean ====
section
/-! SUPPORT. Tests: ill-formed terms, the worked examples of the spec, a few single steps, and, for each statement of
Obligations.lean that has hypotheses, concrete states and operands that meet those of every clause. -/

namespace Sys2Proof.Tests

open Sys2Proof Sys2Proof.Machine Sys2Proof.Safety

set_option maxRecDepth 4000
set_option exponentiation.threshold 600
set_option Elab.async false

/-! ### Small states -/

def keyN : Nat := 902762086372520014095187557770429156516637054733647022245168183487490631589327239818794536981873208792230164020257401469782134798123323664235376911781896963525821136195649864860995856036976316451733514690731998184157473328743069639732736528672269372019868702549535216093378921784611919100073405452783155068986940492292553613087627524693321764156510565594475792127932261781395603445690284096138569989418540230334808072512716827271469379546108021972663942050541321623838751299224254491665502199018627260312139596746917196589836358681706725529180550200868278908629827386830145278017614622724171899808533171559037217121660820723672805199625006820746203300720963952744120227666873648591190331279379500024159439711816319604104014132935663968460479229451041540126891565406111197535510966686464846856200781121906080056715761611979532259651579439892571362101594794459703364725366288176202629306241594883122116401799748612403700820365041514540044004987118607215283287570621894141506569399809861226042048465040401811861791833539910085523799932914922962717499171378834162731209546071943079195610264341027680748252032186196423955404608262761789011692660922107343081343786972004589342093913135938775452369149858034159428291900090788933182635059583
def imgSig : Nat := 598895231750611927736187880679946956035062614727572918530657519603621216676301565124906193368497726138217208913895343970182616016398258030369741508524164832873081561016515407378363616150533915804906191001426066432567358816724088927617956841031518547796761860697803710860218011150724281826662612792782858566391103994024034946009931444722910139231928347459499775410145396005920738337926489760453742671390863383806842610120930337770796711861343943974474991716923564190963289273299346573431469701804913982534343822033960917936327412882555908469995965242202891193018357826480815630004687367607559740589689648659207467492503821150842215460434140183347019888044554733380048047702850105712131917780921056212122520017598856262616707809011437424716980072303693807282310048176499772184382682747532989909725790997897634883656929096135616699312630069444037010160464602124131334995152454588254112070598945166194158301857771259334639030215219979980007660530559881949843933992664537338470224540845667650781669128739360275626185877614138045926435963517871173263907648007856240684287417317272272648742055045706541000300430374266599336648281093873058353420835624274398359728482128209463692393511824531276943733589705431545959390505950212153359880852490
def keyDigest : BitVec 512 := 2236460609088457365001192732863468884701995872841499149794885110385061915754960825218154032859346062774685295198496998057569913058569396049420011697884975
def emptyDigest : Nat := 10868450558671247443152026947160338505683745266658651051718065983487878962987857602829315249215796444208488632888003673539585986066311769564391053988452926
/-- A firmware image of empty sections, signed with `keyN`. -/
def img0 : Image :=
  { bytes := leFields 2 [0x4E4A, 0x5746, 1, 4, 9, 0, 3, 0] ++ leFields 8 [4096, 7] ++ leFields 16 [0, 0] ++
      [1, 2, 3, 4].flatMap (fun i => leFields 4 [i, 4096, 0] ++ List.replicate 20 0 ++ beBytes 64 emptyDigest) ++ beBytes 512 keyN ++
      leBytes 4 65537 ++ List.replicate 60 0 ++ beBytes 512 imgSig }
def idN : Nat := 785691249589920746757618133391449604211567680797829215897646844292224495836451604457736545229886976401114547453652104965088028357482691669179116852941622800761408316567646240555825646963792818809533481993867019462664115289793230884317786130065217989475773991050115973703072930364053055937270017004684916315183528742756907296069742977554198274171387900388549416495189119792842759063810657031578143151892594380034958254159882284832531220954715206805158225869490682031946693136389381133034570272462655019082101974209039455811626395641692825246644010661625732779818231594314622523834398179232956705068210061811414973002563208913464662865416799534628095554222697304913152751139244914813277050297164852834556708447305936948523133055503372177388210880790345835003472222550607013687930050957303413280139661613239386113755906502239919048229067955014788832862900456454832315911632982451780692027966678363030670699572162104122786647564929755770629220395582411073720004691534715319222822627685053067046034184752652745488264773970740423841077672436995983865616408203522274132758953971073793182269936170093392825050255228190498563102484401283090489913320484545229866832960138082672698266518335169874716893781820680676275061678720816748827564848887
def idD : Nat := 563436186401988117492630682410414704651345924624813120660964133055311760613417649668198149941471659015511566004344746160935153527701474633689063183462019750525423319072374963969096750782067151355882243415898838529476297212104647223723504471379604117817147962698526794514503587000469437461888952182525622121564848617606682165809936073654457947258905481521294009131344099547187451218105394802479661440905872265634419763324628036415449323625275879113002217059284420619458179105299725872260840954959791577075859874328645442181284119541148960143762686926088868718218674160696989935077422610549620813049052237438590123154429249124786179521082793133287814853636010818778604303399629791781597468471179887912376352802072866495908532551700345494060210312830851488332027149419763252250561762244255963881010205294635195992928716872222868058497509043228873055726330330882730163973373030669898763491470601683800636826956470810505846929270225920023824784537365534973462492527349646712160543576290961972208637921045849892083062813809551436316385623448014353114061879267581128313583920608123468867311702817830936295473063687170201633265004639011959862299103556519771454326460514693745909464167340423230836048667245295363589407903430601964903673230273
def idKey : BitVec 128 := 154500259587375866301884369594862905100
def manSig : Nat := 186456100352809653945174025197539702898910670930107625426506870493369857198984117050159784015262801133110077209649731276975200960223091386591326817968172476310185350709794943942435729196565122486600891169051077327129622566257646565013916942482789586427696202211121371940085684620211063503599464166414277654592117952066323956911236094500544835655536425730033658447106663624012533952085241274330456739969847627496364735672586025271150808844687638096876070280965707962667365060819171795152319191734472575616423248475420562028182911793386577012037204937256409869969740546853685888731081172909066690113320460193115086949530946562635109970615143381400874626297457215031351268180658456940309807323550913365532949496784910332473015496731487588369331479235619652424130067055685912052688585026748054081099652624749088205211416120381609483409550021069469763067031084196784867951091665919168336348763484472431422546029972881523856173961211019701214749259547535805166681651980913416738293017275393804738342933453185569977098625901963282508220563561815326718808718369982585341391465723527793517462772949673557213655140434678374778113036913969885167240156890594939015885340084143686729505281340264434157705070788067316866099452204402632254284604891
def wrapped : Nat := 318857866626792484705275743281974769569107603262926461312472904911886993964299061353333086816953526433505665255926575725395866633411361187425757979040716706634627370828244670991440902987458211968310490317877792543348472277698573258617940380634367046318608682287567786002710993046493389805929963128219142418704158325725290787445962531381146614746282195074902982395267381155768143858647164088305245596965013347607649328226194514031515405071851376557663959589969919712978464052300704953849927180199284763786059245468195244864296457774205641015465352902800907588248041406551101462276826246330862795146062779484708328151545319938241314093469212356308314895179628326815205844180846610971953880061873977532053116327757260213009388933550956773316157121116051686799183885930589196328264676177541651497747118667821232103855742501914665895552385057551515564958443559144995294982724679109346174463833237408863495348876027839216263407281007985090942317832098824472717552237794953683426042086157737930866156035683150057048459964342885975135782819635965797476873622813249489879870937902173462653260986788814288560551405704754638097813961829462456940471872775280251273594066667711358457847633488478169203628031980682128429708694838966573991058816761
/-- Manifest entry of a BF16 shard of 4 bytes. -/
def entB (off layer : Nat) (d : Nat) : List Byte :=
  leFields 8 [off, 4] ++ leBytes 2 layer ++ [3, 2] ++ List.replicate 12 0 ++ leBytes 64 d
def dig0 : Nat := 9498335369028653120820379728711636587050470097558777129495093630915723743037665295746316502890380399200173735079840170188540815710237296022916300117721918
def dig1 : Nat := 2581681001122065794189322852220503191505031290728471714188981932220328422773088906401184446637333884065384147310560717352902985490754987482654270810448994
/-- A package of two BF16 shards, published with `keyN`, its content key wrapped for `idN`. -/
def front0 : PackageFront :=
  { header := leFields 4 [0x50574E4A] ++ [1, 0, 1, 0] ++ leBytes 8 4096 ++ leFields 4 [448, 1] ++ leFields 8 [8192, 12288, 20480] ++
      List.replicate 16 0 ++ beBytes 512 keyN ++ leBytes 4 65537 ++ List.replicate 12 0 ++ beBytes 512 manSig ++ List.replicate 2992 0
    manifest := leBytes 4 1 ++ [3, 0, 1, 0] ++ leFields 16 [9, 0] ++ [1, 2, 3, 4] ++ leBytes 4 2 ++ leBytes 8 8 ++ leBytes 4 2 ++
      List.replicate 196 0 ++ entB 12288 0 dig0 ++ entB 16384 1 dig1
    keytab := leBytes 16 idKey.toNat ++ beBytes 512 wrapped }
def shard0 : List Byte := leFields 4 [0, 0] ++ leBytes 8 4 ++ leBytes 16 9 ++ beBytes 20 1167903882419176338369701796745780661921560580152
def shard1 : List Byte := leFields 4 [1, 0] ++ leBytes 8 4 ++ leBytes 16 9 ++ beBytes 20 679926889729500106355233849700943797457997197662
def planModel : List Byte := leBytes 21 4384482633025581707007202786895963529033845637122 ++ List.replicate 299 0
def planLayers : List Byte := leBytes 24 6277101735386658463090590892822209377371608774897345560576 ++ List.replicate 40 0 ++ leBytes 29 26959946673427741530053673550110221566459353799912181256000972587009 ++ List.replicate 35 0
def planTable : List Byte :=
  leBytes 1 1 ++ List.replicate 8 0 ++ leBytes 9 23058430092136939536 ++ List.replicate 14 0 ++ leBytes 65 39503834301512105385050964643329528255428880254125268345919967003123412827333056957603340319281218180844232406910871041632835038909741671461688313947972043 ++ List.replicate 8 0 ++ leBytes 8 9223372036854775840 ++ List.replicate 15 0 ++ leBytes 65 88596711315464463262896840575553398428637514294220963324656159557718756617744866047520501919097894491918919588535867657982184368488872444520862622095718616 ++ List.replicate 8 0 ++ leBytes 8 72057594037927984 ++ List.replicate 15 0 ++ leBytes 65 119730892889184466074462940371435888221646104518337662051312434606267161151522763897306557492450385663099944567815198373625260475379257950759964580852343992 ++ List.replicate 8 0 ++ leBytes 8 72057594037928000 ++ List.replicate 15 0 ++ leBytes 65 133138700819127063174036965369641734349125470338930055429035996049988925181596310874108431790617289090789976426001684424479014358191204520706398229858428088 ++ List.replicate 8 0 ++ leBytes 8 72057594037928016 ++ List.replicate 15 0 ++ leBytes 65 146546508749069660273610990367847580476604836159522448806759557493710689211669857850910306088784192518480008284188170475332768241003151090652831878864512184 ++ List.replicate 8 0 ++ leBytes 8 72057594037928032 ++ List.replicate 15 0 ++ leBytes 64 12468429449643689277870740385789119201811177953598515029523943056493048910934388082891563107115158241579689702323309966795229412883685391188495388803671224
/-- A bench plan of two WIDE layers, for the model 7. -/
def plan0 : PlanFile :=
  { header := leBytes 17 1701411834604692921779784533328930164298 ++ List.replicate 15 0 ++ leBytes 1 7 ++ List.replicate 223 0
    table := planTable
    trailer := leBytes 10 604462909807315749326410 ++ List.replicate 54 0 ++ leBytes 64 6442444631216937341829977275956364886855379267971046611198697814460301965948335779513498201803691344164702369176899459686468517240683037685447151679018085
    sections := [planModel, planLayers, [0], [0], [0], [0]]
    parts := { wide := [[], []] } }
/-- The device with supplies on, in start-up step `n`. -/
def boot (n : Nat) : State := { State.reset.setF .FWP_STATUS 0 4 n with aon := { phase := .on } }
/-- The device READY in the work phase of a tide. -/
def rdy : State :=
  { (State.reset.setF .FWP_STATUS 0 4 12).setNum .HIF_DEV_STATE 1 with
    aon := { phase := .on }, boot := { fwRuns := true, pwrRan := true, schRan := true }
    tide := { running := true, first := false, work := true, nextEdge := 20000000 } }
/-- The always-on domain in a phase. -/
def aon (p : AonPhase) : State := { State.reset with aon := { phase := p } }
/-- The safe state. -/
def safe : State := { rdy.setNum .HIF_DEV_STATE 2 with pans := State.reset.pans }
/-- A fabric device with link 0 UP and a root known. -/
def fab1 : State :=
  { ((rdy.setNum .FAB_ROOT (2 ^ 31 + 2)).setNum .FAB_ADDR (2 ^ 31 + 1)).setF .FAB_CTRL 0 1 1 with fab := { rdy.fab with links := [(0, { st := .up })] } }
def mk : Marker := { systemId := 0, rootAddr := 2, tide := 5, delayPs := 500000, period := 20, sysver := 2 }
def blk1 : Block := { rowsUsed := 100, colsUsed := 32, threshold := 100 }
def pan1 : Pan := { a := { state := .active, content := .current, raked := true, beforeEdge := true }, b := { state := .stale }, cur := some blk1 }
def withPan (s : State) (p : Nat) (x : Pan) : State := { s with pans := s.pans.set p x }
def prod1 : Product := { x := List.replicate 1024 1 }
def fl1 : Flight := { prod := prod1, t0 := 500, level := 0, todo := blk1.mainPasses }
def rec1 (d : PassDesc) (v : Int) : PassRec := ⟨d, 0, List.replicate 32 v, []⟩
/-- A block of two columns, and a pan that computes a product of it. -/
def blkTwo : Block := { rowsUsed := 4, colsUsed := 2, threshold := 100 }
def flTwo : Flight := { fl1 with todo := blkTwo.mainPasses }
def panTwo (f : Flight) : State := withPan rdy 3 { pan1 with cur := some blkTwo, flights := [f] }
def fl2 (v : Int) : Flight := { fl1 with todo := [], q := some (List.replicate 32 v), recs := [] }
def modelRec : ModelRec := { kvLayers := 2, kvHeads := 1, gqa := 1, kvFormat := 1, vocab := 16, endToken := 1, chunkTokens := 64 }
def img1 : PlanImage := { planId := 5, modelId := 7, model := modelRec, layers := [{ layer := 0, wide := false, kind := 0, dIn := 2048, dOut := 512, wformat := 4 }], groups := [{ group := 0, layer := 0, groupCores := 1, clusterLocal := false, blocks := [(0, 0), (0, 1)] }], scheds := [{ group := 0, groupCore := 0, window := 0, steps := [] }] }
def rdyP : State := { rdy with plans := { s0 := { state := .active, img := some img1, place := [⟨0, 0, 0, none⟩], bound := some 0 } }, wgt := { slot0 := { state := .active, modelId := 7 } } }
def shadowPan (b : Bed) : Pan := { pan1 with b := b }
def cl (r : Nat) : Claim := { rank := r, what := .current }
def wld (l : Load) : State := { ((rdy.setNum .WGT_LOAD_LEN 20480).setNum .SEC_KEY_ID (idKey.toNat % 2 ^ 64)).setNum .SEC_KEY_ID (idKey.toNat / 2 ^ 64) 0 1 with wgt := { load := some l }, mram := { trust := [some keyDigest], refKeyId := idKey }, boot := { rdy.boot with identity := ⟨idN, 65537, idD⟩ } }
def pk1 : Package := manifestOf front0.manifest
def ckey : List Byte := List.replicate 32 0x11
def ld1 : Load := { mode := 0, start := 0 }
def ld2 : Load := { ld1 with pkg := some pk1, key := some ckey }
def step0 : Step := { gen := true, first := 5, count := 1 }
def ses0 : Session := { slot := 0, limit := 1000, policy := 0, pinned := false, textOut := true, audioOut := false, in24 := false, out24 := false, specMax := 4, statusAddr := 0x5000, draftLen := 2 }
def withQp (s : State) (q : Nat) (x : Qp) : State := { s with qps := s.qps.set q x }
def qp0 : Qp := { state := .ready, sqBase := 0x1000, cqBase := 0x2000, sqLog := 6, cqLog := 6, vector := 1, sqTail := 4, sqHead := 2 }
def tierS (n : Nat) : State := withQp { ((rdy.setNum .WGT_HOST_TIER_LEN 4096)) with wgt := { slot0 := { state := .active, hostLayers := [0, 1, 2, 3], key := some ckey, shards := pk1.shards, modelId := pk1.modelId, salt := pk1.salt }, tierFails := [(0, n)], tierWait := [(0, 500)] } } 5 { qp0 with session := some { ses0 with steps := [step0] } }
def ld3 : Load := { ld2 with mode := 2, wanted := [⟨1, 0, 1, 0⟩], bcaster := some 5 }
def ent0 : ShardEntry := shardEntry front0.manifest 0
def ent1 : ShardEntry := shardEntry front0.manifest 1
def cont0 : List Byte := (openShard pk1 ckey 0 ent0 shard0).getD []
def cont1 : List Byte := (openShard pk1 ckey 1 ent1 shard1).getD []
/-- Content that breaks Table 6.9 step 9 has another format. -/
def h0 : PktHdr := { src := 5 }
def opS (q : Nat) (x : Qp) (s : State) : State := withQp { s with tide := { s.tide with work := false }, srv := { s.srv with admitted := [⟨10, 0, q⟩, ⟨20, 0, 7⟩] } } q x
def rest1 : List Admitted := [⟨20, 0, 7⟩]
def cmd (op : Nat) : SrvCmd := { opcode := BitVec.ofNat 8 op, flags := 2, cid := 33 }
def openCmd : SrvCmd := { cmd 1 with param := BitVec.ofNat 32 (100 + 2 ^ 18 + 4 * 2 ^ 22), args := 0xFFFF, dataLen := 64, dataAddr := 0x5000 }
def rdyK : State := ({ rdyP with srv := { rdyP.srv with poolPages := 100000 } }.setNum .KVC_BUDGET_EFF 100000000000)
def work1 : Work := { opcode := 3, flags := 1, cid := 9, deadline := 0, input := [4, 5, 6] }
def stepSt (x : Session) : State := withQp { rdyP with tide := { rdyP.tide with sealed := true } } 5 { qp0 with session := some x }
def chunk : Step := { gen := false, first := 0, count := 2, layers := 3 }
def withCore (s : State) (c : Nat) (k : Core) : State := { s with cores := s.cores.set c k }
def ctxR : Ctx := { state := .running, mid := true, step := 1 }
def ctxW : Ctx := { state := .waiting, reason := some .sync, mid := true, since := 100, wait := some ⟨.core 2 7, .ge, 5⟩ }
def core1 : Core := { ctxs := [{ state := .ready }, ctxR, ctxW, {}], words := [(7, { value := 3, waiters := [.ctx 2 2 ⟨.core 2 7, .ge, 5⟩ 100] })] }
def runS : State := withCore rdyP 2 core1
def desc1 : Desc := { dest := 256, bytes := 4, ctx := 1, step := 1 }
def tr1 : Transfer := { bytes := 4, dest := 256 }
def withLink (s : State) (n : Nat) (l : Link) : State := { s with fab := { s.fab with links := Cells.set (fun _ => {}) s.fab.links n l } }
def fabR : State := { rdy.setF .FAB_CTRL 0 1 1 with boot := { rdy.boot with identity := { n := idN, e := 65537, d := idD } } }
def lk (st : LinkSt) : Link := { st := st, present := true, since := 5 }
def lkH : Link := { lk .hello with nonce := 8, first := true }
def pk (q : Nat) : Pkt := { type := 7, seq := BitVec.ofNat 12 q }
def hdr : PktHdr := { seq := 3, dst := 2, src := 5 }
def lkU : Link := { lk .up with rxSeq := 3, unacked := [(pk 0, 0), (pk 1, 2)], txSeq := 2, spent := [40, 30] }
def fab2 : State := ((rdyP.setNum .FAB_DIMS 3).setNum .FAB_ADDR (2 ^ 31 + 2048)).setF .FAB_CTRL 0 1 1
def mem (x : Nat) : Member := ⟨BitVec.ofNat 17 (2048 * x), 3, [0, 1], [0, 1], 1, 2⟩
def fab3 : State := withLink (withLink { fab2 with fab := { db := [mem 1, mem 2, mem 3], sysver := 2 } } 0 (lk .up)) 1 lkU
def fab4 : State := withCore fab3 2 { core1 with ctxs := [{ state := .ready }, { ctxR with owner := some 5 }, {}, {}] }
def fab5 : State := withQp fab4 5 { qp0 with session := some { ses0 with work := [work1], steps := [step0] } }
def op1 : FabOp := ⟨4, .write, 2, 1, 5, 10, 2⟩
def sp (n : Nat) : State := { rdy.setF .SEC_STATUS 0 1 1 with sec := { stage := [(0, n)], sessions := [{ id := 2, fn := 0 }, { id := 3, fn := 0, ready := true }] } }
def flt : FaultRec := { severity := 1, kind := 2, tide := 5, time := 100 }
def rdyH : State := rdy
def gr1 (v : Nat) : Graded := { x := List.replicate 1024 1, level := 0, taken := [], spilled := [], recs := blk1.mainPasses.map (fun d => rec1 d (Int.ofNat v)), block := blk1, owner := none, tile := 0 }
def gerr (x : Nat) : List Int := (gr1 x).block.gradeErrors (gr1 x).x 0 [] [] (gr1 x).recs
def swp : State := { rdy with phys := (rdy.phys.upd 2 (fun x => { x with testing := some 3 })).upd 66 (fun x => { x with testing := some 67 }) }
def idle (n : Nat) : State := rdy.setF .PWR_STATUS 0 3 n
def exitS : State := { idle 3 with pwr := { exitDue := some 500, exitFrom := 0, selfRefresh := true }, pans := rdy.pans.set 40 pan1 }
def hot (v : Int) : State := { rdy with pwr := { scanDue := true, readings := [(3, [v, v, v, v]), (7, [v, v, v, v]), (9, [v])] } }
def snq (t : Nat) : SnapReq := { trigger := t }
def snap0 : Snapshot := { trigger := 1, safeReason := 0, devState := 1, tide := 0, time := 5, fwVersion := 0, placeEpoch := 0, gen := 0, detail := 0, tail := [], status := [], images := [], wfg := none }
def snaps8 : State := { rdy with mram := { bbx := { snaps := List.replicate 8 snap0 } } }
def stopping (s : State) : State := { s with pwr := { stopping := some 500 } }
def evt1 : Event := { code := 0x0D01, src := 5, tide := 3, time := 7 }
def recS (frozen : Nat) (n : Nat) : State := { rdy.setF .EVT_CTRL 0 1 frozen with evt := { inFlight := [{ evt1 with src := 6 }, evt1], recs := List.replicate n evt1 } }
def ref48 (v n : Nat) (cal : Nat) : State := { (rdy.setNum .HKA_VALUE v 0 48).setF .HKA_STATUS 1 1 cal with pwr := { scanDue := true, refScans := n } }
def memS (s : State) (a : Nat) (l : List Byte) : State := s.memWrite a l
/-- A vector of ones at 0 and a scale code at 2048 in the SRAM of the pan's core. -/
def vecS (s : State) (p : Nat) : State := memS (memS s (sramAddr (p / 16) 0) (List.replicate 1024 1)) (sramAddr (p / 16) 2048) [0x80, 0x3F]
def pc1 : ProductCmd := { x := 0, sx := 2048 }
def fitD : RakeData := { patterns := (List.range 32).map (fun k => [8 * Int.ofNat k - 127]) }
def blkT : Block := { rowsUsed := 1, colsUsed := 32, level := 15 }
def panT : Pan := { pan1 with cur := some blkT, b := { state := .raking, content := .current }, serving := some (cl 2) }
/-- All patterns alike: no column has a gain. -/
def badD : RakeData := { patterns := [] }
def key1 : StreamKey := ⟨0, 1, blk1⟩
def keyH : StreamKey := ⟨0, 1, { blk1 with layer := 2 }⟩
def ad6 : Adapter := { id := 6, base := 1, gen := 1, rank := 1, bytes := 1, usable := true }
def rcv (l : Load) : State := { fab1 with wgt := { load := some l, slot0 := { state := .loading } } }
def srvS (v : Serving) : State := { fab1 with wgt := { serving := some v } }
def sv1 : Serving := { modelId := 9, gen := 3, broadcaster := true, total := 2 }
/-- The scale groups of `n` positions from `p` on, from 512 zeros at 0. -/
def kvOps (p n : Nat) : List (CoreId × VecOp) :=
  (List.range n).flatMap (fun i => [0, 1].flatMap (fun l => [false, true].map (fun v => ((2 : CoreId), VecOp.kvWrite l v 0 (BitVec.ofNat 32 (p + i)) 0))))
/-- Logits 0, 1, 0 at 1024. -/
def logS (s : State) : State := memS s (sramAddr 2 1028) [0, 0, 0x80, 0x3F]
def run1 : StepRun := { ops := kvOps 5 1 ++ [(2, .logits 5 0 3 1024)] }
/-- A HELLO signed with the key `idN`. -/
def signed (h : Hello) : Hello := { h with signature := pssSign idN idD (List.replicate 64 0) h.bytes }
def hello0 : Hello := { verMin := 1, verMax := 2, port := 6, rootAddr := 2, keyId := keyIdOf idN 65537, nonce := 9, peerNonce := 8, pubN := idN, pubE := 65537, signature := [] }
/-- `signed hello0`, its signature as a number, least significant byte first. -/
def hello1 : Hello := { hello0 with signature := leBytes 512 635351111030251502154322024064923502804789719331682991787908868656331685768406344885133513041412394431978683471844373168148788543790401037351488359798995664956234504507975321264099749869958702826345970029992907419394173145334836244357890220081984467078350907934205741095973427936265311848506026158415192328691133588546616169340596099343228958983627393289232688552430792316000098587107382053929813808264887205490832605646717292227000724442933107788782882673252487610094967078823129060137876788804186317780653534982078653656644998440812079776776297622690075023382065294042135951929456305221142387221517295311965824184541085630074654209376095047055559487698863465288280443829292492065704785034212142765061397905984754249693000478547152791755178006105047136516171152545016552816586151522947579162847786865802529579445161893273401769010018516076675654530034971432240591727632160371762106296596276011716198185519427984494329681617894086129619227630929077313744515890100525230121184947518156085948139138117737024464664072157411655143709808726178409359422123990726941050754359827688558655979691869962917095667908589540072516778819968950565338171808627254475795501649946581382316606535369785673300522663519578059148765695030223054438282912681 }
/-- A map of a torus of four devices along x; the key of the second is `key`. -/
def map1 (magic key : Nat) : List Byte :=
  leFields 4 [magic, 5, 3, 0] ++ leBytes 8 6 ++ List.replicate 40 0 ++ leBytes 16 3 ++ leBytes 16 key ++ leBytes 16 0 ++ leBytes 16 0
/-- A register of the next state. -/
def numOf (o : Host.Outcome State Fault Refusal) (r : Reg) (i : Nat := 0) : Option Nat :=
  match o with | .next u => some (u.num r 0 i) | _ => none
/-- A queue pair of the next state. -/
def qpOf (o : Host.Outcome State Fault Refusal) (q : Nat) : Option Qp :=
  match o with | .next u => some (u.qp q) | _ => none
/-- What the next state has put out. -/
def outOf (o : Host.Outcome State Fault Refusal) : List Output :=
  match o with | .next u => u.out | _ => []

/-- A plan without pan layers and groups is placed on no core. -/
theorem placePlan_wide (s : State) (i : PlanImage) (hg : i.groups = []) (hl : i.layers.filter (fun l => !l.wide) = []) :
    s.placePlan i = some ([], []) := by
  simp [State.placePlan, placeWith, placeLocal, placeRest, largest, sortBy, hg, hl]

/-! ### Ill-formed terms are refused (WellFormed.lean) -/

/-- An input vector that runs over the end of core SRAM is no product (R25, R73). -/
theorem test_product_outside_sram_is_ill_formed : Instr.wellFormed (.productIssue 0 0 { x := 523265, sx := 0 }) = false := by decide
/-- Nor is a scale code there. -/
theorem test_scale_outside_sram_is_ill_formed : Instr.wellFormed (.productIssue 0 0 { x := 0, sx := 524287 }) = false := by decide
theorem test_product_is_well_formed : Instr.wellFormed (.productIssue 0 0 { x := 523264, sx := 524286 }) = true := by decide
/-- A vector operation whose arrays run over the end of core SRAM, one of each shape, is ill formed. -/
theorem test_vector_operations_outside_sram_are_ill_formed :
    ([.dequant 0 0 0 524287 0, .adapter 0 524288 0 0, .quant 2 0 524287 0 5, .wide 0 0 2 0 524284, .embed 0 7 524288,
      .weights 0 0 2 524284, .map .neg 2 524284 0, .zip .add 2 0 524284 0, .sum 2 524284 0, .fill 2 0 524284,
      .kvWrite 0 true 0 5 524000, .attend 0 0 5 0 524000, .logits 5 0 3 524280] : List VecOp).all
      (fun o => !(Instr.wellFormed (.stepComplete 0 0 { ops := [(3, o)] }))) = true := by decide
theorem test_step_is_well_formed : Instr.wellFormed (.stepComplete 0 0 run1) = true := by decide
/-- What is ill formed is refused by name. -/
theorem test_ill_formed_is_refused : exec (.productIssue 0 0 { x := 524000, sx := 0 }) State.reset = .refused .illFormed := rfl
/-- The table gives no row any bits, so no word spells a command. -/
theorem test_no_word_is_a_command : decodeTableWord 32 7 = none := rfl

/-! ### The worked examples of the spec -/

/-- 03_pans: x = 100 gives h = 6, l = 4, and x = -9 gives h = -1, l = 7. -/
theorem test_digits : digitHigh 100 = 6 ∧ digitLow 100 = 4 ∧ digitHigh (-9) = -1 ∧ digitLow (-9) = 7 := by decide
/-- 04_correction, one column through every stage: stages 1 and 2. -/
theorem test_column_stage1 : stage1 (coefEntry 0x013 33096) 185 = 902 ∧ stage1 (coefEntry 0x013 33096) 96 = -536 := by decide
theorem test_column_stage2 : stage2 902 212 1 = 8072 ∧ stage2 (-536) (-95) 1 = -5726 := by decide
/-- The same column dequantises to -82,673 × 2^-16. -/
theorem test_column_dequantises : dequant (-82673) (-10) 0x3D00 = 0xBFA17880 := by decide +kernel
/-- 05_formats, grading one product: ε of the two passes, in units of 2^-14 LSB: -0.046875 and 0.09375 LSB. -/
theorem test_grading_errors : (8072 - stage2 0 0 1 - (2 * 3611 - 15 * 212) * 2) * 2 ^ 6 = (-768 : Int) ∧
    (-5726 - (2 * (-2150) - 15 * (-95)) * 2) * 2 ^ 6 = (1536 : Int) := by decide
/-- 05_formats, one K4B scale group. -/
theorem test_k4b_group : (quantise ([0x402E0000, 0xBF800000, 0x3E19999A, 0x3E4CCCCD] ++ List.replicate 124 0) 7).1 = 0x3EC7 ∧
    (quantise ([0x402E0000, 0xBF800000, 0x3E19999A, 0x3E4CCCCD] ++ List.replicate 124 0) 7).2.take 4 = [7, -3, 0, 1] := by
  decide +kernel
/-- 07_attention, a window across the position wrap. -/
theorem test_window_across_the_wrap :
    ({ ses0 with base := 0xFFFFFE00 } : Session).sees 0x105 0xFFFFFF80 = true ∧
    ({ ses0 with base := 0xFFFFFE00 } : Session).rho 0x105 - ({ ses0 with base := 0xFFFFFE00 } : Session).rho 0xFFFFFF80 = 389 := by
  decide +kernel
/-- 02_tide, a deadline across the wrap is 40 tides ahead. -/
theorem test_deadline_across_the_wrap : tideDist 0xFFFFFFF0 0x18 = 40 := by decide
/-- 02_tide, realignment: θ = +137 µs shortens the tide by 50 µs. -/
theorem test_realignment_shortens :
    ((rdy.align ⟨10000000, 5⟩ 7 30137000).2.1, (rdy.align ⟨10000000, 5⟩ 7 30137000).2.2,
      (rdy.align ⟨10000000, 5⟩ 7 30137000).1.num .TDE_ROOT_OFFSET) = (-50000, 6, 137000) := by decide +kernel
/-- 11_fabric, a route: 16 hops -x, 26 hops +y and 5 hops -z. -/
theorem test_route_of_47_hops : (routeHops [64, 64, 32] 128 0x06503 0x1E05E).map (·.2) =
    List.replicate 16 1 ++ List.replicate 26 2 ++ List.replicate 5 5 := by decide +kernel
/-- 15_power, one VCORE reading: the reference scale, and 706,902 µV. -/
theorem test_reference_scale :
    numOf (exec (.refCalDone 5 [2486, 2486, 2486, 2486, 2487]) { rdy.setNum .HKA_COEF (coefEntry 0 32768).toNat 0 48 with
      pwr := { calibrating := some 1 } }) .HKA_REF_SCALE = some 1079701778 := by
  decide +kernel
theorem test_vcore_reading :
    numOf (exec (.hkaConversion 5 1402) { ((rdy.setNum .HKA_REF_SCALE 1079701778).setNum .HKA_COEF (coefEntry 0x01A 32900).toNat 0 33)
      with pwr := { channel := 33 } }) .HKA_VALUE 33 = some 706902 := by decide +kernel
/-- 12_host, a restart of the scheduler processor: a read of KVC_POOL_FREE answers 0xFFFF_FFFE and sets BUSY_SEEN bit 10. -/
theorem test_busy_read :
    numOf (exec (.registerRead 5 0 2 0x20034 4) { rdy with hif := { restarting := [.scheduler] } }) .HIF_EMU_STATUS = some 1024 ∧
    outOf (exec (.registerRead 5 0 2 0x20034 4) { rdy with hif := { restarting := [.scheduler] } }) = [.read 0xFFFFFFFE] := by
  decide +kernel

/-! ### Single steps -/

/-- An empty queue idles; a step takes the front command alone. -/
theorem test_empty_queue_idles : step rdy = .next rdy := rfl
/-- R49: a tail of 6 rung on a ring whose tail is 4 makes two entries visible at the write's stamp. -/
theorem test_doorbell : (qpOf (exec (.sqDoorbell 77 0 (.whole 0x600000005)) (withQp rdy 5 qp0)) 5).map (fun x => (x.sqTail, x.rung)) =
    some (6, [(77, 2)]) := by decide +kernel
/-- R389: the 257th write to a restarting processor is dropped. -/
theorem test_dropped_write :
    numOf (exec (.registerWrite 5 0 2 0x10010 8 7) { rdy with hif := { restarting := [.scheduler], held := List.replicate 256 ⟨0, 2, 0, 4, 0, .sch⟩ } })
      .HIF_EMU_DROPS = some 1 := by decide +kernel
/-- R458: a limit of 99 W is out of range and ignored with ST_PWR_RANGE; 100 W is taken. -/
theorem test_power_limit :
    numOf (exec (.pwrLimitWrite 5 0 99) rdy) .PWR_LIMIT = some (rdy.num .PWR_LIMIT) ∧
    numOf (exec (.pwrLimitWrite 5 0 100) rdy) .PWR_LIMIT = some 100 := by decide +kernel
/-- R49, R50: the first edge after a cold start keeps the index, the next one advances it. -/
theorem test_edge_advances :
    numOf (exec .tideEdge { rdy with tide := { rdy.tide with sealed := true, latched := true } }) .TDE_TIDE =
      some (rdy.num .TDE_TIDE + 1) := by decide +kernel
/-- R412, R413, Table 8.11: at the third restart of a processor a pending command ends with SESSION_FAILED; R444: after an
uncontained fault no record follows. -/
theorem test_safe_state_ends_commands :
    (qpOf (exec (.watchdogExpiry 5 .power) { withQp rdy 5 { qp0 with session := some { ses0 with work := [work1] } } with
      hif := { history := [(.power, 1), (.power, 2)] } }) 5).map (fun x => x.recs.map (fun c => (c.cid, c.status))) = some [(9, 0x18)] := by
  decide +kernel
theorem test_uncontained_ends_silently :
    (qpOf (exec (.uncontainedFault 5 .ingress) (withQp rdy 5 { qp0 with session := some { ses0 with work := [work1] } })) 5).map
      (·.recs) = some [] := by decide +kernel

/-! ### The hypotheses of the statements are met

Each conjunct stands for the clauses of `Obligations.<Name>` with these hypotheses. -/

theorem test_witness_PowerUpSequence :
    (∃ (s : State) (v : BitVec 10), s.aon.phase = .seqVio ∧ s.fld .AON_CMP 0 10 0 1 ≤ v.toNat ∧ v.toNat < s.fld .AON_CMP 10 10 0 1) ∧
    (∃ (s : State) (v : BitVec 10), s.aon.phase = .seqVio ∧ (v.toNat < s.fld .AON_CMP 0 10 0 1 ∨ s.fld .AON_CMP 10 10 0 1 ≤ v.toNat)) ∧
    (∃ (s : State) (v : BitVec 10), s.aon.phase = .seqVcore ∧ s.fld .AON_CMP 0 10 0 7 ≤ v.toNat ∧ v.toNat < s.fld .AON_CMP 10 10 0 7) ∧
    (∃ (s : State) (v : BitVec 10), s.aon.phase = .seqVcore ∧ (v.toNat < s.fld .AON_CMP 0 10 0 7 ∨ s.fld .AON_CMP 10 10 0 7 ≤ v.toNat)) ∧
    (∃ (s : State), s.aon.phase = .retryWait) :=
  ⟨⟨aon .seqVio, 850#10, by decide +kernel⟩,
   ⟨aon .seqVio, 849#10, by decide +kernel⟩,
   ⟨aon .seqVcore, 580#10, by decide +kernel⟩,
   ⟨aon .seqVcore, 820#10, by decide +kernel⟩,
   ⟨aon .retryWait, by decide +kernel⟩⟩

theorem test_witness_StartUpSteps :
    (∃ (s : State), s.aon.phase = .seqHouse) ∧
    (∃ (s : State) (p : _) (q : _), s.starting = true ∧ s.bootStep = 3 ∧ keyIdOf (p * q) 65537 = s.mram.refKeyId) ∧
    (∃ (s : State) (p : _) (q : _) (helperOk : _), s.starting = true ∧ s.bootStep = 3 ∧ (helperOk = false ∨ keyIdOf (p * q) 65537 ≠ s.mram.refKeyId)) ∧
    (∃ (s : State) (st : _), s.starting = true ∧ s.bootStep = 5 ∧ (s.tested st).passes = true) ∧
    (∃ (s : State) (st : _), s.starting = true ∧ s.bootStep = 5 ∧ (s.tested st).passes = false) ∧
    (∃ (s : State) (img : _), s.starting = true ∧ s.bootStep = 6 ∧ s.bit .FWP_STATUS 5 = false ∧ s.verifyImage s.imageSource img = 0) ∧
    (∃ (s : State) (img : _), s.starting = true ∧ s.bootStep = 6 ∧ s.bit .FWP_STATUS 5 = false ∧ s.verifyImage s.imageSource img ≠ 0) ∧
    (∃ (s : State) (st : _), s.starting = true ∧ s.bootStep = 7 ∧ (s.boot.failed.join (s.tested st)).passes = true ∧ s.bit .HKA_STATUS 0 = false) ∧
    (∃ (s : State) (st : _), s.starting = true ∧ s.bootStep = 7 ∧ (s.boot.failed.join (s.tested st)).passes = false) ∧
    (∃ (s : State) (failed : List PhysId), s.starting = true ∧ s.bootStep = 10 ∧ (s.boot.failed.join (s.tested { cores := failed.map (fun q => (q, CoreTest.pan)) })).passes = true) ∧
    (∃ (s : State) (failed : List PhysId), s.starting = true ∧ s.bootStep = 10 ∧ (s.boot.failed.join (s.tested { cores := failed.map (fun q => (q, CoreTest.pan)) })).passes = false) ∧
    (∃ (s : State), s.starting = true ∧ s.tide.running = false ∧ s.qps.cells = [] ∧ s.qps.dflt.state = .free) ∧
    (∃ (s : State), (s.starting = false ∨ s.tide.running = true)) :=
  ⟨⟨aon .seqHouse, by decide +kernel⟩,
   ⟨{ boot 3 with mram.refKeyId := keyIdOf 15 65537 }, 3, 5, by decide +kernel⟩,
   ⟨boot 3, 1, 1, false, by decide +kernel⟩,
   ⟨boot 5, {}, by decide +kernel⟩,
   ⟨boot 5, { house := true }, by decide +kernel⟩,
   ⟨{ boot 6 with boot.signers := [0, keyDigest] }, img0, by decide +kernel⟩,
   ⟨boot 6, img0, by decide +kernel⟩,
   ⟨boot 7, {}, by decide +kernel⟩,
   ⟨boot 7, { supply := true }, by decide +kernel⟩,
   ⟨boot 10, [], by decide +kernel⟩,
   ⟨boot 10, [⟨0, by decide⟩], by decide +kernel⟩,
   ⟨boot 8, by decide +kernel⟩,
   ⟨boot 0 |>.setNum .HIF_DEV_STATE 1, by decide +kernel⟩⟩

theorem test_witness_Resets :
    (∃ (s : State), (s.ready = true ∨ s.safe = true)) ∧
    (∃ (s : State) (k : Stamp) (c : _), c ∈ [Instr.hotReset k, .pcieLinkDisable k, .pcieLinkDown k, .pfFlr k] ∧ s.ready = false ∧ s.safe = false) ∧
    (∃ (s : State), s.aon.perst = true ∧ s.aon.phase = .asleep) ∧
    (∃ (s : State) (v : BitVec 10), s.aon.perst = true ∧ s.aon.phase = .stopped ∧ s.aon.perstCycle = true ∧ v.toNat * 150 < 110 * 1024) ∧
    (∃ (s : State) (v : BitVec 10), s.aon.perst = true ∧ s.aon.phase = .stopped ∧ s.aon.perstCycle = true ∧ 110 * 1024 ≤ v.toNat * 150) ∧
    (∃ (s : State) (fn : FnId), s.fnLive fn.val = true ∧ fn.val ≠ 0) ∧
    (∃ (s : State), s.powered = true) :=
  ⟨⟨rdy, by decide +kernel⟩,
   ⟨boot 5, 9, .hotReset 9, by decide +kernel⟩,
   ⟨{ aon .asleep with aon.perst := true }, by decide +kernel⟩,
   ⟨{ aon .stopped with aon.perst := true, aon.perstCycle := true }, 750, by decide +kernel⟩,
   ⟨{ aon .stopped with aon.perst := true, aon.perstCycle := true }, 751, by decide +kernel⟩,
   ⟨{ rdy with hif.numVfs := 4 }, 4, by decide +kernel⟩,
   ⟨rdy, by decide +kernel⟩⟩

theorem test_witness_AlwaysOnDomain :
    (∃ (s : State), s.aon.phase ≠ .vaonOff) ∧
    (∃ (s : State), s.aon.phase = .sleepGranted) ∧
    (∃ (s : State) (k : Stamp), s.aon.phase = .asleep ∧ s.bit .AON_WAKE_EN 8 = true ∧ s.num .AON_WAKE_TIME ≤ max s.now k * 32768 / 1000000000) ∧
    (∃ (s : State), s.aon.phase = .asleep ∧ s.part ≠ .jn8s ∧ s.bit .AON_WAKE_EN 3 = true) ∧
    (∃ (s : State) (i : Fin 2), s.aon.phase = .asleep ∧ s.bit .AON_WAKE_EN (5 + i.val) = true) ∧
    (∃ (s : State) (w : W32), Serves s ∧ w.getLsbD 0 = true) :=
  ⟨⟨rdy, by decide +kernel⟩,
   ⟨aon .sleepGranted, by decide +kernel⟩,
   ⟨(aon .asleep).setNum .AON_WAKE_EN 0x110, 30518, by decide +kernel⟩,
   ⟨(aon .asleep).setNum .AON_WAKE_EN 0x18, by decide +kernel⟩,
   ⟨(aon .asleep).setNum .AON_WAKE_EN 0x70, 1, by decide +kernel⟩,
   ⟨rdy, 1, by decide +kernel⟩⟩

theorem test_witness_EdgesAndMarkers :
    (∃ (s : State), s.powered = true ∧ s.tide.running = true ∧ (s.stopping = false ∨ s.tide.first = true) ∧ s.fabricSource = false) ∧
    (∃ (s : State), s.powered = true ∧ s.tide.running = true ∧ s.tide.first = false ∧ s.tide.work = false) ∧
    (∃ (s : State), s.powered = true ∧ s.tide.running = true ∧ s.tide.first = false ∧ s.tide.latched = false) ∧
    (∃ (s : State) (w : W32), Serves s ∧ w.getLsbD 2 = true ∧ (¬(w.toNat % 4 = 2 ∧ s.part = .jn8s))) ∧
    (∃ (s : State) (w : W32), Serves s ∧ w.getLsbD 2 = true ∧ w.toNat % 4 = 2 ∧ s.part = .jn8s) ∧
    (∃ (s : State) (n : LinkId) (h : PktHdr) (m : Marker), Comes s n.val h ∧ s.markerValid n.val m = true ∧ (∀ p, s.tide.firstMarker ≠ some (m.tide, p))) ∧
    (∃ (s : State) (k : Stamp) (n : LinkId) (h : PktHdr) (m : Marker) (p : _) (r : _), Comes s n.val h ∧ s.markerValid n.val m = true ∧ s.tide.firstMarker = some (m.tide, p) ∧ s.tide.marker = some r ∧ p ≠ n.val / 6 ∧ 1000 < ((max s.now k : Nat) - (m.delayPs / 1000 : Nat) - (r.time : Int) : Int).natAbs) ∧
    (∃ (s : State) (n : LinkId) (h : PktHdr) (m : Marker), Comes s n.val h ∧ s.markerValid n.val m = false) :=
  ⟨⟨{ rdy with tide := { rdy.tide with sealed := true, latched := true } }, by decide +kernel⟩,
   ⟨{ rdy with tide.work := false }, by decide +kernel⟩,
   ⟨rdy, by decide +kernel⟩,
   ⟨rdy, 6, by decide +kernel⟩,
   ⟨{ rdy with part := .jn8s }, 6, by decide +kernel⟩,
   ⟨fab1, 0, {}, mk, ⟨by decide +kernel, by decide +kernel, (fun _ h => by cases h)⟩⟩,
   ⟨{ fab1 with tide.firstMarker := some (5, 1), tide.marker := some ⟨10, 5⟩ }, 2000, 0, {}, mk, 1, ⟨10, 5⟩, by decide +kernel⟩,
   ⟨fab1, 0, { len := 5 }, { mk with rootAddr := 1 }, by decide +kernel⟩⟩

theorem test_witness_ProductsStart :
    (∃ (s : State) (k : Stamp) (pan : PanId) (p : ProductCmd) (b : Block), p.wellFormed = true ∧ Accepts s k pan b ∧ (s.pan pan.val).foreign p.owner = false) ∧
    (∃ (s : State) (k : Stamp) (pan : PanId) (p : ProductCmd) (b : Block), p.wellFormed = true ∧ Accepts s k pan b ∧ (s.pan pan.val).foreign p.owner = true ∧ (s.pan pan.val).saveWaits = false) ∧
    (∃ (s : State) (k : Stamp) (pan : PanId) (p : ProductCmd) (b : Block), p.wellFormed = true ∧ (s.pan pan.val).block = some b ∧ (s.enter k).panWorks pan.val = true ∧ ((s.pan pan.val).streamed && (s.pan pan.val).active.beforeEdge) = false ∧ ((s.pan pan.val).stallFrom ≠ none ∨ 2 ≤ ((s.pan pan.val).flights.filter Flight.awaitsQ).length)) ∧
    (∃ (s : State) (k : Stamp) (pan : PanId) (p : ProductCmd) (b : Block), p.wellFormed = true ∧ Accepts s k pan b ∧ (s.pan pan.val).foreign p.owner = true ∧ (s.pan pan.val).saveWaits = true) ∧
    (∃ (p : ProductCmd), p.wellFormed = false) :=
  ⟨⟨vecS (withPan rdy 3 pan1) 3, 1000, 3, pc1, blk1, by decide +kernel⟩,
   ⟨vecS (withPan rdy 3 { pan1 with set0 := { use := .working, acc := [7], valid := true, owner := some 6 }, set1 := { use := .free, acc := [8], valid := true, owner := some 6 } }) 3, 1000, 3, { pc1 with owner := some 5 }, blk1, by decide +kernel⟩,
   ⟨withPan rdy 3 { pan1 with flights := [fl1, fl1] }, 1000, 3, pc1, blk1, by decide +kernel⟩,
   ⟨withPan rdy 3 { pan1 with flights := [{ fl1 with prod := { prod1 with owner := some 6 } }] }, 1000, 3, { pc1 with owner := some 5 }, blk1, by decide +kernel⟩,
   ⟨{ x := 523265, sx := 0 }, by decide +kernel⟩⟩

theorem test_witness_Passes :
    (∃ (s : State) (pan : PanId) (dev : List Int) (b : Block) (f : Flight) (fs : List Flight) (d : PassDesc) (ds : List PassDesc) (codes : List Byte), (s.pan pan.val).block = some b ∧ (s.pan pan.val).flights = f :: fs ∧ f.todo = d :: ds ∧ codes = b.passCodes (s.pan pan.val).active.spares (b.pulses f.prod.x f.level f.taken f.spilled d) dev ∧ passSaturated (s.pan pan.val).active.spares b.colsUsed codes = false ∧ (ds ≠ [] ∨ d.spill = true ∨ f.spilled = []) ∧ ((List.range 16).filter (fun g => checkMismatch b.colsUsed (laneW (s.pan pan.val).active.coefs ((s.pan pan.val).active.coefDefault pan.val (s.pan pan.val).activeB) (s.pan pan.val).active.spares codes) (b.digitMag f.prod.x f.level f.taken f.spilled d) g)) = []) ∧
    (∃ (s : State) (pan : PanId) (dev : List Int) (b : Block) (f : Flight) (fs : List Flight) (d : PassDesc) (ds : List PassDesc) (codes : List Byte), (s.pan pan.val).block = some b ∧ (s.pan pan.val).flights = f :: fs ∧ f.todo = d :: ds ∧ codes = b.passCodes (s.pan pan.val).active.spares (b.pulses f.prod.x f.level f.taken f.spilled d) dev ∧ passSaturated (s.pan pan.val).active.spares b.colsUsed codes = false ∧ ds = [] ∧ d.spill = false ∧ f.spilled ≠ []) ∧
    (∃ (s : State) (pan : PanId) (dev : List Int) (b : Block) (f : Flight) (fs : List Flight) (d : PassDesc) (ds : List PassDesc) (codes : List Byte), (s.pan pan.val).block = some b ∧ (s.pan pan.val).flights = f :: fs ∧ f.todo = d :: ds ∧ codes = b.passCodes (s.pan pan.val).active.spares (b.pulses f.prod.x f.level f.taken f.spilled d) dev ∧ passSaturated (s.pan pan.val).active.spares b.colsUsed codes = true ∧ 64 < d.rows) ∧
    (∃ (s : State) (pan : PanId) (dev : List Int) (b : Block) (f : Flight) (fs : List Flight) (d : PassDesc) (ds : List PassDesc) (codes : List Byte), (s.pan pan.val).block = some b ∧ (s.pan pan.val).flights = f :: fs ∧ f.todo = d :: ds ∧ codes = b.passCodes (s.pan pan.val).active.spares (b.pulses f.prod.x f.level f.taken f.spilled d) dev ∧ passSaturated (s.pan pan.val).active.spares b.colsUsed codes = true ∧ d.rows ≤ 64) :=
  ⟨⟨panTwo flTwo, 3, [], blkTwo, flTwo, [], ⟨false, false, 0, 1024, 0⟩, blkTwo.mainPasses.tail, blkTwo.passCodes ((panTwo flTwo).pan 3).active.spares (blkTwo.pulses flTwo.prod.x flTwo.level flTwo.taken flTwo.spilled (⟨false, false, 0, 1024, 0⟩)) ([]), by decide +kernel⟩,
   ⟨panTwo { flTwo with todo := blkTwo.mainPasses.take 1, spilled := [2, 7] }, 3, [], blkTwo, { flTwo with todo := blkTwo.mainPasses.take 1, spilled := [2, 7] }, [], ⟨false, false, 0, 1024, 0⟩, [], blkTwo.passCodes ((panTwo { flTwo with todo := blkTwo.mainPasses.take 1, spilled := [2, 7] }).pan 3).active.spares (blkTwo.pulses ({ flTwo with todo := blkTwo.mainPasses.take 1, spilled := [2, 7] }).prod.x ({ flTwo with todo := blkTwo.mainPasses.take 1, spilled := [2, 7] }).level ({ flTwo with todo := blkTwo.mainPasses.take 1, spilled := [2, 7] }).taken ({ flTwo with todo := blkTwo.mainPasses.take 1, spilled := [2, 7] }).spilled (⟨false, false, 0, 1024, 0⟩)) ([]), by decide +kernel⟩,
   ⟨panTwo flTwo, 3, [1000000], blkTwo, flTwo, [], ⟨false, false, 0, 1024, 0⟩, blkTwo.mainPasses.tail, blkTwo.passCodes ((panTwo flTwo).pan 3).active.spares (blkTwo.pulses flTwo.prod.x flTwo.level flTwo.taken flTwo.spilled (⟨false, false, 0, 1024, 0⟩)) ([1000000]), by decide +kernel⟩,
   ⟨panTwo { flTwo with todo := [⟨false, false, 0, 64, 0⟩] }, 3, [1000000], blkTwo, { flTwo with todo := [⟨false, false, 0, 64, 0⟩] }, [], ⟨false, false, 0, 64, 0⟩, [], blkTwo.passCodes ((panTwo { flTwo with todo := [⟨false, false, 0, 64, 0⟩] }).pan 3).active.spares (blkTwo.pulses ({ flTwo with todo := [⟨false, false, 0, 64, 0⟩] }).prod.x ({ flTwo with todo := [⟨false, false, 0, 64, 0⟩] }).level ({ flTwo with todo := [⟨false, false, 0, 64, 0⟩] }).taken ({ flTwo with todo := [⟨false, false, 0, 64, 0⟩] }).spilled (⟨false, false, 0, 64, 0⟩)) ([1000000]), by decide +kernel⟩⟩

theorem test_witness_SluiceAndStageFive :
    (∃ (s : State) (pan : PanId) (b : Block) (f : Flight) (fs : List Flight), (s.pan pan.val).block = some b ∧ (s.pan pan.val).flights = f :: fs ∧ f.awaitsQ = true ∧ f.fetching = 0 ∧ s.sluiceTurn (pan.val / 16) f.seq = true) ∧
    (∃ (s : State) (pan : PanId) (b : Block) (f : Flight) (fs : List Flight), (s.pan pan.val).block = some b ∧ (s.pan pan.val).flights = f :: fs ∧ f.ready = true ∧ (s.pan pan.val).workSet.use = .working ∧ f.prod.last = false ∧ (stage5 (f.prod.add && (s.pan pan.val).workSet.valid) (s.pan pan.val).workSet.acc (f.z b)).all fits32 = true) ∧
    (∃ (s : State) (pan : PanId) (b : Block) (f : Flight) (fs : List Flight), (s.pan pan.val).block = some b ∧ (s.pan pan.val).flights = f :: fs ∧ f.ready = true ∧ (s.pan pan.val).workSet.use = .working ∧ f.level < 3 ∧ (stage5 (f.prod.add && (s.pan pan.val).workSet.valid) (s.pan pan.val).workSet.acc (f.z b)).all fits32 = false) ∧
    (∃ (s : State) (pan : PanId) (b : Block) (f : Flight) (fs : List Flight), (s.pan pan.val).block = some b ∧ (s.pan pan.val).flights = f :: fs ∧ f.ready = true ∧ (s.pan pan.val).workSet.use = .working ∧ 3 ≤ f.level ∧ f.prod.last = false ∧ (stage5 (f.prod.add && (s.pan pan.val).workSet.valid) (s.pan pan.val).workSet.acc (f.z b)).all fits32 = false) :=
  ⟨⟨withPan rdy 3 { pan1 with flights := [fl1] }, 3, blk1, fl1, [], by decide +kernel⟩,
   ⟨withPan rdy 3 { pan1 with flights := [fl2 7] }, 3, blk1, fl2 7, [], by decide +kernel⟩,
   ⟨withPan rdy 3 { pan1 with flights := [fl2 (2 ^ 31), fl1] }, 3, blk1, fl2 (2 ^ 31), [fl1], by decide +kernel⟩,
   ⟨withPan rdy 3 { pan1 with flights := [{ fl2 (2 ^ 31) with level := 3 }] }, 3, blk1, { fl2 (2 ^ 31) with level := 3 }, [], by decide +kernel⟩⟩

theorem test_witness_SetsDrainSaveRestore :
    (∃ (s : State) (pan : PanId) (a : _) (tile : _) (lanes : _), a = (s.pan pan.val).drainSet ∧ a.use = .draining ∧ s.tileOf pan.val a.layer = some (tile, lanes) ∧ 1 < lanes ∧ (s.core (pan.val / 16)).combine = []) ∧
    (∃ (s : State) (pan : PanId) (i : Fin 2), (s.pan pan.val).flights = [] ∧ ((s.pan pan.val).setAt i.val).use ≠ .draining ∧ pan.val < s.part.pans) ∧
    (∃ (s : State) (c : ClusterId) (i : Fin 64), (s.slot c.val i.val).used = true) ∧
    (∃ (s : State) (pan : PanId) (i : Fin 2) (r : _), s.saved.find? (fun r => r.target == SaveTarget.lane pan i) = some r) ∧
    (∃ (s : State) (c : ClusterId) (i : Fin 64) (r : _), s.saved.find? (fun r => r.target == SaveTarget.slot c i) = some r) ∧
    (∃ (s : State) (core : CoreId) (w : W32), Serves s ∧ core.val < s.part.cores ∧ w.getLsbD 0 = true) :=
  ⟨⟨withPan rdyP 1 { pan1 with set0 := { use := .draining, acc := [5, 6], shift := 1 }, set1 := { use := .working } }, 1, { use := .draining, acc := [5, 6], shift := 1 }, 0, 2, by decide +kernel⟩,
   ⟨withPan rdy 1 pan1, 1, 0, by decide +kernel⟩,
   ⟨{ rdy with clusters := rdy.clusters.set 3 { slots := [(5, { used := true, acc := [4], expected := 3, received := 1 })] } }, 3, 5, by decide +kernel⟩,
   ⟨memS { rdy with saved := [⟨.lane 1 1, 70000000000, none, 2⟩] } 70000000000 (laneRecord 1 1 { use := .working, acc := [1], shift := 2, valid := true } 9), 1, 1, ⟨.lane 1 1, 70000000000, none, 2⟩, by decide +kernel⟩,
   ⟨memS { rdy with saved := [⟨.slot 3 5, 70000000000, none, 2⟩] } 70000000000 (slotRecord 5 { used := true, acc := [1], sat := true, expected := 4, received := 2 } 9), 3, 5, ⟨.slot 3 5, 70000000000, none, 2⟩, by decide +kernel⟩,
   ⟨rdy, 7, 0x11, by decide +kernel⟩⟩

theorem test_witness_BedWrites :
    (∃ (s : State) (k : Stamp) (pan : PanId) (c : _) (cs : _), (s.pan pan.val).claims = c :: cs ∧ (s.pan pan.val).serving = none ∧ (s.pan pan.val).shadow.writable = true ∧ (s.enter k).bedWork pan.val = true ∧ s.tierMissing pan.val c.what = none ∧ ((s.pan pan.val).shadow.state = .ready → (s.pan pan.val).shadow.content ≠ c.what)) ∧
    (∃ (s : State) (pan : PanId) (c : _) (cs : _), (s.pan pan.val).claims = c :: cs ∧ s.tierMissing pan.val c.what ≠ none) ∧
    (∃ (s : State) (pan : PanId), (s.pan pan.val).shadow.state = .writing ∧ bedBytes ≤ (s.pan pan.val).stagedIn ∧ (∀ c, (s.pan pan.val).serving = some c → c.what ≠ .none)) ∧
    (∃ (s : State) (pan : PanId), (s.pan pan.val).stagedIn < bedBytes) ∧
    (∃ (s : State) (pan : PanId) (c : _) (d : _), (s.pan pan.val).shadow.state = .writing ∧ (s.pan pan.val).serving = some d ∧ d.what ≠ .none ∧ (s.pan pan.val).claims = [c] ∧ c.rank < d.rank) ∧
    (∃ (s : State) (pan : PanId) (w : W32) (c : _), Serves s ∧ pan.val < s.part.pans ∧ (s.pan pan.val).currentContent s.tierLayers = some c ∧ w.getLsbD 0 = true) ∧
    (∃ (s : State) (pan : PanId) (w : W32) (c : _), Serves s ∧ pan.val < s.part.pans ∧ (s.pan pan.val).currentContent s.tierLayers = some c ∧ w.getLsbD 1 = true) :=
  ⟨⟨withPan rdy 3 { pan1 with claims := [cl 2] }, 1000, 3, cl 2, [], by decide +kernel⟩,
   ⟨withPan (tierS 0) 3 { pan1 with claims := [{ rank := 1, what := .stream keyH }] }, 3, { rank := 1, what := .stream keyH }, [], by decide +kernel⟩,
   ⟨withPan rdy 3 { shadowPan { state := .writing, content := .current } with serving := some (cl 2), stagedIn := 278528 }, 3, by decide +kernel⟩,
   ⟨withPan rdy 3 { shadowPan { state := .writing, content := .current } with serving := some (cl 2), stagedIn := 278527 }, 3, by decide +kernel⟩,
   ⟨withPan rdy 3 { shadowPan { state := .writing, content := .current } with serving := some (cl 4), claims := [cl 2] }, 3, cl 2, cl 4, by decide +kernel⟩,
   ⟨withPan rdy 3 pan1, 3, 3, .current, by decide +kernel⟩,
   ⟨withPan rdy 3 pan1, 3, 3, .current, by decide +kernel⟩⟩

theorem test_witness_RakesAndSwaps :
    (∃ (s : State) (k : Stamp) (pan : PanId) (c : _), (s.pan pan.val).rakeClaim = some c ∧ (s.pan pan.val).shadow.state = .written ∧ (s.enter k).bedWork pan.val = true ∧ s.coreRakes (pan.val / 16) = false) ∧
    (∃ (s : State) (pan : PanId) (d : RakeData) (b : _), (s.pan pan.val).shadow.state = .raking ∧ (s.pan pan.val).blockIn (s.pan pan.val).shadow = some b ∧ fitBad (raked s pan b d) (s.pan pan.val).shadow.spares b.colsUsed = []) ∧
    (∃ (s : State) (pan : PanId) (d : RakeData) (b : _), (s.pan pan.val).shadow.state = .raking ∧ (s.pan pan.val).shadow.firstFail = false ∧ (s.pan pan.val).blockIn (s.pan pan.val).shadow = some b ∧ fitBad (raked s pan b d) (s.pan pan.val).shadow.spares b.colsUsed ≠ []) ∧
    (∃ (s : State) (pan : PanId) (c : _) (d : _), (s.pan pan.val).shadow.state = .raking ∧ (s.pan pan.val).serving = some d ∧ (s.pan pan.val).claims = [c] ∧ c.rank < d.rank) ∧
    (∃ (s : State) (k : Stamp) (pan : PanId) (b : _), (s.pan pan.val).streamed = true ∧ (s.pan pan.val).flights = [] ∧ (s.enter k).workOpen = true ∧ s.ready = true ∧ (s.pan pan.val).shadow.state = .ready ∧ (s.pan pan.val).shadow.content = .stream b ∧ (s.pan pan.val).shadow.beforeEdge = false) ∧
    (∃ (s : State) (k : Stamp) (pan : PanId), (s.pan pan.val).streamed = true ∧ (s.pan pan.val).flights = [] ∧ (s.enter k).workOpen = true ∧ s.ready = true ∧ (s.pan pan.val).shadow.state ≠ .ready) :=
  ⟨⟨withPan rdy 3 { shadowPan { state := .written, content := .current } with serving := some (cl 2) }, 1000, 3, cl 2, by decide +kernel⟩,
   ⟨withPan rdy 3 panT, 3, fitD, blkT, by decide +kernel⟩,
   ⟨withPan rdy 3 panT, 3, badD, blkT, by decide +kernel⟩,
   ⟨withPan rdy 3 { shadowPan { state := .raking, content := .current } with serving := some (cl 4), claims := [cl 2] }, 3, cl 2, cl 4, by decide +kernel⟩,
   ⟨withPan rdy 3 { shadowPan { state := .ready, content := .stream key1 } with streamed := true, streams := [key1] }, 1000, 3, key1, by decide +kernel⟩,
   ⟨withPan rdy 3 { shadowPan { state := .writing, content := .stream key1 } with streamed := true, streams := [key1] }, 1000, 3, by decide +kernel⟩⟩

theorem test_witness_WeightCommands :
    (∃ (s : State) (w : W32), Serves s ∧ Only w 0 [1, 6, 7, 9] ∧ s.wgt.load = none ∧ (s.part ≠ .jn8s ∨ (w.toNat / 4 % 4 ≠ 1 ∧ w.toNat / 4 % 4 ≠ 2)) ∧ w.getLsbD 4 = false ∧ ((s.wslot (w.toNat / 32 % 2)).state = .empty ∨ (s.wslot (w.toNat / 32 % 2)).state = .failed)) ∧
    (∃ (s : State) (w : W32), Serves s ∧ Only w 0 [1, 6, 7, 9] ∧ s.wgt.load = none ∧ (s.part ≠ .jn8s ∨ (w.toNat / 4 % 4 ≠ 1 ∧ w.toNat / 4 % 4 ≠ 2)) ∧ w.getLsbD 4 = true ∧ (∀ a ∈ s.wgt.adapters, a.id ≠ w.toNat / 65536 % 4096)) ∧
    (∃ (s : State) (w : W32) (code : _), Serves s ∧ Only w 0 [1, 6, 7, 9] ∧ ((code = 0x0E ∧ s.part = .jn8s ∧ (w.toNat / 4 % 4 = 1 ∨ w.toNat / 4 % 4 = 2)) ∨ (code = 0x26 ∧ (s.part ≠ .jn8s ∨ (w.toNat / 4 % 4 ≠ 1 ∧ w.toNat / 4 % 4 ≠ 2)) ∧ (s.wgt.load.isSome = true ∨ (w.getLsbD 4 = true ∧ ∃ a ∈ s.wgt.adapters, a.id = w.toNat / 65536 % 4096) ∨ (w.getLsbD 4 = false ∧ (s.wslot (w.toNat / 32 % 2)).state ≠ .empty ∧ (s.wslot (w.toNat / 32 % 2)).state ≠ .failed))))) ∧
    (∃ (s : State) (w : W32) (l : _), Serves s ∧ Only w 1 [0, 6, 7, 9] ∧ s.wgt.load = some l ∧ l.mode ≠ 2) ∧
    (∃ (s : State) (w : W32) (l : _), Serves s ∧ Only w 1 [0, 6, 7, 9] ∧ s.wgt.load = some l ∧ l.mode = 2 ∧ l.adapter = none) ∧
    (∃ (s : State) (w : W32), Serves s ∧ Only w 1 [0, 6, 7, 9] ∧ s.wgt.load = none) ∧
    (∃ (s : State) (w : W32), Serves s ∧ Only w 6 [0, 1, 7, 9] ∧ (s.wslot (w.toNat / 32 % 2)).state = .retired ∧ (∀ i, (s.pslot i).img = none)) ∧
    (∃ (s : State) (w : W32), Serves s ∧ Only w 7 [0, 1, 6, 9] ∧ ((s.wslot (w.toNat / 32 % 2)).state = .retired ∨ (s.wslot (w.toNat / 32 % 2)).state = .verified ∨ (s.wslot (w.toNat / 32 % 2)).state = .failed)) ∧
    (∃ (s : State) (w : W32), Serves s ∧ Only w 7 [0, 1, 6, 9] ∧ ((s.wslot (w.toNat / 32 % 2)).state = .loading ∨ (s.wslot (w.toNat / 32 % 2)).state = .active ∨ (s.wslot (w.toNat / 32 % 2)).state = .empty)) ∧
    (∃ (s : State) (w : W32), Serves s ∧ Only w 9 [0, 1, 6, 7]) ∧
    (∃ (s : State) (w : W32), Serves s ∧ Only w 5 [6] ∧ s.fld .WGT_LOAD_STATUS 0 4 ≠ 1) ∧
    (∃ (s : State) (w : W32), Serves s ∧ Only w 6 [5] ∧ s.fld .WGT_LOAD_STATUS 0 4 ≠ 1) ∧
    (∃ (s : State) (k : Stamp) (w : W32) (c : _), Serves s ∧ c ∈ [Instr.trustWrite k 0 w, .trustErase k 0 w] ∧ s.fld .WGT_LOAD_STATUS 0 4 = 1) :=
  ⟨⟨rdy, 0x1, by decide +kernel⟩,
   ⟨{ rdy with wgt := { adapters := [ad6] } }, 0x70011, by decide +kernel⟩,
   ⟨{ rdy with wgt := { slot0 := { state := .verified } } }, 0x1, 0x26, by decide +kernel⟩,
   ⟨{ rdy with wgt := { load := some ld1 } }, 2, ld1, by decide +kernel⟩,
   ⟨{ rdy with wgt := { load := some { ld1 with mode := 2 }, slot0 := { state := .loading } } }, 2, { ld1 with mode := 2 }, by decide +kernel⟩,
   ⟨rdy, 2, by decide +kernel⟩,
   ⟨{ rdy with wgt := { slot0 := { state := .retired } } }, 0x40, ⟨by decide +kernel, by decide +kernel, by decide +kernel, (fun i => by unfold State.pslot; split <;> rfl)⟩⟩,
   ⟨memS { rdy with wgt := { slot0 := { state := .retired } } } (slotBase 0 + 3) [9], 0x80, by decide +kernel⟩,
   ⟨{ rdy with wgt := { slot0 := { state := .active } } }, 0x80, by decide +kernel⟩,
   ⟨{ rdy with wgt := { adapters := [ad6] } }, 0x60200, by decide +kernel⟩,
   ⟨rdy, 0x23, by decide +kernel⟩,
   ⟨{ rdy with mram := { trust := [some 1, none, none, some 5] } }, 0x43, by decide +kernel⟩,
   ⟨rdy.setF .WGT_LOAD_STATUS 0 4 1, 1000, 0x23, Instr.trustWrite 1000 0 0x23, by decide +kernel⟩⟩

theorem test_witness_WeightLoading :
    (∃ (s : State) (l : Load) (x : _), s.wgt.load = some l ∧ l.mode = 0 ∧ l.pkg = none ∧ FrontCode s l x none) ∧
    (∃ (s : State) (l : Load) (x : _) (code : _), s.wgt.load = some l ∧ l.mode = 0 ∧ l.pkg = none ∧ FrontCode s l x (some code)) ∧
    (∃ (s : State) (l : Load) (p : _) (i : _) (e : _) (c : _) (x : SealedShard), s.wgt.load = some l ∧ l.mode = 0 ∧ Opens l p i e x.bytes c ∧ x.dmaError = false ∧ l.ok.length + 1 < p.shards.length) ∧
    (∃ (s : State) (l : Load) (p : _) (i : _) (e : _) (c : _) (x : SealedShard), s.wgt.load = some l ∧ l.mode = 0 ∧ Opens l p i e x.bytes c ∧ x.dmaError = false ∧ l.ok.length + 1 = p.shards.length ∧ l.adapter = none ∧ (∀ j, (s.pslot j).img = none)) ∧
    (∃ (s : State) (l : Load) (p : _) (i : _) (e : _) (c : _) (x : SealedShard) (a : _), s.wgt.load = some l ∧ l.mode = 0 ∧ Opens l p i e x.bytes c ∧ x.dmaError = false ∧ l.ok.length + 1 = p.shards.length ∧ l.adapter = some a) ∧
    (∃ (s : State) (l : Load) (p : _) (key : _) (i : _) (e : _) (x : SealedShard), s.wgt.load = some l ∧ l.mode = 0 ∧ l.pkg = some p ∧ l.key = some key ∧ p.shards[i]? = some e ∧ i ∉ l.ok ∧ l.abort = false ∧ (x.dmaError = true ∨ openShard p key i e x.bytes = none) ∧ listed l.fails i 0 < 3) ∧
    (∃ (s : State) (l : Load) (p : _) (key : _) (i : _) (e : _) (c : _) (x : SealedShard) (code : _), s.wgt.load = some l ∧ l.mode = 0 ∧ l.pkg = some p ∧ l.key = some key ∧ p.shards[i]? = some e ∧ i ∉ l.ok ∧ x.dmaError = false ∧ ((code = 0x23 ∧ openShard p key i e x.bytes = none ∧ l.abort = false ∧ 3 ≤ listed l.fails i 0) ∨ (code = 0x24 ∧ openShard p key i e x.bytes = some c ∧ contentOk e.format c = false) ∨ (code = 0x2B ∧ l.abort = true ∧ (openShard p key i e x.bytes = none ∨ openShard p key i e x.bytes = some c ∧ contentOk e.format c = true)))) :=
  ⟨⟨wld ld1, ld1, front0, by decide +kernel⟩,
   ⟨(wld ld1).setNum .WGT_LOAD_LEN 5, ld1, front0, 0x22, by decide +kernel⟩,
   ⟨wld ld2, ld2, pk1, 0, ent0, cont0, ⟨shard0, false⟩, by decide +kernel⟩,
   ⟨wld { ld2 with ok := [0] }, { ld2 with ok := [0] }, pk1, 1, ent1, cont1, ⟨shard1, false⟩, by and_intros <;> first | exact (fun i => by unfold State.pslot; split <;> rfl) | decide +kernel⟩,
   ⟨wld { ld2 with ok := [0], adapter := some 3 }, { ld2 with ok := [0], adapter := some 3 }, pk1, 1, ent1, cont1, ⟨shard1, false⟩, 3, by decide +kernel⟩,
   ⟨wld ld2, ld2, pk1, ckey, 0, ent0, ⟨shard1, false⟩, by decide +kernel⟩,
   ⟨wld { ld2 with fails := [(0, 3)] }, { ld2 with fails := [(0, 3)] }, pk1, ckey, 0, ent0, cont0, ⟨[], false⟩, 0x23, by decide +kernel⟩⟩

theorem test_witness_HostTierReads :
    (∃ (s : State) (layer : Nat) (sealed : List (List Byte)) (l : _), layer ∈ s.tierLayers ∧ s.num .WGT_HOST_TIER_LEN ≠ 0 ∧ tierOpens s layer sealed = some l) ∧
    (∃ (s : State) (layer : Nat) (sealed : List (List Byte)), layer ∈ s.tierLayers ∧ s.num .WGT_HOST_TIER_LEN ≠ 0 ∧ tierOpens s layer sealed = none ∧ listed s.wgt.tierFails layer 0 ≠ 3) ∧
    (∃ (s : State) (layer : Nat) (sealed : List (List Byte)), layer ∈ s.tierLayers ∧ s.num .WGT_HOST_TIER_LEN ≠ 0 ∧ tierOpens s layer sealed = none ∧ listed s.wgt.tierFails layer 0 = 3) :=
  ⟨⟨tierS 0, 0, [shard0], [(0, cont0)], by decide +kernel⟩,
   ⟨tierS 2, 0, [shard1], by decide +kernel⟩,
   ⟨tierS 3, 0, [], by decide +kernel⟩⟩

theorem test_witness_WeightBroadcast :
    (∃ (s : State) (l : Load) (n : LinkId) (h : PktHdr) (m : BitVec 128) (g : W16), s.wgt.load = some l ∧ l.mode = 2 ∧ Comes s n.val h ∧ s.pairExpected m g = true) ∧
    (∃ (s : State) (l : Load) (n : LinkId) (h : PktHdr) (i : _), s.wgt.load = some l ∧ l.mode = 2 ∧ Comes s n.val h ∧ l.bcaster = some h.src ∧ l.pkg = none ∧ i < 65536 ∧ (s.arrivedFront l) = none) ∧
    (∃ (s : State) (l : Load) (n : LinkId) (h : PktHdr) (p : _), s.wgt.load = some l ∧ l.mode = 2 ∧ Comes s n.val h ∧ l.bcaster = some h.src ∧ l.pkg = some p) ∧
    (∃ (s : State) (k : Stamp) (l : Load) (p : _), s.wgt.load = some l ∧ l.mode = 2 ∧ l.bcaster.isSome = true ∧ l.pkg = some p ∧ l.lastPkt + 100000000 ≤ max s.now k) ∧
    (∃ (s : State) (k : Stamp) (l : Load), s.wgt.load = some l ∧ l.mode = 2 ∧ l.bcaster = none ∧ l.pkg = none ∧ l.start + s.num .WGT_RECV_WAIT * 1000000 ≤ max s.now k) ∧
    (∃ (s : State) (k : Stamp) (l : Load) (i : _) (w : _), s.wgt.load = some l ∧ l.mode = 2 ∧ l.wanted.find? (fun w => w.shard == i) = some w ∧ w.first + s.num .WGT_SHARD_TIMEOUT * 1000000 ≤ max s.now k) ∧
    (∃ (s : State) (k : Stamp) (l : Load) (i : _) (w : _), s.wgt.load = some l ∧ l.mode = 2 ∧ l.wanted.find? (fun w => w.shard == i) = some w ∧ w.asked + s.num .WGT_RETRY_WAIT * 1000000 ≤ max s.now k) ∧
    (∃ (s : State) (l : Load) (n : LinkId) (h : PktHdr) (i : _) (w : _), s.wgt.load = some l ∧ l.mode = 2 ∧ Comes s n.val h ∧ l.wanted.find? (fun w => w.shard == i) = some w) ∧
    (∃ (s : State) (v : _), s.wgt.serving = some v ∧ v.broadcaster = true) ∧
    (∃ (s : State) (n : LinkId) (h : PktHdr) (i : _) (host : _) (b : _), Comes s n.val h ∧ s.heldPart i host = some b) ∧
    (∃ (s : State) (n : LinkId) (h : PktHdr) (i : _) (host : _), Comes s n.val h ∧ s.heldPart i host = none) ∧
    (∃ (s : State) (k : Stamp) (v : _) (e : _), s.wgt.serving = some v ∧ v.untilT = some e ∧ e ≤ max s.now k) :=
  ⟨⟨((rcv ld3).setNum .WGT_RECV_MODEL_ID 9).setF .WGT_RECV_GEN 0 16 3, ld3, 0, h0, 9, 3, by decide +kernel⟩,
   ⟨rcv { ld3 with pkg := none, key := none }, { ld3 with pkg := none, key := none }, 0, h0, 1, by decide +kernel⟩,
   ⟨rcv ld3, ld3, 0, h0, pk1, by decide +kernel⟩,
   ⟨rcv ld3, 200000000, ld3, pk1, by decide +kernel⟩,
   ⟨rcv { ld1 with mode := 2 }, 80000000000000, { ld1 with mode := 2 }, by decide +kernel⟩,
   ⟨rcv ld3, 80000000000000, ld3, 1, ⟨1, 0, 1, 0⟩, by decide +kernel⟩,
   ⟨rcv ld3, 80000000000000, ld3, 1, ⟨1, 0, 1, 0⟩, by decide +kernel⟩,
   ⟨rcv ld3, ld3, 0, h0, 1, ⟨1, 0, 1, 0⟩, by decide +kernel⟩,
   ⟨srvS sv1, sv1, by decide +kernel⟩,
   ⟨srvS sv1, 0, h0, 1, [1,2], [1,2], by decide +kernel⟩,
   ⟨srvS sv1, 0, h0, 2, [1,2], by decide +kernel⟩,
   ⟨memS (srvS { sv1 with untilT := some 1000 }) holdBase [3], 200000000, { sv1 with untilT := some 1000 }, 1000, by decide +kernel⟩⟩

theorem test_witness_DoorbellLatch :
    (∃ (s : State) (fn : FnId) (l : _), s.fnLive fn.val = true ∧ s.latchOf fn.val = some l) ∧
    (∃ (s : State) (k : Stamp) (fn : FnId) (x : _) (c : _), s.fnLive fn.val = true ∧ s.latchOf fn.val = none ∧ c ∈ [Instr.sqDoorbell k fn (.upper x), .cqDoorbell k fn (.upper x)]) :=
  ⟨⟨rdy.setLatch 0 (some 6), 0, 6, by decide +kernel⟩,
   ⟨rdy, 1000, 0, 4, Instr.sqDoorbell 1000 0 (.upper 4), by decide +kernel⟩⟩

theorem test_witness_Doorbells :
    (∃ (s : State) (fn : FnId) (w : W64) (q : Nat) (v : Nat) (d : _), s.fnLive fn.val = true ∧ s.safe = false ∧ fldOf w 0 20 = q ∧ fldOf w 32 16 = v ∧ (s.share fn.val).qpFirst ≤ q ∧ q < (s.share fn.val).qpFirst + (s.share fn.val).qpCount ∧ (s.qp q).state = .ready ∧ s.pwrState ≠ 2 ∧ d = (v + (s.qp q).sqSize - (s.qp q).sqTail % (s.qp q).sqSize) % (s.qp q).sqSize ∧ fldOf w 31 1 = 0 ∧ v < (s.qp q).sqSize ∧ (s.qp q).sqTail - (s.qp q).sqHead + d ≤ (s.qp q).sqSize) ∧
    (∃ (s : State) (fn : FnId) (w : W64) (q : Nat) (v : Nat) (d : _), s.fnLive fn.val = true ∧ s.safe = false ∧ fldOf w 0 20 = q ∧ fldOf w 32 16 = v ∧ (s.share fn.val).qpFirst ≤ q ∧ q < (s.share fn.val).qpFirst + (s.share fn.val).qpCount ∧ (s.qp q).state = .ready ∧ s.pwrState ≠ 2 ∧ d = (v + (s.qp q).cqSize - (s.qp q).cqHead % (s.qp q).cqSize) % (s.qp q).cqSize ∧ fldOf w 31 1 = 1 ∧ v < (s.qp q).cqSize) ∧
    (∃ (s : State) (k : Stamp) (fn : FnId) (w : W64) (q : Nat) (v : Nat) (c : _), s.fnLive fn.val = true ∧ s.safe = false ∧ fldOf w 0 20 = q ∧ fldOf w 32 16 = v ∧ (s.share fn.val).qpFirst ≤ q ∧ q < (s.share fn.val).qpFirst + (s.share fn.val).qpCount ∧ (s.qp q).state = .ready ∧ s.pwrState ≠ 2 ∧ c ∈ [Instr.sqDoorbell k fn (.whole w), .cqDoorbell k fn (.whole w)] ∧ ((fldOf w 31 1 = 0 ∧ ((s.qp q).sqSize ≤ v ∨ (s.qp q).sqSize < (s.qp q).sqTail - (s.qp q).sqHead + (v + (s.qp q).sqSize - (s.qp q).sqTail % (s.qp q).sqSize) % (s.qp q).sqSize)) ∨ (fldOf w 31 1 = 1 ∧ (s.qp q).cqSize ≤ v))) ∧
    (∃ (s : State) (k : Stamp) (fn : FnId) (w : W64) (q : Nat) (v : Nat) (c : _), s.fnLive fn.val = true ∧ s.safe = false ∧ fldOf w 0 20 = q ∧ fldOf w 32 16 = v ∧ c ∈ [Instr.sqDoorbell k fn (.whole w), .cqDoorbell k fn (.whole w)] ∧ (q < (s.share fn.val).qpFirst ∨ (s.share fn.val).qpFirst + (s.share fn.val).qpCount ≤ q ∨ (s.qp q).state = .free) ∧ s.pwrState ≠ 2) ∧
    (∃ (s : State) (k : Stamp) (fn : FnId) (w : W64) (q : Nat) (v : Nat) (c : _), s.fnLive fn.val = true ∧ s.safe = false ∧ fldOf w 0 20 = q ∧ fldOf w 32 16 = v ∧ c ∈ [Instr.sqDoorbell k fn (.whole w), .cqDoorbell k fn (.whole w)] ∧ s.pwrState = 2) :=
  ⟨⟨withQp rdy 5 qp0, 0, 0x700000005, 5, 7, 3, by decide +kernel⟩,
   ⟨withQp rdy 5 { qp0 with cqTail := 3 }, 0, 0x280000005, 5, 2, 2, by decide +kernel⟩,
   ⟨withQp rdy 5 qp0, 1000, 0, 0x4000000005, 5, 64, Instr.sqDoorbell 1000 0 (.whole 0x4000000005), by decide +kernel⟩,
   ⟨withQp rdy 5 qp0, 1000, 0, 0x300000006, 6, 3, Instr.sqDoorbell 1000 0 (.whole 0x300000006), by decide +kernel⟩,
   ⟨(withQp rdy 5 qp0).setF .PWR_STATUS 0 3 2, 1000, 0, 0x300000005, 5, 3, Instr.sqDoorbell 1000 0 (.whole 0x300000005), by decide +kernel⟩⟩

theorem test_witness_AdminPairAndReserve :
    (∃ (s : State) (fn : FnId) (w : W32), Serves s ∧ s.fnLive fn.val = true ∧ s.bit .SRV_ADMQ_CTRL 10 fn.val = false ∧ w.getLsbD 10 = true ∧ s.adminOk fn.val (s.adminQp fn.val w) = true) ∧
    (∃ (s : State) (fn : FnId) (w : W32), Serves s ∧ s.fnLive fn.val = true ∧ s.bit .SRV_ADMQ_CTRL 10 fn.val = true ∧ w.getLsbD 10 = false) ∧
    (∃ (s : State) (fn : FnId) (w : W32), Serves s ∧ s.fnLive fn.val = true ∧ s.bit .SRV_ADMQ_CTRL 10 fn.val = false ∧ w.getLsbD 10 = false ∧ admqFits fn.val (s.adminQp fn.val w) = true) ∧
    (∃ (s : State) (fn : FnId) (w : W32), Serves s ∧ s.fnLive fn.val = true ∧ (w.getLsbD 10 = true ∧ (s.bit .SRV_ADMQ_CTRL 10 fn.val = true ∨ s.adminOk fn.val (s.adminQp fn.val w) = false) ∨ s.bit .SRV_ADMQ_CTRL 10 fn.val = false ∧ admqFits fn.val (s.adminQp fn.val w) = false)) ∧
    (∃ (s : State) (fn : FnId) (x : W64), Serves s ∧ s.fnLive fn.val = true ∧ s.openAll = 0 ∧ s.wgt.load = none ∧ x.toNat ≠ 0 ∧ x.toNat % 2 ^ 30 = 0 ∧ x.toNat + 2 ^ 32 + s.num .WGT_ADAPTER_REGION + (if s.part = .jn8s then 0 else s.num .WGT_HOLD_BYTES) + (if s.num .WGT_HOST_TIER_LEN = 0 then 0 else 2 ^ 31) + s.wgt.slot0.hbmBytes + s.wgt.slot1.hbmBytes ≤ s.part.hbmBytes) ∧
    (∃ (s : State) (fn : FnId) (x : W64), Serves s ∧ s.fnLive fn.val = true ∧ (s.openAll ≠ 0 ∨ s.wgt.load.isSome = true ∨ x.toNat = 0 ∨ x.toNat % 2 ^ 30 ≠ 0 ∨ s.part.hbmBytes < x.toNat + 2 ^ 32 + s.num .WGT_ADAPTER_REGION + (if s.part = .jn8s then 0 else s.num .WGT_HOLD_BYTES) ∨ s.part.hbmBytes < x.toNat + 2 ^ 32 + s.num .WGT_ADAPTER_REGION + (if s.part = .jn8s then 0 else s.num .WGT_HOLD_BYTES) + (if s.num .WGT_HOST_TIER_LEN = 0 then 0 else 2 ^ 31) + s.wgt.slot0.hbmBytes + s.wgt.slot1.hbmBytes)) :=
  ⟨⟨rdy, 0, 0x4A5, by decide +kernel⟩,
   ⟨withQp (rdy.setNum .SRV_ADMQ_CTRL 0x4A5) 0 qp0, 0, 0, by decide +kernel⟩,
   ⟨rdy, 0, 0x1A5, by decide +kernel⟩,
   ⟨rdy, 0, 3, by decide +kernel⟩,
   ⟨rdy, 0, 0x40000000, by decide +kernel⟩,
   ⟨rdy, 0, 0x1000, by decide +kernel⟩⟩

theorem test_witness_FailedCommands :
    (∃ (s : State) (k : Stamp) (q : Qid) (cmd : SrvCmd) (rest : List Admitted) (l : List W32) (c : _) (code : _), Fronts s k q.val rest ∧ c ∈ [(Instr.openSession k q cmd, 1), (.audioIn k q cmd l, 2), (.textIn k q cmd l, 3), (.prompt k q cmd, 4), (.generate k q cmd, 5), (.cancel k q cmd, 6), (.close k q cmd, 7), (.setAdapter k q cmd, 8), (.setSampling k q cmd, 9), (.createQp k q cmd, 0x40), (.deleteQp k q cmd, 0x41), (.setRefMode k q cmd, 0x42), (.querySession k q cmd, 0x43)] ∧ cmd.opcode.toNat = c.2 ∧ s.checkFront q.val c.2 = some code) ∧
    (∃ (s : State) (k : Stamp) (q : Qid) (cmd : SrvCmd) (rest : List Admitted) (l : List W32) (c : _) (off : _), Fronts s k q.val rest ∧ c ∈ [(Instr.openSession k q cmd, 1), (.audioIn k q cmd l, 2), (.textIn k q cmd l, 3), (.prompt k q cmd, 4), (.generate k q cmd, 5), (.cancel k q cmd, 6), (.close k q cmd, 7), (.setAdapter k q cmd, 8), (.setSampling k q cmd, 9), (.createQp k q cmd, 0x40), (.deleteQp k q cmd, 0x41), (.setRefMode k q cmd, 0x42), (.querySession k q cmd, 0x43)] ∧ cmd.opcode.toNat = c.2 ∧ s.checkFront q.val c.2 = none ∧ (4 ≤ cmd.flags.toNat ∧ off = 1 ∨ cmd.flags.toNat < 4 ∧ cmd.cid = 0xFFFF ∧ off = 2)) ∧
    (∃ (s : State) (k : Stamp) (q : Qid) (cmd : SrvCmd) (rest : List Admitted), Fronts s k q.val rest ∧ cmd.opcode.toNat ∉ [1, 2, 3, 4, 5, 6, 7, 8, 9, 0x40, 0x41, 0x42, 0x43, 0x48, 0x49, 0x4A, 0x4B] ∧ s.ready = true) :=
  ⟨⟨opS 5 qp0 rdy, 1000, 5, cmd 7, rest1, [], (.close 1000 5 (cmd 7), 7), 0x12, by decide +kernel⟩,
   ⟨opS 5 qp0 rdy, 1000, 5, { openCmd with flags := 4 }, rest1, [], (.openSession 1000 5 ({ openCmd with flags := 4 }), 1), 1, by decide +kernel⟩,
   ⟨opS 5 qp0 rdy, 1000, 5, cmd 0x77, rest1, by decide +kernel⟩⟩

theorem test_witness_MaintenanceCommands :
    (∃ (s : State) (k : Stamp) (q : Qid) (c : SrvCmd) (rest : List Admitted), Takes s k q.val rest ∧ s.isAdmin q.val = true ∧ Sent c 0x40 ∧ c.dataAddr = 0 ∧ c.dataLen = 0 ∧ s.qidOk q.val c = true ∧ (s.qp (c.par 0 20)).state = .free ∧ c.arg 0 8 % 4096 = 0 ∧ c.arg 8 8 % 4096 = 0 ∧ 4 ≤ c.arg 16 1 ∧ c.arg 16 1 ≤ 16 ∧ 4 ≤ c.arg 17 1 ∧ c.arg 17 1 ≤ 16 ∧ c.arg 18 2 < vectorsOf (s.fnOf q.val) ∧ c.arg 20 1 < 4 ∧ (c.arg 20 1 % 2 = 1 → s.fnOf q.val = 0 ∧ s.ringsFit c.newQp = true) ∧ c.argsEnd 21 = true) ∧
    (∃ (s : State) (k : Stamp) (q : Qid) (c : SrvCmd) (rest : List Admitted), Takes s k q.val rest ∧ s.isAdmin q.val = true ∧ Sent c 0x41 ∧ c.dataAddr = 0 ∧ c.dataLen = 0 ∧ s.qidOk q.val c = true ∧ (s.qp (c.par 0 20)).state ≠ .free ∧ c.args = 0 ∧ ((s.qp (c.par 0 20)).state = .error ∨ ∀ y, (s.qp (c.par 0 20)).session = some y → y.state = .closed ∨ y.state = .failed)) ∧
    (∃ (s : State) (k : Stamp) (q : Qid) (c : SrvCmd) (rest : List Admitted) (y : _), Takes s k q.val rest ∧ s.isAdmin q.val = true ∧ Sent c 0x41 ∧ c.dataAddr = 0 ∧ c.dataLen = 0 ∧ s.qidOk q.val c = true ∧ (s.qp (c.par 0 20)).state = .ready ∧ c.args = 0 ∧ (s.qp (c.par 0 20)).session = some y ∧ (y.state = .opened ∨ y.state = .closing)) ∧
    (∃ (s : State) (k : Stamp) (q : Qid) (c : SrvCmd) (rest : List Admitted), Takes s k q.val rest ∧ s.isAdmin q.val = true ∧ Sent c 0x42 ∧ s.fnOf q.val = 0 ∧ c.dataAddr = 0 ∧ c.dataLen = 0 ∧ c.param.toNat < 2 ∧ c.args = 0) ∧
    (∃ (s : State) (k : Stamp) (q : Qid) (c : SrvCmd) (rest : List Admitted), Takes s k q.val rest ∧ s.isAdmin q.val = true ∧ Sent c 0x43 ∧ c.dataLen = 64 ∧ s.qidOk q.val c = true ∧ c.args = 0) :=
  ⟨⟨opS 0 { qp0 with sqLog := 4 } rdy, 1000, 0, { cmd 0x40 with param := 9, args := BitVec.ofNat 320 (0x1000 + 0x2000 * 2 ^ 64 + 5 * 2 ^ 128 + 6 * 2 ^ 136 + 3 * 2 ^ 144) }, rest1, by decide +kernel⟩,
   ⟨withQp (opS 0 { qp0 with sqLog := 4 } rdy) 9 { qp0 with session := some { ses0 with state := .closed } }, 1000, 0, { cmd 0x41 with param := 9 }, rest1, by decide +kernel⟩,
   ⟨withQp (opS 0 { qp0 with sqLog := 4 } rdy) 9 { qp0 with session := some ses0 }, 1000, 0, { cmd 0x41 with param := 9 }, rest1, ses0, by decide +kernel⟩,
   ⟨opS 0 { qp0 with sqLog := 4 } rdy, 1000, 0, { cmd 0x42 with param := 1 }, rest1, by decide +kernel⟩,
   ⟨opS 0 { qp0 with sqLog := 4 } rdy, 1000, 0, { cmd 0x43 with param := 9, dataLen := 64, dataAddr := 0x800 }, rest1, by decide +kernel⟩⟩

theorem test_witness_SessionsOpen :
    (∃ (s : State) (k : Stamp) (q : Qid) (c : SrvCmd) (rest : List Admitted) (excl : _) (slot : _), Takes s k q.val rest ∧ s.isAdmin q.val = false ∧ (s.qp q.val).session = none ∧ Sent c 1 ∧ c.dataAddr.toNat % 64 = 0 ∧ c.dataLen = 64 ∧ 1 ≤ c.par 0 15 ∧ c.par 0 15 ≤ 16384 ∧ c.par 15 2 ≤ 2 ∧ c.par 22 4 ≤ 8 ∧ c.par 18 2 ≠ 0 ∧ c.par 26 6 = 0 ∧ c.arg 0 2 = 0xFFFF ∧ c.argsEnd 2 = true ∧ s.model.isSome = true ∧ s.freeSlot = some slot ∧ s.shareOpen (s.fnOf q.val) = true ∧ s.anyExclusive = false ∧ (s.openAll + 1) * s.kvLayers ≤ s.pagesFree ∧ ((excl = false ∧ s.chargeAt (c.par 0 15) ≤ s.num .KVC_BUDGET_EFF ∧ (s.sequences.map (fun e => s.chargeAt e.2.limit)).sum + s.chargeAt (c.par 0 15) ≤ s.num .KVC_BUDGET_EFF) ∨ (excl = true ∧ s.num .KVC_BUDGET_EFF < s.chargeAt (c.par 0 15) ∧ s.openAll = 0 ∧ s.chargeAt (c.par 0 15) ≤ s.kvCapacity))) ∧
    (∃ (s : State) (k : Stamp) (q : Qid) (c : SrvCmd) (rest : List Admitted), Takes s k q.val rest ∧ s.isAdmin q.val = false ∧ (s.qp q.val).session = none ∧ Sent c 1 ∧ c.dataAddr.toNat % 64 = 0 ∧ c.dataLen = 64 ∧ 1 ≤ c.par 0 15 ∧ c.par 0 15 ≤ 16384 ∧ c.par 15 2 ≤ 2 ∧ c.par 22 4 ≤ 8 ∧ c.par 18 2 ≠ 0 ∧ c.par 26 6 = 0 ∧ c.arg 0 2 = 0xFFFF ∧ c.argsEnd 2 = true ∧ (s.model = none ∨ s.shareOpen (s.fnOf q.val) = false ∨ ((s.kvAdmits (c.par 0 15)).isSome = true ∧ s.freeSlot = none))) ∧
    (∃ (s : State) (k : Stamp) (q : Qid) (c : SrvCmd) (rest : List Admitted), Takes s k q.val rest ∧ s.isAdmin q.val = false ∧ (s.qp q.val).session = none ∧ Sent c 1 ∧ c.dataAddr.toNat % 64 = 0 ∧ c.dataLen = 64 ∧ 1 ≤ c.par 0 15 ∧ c.par 0 15 ≤ 16384 ∧ c.par 15 2 ≤ 2 ∧ c.par 22 4 ≤ 8 ∧ c.par 18 2 ≠ 0 ∧ c.par 26 6 = 0 ∧ c.arg 0 2 = 0xFFFF ∧ c.argsEnd 2 = true ∧ s.model.isSome = true ∧ s.shareOpen (s.fnOf q.val) = true ∧ (s.anyExclusive = true ∨ s.pagesFree < (s.openAll + 1) * s.kvLayers ∨ (s.num .KVC_BUDGET_EFF < s.chargeAt (c.par 0 15) ∧ (s.openAll ≠ 0 ∨ s.kvCapacity < s.chargeAt (c.par 0 15))) ∨ (s.chargeAt (c.par 0 15) ≤ s.num .KVC_BUDGET_EFF ∧ s.num .KVC_BUDGET_EFF < (s.sequences.map (fun e => s.chargeAt e.2.limit)).sum + s.chargeAt (c.par 0 15)))) :=
  ⟨⟨opS 5 qp0 rdyK, 1000, 5, openCmd, rest1, false, 0, by decide +kernel⟩,
   ⟨opS 5 qp0 rdy, 1000, 5, openCmd, rest1, by decide +kernel⟩,
   ⟨opS 5 qp0 rdyP, 1000, 5, openCmd, rest1, by decide +kernel⟩⟩

theorem test_witness_SessionCommands :
    (∃ (s : State) (k : Stamp) (q : Qid) (c : SrvCmd) (rest : List Admitted) (x : Session) (m : _), Takes s k q.val rest ∧ s.isAdmin q.val = false ∧ (s.qp q.val).session = some x ∧ x.state = .opened ∧ Sent c 2 ∧ s.model = some m ∧ m.audioFrontEnd = true ∧ s.framesOk q.val c = true ∧ c.param = 0 ∧ c.args = 0) ∧
    (∃ (s : State) (k : Stamp) (q : Qid) (c : SrvCmd) (rest : List Admitted) (x : Session), Takes s k q.val rest ∧ s.isAdmin q.val = false ∧ (s.qp q.val).session = some x ∧ x.state = .opened ∧ Sent c 2 ∧ (∀ m, s.model = some m → m.audioFrontEnd = false) ∧ s.framesOk q.val c = true ∧ c.param = 0 ∧ c.args = 0) ∧
    (∃ (s : State) (k : Stamp) (q : Qid) (c : SrvCmd) (rest : List Admitted) (x : Session), Takes s k q.val rest ∧ s.isAdmin q.val = false ∧ (s.qp q.val).session = some x ∧ x.state = .opened ∧ Sent c 3 ∧ c.dataLen.toNat % 4 = 0 ∧ 4 ≤ c.dataLen.toNat ∧ c.dataLen.toNat ≤ 1048576 ∧ c.param = 0 ∧ c.args = 0) ∧
    (∃ (s : State) (k : Stamp) (q : Qid) (c : SrvCmd) (rest : List Admitted) (x : Session), Takes s k q.val rest ∧ s.isAdmin q.val = false ∧ (s.qp q.val).session = some x ∧ x.state = .opened ∧ Sent c 4 ∧ c.dataAddr = 0 ∧ c.dataLen = 0 ∧ c.param = 0 ∧ c.args = 0) ∧
    (∃ (s : State) (k : Stamp) (q : Qid) (c : SrvCmd) (rest : List Admitted) (x : Session), Takes s k q.val rest ∧ s.isAdmin q.val = false ∧ (s.qp q.val).session = some x ∧ x.state = .opened ∧ Sent c 5 ∧ c.dataLen.toNat % 4 = 0 ∧ c.par 16 16 = 0 ∧ c.arg 8 4 % (if x.out24 then 960 else 640) = 0 ∧ c.argsEnd 12 = true) ∧
    (∃ (s : State) (k : Stamp) (q : Qid) (c : SrvCmd) (rest : List Admitted) (x : Session) (hits : Work → Bool), Takes s k q.val rest ∧ s.isAdmin q.val = false ∧ (s.qp q.val).session = some x ∧ x.state = .opened ∧ Sent c 6 ∧ c.dataAddr = 0 ∧ c.dataLen = 0 ∧ c.par 0 2 ≤ 2 ∧ c.par 2 30 = 0 ∧ (c.par 0 2 = 0 ∨ c.arg 0 2 = 0) ∧ c.argsEnd 2 = true ∧ (∀ w, hits w = (w.done.isNone && (c.par 0 2 != 0 || w.cid.toNat == c.arg 0 2)))) ∧
    (∃ (s : State) (k : Stamp) (q : Qid) (c : SrvCmd) (rest : List Admitted) (x : Session), Takes s k q.val rest ∧ s.isAdmin q.val = false ∧ (s.qp q.val).session = some x ∧ x.state = .opened ∧ Sent c 7 ∧ c.dataAddr = 0 ∧ c.dataLen = 0 ∧ c.param = 0 ∧ c.args = 0) ∧
    (∃ (s : State) (k : Stamp) (q : Qid) (c : SrvCmd) (rest : List Admitted) (x : Session), Takes s k q.val rest ∧ s.isAdmin q.val = false ∧ (s.qp q.val).session = some x ∧ x.state = .opened ∧ Sent c 8 ∧ c.dataAddr = 0 ∧ c.dataLen = 0 ∧ c.param = 0 ∧ c.arg 0 2 = 0xFFFF ∧ c.argsEnd 2 = true) ∧
    (∃ (s : State) (k : Stamp) (q : Qid) (c : SrvCmd) (rest : List Admitted) (x : Session), Takes s k q.val rest ∧ s.isAdmin q.val = false ∧ (s.qp q.val).session = some x ∧ x.state = .opened ∧ Sent c 8 ∧ c.dataAddr = 0 ∧ c.dataLen = 0 ∧ c.param = 0 ∧ c.arg 0 2 < 4096 ∧ s.adapterUsable (c.arg 0 2) = false ∧ c.argsEnd 2 = true) ∧
    (∃ (s : State) (k : Stamp) (q : Qid) (c : SrvCmd) (rest : List Admitted) (x : Session), Takes s k q.val rest ∧ s.isAdmin q.val = false ∧ (s.qp q.val).session = some x ∧ x.state = .opened ∧ Sent c 9 ∧ c.dataAddr = 0 ∧ c.dataLen = 0 ∧ c.par 1 31 = 0 ∧ (∀ e ∈ samplingFields c, e.2 = true)) :=
  ⟨⟨opS 5 { qp0 with session := some ses0 } { rdyP with plans := { rdyP.plans with s0 := { rdyP.plans.s0 with img := some { img1 with model := { modelRec with audioFrontEnd := true } } } } }, 1000, 5, { cmd 2 with dataLen := 1280 }, rest1, ses0, { modelRec with audioFrontEnd := true }, by decide +kernel⟩,
   ⟨opS 5 { qp0 with session := some ses0 } rdyP, 1000, 5, { cmd 2 with dataLen := 1280 }, rest1, ses0, by and_intros <;> first | exact (fun _ h => by cases h; rfl) | decide +kernel⟩,
   ⟨opS 5 { qp0 with session := some ses0 } rdyP, 1000, 5, { cmd 3 with dataLen := 8 }, rest1, ses0, by decide +kernel⟩,
   ⟨opS 5 { qp0 with session := some ses0 } rdyP, 1000, 5, cmd 4, rest1, ses0, by decide +kernel⟩,
   ⟨opS 5 { qp0 with session := some ses0 } rdyP, 1000, 5, { cmd 5 with dataLen := 8, dataAddr := 0x100, param := 20, args := BitVec.ofNat 320 (0x9000 + 1280 * 2 ^ 64) }, rest1, ses0, by decide +kernel⟩,
   ⟨opS 5 { qp0 with session := some { ses0 with work := [work1], steps := [step0] } } rdyP, 1000, 5, { cmd 6 with args := 9 }, rest1, { ses0 with work := [work1], steps := [step0] }, (fun w => w.done.isNone && w.cid.toNat == 9), by and_intros <;> first | exact fun _ => rfl | decide +kernel⟩,
   ⟨opS 5 { qp0 with session := some ses0 } rdyP, 1000, 5, cmd 7, rest1, ses0, by decide +kernel⟩,
   ⟨opS 5 { qp0 with session := some ses0 } rdyP, 1000, 5, { cmd 8 with args := 0xFFFF }, rest1, ses0, by decide +kernel⟩,
   ⟨opS 5 { qp0 with session := some ses0 } rdyP, 1000, 5, { cmd 8 with args := 6 }, rest1, ses0, by decide +kernel⟩,
   ⟨opS 5 { qp0 with session := some ses0 } rdyP, 1000, 5, { cmd 9 with param := 1, args := BitVec.ofNat 320 (0x3F800000 * 2 ^ 32 + 0x3F800000 * 2 ^ 64 + 5 * 2 ^ 160 + 77 * 2 ^ 192) }, rest1, ses0, by decide +kernel⟩⟩

theorem test_witness_StepsComplete :
    (∃ (s : State) (q : Qid) (r : StepRun) (x : Session) (i : PlanImage) (w : Work) (ws : List Work) (p : Step) (ps : List Step), s.ready = true ∧ s.tide.work = true ∧ s.activePlan.bind (·.img) = some i ∧ (s.qp q.val).session = some x ∧ x.work = w :: ws ∧ w.done = none ∧ x.steps = p :: ps ∧ p.complete = false ∧ p.void = false ∧ r.wellFormed = true ∧ groupsAll i.model p r.ops = true ∧ p.cancelled = false ∧ p.gen = false ∧ w.flags % 2 = 1 ∧ x.nextTok = none ∧ p.count ≤ (w.input.drop (w.inputCommitted + x.newInput)).length) ∧
    (∃ (s : State) (q : Qid) (r : StepRun) (x : Session) (i : PlanImage) (w : Work) (ws : List Work) (p : Step) (ps : List Step), s.ready = true ∧ s.tide.work = true ∧ s.activePlan.bind (·.img) = some i ∧ (s.qp q.val).session = some x ∧ x.work = w :: ws ∧ w.done = none ∧ x.steps = p :: ps ∧ p.complete = false ∧ p.void = false ∧ r.wellFormed = true ∧ groupsAll i.model p r.ops = true ∧ p.cancelled = false ∧ p.gen = true ∧ p.prime = false ∧ p.draft = 0 ∧ p.count = 1 ∧ w.flags % 2 = 1) ∧
    (∃ (s : State) (q : Qid) (r : StepRun) (x : Session) (i : PlanImage) (w : Work) (ws : List Work) (p : Step) (ps : List Step), s.ready = true ∧ s.tide.work = true ∧ s.activePlan.bind (·.img) = some i ∧ (s.qp q.val).session = some x ∧ x.work = w :: ws ∧ w.done = none ∧ x.steps = p :: ps ∧ p.complete = false ∧ p.void = false ∧ r.wellFormed = true ∧ groupsAll i.model p r.ops = true ∧ p.cancelled = true) ∧
    (∃ (s : State) (q : Qid) (r : StepRun) (x : Session) (i : PlanImage) (w : Work) (ws : List Work) (p : Step) (ps : List Step), s.ready = true ∧ s.tide.work = true ∧ s.activePlan.bind (·.img) = some i ∧ (s.qp q.val).session = some x ∧ x.work = w :: ws ∧ w.done = none ∧ x.steps = p :: ps ∧ p.complete = false ∧ p.void = false ∧ r.wellFormed = true ∧ groupsAll i.model p r.ops = false) ∧
    (∃ (s : State) (q : Qid) (r : StepRun) (x : Session) (i : PlanImage) (w : Work) (ws : List Work) (p : Step) (ps : List Step), s.ready = true ∧ s.tide.work = true ∧ s.activePlan.bind (·.img) = some i ∧ (s.qp q.val).session = some x ∧ x.work = w :: ws ∧ w.done = none ∧ x.steps = p :: ps ∧ p.complete = false ∧ p.void = false ∧ r.wellFormed = false) :=
  ⟨⟨stepSt { ses0 with work := [work1], steps := [chunk] }, 5, { ops := kvOps 0 2 }, { ses0 with work := [work1], steps := [chunk] }, img1, work1, [], chunk, [], by decide +kernel⟩,
   ⟨logS (stepSt { ses0 with work := [work1], steps := [step0], nextToken := some 3 }), 5, run1, { ses0 with work := [work1], steps := [step0], nextToken := some 3 }, img1, work1, [], step0, [], by decide +kernel⟩,
   ⟨stepSt { ses0 with work := [work1], steps := [{ step0 with cancelled := true }] }, 5, run1, { ses0 with work := [work1], steps := [{ step0 with cancelled := true }] }, img1, work1, [], { step0 with cancelled := true }, [], by decide +kernel⟩,
   ⟨stepSt { ses0 with work := [work1], steps := [step0] }, 5, {}, { ses0 with work := [work1], steps := [step0] }, img1, work1, [], step0, [], by decide +kernel⟩,
   ⟨stepSt { ses0 with work := [work1], steps := [step0] }, 5, { ops := [(2, .sum 1 0 524285)] }, { ses0 with work := [work1], steps := [step0] }, img1, work1, [], step0, [], by decide +kernel⟩⟩

theorem test_witness_StepsStart :
    (∃ (s : State) (k : Stamp) (core : CoreId) (x : _), s.ready = true ∧ core.val < s.part.cores ∧ (s.enter k).workOpen = true ∧ s.hif.restarting = [] ∧ (∀ y < 4, ((s.core core.val).ctx y).state ≠ .running) ∧ x < 4 ∧ ((s.core core.val).ctx x).state = .ready ∧ x < (s.core core.val).ctxs.length ∧ (∀ y < 4, ((s.core core.val).ctx y).state = .ready → s.ctxRank core.val x ≤ s.ctxRank core.val y ∧ (s.ctxRank core.val y = s.ctxRank core.val x → (x + 7 - (s.core core.val).last % 4) % 4 ≤ (y + 7 - (s.core core.val).last % 4) % 4)) ∧ (s.core core.val).unfilled x = false ∧ s.needsVector core.val x = false) ∧
    (∃ (s : State) (k : Stamp) (core : CoreId), s.ready = true ∧ core.val < s.part.cores ∧ (s.enter k).workOpen = true ∧ s.hif.restarting = [] ∧ (∀ y < 4, ((s.core core.val).ctx y).state ≠ .running) ∧ (∀ y < 4, ((s.core core.val).ctx y).state ≠ .ready)) ∧
    (∃ (s : State) (k : Stamp) (core : CoreId) (x : _), s.ready = true ∧ core.val < s.part.cores ∧ (s.enter k).workOpen = true ∧ s.hif.restarting = [] ∧ (∀ y < 4, ((s.core core.val).ctx y).state ≠ .running) ∧ s.choose core.val = some x ∧ x < 3 ∧ (s.core core.val).unfilled x = false ∧ s.needsVector core.val x = false) :=
  ⟨⟨withCore rdyP 2 { ctxs := [{ state := .waiting }, { state := .ready }, { state := .ready }, {}], last := 0 }, 1000, 2, 1, by decide +kernel⟩,
   ⟨rdyP, 1000, 2, by decide +kernel⟩,
   ⟨withCore rdyP 2 { ctxs := [{ state := .waiting }, { state := .ready }, { state := .ready }, {}], last := 0 }, 1000, 2, 1, by decide +kernel⟩⟩

theorem test_witness_SyncOperations :
    (∃ (s : State) (core : CoreId) (ctx : CtxId) (r : SyncRef) (e : _), s.issuing core.val ctx.val = true ∧ s.hasWord r = true ∧ (s.word r).value ≠ e) ∧
    (∃ (s : State) (core : CoreId) (ctx : CtxId) (r : SyncRef) (a : _) (dst : _), s.issuing core.val ctx.val = true ∧ s.hasWord r = true ∧ s.opCheck dst = none ∧ s.addr = some a ∧ a ≠ dst ∧ s.usablePlanes a dst ≠ []) ∧
    (∃ (s : State) (core : CoreId) (ctx : CtxId) (r : SyncRef) (cond : _) (target : _), s.issuing core.val ctx.val = true ∧ s.hasWord r = true ∧ condHolds cond (s.word r).value target = true) ∧
    (∃ (s : State) (core : CoreId) (ctx : CtxId) (r : SyncRef) (cond : _) (target : _), s.issuing core.val ctx.val = true ∧ s.hasWord r = true ∧ condHolds cond (s.word r).value target = false) :=
  ⟨⟨runS, 2, 1, .core 2 7, 4, by decide +kernel⟩,
   ⟨fab4, 2, 1, .core 2 7, 2048, 4096, by decide +kernel⟩,
   ⟨runS, 2, 1, .core 2 7, .ge, 3, by decide +kernel⟩,
   ⟨runS, 2, 1, .core 2 7, .ge, 4, by decide +kernel⟩⟩

theorem test_witness_Fences :
    (∃ (s : State) (core : CoreId) (ctx : CtxId), s.issuing core.val ctx.val = true) ∧
    (∃ (s : State) (core : CoreId) (ctx : CtxId), core.val < s.part.cores ∧ ((s.core core.val).ctx ctx.val).reason = some .fence ∧ (((s.core core.val).ctx ctx.val).fence = 2 → s.opsOpen core ctx = false)) ∧
    (∃ (s : State) (core : CoreId) (ctx : CtxId), ((s.core core.val).ctx ctx.val).fence = 2 ∧ s.opsOpen core ctx = true) :=
  ⟨⟨runS, 2, 1, by decide +kernel⟩,
   ⟨withCore rdyP 2 { ctxs := [{}, { state := .waiting, reason := some .fence, since := 300, fence := 2, mid := true }, {}, {}] }, 2, 1, by decide +kernel⟩,
   ⟨{ withCore rdyP 2 { ctxs := [{}, { state := .waiting, reason := some .fence, since := 300, fence := 2, mid := true }, {}, {}] } with fab := { ops := [⟨0, .write, 2, 1, 5, 10, 1⟩] } }, 2, 1, by decide +kernel⟩⟩

theorem test_witness_Hoists :
    (∃ (s : State) (k : Stamp) (core : CoreId) (h : Fin 2) (ctx : CtxId) (step : Nat) (x : Transfer) (d : _), core.val < s.part.cores ∧ (s.enter k).beforeSeal = true ∧ h.val < (s.core core.val).hoists.length ∧ ((s.core core.val).hoist h.val).busy = none ∧ ((s.core core.val).hoist h.val).queue = [] ∧ x.cond = none ∧ d = ({ dest := x.dest, bytes := x.bytes, out := x.out, bed := x.bed, ctx := ctx, step := step } : Desc) ∧ step < ((s.core core.val).ctx ctx.val).step + ((s.schedOf core.val).map (·.window)).getD 1 ∧ (s.core core.val).stillRead d = false) ∧
    (∃ (s : State) (k : Stamp) (core : CoreId) (h : Fin 2) (x : Transfer) (r : _) (cond : _) (v : _), core.val < s.part.cores ∧ (s.enter k).beforeSeal = true ∧ h.val < (s.core core.val).hoists.length ∧ ((s.core core.val).hoist h.val).busy = none ∧ ((s.core core.val).hoist h.val).queue = [] ∧ x.cond = some (r, cond, v) ∧ condHolds cond (s.word r).value v = false) ∧
    (∃ (s : State) (k : Stamp) (core : CoreId) (h : Fin 2) (d : _) (ds : _), core.val < s.part.cores ∧ (s.enter k).beforeSeal = true ∧ h.val < (s.core core.val).hoists.length ∧ ((s.core core.val).hoist h.val).busy = none ∧ ((s.core core.val).hoist h.val).queue = d :: ds ∧ d.wait = none ∧ (d.demand.isSome = true ∨ d.step < ((s.core core.val).ctx d.ctx.val).step + ((s.schedOf core.val).map (·.window)).getD 1 ∧ (s.core core.val).stillRead d = false)) ∧
    (∃ (s : State) (k : Stamp), (s.enter k).beforeSeal = false) ∧
    (∃ (s : State) (core : CoreId) (h : Fin 2) (d : _) (data : List Byte), ((s.core core.val).hoist h.val).busy = some d ∧ d.demand = none ∧ d.bed = none ∧ d.out = false ∧ ((s.core core.val).hoist h.val).queue = [] ∧ data.length = d.bytes ∧ d.dest + d.bytes ≤ 524288 ∧ (s.core core.val).hoists.all (fun y => y.queue.isEmpty && (y.busy.isNone || y.busy == some d)) = true) ∧
    (∃ (s : State) (core : CoreId) (h : Fin 2) (d : _) (p : _), ((s.core core.val).hoist h.val).busy = some d ∧ d.demand = none ∧ d.bed = some p ∧ d.out = false) :=
  ⟨⟨runS, 1000, 2, 1, 1, 1, tr1, { dest := 256, bytes := 4, ctx := 1, step := 1 }, by decide +kernel⟩,
   ⟨runS, 1000, 2, 1, { tr1 with cond := some (.core 2 7, .ge, 9) }, .core 2 7, .ge, 9, by decide +kernel⟩,
   ⟨withCore rdyP 2 { core1 with hoists := [{}, { queue := [desc1] }] }, 1000, 2, 1, desc1, [], by decide +kernel⟩,
   ⟨{ rdyP with tide := { rdyP.tide with sealed := true } }, 1000, by decide +kernel⟩,
   ⟨withCore rdyP 2 { core1 with hoists := [{}, { busy := some desc1 }] }, 2, 1, desc1, [1,2,3,4], by decide +kernel⟩,
   ⟨withCore rdyP 2 { core1 with hoists := [{}, { busy := some { desc1 with bed := some 33 } }] }, 2, 1, { desc1 with bed := some 33 }, 33, by decide +kernel⟩⟩

theorem test_witness_PoolOfTheHost :
    (∃ (s : State) (fn : FnId) (off : Nat) (i : _), s.fnLive fn.val = true ∧ s.poolWord fn.val off = some i ∧ i < 65536) ∧
    (∃ (s : State) (k : Stamp) (fn : FnId) (off : Nat) (v : W64) (c : _), s.fnLive fn.val = true ∧ c ∈ [Instr.poolHostStore k fn off v, .poolHostAdd k fn off v] ∧ (fn.val = 0 ∧ 65536 ≤ off / 8 ∨ fn.val ≠ 0 ∧ (s.share fn.val).poolCount ≤ off / 8)) ∧
    (∃ (s : State) (fn : FnId) (w : W32) (g : Nat) (base : Nat) (count : Nat), s.fnLive fn.val = true ∧ Serves s ∧ w.getLsbD 18 = true ∧ s.fld .SYN_ALLOC_SEL 0 7 = g ∧ s.fld .SYN_ALLOC_BASE 0 16 = base ∧ w.toNat % 2 ^ 17 = count ∧ s.shareRefused g base count = false) ∧
    (∃ (s : State) (fn : FnId) (w : W32) (g : Nat) (base : Nat) (count : Nat), s.fnLive fn.val = true ∧ Serves s ∧ w.getLsbD 18 = true ∧ s.fld .SYN_ALLOC_SEL 0 7 = g ∧ s.fld .SYN_ALLOC_BASE 0 16 = base ∧ w.toNat % 2 ^ 17 = count ∧ s.shareRefused g base count = true) :=
  ⟨⟨rdy, 0, 24, 3, by decide +kernel⟩,
   ⟨rdy, 1000, 0, 524288, 5, Instr.poolHostStore 1000 0 524288 5, by decide +kernel⟩,
   ⟨rdy, 0, 0x60064, 0, 0, 100, by decide +kernel⟩,
   ⟨rdy.setF .SYN_ALLOC_SEL 0 7 4, 0, 0x40801, 4, 0, 2049, by decide +kernel⟩⟩

theorem test_witness_PlanSlots :
    (∃ (s : State) (w : W32) (i : Nat), Serves s ∧ w.toNat / 4 % 2 = i ∧ Only w 0 [1, 3, 5] ∧ s.plans.loading = none ∧ ((s.pslot i).state = .empty ∨ (s.pslot i).state = .failed) ∧ ((s.pslot (1 - i)).state = .empty ∨ (s.pslot (1 - i)).state = .failed ∨ (s.pslot (1 - i)).state = .active)) ∧
    (∃ (s : State) (w : W32) (i : Nat), Serves s ∧ w.toNat / 4 % 2 = i ∧ Only w 0 [1, 3, 5] ∧ (s.plans.loading.isSome = true ∨ ((s.pslot i).state ≠ .empty ∧ (s.pslot i).state ≠ .failed) ∨ ((s.pslot (1 - i)).state ≠ .empty ∧ (s.pslot (1 - i)).state ≠ .failed ∧ (s.pslot (1 - i)).state ≠ .active))) ∧
    (∃ (s : State) (w : W32) (i : Nat) (j : _) (a : _), Serves s ∧ w.toNat / 4 % 2 = i ∧ Only w 1 [0, 3, 5] ∧ s.plans.loading = some (j, a)) ∧
    (∃ (s : State) (w : W32) (i : Nat), Serves s ∧ w.toNat / 4 % 2 = i ∧ Only w 3 [0, 1, 5] ∧ (s.pslot i).state ≠ .active ∧ (s.pslot i).state ≠ .loading ∧ (s.pslot i).bound = none ∧ (s.pslot i).pans = []) ∧
    (∃ (s : State) (w : W32) (i : Nat) (j : _) (a : _), Serves s ∧ w.toNat / 4 % 2 = i ∧ Only w 3 [0, 1, 5] ∧ (s.pslot i).state = .loading ∧ s.plans.loading = some (j, a)) ∧
    (∃ (s : State) (w : W32) (i : Nat), Serves s ∧ w.toNat / 4 % 2 = i ∧ Only w 3 [0, 1, 5] ∧ (s.pslot i).state = .active) ∧
    (∃ (s : State) (w : W32) (i : Nat), Serves s ∧ w.toNat / 4 % 2 = i ∧ Only w 5 [0, 1, 3]) ∧
    (∃ (s : State) (p : PlanFile) (i : Nat) (place : _) (st : _), i < 2 ∧ s.plans.loading = some (i, false) ∧ p.dmaError = false ∧ planFault p (s.num .BPL_LOAD_LEN) = none ∧ (∀ w < 2, (s.wslot w).modelId ≠ (planOf p).modelId) ∧ s.placePlan (planOf p) = some (st, place)) ∧
    (∃ (s : State) (p : PlanFile) (i : Nat) (f : _), i < 2 ∧ s.plans.loading = some (i, false) ∧ p.dmaError = false ∧ (planFault p (s.num .BPL_LOAD_LEN) = some f ∨ (planFault p (s.num .BPL_LOAD_LEN) = none ∧ s.placePlan (planOf p) = none ∧ f = ⟨11, 0x69, sectionIndex p 3, s.placeFault (planOf p)⟩))) ∧
    (∃ (s : State) (p : PlanFile) (i : Nat) (a : _), i < 2 ∧ s.plans.loading = some (i, a) ∧ (a = true ∨ p.dmaError = true)) :=
  ⟨⟨rdy, 1, 0, by decide +kernel⟩,
   ⟨{ rdy with plans := { s0 := { state := .waitModel } } }, 5, 1, by decide +kernel⟩,
   ⟨{ rdy with plans := { loading := some (0, false), s0 := { state := .loading } } }, 2, 0, 0, false, by decide +kernel⟩,
   ⟨{ rdy with plans := { s0 := { state := .waitModel } } }, 8, 0, by decide +kernel⟩,
   ⟨{ rdy.setNum .BPL_STATUS 3 with plans := { loading := some (0, false), s0 := { state := .loading } } }, 8, 0, 0, false, by decide +kernel⟩,
   ⟨rdyP, 8, 0, by decide +kernel⟩,
   ⟨rdy, 0x20, 0, by decide +kernel⟩,
   ⟨{ rdy.setNum .BPL_LOAD_LEN 65536 with plans := { loading := some (0, false), s0 := { state := .loading } } }, plan0, 0, [], [], by and_intros <;> first | exact placePlan_wide _ _ (by decide +kernel) (by decide +kernel) | decide +kernel⟩,
   ⟨{ rdy with plans := { loading := some (0, false), s0 := { state := .loading } } }, plan0, 0, ⟨1, 0x60, 0xFFFF, 8⟩, by decide +kernel⟩,
   ⟨{ rdy with plans := { loading := some (0, true), s0 := { state := .loading } } }, plan0, 0, true, by decide +kernel⟩⟩

theorem test_witness_LinkBringUp :
    (∃ (s : State) (n : LinkId) (l : Link), s.link n.val = l ∧ n.val < s.part.links ∧ l.st = .down ∧ l.disabled = false ∧ s.powered = true ∧ s.fabOn = true ∧ s.linkIdle n.val = false) ∧
    (∃ (s : State) (k : Stamp) (n : LinkId) (l : Link), s.link n.val = l ∧ l.st = .detect ∧ l.present = true ∧ l.since + 10000000 ≤ max s.now k) ∧
    (∃ (s : State) (k : Stamp) (n : LinkId) (l : Link), s.link n.val = l ∧ l.st = .detect ∧ max s.now k < l.since + 10000000) ∧
    (∃ (s : State) (n : LinkId) (l : Link), s.link n.val = l ∧ (l.st = .train ∨ l.st = .retrain)) ∧
    (∃ (s : State) (n : LinkId) (l : Link), s.link n.val = l ∧ l.st = .train ∧ l.trainFails < 2) ∧
    (∃ (s : State) (k : Stamp) (n : LinkId) (l : Link), s.link n.val = l ∧ l.unacked = [] ∧ l.waiting = [] ∧ ((l.st = .train ∧ 2 ≤ l.trainFails) ∨ (l.st = .retrain ∧ 2 ≤ (l.retrains.filter (fun x => decide (max s.now k < x + 1000000000))).length))) ∧
    (∃ (s : State) (n : LinkId) (l : Link), s.link n.val = l ∧ l.st = .hello) ∧
    (∃ (s : State) (n : LinkId) (l : Link), s.link n.val = l ∧ n.val < s.part.links ∧ l.unacked = [] ∧ l.waiting = [] ∧ l.st ≠ .down) :=
  ⟨⟨fabR, 7, {}, by decide +kernel⟩,
   ⟨withLink fabR 7 (lk .detect), 20000000, 7, lk .detect, by decide +kernel⟩,
   ⟨withLink fabR 7 (lk .detect), 10000004, 7, lk .detect, by decide +kernel⟩,
   ⟨withLink fabR 7 (lk .train), 7, lk .train, by decide +kernel⟩,
   ⟨withLink fabR 7 { lk .train with trainFails := 1 }, 7, { lk .train with trainFails := 1 }, by decide +kernel⟩,
   ⟨withLink fabR 7 { lk .train with trainFails := 2 }, 20000000, 7, { lk .train with trainFails := 2 }, by decide +kernel⟩,
   ⟨withLink fabR 7 (lk .hello), 7, lk .hello, by decide +kernel⟩,
   ⟨withLink fabR 7 (lk .up), 7, lk .up, by decide +kernel⟩⟩

theorem test_witness_Hellos :
    (∃ (s : State) (n : LinkId) (l : Link) (h : Hello), s.link n.val = l ∧ l.st = .hello ∧ h.peerNonce = 0) ∧
    (∃ (s : State) (n : LinkId) (l : Link) (h : Hello), s.link n.val = l ∧ l.st = .hello ∧ h.peerNonce ≠ 0 ∧ l.first = true ∧ (∀ p, l.peer = some p → p.keyId = h.keyId) ∧ s.helloFail n.val h = none) ∧
    (∃ (s : State) (n : LinkId) (l : Link) (h : Hello) (c : _), s.link n.val = l ∧ l.st = .hello ∧ h.peerNonce ≠ 0 ∧ l.first = true ∧ (∀ p, l.peer = some p → p.keyId = h.keyId) ∧ l.unacked = [] ∧ l.waiting = [] ∧ s.helloFail n.val h = some c) ∧
    (∃ (s : State) (n : LinkId) (l : Link) (h : Hello), s.link n.val = l ∧ l.st = .hello ∧ h.peerNonce ≠ 0 ∧ l.first = true ∧ (∀ p, l.peer = some p → p.keyId = h.keyId) ∧ (h.signed = false ∨ h.peerNonce ≠ l.nonce ∨ s.bit .SEC_STATUS 0 = false)) :=
  ⟨⟨withLink fabR 7 (lk .hello), 7, lk .hello, { hello1 with peerNonce := 0 }, by decide +kernel⟩,
   ⟨withLink (fabR.setF .SEC_STATUS 0 1 1) 7 lkH, 7, lkH, hello1, by decide +kernel⟩,
   ⟨withLink (fabR.setF .SEC_STATUS 0 1 1) 7 lkH, 7, lkH, { hello0 with keyId := 0 }, 0x36, by decide +kernel⟩,
   ⟨withLink (fabR.setF .SEC_STATUS 0 1 1) 7 lkH, 7, lkH, { hello1 with peerNonce := 7 }, by decide +kernel⟩⟩

theorem test_witness_LinkDelivery :
    (∃ (s : State) (n : LinkId) (l : Link), s.link n.val = l ∧ (l.st = .up ∨ l.st = .admitSt) ∧ l.waiting = [] ∧ (∀ e ∈ l.unacked, e.2 < 15)) ∧
    (∃ (s : State) (n : LinkId) (l : Link) (w : _), s.link n.val = l ∧ Only w 0 [1, 2] ∧ Serves s ∧ s.part ≠ .jn8s ∧ s.selLink = n.val ∧ n.val < s.part.links ∧ l.disabled = false ∧ l.st = .up ∧ l.unacked = [] ∧ l.waiting = []) ∧
    (∃ (s : State) (n : LinkId) (l : Link) (w : _), s.link n.val = l ∧ Only w 1 [0, 2] ∧ Serves s ∧ s.part ≠ .jn8s ∧ s.selLink = n.val ∧ n.val < s.part.links ∧ l.st = .held ∧ l.unacked = [] ∧ l.waiting = []) ∧
    (∃ (s : State) (n : LinkId) (l : Link), s.link n.val = l ∧ (l.st = .up ∨ l.st = .admitSt) ∧ l.waiting = [] ∧ l.unacked = [] ∧ l.spent = []) ∧
    (∃ (s : State) (n : LinkId) (l : Link) (h : _) (type : _), s.link n.val = l ∧ Comes s n.val h ∧ 14 ≤ type) :=
  ⟨⟨withLink fabR 7 lkU, 7, lkU, by decide +kernel⟩,
   ⟨withLink (fabR.setNum .FAB_LINK_SEL 7) 7 (lk .up), 7, lk .up, 1, by decide +kernel⟩,
   ⟨withLink (fabR.setNum .FAB_LINK_SEL 7) 7 { lk .held with code := 3 }, 7, { lk .held with code := 3 }, 2, by decide +kernel⟩,
   ⟨withLink fabR 7 (lk .up), 7, lk .up, by decide +kernel⟩,
   ⟨withLink fabR 7 lkU, 7, lkU, hdr, 14, by decide +kernel⟩⟩

theorem test_witness_LinkStateAndTransit :
    (∃ (s : State) (n : LinkId) (l : Link) (h : _) (u' : Lsu), s.link n.val = l ∧ Comes s n.val h ∧ (∀ m, s.memberAt u'.addr = some m → m.counter < u'.counter) ∧ s.isRoot = false) ∧
    (∃ (s : State) (n : LinkId) (l : Link) (h : _) (u' : Lsu) (m : _), s.link n.val = l ∧ Comes s n.val h ∧ s.memberAt u'.addr = some m ∧ u'.counter ≤ m.counter) ∧
    (∃ (s : State) (k : Stamp) (n : LinkId) (l : Link) (h : PktHdr) (num : _) (w : _) (op : _) (b : _) (o : _) (x : _) (vs : _) (st : _) (v : _) (ty : _) (args : _) (f : _) (c : _), s.link n.val = l ∧ l.st = .up ∧ c ∈ [Instr.syncReqReceived k n h num w op, .syncRespReceived k n h num st v, .writeReceived k n h num b o x, .reduceAddReceived k n h num b o vs, .ackReceived k n h num st, .transitPacket k n h ty num args f] ∧ h.seq = l.rxSeq ∧ (h.ver < 1 ∨ 2 < h.ver)) ∧
    (∃ (s : State) (k : Stamp) (n : LinkId) (l : Link) (h : PktHdr) (num : _) (w : _) (op : _) (b : _) (o : _) (x : _) (vs : _) (st : _) (v : _) (ty : _) (args : _) (f : _) (c : _), s.link n.val = l ∧ l.st = .up ∧ c ∈ [Instr.syncReqReceived k n h num w op, .syncRespReceived k n h num st v, .writeReceived k n h num b o x, .reduceAddReceived k n h num b o vs, .ackReceived k n h num st, .transitPacket k n h ty num args f] ∧ h.seq ≠ l.rxSeq) ∧
    (∃ (s : State) (n : LinkId) (l : Link) (h : PktHdr) (a : _) (d : _), s.link n.val = l ∧ Comes s n.val h ∧ l.waiting = [] ∧ l.toAck < 63 ∧ s.addr = some a ∧ a ≠ h.dst ∧ hopDir s.dims a h.dst = some d ∧ n.val / 6 * 6 + d ≠ n.val ∧ (s.link (n.val / 6 * 6 + d)).waiting = [] ∧ (s.link (n.val / 6 * 6 + d)).unacked = [] ∧ (s.link (n.val / 6 * 6 + d)).spent = [] ∧ h.len ≤ 512) :=
  ⟨⟨fab3, 1, lkU, hdr, ⟨4096, 4, [1], 1, 2⟩, by decide +kernel⟩,
   ⟨fab3, 1, lkU, hdr, ⟨4096, 3, [1], 1, 2⟩, mem 2, by decide +kernel⟩,
   ⟨fab3, 1000, 1, lkU, { hdr with ver := 3 }, 1, 3, .load, 1, 2, [3], [4], 0, 5, 7, [6], none, Instr.syncReqReceived 1000 1 ({ hdr with ver := 3 }) 1 3 .load, by decide +kernel⟩,
   ⟨fab3, 1000, 1, lkU, { hdr with seq := 4 }, 1, 3, .load, 1, 2, [3], [4], 0, 5, 7, [6], none, Instr.syncReqReceived 1000 1 ({ hdr with seq := 4 }) 1 3 .load, by decide +kernel⟩,
   ⟨fab3, 1, lkU, { hdr with dst := 4096 }, 2048, 0, by decide +kernel⟩⟩

theorem test_witness_FabricOperations :
    (∃ (s : State) (k : Stamp) (core : CoreId) (ctx : CtxId) (dst : BitVec 17) (buf : Nat) (off : Nat) (bytes : List Byte) (vals : List W64) (code : _) (c : _), s.issuing core.val ctx.val = true ∧ ((code = 0x0E ∧ s.part.linkDies = 0) ∨ (code = 0x32 ∧ s.part.linkDies ≠ 0 ∧ (addrValid s.dims dst = false ∨ s.memberSits dst = false))) ∧ c ∈ [Instr.fabricWrite k core ctx dst buf off bytes, .fabricReduceAdd k core ctx dst buf off vals] ∧ s.ctxStep core ctx = none) ∧
    (∃ (s : State) (k : Stamp) (core : CoreId) (ctx : CtxId) (dst : BitVec 17) (buf : Nat) (off : Nat) (bytes : List Byte) (vals : List W64) (code : _) (c : _) (q : _) (p : _) (x : _) (w : _) (ws : _), s.issuing core.val ctx.val = true ∧ ((code = 0x0E ∧ s.part.linkDies = 0) ∨ (code = 0x32 ∧ s.part.linkDies ≠ 0 ∧ (addrValid s.dims dst = false ∨ s.memberSits dst = false))) ∧ c ∈ [Instr.fabricWrite k core ctx dst buf off bytes, .fabricReduceAdd k core ctx dst buf off vals] ∧ s.ctxStep core ctx = some (q, p) ∧ (s.qp q).session = some x ∧ x.work = w :: ws ∧ w.done = none) ∧
    (∃ (s : State) (core : CoreId) (ctx : CtxId) (dst : BitVec 17) (buf : Nat), s.issuing core.val ctx.val = true ∧ s.part.linkDies ≠ 0 ∧ addrValid s.dims dst = true ∧ s.memberSits dst = true ∧ s.addr = some dst ∧ (∀ r ∈ s.fab.red, r.buf = buf → r.complete = true)) ∧
    (∃ (s : State) (core : CoreId) (ctx : CtxId) (dst : BitVec 17) (buf : Nat) (r : _), s.issuing core.val ctx.val = true ∧ s.part.linkDies ≠ 0 ∧ addrValid s.dims dst = true ∧ s.memberSits dst = true ∧ s.addr = some dst ∧ s.fab.red.filter (fun r => r.buf == buf) = [r] ∧ r.complete = false ∧ r.tag = s.activeGen) ∧
    (∃ (s : State) (core : CoreId) (ctx : CtxId) (dst : BitVec 17) (a : _), s.issuing core.val ctx.val = true ∧ s.part.linkDies ≠ 0 ∧ addrValid s.dims dst = true ∧ s.memberSits dst = true ∧ s.addr = some a ∧ a ≠ dst ∧ s.usablePlanes a dst ≠ []) ∧
    (∃ (s : State) (k : Stamp) (core : CoreId) (ctx : CtxId) (dst : BitVec 17) (buf : Nat) (off : Nat) (bytes : List Byte) (vals : List W64) (a : _) (c : _), s.issuing core.val ctx.val = true ∧ s.part.linkDies ≠ 0 ∧ addrValid s.dims dst = true ∧ s.memberSits dst = true ∧ s.addr = some a ∧ a ≠ dst ∧ s.usablePlanes a dst = [] ∧ s.detour a dst = none ∧ s.ctxStep core ctx = none ∧ c ∈ [Instr.fabricWrite k core ctx dst buf off bytes, .fabricReduceAdd k core ctx dst buf off vals]) :=
  ⟨⟨{ runS with part := .jn8s }, 1000, 2, 1, 4096, 3, 16, [7, 8, 9], [5, 6], 0x0E, Instr.fabricWrite 1000 2 1 4096 3 16 ([7, 8, 9]), by decide +kernel⟩,
   ⟨{ fab5 with part := .jn8s }, 1000, 2, 1, 4096, 3, 16, [7, 8, 9], [5, 6], 0x0E, Instr.fabricWrite 1000 2 1 4096 3 16 ([7, 8, 9]), 5, 5, { ses0 with work := [work1], steps := [step0] }, work1, [], by decide +kernel⟩,
   ⟨fab4, 2, 1, 2048, 3, by decide +kernel⟩,
   ⟨{ fab4 with fab := { fab4.fab with red := [{ buf := 3, tag := 0, received := 2 }] }, mem := Cells.write (fun _ => 0) [] (2 ^ 48 + 3 * 2 ^ 32 + 10) [1, 2, 3, 4, 5, 6, 7, 8, 9] }, 2, 1, 2048, 3, { buf := 3, tag := 0, received := 2 }, by decide +kernel⟩,
   ⟨fab4, 2, 1, 4096, 2048, by decide +kernel⟩,
   ⟨{ fab4 with fab := { fab4.fab with db := [mem 2] } }, 1000, 2, 1, 4096, 3, 16, [7, 8, 9], [5, 6], 2048, Instr.fabricWrite 1000 2 1 4096 3 16 ([7, 8, 9]), by decide +kernel⟩⟩

theorem test_witness_FabricAnswers :
    (∃ (s : State) (n : LinkId) (h : PktHdr) (o : FabOp), s.fab.ops.find? (fun x => x.num == o.num) = some o ∧ Comes s n.val h ∧ (o.kind = .load ∨ o.kind = .modify) ∧ o.ctx.val < (s.core o.core.val).ctxs.length) ∧
    (∃ (s : State) (n : LinkId) (h : PktHdr) (o : FabOp), s.fab.ops.find? (fun x => x.num == o.num) = some o ∧ Comes s n.val h ∧ o.kind ≠ .load ∧ o.kind ≠ .modify) ∧
    (∃ (s : State) (k : Stamp) (n : LinkId) (h : PktHdr) (o : FabOp) (st : Byte) (v : _) (c : _), s.fab.ops.find? (fun x => x.num == o.num) = some o ∧ Comes s n.val h ∧ st ≠ 0 ∧ st ≠ 0x30 ∧ s.ctxStep o.core o.ctx = none ∧ c ∈ [Instr.ackReceived k n h o.num st, .syncRespReceived k n h o.num st v]) ∧
    (∃ (s : State) (k : Stamp) (o : FabOp), s.fab.ops.find? (fun x => x.num == o.num) = some o ∧ o.sent + s.num .FAB_OP_TIMEOUT * 1000 ≤ max s.now k ∧ s.ctxStep o.core o.ctx = none) ∧
    (∃ (s : State) (k : Stamp) (o : FabOp), s.fab.ops.find? (fun x => x.num == o.num) = some o ∧ max s.now k < o.sent + s.num .FAB_OP_TIMEOUT * 1000) :=
  ⟨⟨{ withCore fab3 2 core1 with fab := { fab3.fab with ops := [{ op1 with kind := .load }, { op1 with num := 5 }] } }, 1, hdr, { op1 with kind := .load }, by decide +kernel⟩,
   ⟨{ withCore fab3 2 core1 with fab := { fab3.fab with ops := [op1, { op1 with num := 5 }] } }, 1, hdr, op1, by decide +kernel⟩,
   ⟨{ withCore fab3 2 core1 with fab := { fab3.fab with ops := [op1, { op1 with num := 5 }] } }, 1000, 1, hdr, op1, 0x31, 7, Instr.ackReceived 1000 1 hdr op1.num 0x31, by decide +kernel⟩,
   ⟨{ withCore fab3 2 core1 with fab := { fab3.fab with ops := [op1, { op1 with num := 5 }] } }, 20000000000, op1, by decide +kernel⟩,
   ⟨{ withCore fab3 2 core1 with fab := { fab3.fab with ops := [op1, { op1 with num := 5 }] } }, 11, op1, by decide +kernel⟩⟩

theorem test_witness_FabricArrivals :
    (∃ (s : State) (n : LinkId) (h : PktHdr) (buf : Nat) (r : _), Comes s n.val h ∧ s.addr ≠ some h.src ∧ s.fab.red.filter (fun r => r.buf == buf) = [r] ∧ r.complete = false ∧ r.tag = h.gen) ∧
    (∃ (s : State) (n : LinkId) (h : PktHdr) (buf : Nat) (r : _), Comes s n.val h ∧ s.addr ≠ some h.src ∧ s.fab.red.filter (fun r => r.buf == buf) = [r] ∧ r.complete = false ∧ r.tag ≠ h.gen) ∧
    (∃ (s : State) (n : LinkId) (h : PktHdr) (w : Fin 65536) (g : Nat), Comes s n.val h ∧ s.addr ≠ some h.src ∧ g < 65 ∧ (s.share g).fabric = true ∧ (s.share g).poolBase ≤ w.val ∧ w.val < (s.share g).poolBase + (s.share g).poolCount) ∧
    (∃ (s : State) (n : LinkId) (h : PktHdr), Comes s n.val h ∧ s.addr ≠ some h.src ∧ (∀ g < 65, (s.share g).fabric = false)) ∧
    (∃ (s : State) (k : Stamp) (n : LinkId) (h : PktHdr) (num : Nat) (buf : Nat) (off : Nat) (bytes : _) (vals : _) (w : _) (op : _) (c : _), (s.link n.val).st = .up ∧ h.seq = (s.link n.val).rxSeq ∧ 1 ≤ h.ver ∧ h.ver ≤ 2 ∧ s.pwrState = 2 ∧ c ∈ [Instr.writeReceived k n h num buf off bytes, .reduceAddReceived k n h num buf off vals, .syncReqReceived k n h num w op]) :=
  ⟨⟨withLink { fabR with fab := { red := [{ buf := 3, tag := 0 }] } } 7 lkU, 7, hdr, 3, { buf := 3, tag := 0 }, by decide +kernel⟩,
   ⟨withLink { fabR with fab := { red := [{ buf := 3, tag := 4 }] } } 7 lkU, 7, hdr, 3, { buf := 3, tag := 4 }, by decide +kernel⟩,
   ⟨withLink (fabR.setShare 4 { qpFirst := 0, qpCount := 0, poolBase := 64, poolCount := 8, fabric := true }) 7 lkU, 7, hdr, 70, 4, by decide +kernel⟩,
   ⟨withLink fabR 7 lkU, 7, hdr, by decide +kernel⟩,
   ⟨withLink (fabR.setF .PWR_STATUS 0 3 2) 7 lkU, 1000, 7, hdr, 1, 3, 16, [7, 8, 9], [5, 6], 70, .load, Instr.writeReceived 1000 7 hdr 1 3 16 ([7, 8, 9]), by decide +kernel⟩⟩

theorem test_witness_MapLoads :
    (∃ (s : State) (w : W32) (map : List Byte) (d : List Nat) (keys : List (BitVec 17 × BitVec 128)) (e : _), Serves s ∧ s.part ≠ .jn8s ∧ w.getLsbD 0 = true ∧ w.getLsbD 1 = true ∧ w.getLsbD 2 = true ∧ w.getLsbD 3 = false ∧ d = dimsOf (field map 8 4 % 2 ^ 17) ∧ keys = mapKeys map d ∧ field map 0 4 = 0x4D464E4A ∧ s.num .FAB_MAP_LEN = 64 + 16 * d.getD 0 1 * d.getD 1 1 * d.getD 2 1 ∧ keys.filter (fun e => e.2 == s.keyId && e.2 != 0) = [e]) ∧
    (∃ (s : State) (w : W32) (map : List Byte) (d : List Nat) (keys : List (BitVec 17 × BitVec 128)), Serves s ∧ s.part ≠ .jn8s ∧ w.getLsbD 0 = true ∧ w.getLsbD 1 = true ∧ w.getLsbD 2 = true ∧ w.getLsbD 3 = false ∧ d = dimsOf (field map 8 4 % 2 ^ 17) ∧ keys = mapKeys map d ∧ field map 0 4 = 0x4D464E4A ∧ s.num .FAB_MAP_LEN = 64 + 16 * d.getD 0 1 * d.getD 1 1 * d.getD 2 1 ∧ keys.filter (fun e => e.2 == s.keyId && e.2 != 0) = []) ∧
    (∃ (s : State) (w : W32) (map : List Byte) (d : List Nat) (keys : List (BitVec 17 × BitVec 128)), Serves s ∧ s.part ≠ .jn8s ∧ w.getLsbD 0 = true ∧ w.getLsbD 1 = true ∧ w.getLsbD 2 = true ∧ w.getLsbD 3 = false ∧ d = dimsOf (field map 8 4 % 2 ^ 17) ∧ keys = mapKeys map d ∧ (field map 0 4 ≠ 0x4D464E4A ∨ s.num .FAB_MAP_LEN ≠ 64 + 16 * d.getD 0 1 * d.getD 1 1 * d.getD 2 1)) :=
  ⟨⟨(rdy.setNum .FAB_MAP_LEN 128).setNum .SEC_KEY_ID 9, 7, map1 0x4D464E4A 9, [4, 1, 1], [(0, 3), (2048, 9), (4096, 0), (6144, 0)], (2048, 9), by decide +kernel⟩,
   ⟨(rdy.setNum .FAB_MAP_LEN 128).setNum .SEC_KEY_ID 9, 7, map1 0x4D464E4A 8, [4, 1, 1], [(0, 3), (2048, 8), (4096, 0), (6144, 0)], by decide +kernel⟩,
   ⟨(rdy.setNum .FAB_MAP_LEN 128).setNum .SEC_KEY_ID 9, 7, map1 0x4D464E4B 9, [4, 1, 1], [(0, 3), (2048, 9), (4096, 0), (6144, 0)], by decide +kernel⟩⟩

theorem test_witness_RegisterAccess :
    (∃ (s : State) (fn : FnId), s.fnLive fn.val = false) ∧
    (∃ (s : State) (fn : FnId) (bar : Fin 6) (off : Nat) (size : Nat), s.fnLive fn.val = true ∧ (bar = 0 ∨ bar = 2) ∧ (size ≠ 4 ∧ size ≠ 8 ∨ off % size ≠ 0)) ∧
    (∃ (s : State) (fn : FnId) (bar : Fin 6) (off : Nat) (size : Nat) (r : Reg) (un : Nat) (i : Nat), s.fnLive fn.val = true ∧ (bar = 0 ∨ bar = 2) ∧ (size = 4 ∨ size = 8) ∧ off % size = 0 ∧ s.hif.restarting = [] ∧ s.place fn.val bar.val off = .reg r un i 0 false ∧ r.info.size = size ∧ size = 4) ∧
    (∃ (s : State) (fn : FnId) (bar : Fin 6) (off : Nat) (size : Nat) (v : W64) (r : Reg) (un : Nat) (i : Nat), s.fnLive fn.val = true ∧ (bar = 0 ∨ bar = 2) ∧ (size = 4 ∨ size = 8) ∧ off % size = 0 ∧ s.hif.restarting = [] ∧ s.place fn.val bar.val off = .reg r un i 0 false ∧ r.info.size = size ∧ r.info.access = .rw ∧ s.writeOwn fn.val r un i (v.toNat % 2 ^ (8 * size)) = none ∧ s.writeOther r i (v.toNat % 2 ^ (8 * size)) = none) ∧
    (∃ (s : State) (fn : FnId) (bar : Fin 6) (off : Nat) (size : Nat) (r : Reg) (un : Nat) (i : Nat), s.fnLive fn.val = true ∧ (bar = 0 ∨ bar = 2) ∧ (size = 4 ∨ size = 8) ∧ off % size = 0 ∧ s.hif.restarting = [] ∧ s.place fn.val bar.val off = .reg r un i 0 false ∧ r.info.size = size ∧ r.info.access = .w1c) ∧
    (∃ (s : State) (fn : FnId) (bar : Fin 6) (off : Nat) (size : Nat) (r : Reg) (un : Nat) (i : Nat), s.fnLive fn.val = true ∧ (bar = 0 ∨ bar = 2) ∧ (size = 4 ∨ size = 8) ∧ off % size = 0 ∧ s.hif.restarting = [] ∧ s.place fn.val bar.val off = .reg r un i 0 false ∧ r.info.size = size ∧ r.info.access = .ro) ∧
    (∃ (s : State) (fn : FnId) (bar : Fin 6) (off : Nat) (size : Nat) (p : _), s.fnLive fn.val = true ∧ (bar = 0 ∨ bar = 2) ∧ (size = 4 ∨ size = 8) ∧ off % size = 0 ∧ bar = 2 ∧ s.emulator fn.val off = p ∧ s.hif.restarting.contains (procOf p) = true ∧ (s.hif.held.filter (fun w => w.proc == p)).length < 256) ∧
    (∃ (s : State) (fn : FnId) (bar : Fin 6) (off : Nat) (size : Nat) (p : _), s.fnLive fn.val = true ∧ (bar = 0 ∨ bar = 2) ∧ (size = 4 ∨ size = 8) ∧ off % size = 0 ∧ bar = 2 ∧ s.emulator fn.val off = p ∧ s.hif.restarting.contains (procOf p) = true ∧ 256 ≤ (s.hif.held.filter (fun w => w.proc == p)).length) ∧
    (∃ (s : State) (fn : FnId) (bar : Fin 6) (off : Nat) (size : Nat), s.powered = true ∧ fn = 0 ∧ bar = 4 ∧ (size = 4 ∨ size = 8) ∧ off + size ≤ 0x10000000) :=
  ⟨⟨aon .asleep, 0, by decide +kernel⟩,
   ⟨rdy, 0, 0, 0x22, 4, by decide +kernel⟩,
   ⟨rdy, 0, 0, 0, 4, .HIF_ID, 0, 0, by decide +kernel⟩,
   ⟨rdy, 0, 0, 0x20, 4, 0xFFFF0007, .HIF_COAL, 0, 0, by decide +kernel⟩,
   ⟨rdy.setNum .HIF_INT_STATUS 7, 0, 0, 0x18, 4, .HIF_INT_STATUS, 0, 0, by decide +kernel⟩,
   ⟨rdy, 0, 0, 0, 4, .HIF_ID, 0, 0, by decide +kernel⟩,
   ⟨{ rdy with hif := { restarting := [.scheduler] } }, 0, 2, 0x10010, 8, .sch, by decide +kernel⟩,
   ⟨{ rdy with hif := { restarting := [.scheduler], held := List.replicate 256 ⟨0, 2, 0, 4, 0, .sch⟩ } }, 0, 2, 0x10010, 8, .sch, by decide +kernel⟩,
   ⟨rdy, 0, 4, 0xFFFFFF8, 8, by decide +kernel⟩⟩

theorem test_witness_HostEvents :
    (∃ (s : State) (w : W32) (f : _), Serves s ∧ w.getLsbD 0 = true ∧ s.fld .HIF_FN_SEL 0 7 = f ∧ s.fnRefused f (s.stagedShare f) = false) ∧
    (∃ (s : State) (w : W32) (f : _), Serves s ∧ w.getLsbD 0 = true ∧ s.fld .HIF_FN_SEL 0 7 = f ∧ s.fnRefused f (s.stagedShare f) = true) ∧
    (∃ (s : State) (fn : FnId) (i : _) (a : _), s.fnLive fn.val = true ∧ s.plans.loading = some (i, a)) ∧
    (∃ (s : State) (fn : FnId) (q : Qid) (c : SrvCmd) (x : _) (w : _), s.fnLive fn.val = true ∧ (s.qp q.val).session = some x ∧ x.work = [w] ∧ w.cid = c.cid ∧ w.opcode = c.opcode.toNat ∧ w.done = none) ∧
    (∃ (s : State) (fn : FnId), s.fnLive fn.val = true ∧ s.starting = true ∧ s.bootStep = 6 ∧ s.bit .FWP_STATUS 5 = false) ∧
    (∃ (s : State) (id : _), s.powered = true ∧ s.sec.ide = some id) ∧
    (∃ (s : State), s.sec.ide = none) :=
  ⟨⟨{ rdy.setNum .HIF_FN_SEL 4 with stages := [⟨4, { qpFirst := 111616, qpCount := 16, sessMax := 4, sessRes := 1 }⟩] }, 1, 4, by decide +kernel⟩,
   ⟨{ rdy.setNum .HIF_FN_SEL 4 with stages := [⟨4, { qpFirst := 1, qpCount := 16, sessMax := 4, sessRes := 1 }⟩] }, 1, 4, by decide +kernel⟩,
   ⟨{ rdy with plans := { loading := some (0, false), s0 := { state := .loading } } }, 0, 0, false, by decide +kernel⟩,
   ⟨withQp rdy 5 { qp0 with session := some { ses0 with work := [{ work1 with cid := 33 }] } }, 0, 5, cmd 3, { ses0 with work := [{ work1 with cid := 33 }] }, { work1 with cid := 33 }, by decide +kernel⟩,
   ⟨boot 6, 0, by decide +kernel⟩,
   ⟨{ rdy with sec := { ide := some 3 } }, 3, by decide +kernel⟩,
   ⟨rdy, by decide +kernel⟩⟩

theorem test_witness_Attestation :
    (∃ (s : State) (k : Stamp) (fn : FnId) (sess : _) (slot : _) (off : _) (len : _) (nonce : _) (idx : _) (ok : _) (c : _), s.fnLive fn.val = true ∧ s.restarting .security = false ∧ s.bit .SEC_STATUS 0 = false ∧ c ∈ [Instr.getVersion k fn, .getCapabilities k fn, .negotiateAlgorithms k fn, .getDigests k fn, .getCertificate k fn slot off len, .challenge k fn nonce, .getMeasurements k fn idx, .keyExchange k fn, .finish k fn sess ok, .heartbeat k fn sess, .keyUpdate k fn sess, .endSession k fn sess, .ideKm k fn sess]) ∧
    (∃ (s : State) (fn : FnId), s.fnLive fn.val = true ∧ s.restarting .security = false ∧ s.bit .SEC_STATUS 0 = true ∧ 1 ≤ s.spdmStage fn.val) ∧
    (∃ (s : State) (fn : FnId), s.fnLive fn.val = true ∧ s.restarting .security = false ∧ s.bit .SEC_STATUS 0 = true ∧ 2 ≤ s.spdmStage fn.val) ∧
    (∃ (s : State) (fn : FnId) (off : _), s.fnLive fn.val = true ∧ s.restarting .security = false ∧ s.bit .SEC_STATUS 0 = true ∧ 3 ≤ s.spdmStage fn.val ∧ off < s.num .SEC_CERT_LEN) ∧
    (∃ (s : State) (fn : FnId) (i : _), s.fnLive fn.val = true ∧ s.restarting .security = false ∧ s.bit .SEC_STATUS 0 = true ∧ 3 ≤ s.spdmStage fn.val ∧ 1 ≤ i ∧ i ≤ 12) ∧
    (∃ (s : State) (fn : FnId), s.fnLive fn.val = true ∧ s.restarting .security = false ∧ s.bit .SEC_STATUS 0 = true ∧ 3 ≤ s.spdmStage fn.val ∧ s.sec.sessions.length < 8) ∧
    (∃ (s : State) (fn : FnId), s.fnLive fn.val = true ∧ s.restarting .security = false ∧ s.bit .SEC_STATUS 0 = true ∧ 3 ≤ s.spdmStage fn.val ∧ 8 ≤ s.sec.sessions.length) ∧
    (∃ (s : State) (fn : FnId) (id : _) (x : _), s.fnLive fn.val = true ∧ s.restarting .security = false ∧ s.bit .SEC_STATUS 0 = true ∧ 3 ≤ s.spdmStage fn.val ∧ s.sec.sessions.find? (fun x => x.id == id && x.fn == fn.val) = some x ∧ x.ready = false) ∧
    (∃ (s : State) (fn : FnId) (id : _) (x : _), s.fnLive fn.val = true ∧ s.restarting .security = false ∧ s.bit .SEC_STATUS 0 = true ∧ 3 ≤ s.spdmStage fn.val ∧ s.sec.sessions.find? (fun x => x.id == id && x.fn == fn.val) = some x ∧ x.ready = true ∧ fn = 0) :=
  ⟨⟨rdy, 1000, 0, 2, 0, 3, 10, 7, 1, true, Instr.getVersion 1000 0, by decide +kernel⟩,
   ⟨sp 1, 0, by decide +kernel⟩,
   ⟨sp 2, 0, by decide +kernel⟩,
   ⟨(sp 3).setNum .SEC_CERT_LEN 100, 0, 3, by decide +kernel⟩,
   ⟨sp 3, 0, 12, by decide +kernel⟩,
   ⟨sp 3, 0, by decide +kernel⟩,
   ⟨{ sp 3 with sec := { stage := [(0, 3)], sessions := List.replicate 8 { id := 2, fn := 0 } } }, 0, by decide +kernel⟩,
   ⟨sp 3, 0, 2, { id := 2, fn := 0 }, by decide +kernel⟩,
   ⟨sp 3, 0, 3, { id := 3, fn := 0, ready := true }, by decide +kernel⟩⟩

theorem test_witness_ManagementPort :
    (∃ (s : State) (k : Stamp) (args : List Byte) (c : _), s.aon.phase ≠ .vaonOff ∧ c ∈ [Instr.horId k false args, .horState k false args, .horTemp k false args, .horPower k false args, .horFaults k false args, .horCperRead k false args, .horLimits k false args]) ∧
    (∃ (s : State) (k : Stamp) (args : List Byte) (c : _), s.aon.phase ≠ .vaonOff ∧ args ≠ [] ∧ c ∈ [Instr.horId k true args, .horState k true args, .horTemp k true args, .horPower k true args, .horFaults k true args, .horLimits k true args]) ∧
    (∃ (s : State) (args : List Byte), s.aon.phase ≠ .vaonOff ∧ args.length ≠ 6) ∧
    (∃ (s : State) (code : Byte), s.aon.phase ≠ .vaonOff ∧ (code = 0 ∨ 7 < code.toNat)) ∧
    (∃ (s : State) (k : Stamp) (c : _), s.aon.phase ≠ .vaonOff ∧ s.powered = false ∧ c ∈ [Instr.horPower k true [], .horFaults k true [], .horLimits k true []]) ∧
    (∃ (s : State) (k : Stamp) (c : _), s.aon.phase ≠ .vaonOff ∧ s.powered = true ∧ s.pwrBusy = true ∧ c ∈ [Instr.horTemp k true [], .horPower k true [], .horLimits k true []]) ∧
    (∃ (s : State), s.aon.phase ≠ .vaonOff ∧ s.powered = true ∧ s.schBusy = true) ∧
    (∃ (s : State), s.aon.phase ≠ .vaonOff ∧ s.powered = true ∧ s.pwrBusy = false ∧ s.hottest.isSome = true) ∧
    (∃ (s : State), s.aon.phase ≠ .vaonOff ∧ s.powered = true ∧ s.schBusy = false ∧ s.mram.bbx.faults ≠ []) ∧
    (∃ (s : State) (args : List Byte), s.aon.phase ≠ .vaonOff ∧ s.powered = true ∧ s.schBusy = false ∧ args.length = 6 ∧ s.mram.bbx.faults = []) ∧
    (∃ (s : State) (args : List Byte) (f : _), s.aon.phase ≠ .vaonOff ∧ s.powered = true ∧ s.schBusy = false ∧ args = [0, 0, 0, 0, 0, 0] ∧ s.mram.bbx.faults[0]? = some f) :=
  ⟨⟨aon .asleep, 1000, [], Instr.horId 1000 false ([]), by decide +kernel⟩,
   ⟨rdy, 1000, [1], Instr.horId 1000 true ([1]), by decide +kernel⟩,
   ⟨rdy, [], by decide +kernel⟩,
   ⟨rdy, 8, by decide +kernel⟩,
   ⟨aon .asleep, 1000, Instr.horPower 1000 true [], by decide +kernel⟩,
   ⟨boot 5, 1000, Instr.horTemp 1000 true [], by decide +kernel⟩,
   ⟨boot 5, by decide +kernel⟩,
   ⟨{ rdy with pwr := { readings := [(2, [5, 6, 7, 8])] } }, by decide +kernel⟩,
   ⟨{ rdy with mram := { bbx := { faults := [flt] } } }, by decide +kernel⟩,
   ⟨rdy, [0, 0, 0, 0, 0, 0], by decide +kernel⟩,
   ⟨{ rdy with mram := { bbx := { faults := [flt] } } }, [0, 0, 0, 0, 0, 0], flt, by decide +kernel⟩⟩

theorem test_witness_Processors :
    (∃ (s : State) (w : W32), s.starting = true ∧ s.hif.restarting = [] ∧ Only w 0 [1, 2] ∧ s.bit .FWP_STATUS 5 = true) ∧
    (∃ (s : State) (w : W32), s.starting = true ∧ s.hif.restarting = [] ∧ Only w 0 [1, 2] ∧ s.bit .FWP_STATUS 5 = false) ∧
    (∃ (s : State) (w : W32), Serves s ∧ Only w 1 [0, 2]) ∧
    (∃ (s : State) (k : Stamp) (w : W32) (p : _), p ∈ [Proc.security, .power, .scheduler] ∧ s.procRuns p = true ∧ near s k p < 2 ∧ Serves s ∧ Only w 2 [0, 1] ∧ w.toNat / 8 % 4 = p.code) ∧
    (∃ (s : State) (k : Stamp) (w : W32) (p : _) (c : _), p ∈ [Proc.security, .power, .scheduler] ∧ s.procRuns p = true ∧ (c = Instr.watchdogExpiry k p ∨ (c = .procRestartRequest k 0 w ∧ Serves s ∧ Only w 2 [0, 1] ∧ w.toNat / 8 % 4 = p.code)) ∧ 2 ≤ near s k p ∧ (s.ready = true ∨ s.starting = true)) ∧
    (∃ (s : State) (k : Stamp) (c : ClusterId), s.procRuns (.cluster c) = true ∧ near s k (.cluster c) < 2) ∧
    (∃ (s : State) (k : Stamp) (c : ClusterId), s.procRuns (.cluster c) = true ∧ 2 ≤ near s k (.cluster c)) ∧
    (∃ (s : State) (p : _), s.procRuns p = false) ∧
    (∃ (s : State) (p : _), s.restarting p = true ∧ s.hif.held = []) ∧
    (∃ (s : State) (v : W64), s.restarting .power = true ∧ s.hif.held = [⟨0, 2, 0x90020, 4, v, .pwr⟩] ∧ s.ready = true) ∧
    (∃ (s : State) (p : _), s.restarting p = false) :=
  ⟨⟨(boot 3).setF .FWP_STATUS 5 1 1, 1, by decide +kernel⟩,
   ⟨boot 3, 1, by decide +kernel⟩,
   ⟨rdy.setNum .FWP_SVN 9, 2, by decide +kernel⟩,
   ⟨rdy, 1000, 20, Proc.scheduler, by decide +kernel⟩,
   ⟨{ rdy with hif := { history := [(.security, 5), (.security, 6), (.power, 5), (.power, 5), (.scheduler, 6), (.scheduler, 5)] } }, 1000, 1, Proc.power, Instr.watchdogExpiry 1000 Proc.power, by decide +kernel⟩,
   ⟨rdy, 1000, 3, by decide +kernel⟩,
   ⟨{ rdy with hif := { history := [(.cluster 3, 5), (.cluster 3, 6)] } }, 1000, 3, by decide +kernel⟩,
   ⟨{ rdy with hif := { restarting := [.power] } }, Proc.power, by decide +kernel⟩,
   ⟨{ rdy with hif := { restarting := [.security, .power] } }, Proc.power, by decide +kernel⟩,
   ⟨{ rdy with hif := { restarting := [.power], held := [⟨0, 2, 0x90020, 4, 7, .pwr⟩] } }, 7, by decide +kernel⟩,
   ⟨rdy, Proc.power, by decide +kernel⟩⟩

theorem test_witness_FirmwareCommands :
    (∃ (s : State) (k : Stamp) (q : Qid) (c : SrvCmd) (rest : List Admitted) (img : _), Fronts s k q.val rest ∧ (s.qp q.val).state = .ready ∧ s.isAdmin q.val = true ∧ s.fnOf q.val = 0 ∧ c.flags.toNat < 4 ∧ c.cid ≠ 0xFFFF ∧ c.param = 0 ∧ c.args = 0 ∧ s.boot.flashing = none ∧ c.opcode.toNat = 0x48 ∧ (s.ready = true ∨ s.safe = true) ∧ s.verifyImage c.dataLen.toNat img = 0) ∧
    (∃ (s : State) (k : Stamp) (q : Qid) (c : SrvCmd) (rest : List Admitted) (img : _), Fronts s k q.val rest ∧ (s.qp q.val).state = .ready ∧ s.isAdmin q.val = true ∧ s.fnOf q.val = 0 ∧ c.flags.toNat < 4 ∧ c.cid ≠ 0xFFFF ∧ c.param = 0 ∧ c.args = 0 ∧ s.boot.flashing = none ∧ c.opcode.toNat = 0x48 ∧ (s.ready = true ∨ s.safe = true) ∧ s.verifyImage c.dataLen.toNat img ≠ 0) ∧
    (∃ (s : State) (k : Stamp) (q : Qid) (c : SrvCmd) (rest : List Admitted), Fronts s k q.val rest ∧ (s.qp q.val).state = .ready ∧ s.isAdmin q.val = true ∧ s.fnOf q.val = 0 ∧ c.flags.toNat < 4 ∧ c.cid ≠ 0xFFFF ∧ c.param = 0 ∧ c.args = 0 ∧ s.boot.flashing = none ∧ c.opcode.toNat = 0x49 ∧ s.safe = true ∧ c.dataAddr = 0 ∧ c.dataLen = 0 ∧ s.boot.fwRuns = true) ∧
    (∃ (s : State) (k : Stamp) (q : Qid) (c : SrvCmd) (rest : List Admitted), Fronts s k q.val rest ∧ (s.qp q.val).state = .ready ∧ s.isAdmin q.val = true ∧ s.fnOf q.val = 0 ∧ c.flags.toNat < 4 ∧ c.cid ≠ 0xFFFF ∧ c.param = 0 ∧ c.args = 0 ∧ s.boot.flashing = none ∧ c.opcode.toNat = 0x4A ∧ s.safe = true ∧ c.dataAddr = 0 ∧ c.dataLen = 0) ∧
    (∃ (s : State) (k : Stamp) (q : Qid) (c : SrvCmd) (rest : List Admitted), Fronts s k q.val rest ∧ (s.qp q.val).state = .ready ∧ s.isAdmin q.val = true ∧ s.fnOf q.val = 0 ∧ c.flags.toNat < 4 ∧ c.cid ≠ 0xFFFF ∧ c.param = 0 ∧ c.args = 0 ∧ s.boot.flashing = none ∧ c.opcode.toNat = 0x4B ∧ (s.starting = true ∨ s.ready = true ∨ s.safe = true)) ∧
    (∃ (s : State) (k : Stamp) (q : Qid) (c : SrvCmd) (rest : List Admitted) (f : _), Fronts s k q.val rest ∧ (s.qp q.val).state = .ready ∧ s.isAdmin q.val = true ∧ s.fnOf q.val = 0 ∧ Sent c 0x48 ∧ c.param = 0 ∧ c.args = 0 ∧ (s.ready = true ∨ s.safe = true) ∧ s.boot.flashing = some f) ∧
    (∃ (s : State) (q : Qid) (cid : _) (irq : _), s.boot.flashing = some (q, cid, irq) ∧ s.boot.waitFw = [] ∧ (s.qp q.val).state = .ready) :=
  ⟨⟨{ opS 0 qp0 rdy with boot := { rdy.boot with signers := [keyDigest] } }, 1000, 0, { cmd 0x48 with dataLen := 4096 }, rest1, img0, by decide +kernel⟩,
   ⟨{ opS 0 qp0 rdy with boot := { rdy.boot with signers := [keyDigest] } }, 1000, 0, { cmd 0x48 with dataLen := 4096 }, rest1, { img0 with readOk := false }, by decide +kernel⟩,
   ⟨opS 0 qp0 safe, 1000, 0, cmd 0x49, rest1, by decide +kernel⟩,
   ⟨{ opS 0 qp0 safe with boot := { safe.boot with failed := { cores := [(5, .sram)], links := [1] } } }, 1000, 0, cmd 0x4A, rest1, by decide +kernel⟩,
   ⟨opS 0 qp0 safe, 1000, 0, cmd 0x4B, rest1, by decide +kernel⟩,
   ⟨{ opS 0 qp0 rdy with boot := { rdy.boot with flashing := some (3, 5, true) } }, 1000, 0, { cmd 0x48 with dataLen := 4096 }, rest1, (3, 5, true), by decide +kernel⟩,
   ⟨{ opS 0 qp0 rdy with boot := { rdy.boot with flashing := some (0, 5, true) } }, 0, 5, true, by decide +kernel⟩⟩

theorem test_witness_Grading :
    (∃ (s : State) (pan : PanId), (s.pan pan.val).kept = []) ∧
    (∃ (s : State) (pan : PanId) (g : _) (rest : _) (e : _) (p : _), (s.pan pan.val).kept = g :: rest ∧ g.block.gradeErrors g.x g.level g.taken g.spilled g.recs = e ∧ s.physOfPan pan.val = some p ∧ gradePasses e = true) ∧
    (∃ (s : State) (pan : PanId) (g : _) (rest : _) (e : _) (p : _), (s.pan pan.val).kept = g :: rest ∧ g.block.gradeErrors g.x g.level g.taken g.spilled g.recs = e ∧ s.physOfPan pan.val = some p ∧ gradePasses e = false ∧ (s.ph p).role ≠ .retired ∧ s.panScope pan.val (stepOf g.owner g.first) = [] ∧ ((s.pan pan.val).currentContent s.tierLayers).isSome = true ∧ (eventsNear s p).length < 2) ∧
    (∃ (s : State) (pan : PanId) (g : _) (rest : _) (e : _) (p : _), (s.pan pan.val).kept = g :: rest ∧ g.block.gradeErrors g.x g.level g.taken g.spilled g.recs = e ∧ s.physOfPan pan.val = some p ∧ gradePasses e = false ∧ (s.ph p).role ≠ .retired ∧ p < s.part.physCores ∧ 2 ≤ (eventsNear s p).length) :=
  ⟨⟨rdy, 40, by decide +kernel⟩,
   ⟨withPan rdyH 40 { pan1 with kept := [gr1 1, gr1 1] }, 40, gr1 1, [gr1 1], gerr 1, 2, by decide +kernel⟩,
   ⟨withPan rdyH 40 { pan1 with kept := [gr1 200000, gr1 1] }, 40, gr1 200000, [gr1 1], gerr 200000, 2, by decide +kernel⟩,
   ⟨{ withPan rdyH 40 { pan1 with kept := [gr1 200000, gr1 1] } with phys := rdyH.phys.upd 2 (fun x => { x with events := [0, 0] }) }, 40, gr1 200000, [gr1 1], gerr 200000, 2, by decide +kernel⟩⟩

theorem test_witness_Sweeps :
    (∃ (s : State) (k : Stamp) (p : PhysId) (q : PhysId) (c : _), s.ready = true ∧ s.pwrState = 0 ∧ (s.enter k).workOpen = true ∧ p ≠ q ∧ clusterOfPhys p.val = clusterOfPhys q.val ∧ s.physWorks p.val = true ∧ s.physWorks q.val = true ∧ (s.ph p.val).testing = none ∧ (s.ph q.val).testing = none ∧ (s.ph q.val).partnerOf = none ∧ s.bedsFree p.val = true ∧ s.sweepTurn p.val = true ∧ s.carried p.val = some c) ∧
    (∃ (s : State) (k : Stamp) (p : PhysId) (q : PhysId), (s.ready = false ∨ s.pwrState ≠ 0 ∨ (s.enter k).workOpen = false ∨ p = q ∨ (s.ph p.val).testing ≠ none ∨ s.bedsFree p.val = false ∨ s.sweepTurn p.val = false)) ∧
    (∃ (s : State) (p : PhysId) (q : PhysId) (loser : PhysId), (s.ph p.val).testing = some q ∧ p ≠ q ∧ s.physWorks loser.val = true) ∧
    (∃ (s : State) (p : PhysId) (q : PhysId), (s.ph p.val).testing = some q ∧ p ≠ q ∧ s.carried p.val = none ∧ (s.ph p.val).role ≠ .retired ∧ (eventsNear s p.val).length < 2) :=
  ⟨⟨withPan rdy 40 { pan1 with b := { state := .ready, content := .current } }, 1000, 2, 3, 2, by decide +kernel⟩,
   ⟨withPan rdy 40 pan1, 1000, 3, 3, by decide +kernel⟩,
   ⟨swp, 2, 3, 2, by decide +kernel⟩,
   ⟨swp, 66, 67, by decide +kernel⟩⟩

theorem test_witness_HealthRequests :
    (∃ (s : State) (w : W32) (unit : Nat) (sel : Nat), Serves s ∧ w.getLsbD 1 = true ∧ s.fld .HLT_REQ_UNIT 0 13 = unit ∧ s.fld .HLT_LIST_SEL 0 10 = sel ∧ s.physWorks unit = true ∧ (s.ph unit).testing = none ∧ (s.ph unit).asked = none ∧ w.toNat / 4 % 4 = 0) ∧
    (∃ (s : State) (w : W32) (unit : Nat) (sel : Nat), Serves s ∧ w.getLsbD 1 = true ∧ s.fld .HLT_REQ_UNIT 0 13 = unit ∧ s.fld .HLT_LIST_SEL 0 10 = sel ∧ s.physWorks unit = true ∧ (s.ph unit).testing = none ∧ (s.ph unit).asked = none ∧ w.toNat / 4 % 4 = 1) ∧
    (∃ (s : State) (w : W32) (unit : Nat) (sel : Nat), Serves s ∧ w.getLsbD 1 = true ∧ s.fld .HLT_REQ_UNIT 0 13 = unit ∧ s.fld .HLT_LIST_SEL 0 10 = sel ∧ w.toNat / 4 % 4 = 2 ∧ sel < s.mram.retired.length) ∧
    (∃ (s : State) (w : W32) (unit : Nat) (sel : Nat), Serves s ∧ w.getLsbD 1 = true ∧ s.fld .HLT_REQ_UNIT 0 13 = unit ∧ s.fld .HLT_LIST_SEL 0 10 = sel ∧ w.toNat / 4 % 4 = 3) ∧
    (∃ (s : State) (k : Stamp) (w : W32) (unit : Nat) (sel : Nat) (c : _) (code : _), Serves s ∧ w.getLsbD 1 = true ∧ s.fld .HLT_REQ_UNIT 0 13 = unit ∧ s.fld .HLT_LIST_SEL 0 10 = sel ∧ ((c = Instr.hltReqUnlist k 0 w ∧ w.toNat / 4 % 4 = 2 ∧ s.mram.retired.length ≤ sel ∧ code = 0x41) ∨ ((c = .hltReqSweep k 0 w ∧ w.toNat / 4 % 4 = 0 ∨ c = .hltReqRetire k 0 w ∧ w.toNat / 4 % 4 = 1) ∧ (s.physWorks unit = false ∧ code = 0x41 ∨ s.physWorks unit = true ∧ code = 0x42 ∧ ((s.ph unit).testing ≠ none ∨ (s.ph unit).asked ≠ none))))) :=
  ⟨⟨rdy.setNum .HLT_REQ_UNIT 7, 2, 7, 0, by decide +kernel⟩,
   ⟨rdy.setNum .HLT_REQ_UNIT 7, 6, 7, 0, by decide +kernel⟩,
   ⟨{ rdy.setNum .HLT_LIST_SEL 1 with mram := { retired := [⟨false, 5, 1, 1, 1, 1⟩, ⟨false, 6, 1, 1, 1, 1⟩] } }, 10, 0, 1, by decide +kernel⟩,
   ⟨rdy.setNum .HLT_REQ_UNIT 7, 14, 7, 0, by decide +kernel⟩,
   ⟨rdy.setNum .HLT_REQ_UNIT 7, 1000, 10, 7, 0, .hltReqUnlist 1000 0 10, 0x41, by decide +kernel⟩⟩

theorem test_witness_ErrorsInTheMachine :
    (∃ (s : State) (p : PhysId) (c : ClusterId), s.ready = true ∧ s.restarting (.cluster c) = false ∧ (s.clusters.get c.val).ccpStopped = false ∧ clusterOfPhys p.val = c.val ∧ (∀ x, s.carried p.val = some x → s.placed x = false) ∧ (s.ph p.val).role ≠ .retired ∧ (eventsNear s p.val).length < 2) ∧
    (∃ (s : State) (p : PhysId) (wh : _), s.powered = true ∧ p.val < s.part.physCores ∧ wh ∈ [MemWhere.coreSram, .sluiceStore, .localSync] ∧ s.coreStep p.val = [] ∧ (s.ph p.val).role ≠ .retired ∧ (eventsNear s p.val).length < 2) ∧
    (∃ (s : State) (p : PhysId) (sl : Fin 96), s.powered = true ∧ p.val < s.part.physCores ∧ s.inSlot sl.val = none) ∧
    (∃ (s : State) (p : PhysId) (sl : Fin 96) (l : _) (v : _) (h : _) (pos : _) (b : Fin 4) (q : _) (x : _) (m : _) (pg : _) (first : _) (n : _), s.powered = true ∧ p.val < s.part.physCores ∧ s.inSlot sl.val = some (q, x) ∧ s.model = some m ∧ x.page l pos = some pg ∧ n = m.groupBytes / 4 ∧ first = pageAddr pg + m.valueOff (m.groupIndex v h pos) + n * b.val) ∧
    (∃ (s : State) (p : PhysId) (wh : MemWhere), s.powered = true ∧ p.val < s.part.physCores ∧ ((∃ x, wh = .hbmMaster x) ∨ (∃ x, wh = .hbmReserve x) ∨ (∃ x, wh = .hbmRing x) ∨ wh = .poolStore ∨ wh = .houseSram) ∧ (s.ready = true ∨ s.starting = true)) ∧
    (∃ (s : State), s.ready = false ∧ s.starting = false) :=
  ⟨⟨rdy, 2, 0, by decide +kernel⟩,
   ⟨rdy, 2, .coreSram, by decide +kernel⟩,
   ⟨rdy, 2, 0, by decide +kernel⟩,
   ⟨{ withQp rdyP 5 { qp0 with session := some { ses0 with blocks := [⟨0, [5, 6]⟩] } } with mem := Cells.write (fun _ => 0) [] (2 ^ 96 + 5 * 2 ^ 21) (List.replicate 70 7) }, 2, 0, 0, false, 0, 0, 2, 5, { ses0 with blocks := [⟨0, [5, 6]⟩] }, modelRec, 5, 2 ^ 96 + 5 * 2 ^ 21 + 32, 16, by decide +kernel⟩,
   ⟨rdy, 2, .hbmMaster 1, by decide +kernel⟩,
   ⟨safe, by decide +kernel⟩⟩

theorem test_witness_PowerStates :
    (∃ (s : State) (w : W32), Serves s ∧ w.getLsbD 2 = true ∧ w.toNat % 4 = 1) ∧
    (∃ (s : State) (w : W32), Serves s ∧ w.getLsbD 2 = true ∧ w.toNat % 4 = 2) ∧
    (∃ (s : State) (w : W32), Serves s ∧ w.getLsbD 2 = true ∧ w.toNat % 4 = 3) ∧
    (∃ (s : State) (w : W32) (d : _), Serves s ∧ (s.pwrState = 1 ∧ d = 30000000 ∨ s.pwrState = 2 ∧ d = 35000000) ∧ w.getLsbD 2 = true ∧ w.toNat % 4 = 0) ∧
    (∃ (s : State) (w : W32), Serves s ∧ (s.pwrState = 0 ∨ s.pwrState = 3) ∧ w.getLsbD 2 = true ∧ w.toNat % 4 = 0) ∧
    (∃ (s : State) (w : W32), Serves s ∧ 136 ≤ w.toNat % 256 ∧ w.toNat % 256 ≤ 160) ∧
    (∃ (s : State) (w : W32), Serves s ∧ (w.toNat % 256 < 136 ∨ 160 < w.toNat % 256)) ∧
    (∃ (s : State) (w : W32), Serves s ∧ 100 ≤ w.toNat % 4096 ∧ w.toNat % 4096 ≤ s.part.tdp) ∧
    (∃ (s : State) (w : W32), Serves s ∧ (w.toNat % 4096 < 100 ∨ s.part.tdp < w.toNat % 4096)) ∧
    (∃ (s : State) (k : Stamp), s.powered = true ∧ s.pwrState = 3 ∧ s.pwr.exitFrom + 5000000 ≤ max s.now k) ∧
    (∃ (s : State) (k : Stamp) (d : _), s.powered = true ∧ s.pwrState = 3 ∧ s.pwr.exitDue = some d ∧ d ≤ max s.now k) ∧
    (∃ (s : State) (k : Stamp) (c : _), (s.powered = false ∨ s.pwrState ≠ 3) ∧ c ∈ [Instr.hbmSelfRefreshExit k, .powerExitComplete k]) :=
  ⟨⟨rdy, 5, by decide +kernel⟩,
   ⟨rdy, 6, by decide +kernel⟩,
   ⟨rdy, 15, by decide +kernel⟩,
   ⟨idle 1, 4, 30000000, by decide +kernel⟩,
   ⟨idle 3, 4, by decide +kernel⟩,
   ⟨rdy, 136, by decide +kernel⟩,
   ⟨rdy, 135, by decide +kernel⟩,
   ⟨rdy, 100, by decide +kernel⟩,
   ⟨rdy, 99, by decide +kernel⟩,
   ⟨exitS, 100000000, by decide +kernel⟩,
   ⟨exitS, 100000000, 500, by decide +kernel⟩,
   ⟨boot 6, 100000000, .hbmSelfRefreshExit 100000000, by decide +kernel⟩⟩

theorem test_witness_BrakesAndStops :
    (∃ (s : State) (ma : List Nat) (i : Nat) (mw : Nat) (p : Power), s.pwrLive = true ∧ i < 2 ^ 32 ∧ mw < 2 ^ 32 ∧ rheQuot (if s.pwr.scans = 0 then s.coreMa else s.pwr.scanMa) (max 1 s.pwr.scans : Nat) = i ∧ rheQuot (if s.pwr.scans = 0 then s.coreMw else s.pwr.scanMw) (max 1 s.pwr.scans : Nat) + s.boardMw ma = mw ∧ p = { s.pwr with scanMa := 0, scanMw := 0, scans := 0, means := (((i : Int), (mw : Int)) :: s.pwr.means).take 10 } ∧ ((s.closeMs ma).brakeCond = none ∨ s.pwr.brakeTide = true)) ∧
    (∃ (s : State) (ma : List Nat) (i : Nat) (mw : Nat) (p : Power) (c : _), s.pwrLive = true ∧ i < 2 ^ 32 ∧ mw < 2 ^ 32 ∧ rheQuot (if s.pwr.scans = 0 then s.coreMa else s.pwr.scanMa) (max 1 s.pwr.scans : Nat) = i ∧ rheQuot (if s.pwr.scans = 0 then s.coreMw else s.pwr.scanMw) (max 1 s.pwr.scans : Nat) + s.boardMw ma = mw ∧ p = { s.pwr with scanMa := 0, scanMw := 0, scans := 0, means := (((i : Int), (mw : Int)) :: s.pwr.means).take 10 } ∧ (s.closeMs ma).brakeCond = some c ∧ s.pwr.brakeTide = false) ∧
    (∃ (s : State) (a : _), a ∈ [RegAlert.vcoreOff, .pmbusFailed] ∧ s.pwrLive = true ∧ (s.ready = true ∨ s.starting = true)) ∧
    (∃ (s : State) (k : Stamp), s.pwrLive = true ∧ dwellOver s.pwr.warn s.pwr.warnFrom (max s.now k) = true) ∧
    (∃ (s : State) (k : Stamp), s.pwrLive = true ∧ dwellOver s.pwr.throttle s.pwr.throttleFrom (max s.now k) = true) ∧
    (∃ (s : State) (k : Stamp) (d : _), s.pwr.stopping = some d ∧ s.powered = true ∧ d + 2 * s.num .TDE_PERIOD_ACT * 1000000 ≤ max s.now k ∧ (∀ q ∈ s.snaps, q.trigger ≠ 2) ∧ 8 ≤ s.mram.bbx.snaps.length + s.snaps.length) ∧
    (∃ (s : State) (k : Stamp) (d : _), s.pwr.stopping = some d ∧ s.powered = true ∧ d + 2 * s.num .TDE_PERIOD_ACT * 1000000 ≤ max s.now k ∧ (∀ q ∈ s.snaps, q.trigger ≠ 2) ∧ s.mram.bbx.snaps.length + s.snaps.length < 8) ∧
    (∃ (s : State), s.pwr.stopping = none) :=
  ⟨⟨rdy, [0, 0, 0, 0, 0], 0, 0, { rdy.pwr with means := [(0, 0)] }, by decide +kernel⟩,
   ⟨{ rdy with pwr := { scans := 1, scanMa := 1600001 } }, [0, 0, 0, 0, 0], 1600001, 0, { means := [(1600001, 0)] }, 0, by decide +kernel⟩,
   ⟨rdy, RegAlert.vcoreOff, by decide +kernel⟩,
   ⟨{ rdy with pwr := { warn := true, warnFrom := some 0 } }, 100000000, by decide +kernel⟩,
   ⟨{ rdy with pwr := { throttle := true, throttleFrom := some 0 } }, 100000000, by decide +kernel⟩,
   ⟨stopping snaps8, 100000000, 500, by decide +kernel⟩,
   ⟨stopping rdy, 100000000, 500, by decide +kernel⟩,
   ⟨rdy, by decide +kernel⟩⟩

theorem test_witness_Converter :
    (∃ (s : State) (c : _), s.powered = true ∧ s.pwr.calibrating ≠ some 0 ∧ s.pwr.channel = c ∧ c < 64 ∧ s.chanAbsent c = true) ∧
    (∃ (s : State) (c : _), s.powered = true ∧ s.pwr.calibrating ≠ some 0 ∧ s.pwr.channel = c ∧ c < 64 ∧ s.chanAbsent c = false ∧ 32 ≤ c) ∧
    (∃ (s : State), s.pwr.scanDue = false) ∧
    (∃ (s : State), s.pwr.scanDue = true ∧ s.pwrLive = false) ∧
    (∃ (s : State) (v : _) (c : _), s.pwr.scanDue = true ∧ s.pwrLive = true ∧ s.hottest = some (v, c) ∧ c < 32 ∧ 0 ≤ v ∧ v < 32768) ∧
    (∃ (s : State) (w : W32), Serves s ∧ s.bit .HKA_STATUS 0 = false ∧ Only w 0 [1]) ∧
    (∃ (s : State) (w : W32), Serves s ∧ s.bit .HKA_STATUS 0 = false ∧ Only w 1 [0]) ∧
    (∃ (s : State) (k : Stamp) (w : W32) (c : _), Serves s ∧ s.bit .HKA_STATUS 0 = true ∧ (c = Instr.hkaSelfCal k 0 w ∧ Only w 0 [1] ∨ c = .hkaRefCal k 0 w ∧ Only w 1 [0])) ∧
    (∃ (s : State) (conv : List (List (BitVec 12) × List (BitVec 12))), s.pwr.calibrating = some 0 ∧ conv.length = 64) ∧
    (∃ (s : State) (codes : _) (m : _), s.pwr.calibrating = some 1 ∧ s.refinUv codes = m ∧ m < 2 ^ 32 ∧ (1225000 ≤ m ∧ m ≤ 1275000)) ∧
    (∃ (s : State) (codes : _) (m : _), s.pwr.calibrating = some 1 ∧ s.refinUv codes = m ∧ m < 2 ^ 32 ∧ (m < 1225000 ∨ 1275000 < m)) ∧
    (∃ (s : State), s.pwr.calibrating ≠ some 1) :=
  ⟨⟨{ rdy with part := .jn4, pwr := { channel := 62 } }, 62, by decide +kernel⟩,
   ⟨{ rdy with pwr := { channel := 33 } }, 33, by decide +kernel⟩,
   ⟨rdy, by decide +kernel⟩,
   ⟨{ boot 4 with pwr := { scanDue := true } }, by decide +kernel⟩,
   ⟨hot 1520, 1520, 3, by decide +kernel⟩,
   ⟨rdy, 1, by decide +kernel⟩,
   ⟨rdy, 2, by decide +kernel⟩,
   ⟨rdy.setF .HKA_STATUS 0 1 1, 1000, 1, Instr.hkaSelfCal 1000 0 1, by decide +kernel⟩,
   ⟨{ boot 8 with pwr := { calibrating := some 0 } }, List.replicate 64 ([10, 10], [3600, 3601]), by decide +kernel⟩,
   ⟨{ boot 9 with pwr := { calibrating := some 1 } }, [2550], 1275000, by decide +kernel⟩,
   ⟨{ boot 9 with pwr := { calibrating := some 1 } }, [2551], 1275500, by decide +kernel⟩,
   ⟨rdy, by decide +kernel⟩⟩

theorem test_witness_EventRecorder :
    (∃ (s : State) (src : Byte) (e : _), s.evt.inFlight.find? (fun x => x.src == src.toNat) = some e ∧ s.bit .EVT_CTRL 0 = false ∧ s.evt.recs.length < 65536) ∧
    (∃ (s : State) (src : Byte) (e : _), s.evt.inFlight.find? (fun x => x.src == src.toNat) = some e ∧ s.bit .EVT_CTRL 0 = false ∧ 65536 ≤ s.evt.recs.length) ∧
    (∃ (s : State) (k : Stamp) (src : Byte) (e : _), s.evt.inFlight.find? (fun x => x.src == src.toNat) = some e ∧ s.bit .EVT_CTRL 0 = true ∧ s.evt.freezeT ≠ max s.now k) ∧
    (∃ (s : State) (src : Byte), s.evt.inFlight.find? (fun x => x.src == src.toNat) = none) ∧
    (∃ (s : State) (w : W32), Serves s ∧ s.evt.cleared = none ∧ Only w 0 [1, 2] ∧ s.bit .EVT_CTRL 0 = false) ∧
    (∃ (s : State) (w : W32), Serves s ∧ s.evt.cleared = none ∧ (∀ b ∈ [0, 1, 2], w.getLsbD b = false)) ∧
    (∃ (s : State) (k : Stamp) (w : W32), Serves s ∧ s.evt.cleared = none ∧ s.evt.arrT ≠ max s.now k ∧ w.getLsbD 0 = true ∧ w.getLsbD 1 = true ∧ w.getLsbD 2 = false ∧ s.bit .EVT_CTRL 0 = true) ∧
    (∃ (s : State) (k : Stamp) (w : W32), Serves s ∧ s.evt.cleared = none ∧ s.evt.arrT ≠ max s.now k ∧ Only w 1 [0, 2]) :=
  ⟨⟨recS 0 3, 5, evt1, by decide +kernel⟩,
   ⟨recS 0 65536, 5, evt1, by decide +kernel⟩,
   ⟨recS 1 3, 1000, 5, evt1, by decide +kernel⟩,
   ⟨recS 0 3, 9, by decide +kernel⟩,
   ⟨rdy, 1, by decide +kernel⟩,
   ⟨recS 1 2, 0, by decide +kernel⟩,
   ⟨(recS 1 3).setNum .EVT_LOST 7, 1000, 3, by decide +kernel⟩,
   ⟨((recS 1 3).setNum .EVT_LOST 7).setF .EVT_STATUS 17 1 1, 1000, 2, by decide +kernel⟩⟩

theorem test_witness_BlackBox :
    (∃ (s : State) (w : W32), Serves s ∧ s.evt.cleared = none ∧ Only w 2 [0, 1] ∧ s.bit .EVT_CTRL 0 = false) ∧
    (∃ (s : State) (g : _) (n : _), s.evt.wfgWriting = some g ∧ s.num .EVT_WFG_LEN / 32 = n ∧ g.edges.length < 2 ^ 32) ∧
    (∃ (s : State), s.evt.wfgWriting = none) ∧
    (∃ (s : State) (w : W32), Serves s ∧ Only w 0 [1] ∧ s.snaps = []) ∧
    (∃ (s : State) (w : W32), Serves s ∧ Only w 0 [1] ∧ s.snaps ≠ []) ∧
    (∃ (s : State) (w : W32), Serves s ∧ Only w 1 [0] ∧ s.mram.bbx.snaps.length + s.snaps.length < 8) ∧
    (∃ (s : State) (w : W32), Serves s ∧ Only w 1 [0] ∧ 8 ≤ s.mram.bbx.snaps.length + s.snaps.length) ∧
    (∃ (s : State) (q : _) (rest : _), s.snaps = q :: rest ∧ q.trigger ≠ 2 ∧ s.bit .BBX_CTRL 0 = false) ∧
    (∃ (s : State) (q : _) (rest : _), s.snaps = q :: rest ∧ q.trigger ≠ 2 ∧ s.bit .BBX_CTRL 0 = true) ∧
    (∃ (s : State) (q : _) (rest : _), s.snaps = q :: rest ∧ q.trigger = 2) :=
  ⟨⟨rdy, 4, by decide +kernel⟩,
   ⟨{ (rdy.setNum .EVT_WFG_LEN 64).setNum .EVT_WFG_ADDR 0x4000 with evt := { wfgWriting := some { trigger := 0, edges := [⟨1, 2, 3, 4⟩] } } }, { trigger := 0, edges := [⟨1, 2, 3, 4⟩] }, 2, by decide +kernel⟩,
   ⟨rdy, by decide +kernel⟩,
   ⟨rdy, 1, by decide +kernel⟩,
   ⟨{ rdy with snaps := [snq 3] }, 1, by decide +kernel⟩,
   ⟨rdy, 2, by decide +kernel⟩,
   ⟨snaps8, 2, by decide +kernel⟩,
   ⟨{ rdy with snaps := [snq 3, snq 1] }, snq 3, [snq 1], by decide +kernel⟩,
   ⟨{ rdy.setF .BBX_CTRL 0 1 1 with snaps := [snq 3, snq 1] }, snq 3, [snq 1], by decide +kernel⟩,
   ⟨{ rdy with snaps := [snq 2, snq 1] }, snq 2, [snq 1], by decide +kernel⟩⟩

theorem test_witness_StepRunsTheFrontCommand :
    (∃ (c : Instr) (s : State) (rest : List Instr), s.pending = c :: rest) ∧
    (∃ (s : State), s.pending = []) :=
  ⟨⟨.startupPublish 3, { rdy with pending := [.startupPublish 3, .coldStart] }, [.coldStart], by decide +kernel⟩,
   ⟨rdy, by decide +kernel⟩⟩

theorem test_witness_CanonicalKept :
    (∃ (s : State) (t : State), s.Canonical ∧ step s = .next t) :=
  ⟨rdy, rdy, ⟨(by constructor <;> decide +kernel), rfl⟩⟩

theorem test_witness_CommandsAnswer :
    (∃ (c : Instr), c.wellFormed = true) :=
  ⟨.pfFlr 1000, by decide +kernel⟩

theorem test_witness_BetweenEdges :
    (∃ (c : Instr) (s : State) (u : State) (r : Reg), outside c = false ∧ exec c s = .next u ∧ r ∈ [Reg.TDE_PERIOD_ACT, .TDE_LEAD_ACT, .TDE_EDGE_TIME, .BPL_PLACE_EPOCH, .HLT_REQ_STATUS, .AON_DEEP_SLEEPS]) ∧
    (∃ (c : Instr) (s : State) (u : State) (r : Reg), outside c = false ∧ exec c s = .next u ∧ (∀ k st n m, c ≠ .firmwareStarted k st n m) ∧ r.info.access = .rw ∧ r ∉ [Reg.COR_CAPTURE_CTRL, .WGT_LOAD_CTRL, .BPL_CTRL, .FAB_DIMS, .FAB_SYSTEM_ID, .FWP_CTRL, .HKA_CTRL, .HKA_COEF, .CNT_LAYER_SEL, .CNT_FN_SEL, .EVT_CTRL]) ∧
    (∃ (c : Instr) (s : State) (u : State), outside c = false ∧ exec c s = .next u ∧ (∀ k img, c ≠ .firmwareVerified k img)) ∧
    (∃ (c : Instr) (s : State) (u : State), outside c = false ∧ exec c s = .next u ∧ (∀ k, c ≠ .startupPublish k)) :=
  ⟨⟨.hkaScanComplete 1000, rdy, { rdy with now := 1000 }, .BPL_PLACE_EPOCH, ⟨by decide +kernel, rfl, by decide +kernel⟩⟩,
   ⟨.hkaScanComplete 1000, rdy, { rdy with now := 1000 }, .HIF_COAL, ⟨by decide +kernel, rfl, (fun _ _ _ _ h => by cases h), by decide +kernel⟩⟩,
   ⟨.hkaScanComplete 1000, rdy, { rdy with now := 1000 }, ⟨by decide +kernel, rfl, (fun _ _ h => by cases h)⟩⟩,
   ⟨.hkaScanComplete 1000, rdy, { rdy with now := 1000 }, ⟨by decide +kernel, rfl, (fun _ h => by cases h)⟩⟩⟩

theorem test_witness_VirtualFunctionWrites :
    (∃ (s : State) (k : Stamp) (fn : FnId) (w : W32) (x : W64) (c : _), fn ≠ 0 ∧ s.fnLive fn.val = true ∧ s.hif.restarting = [] ∧ c ∈ [Instr.loadStart k fn w, .loadAbort k fn w, .restage k fn w, .wgtRelease k fn w, .adapterUnload k fn w, .trustWrite k fn w, .trustErase k fn w, .planLoadStart k fn w, .planLoadAbort k fn w, .planRelease k fn w, .placementDump k fn w, .retrain k fn w, .linkReset k fn w, .fwpLoad k fn w, .commitSvn k fn w, .procRestartRequest k fn w, .hltReqSweep k fn w, .hltReqRetire k fn w, .hltReqUnlist k fn w, .hltReqInvalid k fn w, .powerReqActive k fn w, .powerReqIdle k fn w, .powerReqStandby k fn w, .powerReqDeepSleep k fn w, .vcoreTargetWrite k fn w, .pwrLimitWrite k fn w, .hkaSelfCal k fn w, .hkaRefCal k fn w, .bbxClear k fn w, .bbxSnap k fn w, .hostTierRegister k fn x, .kvcReserveWrite k fn x]) ∧
    (∃ (s : State) (k : Stamp) (fn : FnId) (w : W32) (core : _) (pan : _) (c : _), fn ≠ 0 ∧ s.fnLive fn.val = true ∧ s.hif.restarting = [] ∧ c ∈ [Instr.captureArm k fn core w, .refreshReq k fn pan w, .rakeReq k fn pan w]) :=
  ⟨⟨{ rdy with hif := { numVfs := 64 } }, 1000, 3, 0xFFFFFFFF, 0x123456789ABCDEF, Instr.loadStart 1000 3 0xFFFFFFFF, by decide +kernel⟩,
   ⟨{ rdy with hif := { numVfs := 64 } }, 1000, 3, 0xFFFFFFFF, 1, 5, Instr.captureArm 1000 3 1 0xFFFFFFFF, by decide +kernel⟩⟩

theorem test_witness_DroppedWrites :
    (∃ (s : State) (fn : FnId) (off : Nat) (size : Nat) (p : HouseProc), s.fnLive fn.val = true ∧ (size = 4 ∨ size = 8) ∧ off % size = 0 ∧ s.emulator fn.val off = p ∧ s.restarting (procOf p) = true ∧ 256 ≤ (s.hif.held.filter (fun w => w.proc == p)).length) :=
  ⟨{ rdy with hif := { restarting := [.scheduler], held := List.replicate 256 ⟨0, 2, 0, 4, 0, .sch⟩ } }, 0, 0x10010, 4, .sch, by decide +kernel⟩

theorem test_witness_ReferenceDrift :
    (∃ (s : State) (v : Int) (far : Bool), s.pwr.scanDue = true ∧ s.pwrLive = true ∧ (BitVec.ofNat 32 (s.num .HKA_VALUE 0 48)).toInt = v ∧ (far = true ↔ v < 1243750 ∨ 1256250 < v) ∧ s.bit .HKA_STATUS 1 = true) ∧
    (∃ (s : State) (v : Int), s.pwr.scanDue = true ∧ s.pwrLive = true ∧ (BitVec.ofNat 32 (s.num .HKA_VALUE 0 48)).toInt = v ∧ s.bit .HKA_STATUS 1 = false) ∧
    (∃ (c : Instr) (s : State) (u : State), outside c = false ∧ (∀ k m, c ≠ .refCalDone k m) ∧ exec c s = .next u) :=
  ⟨⟨ref48 1256251 254 1, 1256251, true, by decide +kernel⟩,
   ⟨ref48 1256251 254 0, 1256251, by decide +kernel⟩,
   ⟨.hkaScanComplete 1000, rdy, { rdy with now := 1000 }, ⟨by decide +kernel, (fun _ _ h => by cases h), rfl⟩⟩⟩

end Sys2Proof.Tests
end

