-- ==== Sys2Proof/Proofs/Doorbell.lean ====
section
/-! SUPPORT. What the doorbell rows do, said once (R251): the latch of a function, a counter and an interrupt bit after
their update, the rows in each of their cases; and the doorbell latch of the statements. -/

namespace Sys2Proof.Machine

open Sys2Proof.Safety

variable {s : State}

/-! ### Counters and interrupt bits of one unit -/

/-- A register of one unit written leaves the same register of every other unit. -/
theorem State.reg_setReg_unit_ne {r : Reg} {v : W64} {u u' i i' : Nat} (h : u' ≠ u) :
    (s.setReg r v u i).reg r u' i' = s.reg r u' i' :=
  State.reg_setReg_other _ _ _ _ _ _ _ _ (fun e => h (by unfold Reg.key at e; omega))

theorem State.num_bump_unit_ne {r : Reg} {n u u' i i' : Nat} (h : u' ≠ u) :
    (s.bump r n u i).num r u' i' = s.num r u' i' :=
  congrArg BitVec.toNat (State.reg_setReg_unit_ne h)

/-- A counter of eight bytes wraps at 64 bits (R496). -/
theorem State.num_bump_same {r : Reg} {n u i : Nat} (h : r.info.size = 8) :
    (s.bump r n u i).num r u i = (s.num r u i + n) % 2 ^ 64 := by
  unfold State.bump State.setNum State.num
  rw [State.reg_setReg_same, h]
  simp only [BitVec.toNat_ofNat, Nat.mod_mod, Nat.reduceMul]

/-- A counter that a function has of its own, besides that of the physical function, advances once for that function. -/
theorem State.num_bumpSrv {r : Reg} {n fn : Nat} (h : r.info.size = 8) :
    (s.bumpSrv r n fn).num r fn = (s.num r fn + n) % 2 ^ 64 := by
  unfold State.bumpSrv
  split
  next h0 => rw [beq_iff_eq.mp h0]; exact State.num_bump_same h
  next h0 =>
    have hfn : fn ≠ 0 := fun e => h0 (beq_iff_eq.mpr e)
    rw [State.num_bump_same h, State.num_bump_unit_ne hfn]

/-- A message leaves every register as it is. -/
theorem State.reg_sendMsix {fn v : Nat} {r : Reg} {u i : Nat} : (s.sendMsix fn v).reg r u i = s.reg r u i :=
  (State.sendMsix_within (F := fieldSet [.out, .hif]) (R := 0) rfl rfl (.refl s)).2 r (Nat.zero_testBit _) u i

/-- The status register after an interrupt is raised, message or none (R378). -/
theorem State.reg_raise_same {st en : Reg} {bits fn : Nat} : (s.raise st en bits fn).reg st fn =
    BitVec.ofNat 64 ((s.reg st fn ||| BitVec.ofNat 64 bits).toNat % 2 ^ (8 * st.info.size)) := by
  simp only [State.raise]
  split
  · exact State.reg_setReg_same ..
  · rw [State.reg_sendMsix]
    exact State.reg_setReg_same ..

/-- A field of one bit, as a bit of the number. -/
theorem State.bit_eq_testBit {r : Reg} {b u i : Nat} : s.bit r b u i = (s.reg r u i).toNat.testBit b := by
  unfold State.bit State.fld fldOf
  rw [Nat.testBit_eq_decide_div_mod_eq]
  exact Bool.beq_eq_decide_eq ..

/-- A bit that is raised is set. -/
theorem State.bit_raise {st en : Reg} {bits fn b : Nat} (hb : bits.testBit b = true) (h : b < 8 * st.info.size)
    (h8 : st.info.size ≤ 8) : (s.raise st en bits fn).bit st b fn = true := by
  have h64 : b < 64 := by omega
  rw [State.bit_eq_testBit, State.reg_raise_same]
  simp only [BitVec.toNat_ofNat, BitVec.toNat_or, Nat.testBit_mod_two_pow, Nat.testBit_or, h64, h, hb, decide_true,
    Bool.true_and, Bool.or_true]

/-! ### The doorbell latch -/

/-- A latch set reads as set, and that of every other function as it was. -/
theorem State.latchOf_setLatch {fn g : Nat} {v : Option W32} :
    (s.setLatch fn v).latchOf g = if g = fn then v else s.latchOf g := Cells.get_set _ _ _ _ _

@[simp] theorem State.latchOf_enter {k : Stamp} {g : Nat} : (s.enter k).latchOf g = s.latchOf g := rfl

@[simp] theorem State.fnLive_enter {k : Stamp} {fn : Nat} : (s.enter k).fnLive fn = s.fnLive fn := rfl

/-- An upper word with a full latch empties it and acts on both words. -/
theorem State.doorbellWrite_upper_full {fn : Nat} {l x : W32} (h : s.latchOf fn = some l) :
    s.doorbellWrite fn (.upper x) =
      (s.setLatch fn none).doorbellWrite fn (.whole (BitVec.ofNat 64 (l.toNat + x.toNat * 2 ^ 32))) := by
  simp only [State.doorbellWrite, h]

/-- An upper word with an empty latch is ignored. -/
theorem State.doorbellWrite_upper_empty {fn : Nat} {x : W32} (h : s.latchOf fn = none) :
    s.doorbellWrite fn (.upper x) = s.dbIgnored fn := by
  simp only [State.doorbellWrite, h]

/-- A doorbell that is ignored is counted for its function. -/
theorem State.num_dbIgnored {fn : Nat} :
    (s.dbIgnored fn).num .SRV_DB_IGNORED fn = (s.num .SRV_DB_IGNORED fn + 1) % 2 ^ 64 := by
  have hraise : Within (fieldSet [.out, .hif]) (regSet [.SRV_INT_STATUS]) (s.bumpSrv .SRV_DB_IGNORED 1 fn)
      (s.dbIgnored fn) := State.raise_within rfl rfl rfl (.refl _)
  rw [hraise.num rfl]
  exact State.num_bumpSrv rfl

/-- It is flagged. -/
theorem State.bit_dbIgnored {fn : Nat} : (s.dbIgnored fn).bit .SRV_INT_STATUS 1 fn = true :=
  State.bit_raise (by decide) (by decide) (by decide)

/-! ### The rows -/

variable {k : Stamp} {fn : FnId}

theorem exec_doorbellLowerWrite {w : W32} (h : s.fnLive fn.val = true) :
    exec (.doorbellLowerWrite k fn w) s = .next ((s.enter k).setLatch fn.val (some w)) := by
  change execDoorbellLowerWrite k fn w s = _
  simp only [execDoorbellLowerWrite, answer, State.fnLive_enter, h, State.when_true]

theorem exec_sqDoorbell {d : DoorbellWrite} (h : s.fnLive fn.val = true) :
    exec (.sqDoorbell k fn d) s = .next ((s.enter k).doorbellWrite fn.val d) := by
  change execSqDoorbell k fn d s = _
  simp only [execSqDoorbell, answer, State.fnLive_enter, h, State.when_true]

theorem exec_cqDoorbell {d : DoorbellWrite} (h : s.fnLive fn.val = true) :
    exec (.cqDoorbell k fn d) s = .next ((s.enter k).doorbellWrite fn.val d) := by
  change execCqDoorbell k fn d s = _
  simp only [execCqDoorbell, answer, State.fnLive_enter, h, State.when_true]

/-- Either doorbell row is the same write of the doorbell; the word decides which ring it names. -/
theorem exec_doorbell {d : DoorbellWrite} {c : Instr} (h : s.fnLive fn.val = true)
    (hc : c ∈ [Instr.sqDoorbell k fn d, .cqDoorbell k fn d]) :
    exec c s = .next ((s.enter k).doorbellWrite fn.val d) := by
  simp only [List.mem_cons, List.not_mem_nil, or_false] at hc
  obtain rfl | rfl := hc
  · exact exec_sqDoorbell h
  · exact exec_cqDoorbell h

/-- An upper word with a full latch is the row of both words from the state whose latch is empty. -/
theorem enter_doorbellWrite_upper_full {l x : W32} (h : s.latchOf fn.val = some l) :
    (s.enter k).doorbellWrite fn.val (.upper x) =
      ((s.setLatch fn.val none).enter k).doorbellWrite fn.val
        (.whole (BitVec.ofNat 64 (l.toNat + x.toNat * 2 ^ 32))) :=
  State.doorbellWrite_upper_full h

/-! ### The cases of R251 -/

/-- A lower word is stored in the latch of its function and has no other effect. -/
theorem gives_doorbellLowerWrite {w : W32} (h : s.fnLive fn.val = true) :
    Gives (.doorbellLowerWrite k fn w) s (fun u => u.latchOf fn.val = some w ∧
      (∀ g, g ≠ fn.val → u.latchOf g = s.latchOf g) ∧ SameBut [.out, .now, .srv] [] s u) := by
  refine ⟨_, exec_doorbellLowerWrite h, ?_, fun g hg => ?_, ?_⟩
  · rw [State.latchOf_setLatch, if_pos rfl]
  · rw [State.latchOf_setLatch, if_neg hg, State.latchOf_enter]
  · exact Touched.lists (exec_doorbellLowerWrite h) (execDoorbellLowerWrite_within rfl rfl)

/-- An upper word with an empty latch is ignored, counted and flagged. -/
theorem gives_doorbell_upper_empty {x : W32} {c : Instr} (h : s.fnLive fn.val = true) (hl : s.latchOf fn.val = none)
    (hc : c ∈ [Instr.sqDoorbell k fn (.upper x), .cqDoorbell k fn (.upper x)]) :
    Gives c s (fun u => u.num .SRV_DB_IGNORED fn.val = (s.num .SRV_DB_IGNORED fn.val + 1) % 2 ^ 64 ∧
      u.bit .SRV_INT_STATUS 1 fn.val = true ∧
      SameBut [.out, .now, .hif] [.SRV_DB_IGNORED, .SRV_INT_STATUS] s u) := by
  have hu : exec c s = .next ((s.enter k).dbIgnored fn.val) := by
    rw [exec_doorbell h hc, State.doorbellWrite_upper_empty (s := s.enter k) hl]
  have hw : Within (fieldSet [.out, .now, .hif]) (regSet [.SRV_DB_IGNORED, .SRV_INT_STATUS]) s
      ((s.enter k).dbIgnored fn.val) := State.dbIgnored_within rfl rfl (State.enter_within rfl (.refl s))
  exact ⟨_, hu, State.num_dbIgnored, State.bit_dbIgnored, hw.sameBut (Nat.and_self _) (Nat.and_self _)⟩

/-- Settles O16, by the cases of R251: a lower word; an upper word with a full latch, and with an empty one. -/
theorem doorbellLatch : Obligations.DoorbellLatch := by
  intro s k fn hlive
  refine ⟨fun w => gives_doorbellLowerWrite hlive, fun l x hl => ?_,
    fun x hl c hc => gives_doorbell_upper_empty hlive hl hc⟩
  have hlive' : (s.setLatch fn.val none).fnLive fn.val = true := hlive
  constructor
  · rw [exec_sqDoorbell hlive, exec_sqDoorbell hlive', enter_doorbellWrite_upper_full hl]
  · rw [exec_cqDoorbell hlive, exec_cqDoorbell hlive', enter_doorbellWrite_upper_full hl]

end Sys2Proof.Machine
end

