-- ==== Sys2Proof/Proofs/HeldWrites.lean ====
section
/-! SUPPORT. What a write does that finds its processor restarting, said once (R388, R389): how it reaches
`State.holdWrite`, and what that does once 256 writes are held; and the dropped write of the statements. -/

namespace Sys2Proof.Machine

open Sys2Proof.Safety

variable {s : State}

/-! ### Interrupts and counters -/

/-- A message, sent or pending, leaves the held writes. -/
@[simp] theorem State.held_sendMsix {fn v : Nat} : (s.sendMsix fn v).hif.held = s.hif.held := by
  simp only [State.sendMsix]
  split <;> rfl

/-- So does an interrupt raised, message or none. -/
@[simp] theorem State.held_raise {st en : Reg} {bits fn : Nat} : (s.raise st en bits fn).hif.held = s.hif.held := by
  simp only [State.raise]
  split
  · rw [State.setReg_hif]
  · rw [State.held_sendMsix, State.setReg_hif]

/-- An interrupt raised leaves every other register. -/
theorem State.num_raise_ne {st en q : Reg} {bits fn u i : Nat} (h : st ≠ q) :
    (s.raise st en bits fn).num q u i = s.num q u i := by
  unfold State.num
  simp only [State.raise]
  split
  · rw [State.reg_setReg_ne h]
  · rw [State.reg_sendMsix, State.reg_setReg_ne h]

/-- A saturating counter of four bytes stays at its greatest value (R392). -/
theorem State.num_bumpSat_same {r : Reg} {u : Nat} (h : r.info.size = 4) :
    (s.bumpSat r u).num r u = min 0xFFFFFFFF (s.num r u + 1) := by
  refine State.num_setNum_same ?_ ?_ <;> rw [h]
  · omega
  · decide

/-! ### The processor of a write -/

/-- Counting leaves the state of the device. -/
theorem State.devState_bump {r : Reg} {n u i : Nat} (h : r ≠ .HIF_DEV_STATE) :
    (s.bump r n u i).devState = s.devState := State.fld_setNum_ne h

theorem State.safe_bump {r : Reg} {n u i : Nat} (h : r ≠ .HIF_DEV_STATE) : (s.bump r n u i).safe = s.safe := by
  simp only [State.safe, State.powered, State.devState_bump h, State.bump_aon]

theorem State.starting_bump {r : Reg} {n u i : Nat} (h : r ≠ .HIF_DEV_STATE) :
    (s.bump r n u i).starting = s.starting := by
  simp only [State.starting, State.powered, State.devState_bump h, State.bump_aon]

/-- So it leaves which processor emulates a word. -/
theorem State.emulator_bump {r : Reg} {n u i fn off : Nat} (h : r ≠ .HIF_DEV_STATE) :
    (s.bump r n u i).emulator fn off = s.emulator fn off := by
  unfold State.emulator
  rw [State.safe_bump h, State.starting_bump h]
  rfl

@[simp] theorem State.restarting_bump {r : Reg} {n u i : Nat} {q : Proc} :
    (s.bump r n u i).restarting q = s.restarting q := rfl

/-! ### A write held or dropped -/

variable {fn : FnId} {off size : Nat} {v : W64} {p : HouseProc}

/-- An aligned write of BAR2 whose processor restarts is counted and goes to the held ones. -/
theorem State.hostWrite_restarting (hs : size = 4 ∨ size = 8) (ha : off % size = 0) (he : s.emulator fn.val off = p)
    (hr : s.restarting (procOf p) = true) :
    s.hostWrite fn 2 off size v = (s.bump .CNT_PCIE_BAR_WR size).holdWrite fn 2 off size v p := by
  have hal : (!(size == 4 || size == 8) || off % size != 0) = false := by
    rw [ha]
    obtain rfl | rfl := hs <;> rfl
  have hem : (s.bump .CNT_PCIE_BAR_WR size).emulator fn.val off = p := (State.emulator_bump (by decide)).trans he
  have hbusy : (s.bump .CNT_PCIE_BAR_WR size).emuBusy fn.val 2 off = true := by
    simp only [State.emuBusy, hem, State.restarting_bump, hr, beq_self_eq_true, Bool.and_self]
  have h2 : (2 : Fin 6).val = 2 := rfl
  simp only [State.hostWrite, h2, hal, hbusy, hem, beq_self_eq_true, Bool.or_true, if_true, Bool.false_eq_true,
    if_false]

/-- What is left of a dropped write: its count in HIF_EMU_DROPS, and EMU_DROP raised for its function (R389). -/
def State.dropWrite (s : State) (fn : Nat) : State :=
  (s.bumpSat .HIF_EMU_DROPS).raise .HIF_INT_STATUS .HIF_INT_ENABLE 2 fn

/-- With 256 writes held for the processor, the write is dropped. -/
theorem State.holdWrite_full {bar : Fin 6} (h : 256 ≤ (s.hif.held.filter (fun w => w.proc == p)).length) :
    s.holdWrite fn bar off size v p = s.dropWrite fn.val := if_pos (decide_eq_true h)

@[simp] theorem State.held_dropWrite {fn : Nat} : (s.dropWrite fn).hif.held = s.hif.held := by
  rw [State.dropWrite, State.held_raise, State.bumpSat_hif]

theorem State.num_dropWrite {fn : Nat} :
    (s.dropWrite fn).num .HIF_EMU_DROPS = min 0xFFFFFFFF (s.num .HIF_EMU_DROPS + 1) := by
  rw [State.dropWrite, State.num_raise_ne (by decide), State.num_bumpSat_same rfl]

theorem State.bit_dropWrite {fn : Nat} : (s.dropWrite fn).bit .HIF_INT_STATUS 1 fn = true :=
  State.bit_raise (by decide) (by decide) (by decide)

theorem State.dropWrite_within {F R fn : Nat} {z : State} (hF : F &&& fieldSet [.out, .hif] = fieldSet [.out, .hif])
    (hd : R.testBit Reg.HIF_EMU_DROPS.ctorIdx = true) (hi : R.testBit Reg.HIF_INT_STATUS.ctorIdx = true)
    (h : Within F R z s) : Within F R z (s.dropWrite fn) :=
  State.raise_within (sub hF rfl) (Nat.and_zero R) hi
    (State.bumpSat_within (Nat.and_zero F) (Nat.and_zero R) hd h)

/-! ### The row -/

theorem exec_registerWrite {k : Stamp} {bar : Fin 6} (h : s.fnLive fn.val = true) :
    exec (.registerWrite k fn bar off size v) s = .next ((s.enter k).hostWrite fn bar off size v) := by
  change execRegisterWrite k fn bar off size v s = _
  simp only [execRegisterWrite, answer, State.fnLive_enter, h, State.when_true]

/-- A write that finds its processor restarting with 256 writes held for it is counted and dropped. -/
theorem exec_registerWrite_full {k : Stamp} (hlive : s.fnLive fn.val = true) (hs : size = 4 ∨ size = 8)
    (ha : off % size = 0) (he : s.emulator fn.val off = p) (hr : s.restarting (procOf p) = true)
    (hf : 256 ≤ (s.hif.held.filter (fun w => w.proc == p)).length) :
    exec (.registerWrite k fn 2 off size v) s =
      .next (((s.enter k).bump .CNT_PCIE_BAR_WR size).dropWrite fn.val) := by
  rw [exec_registerWrite hlive, State.hostWrite_restarting (s := s.enter k) hs ha he hr]
  exact congrArg _ (State.holdWrite_full hf)

/-- Settles O59: the write reaches `State.holdWrite`, which finds 256 held and only counts and flags. -/
theorem droppedWrites : Obligations.DroppedWrites := by
  intro s k fn off size v p hlive hsize halign hemu hrest hfull
  have hw : Within (fieldSet [.out, .now, .hif]) (regSet [.HIF_EMU_DROPS, .HIF_INT_STATUS, .CNT_PCIE_BAR_WR]) s
      (((s.enter k).bump .CNT_PCIE_BAR_WR size).dropWrite fn.val) :=
    State.dropWrite_within rfl rfl rfl (State.bump_within rfl rfl rfl (State.enter_within rfl (.refl s)))
  refine ⟨_, exec_registerWrite_full hlive hsize halign hemu hrest hfull, ?_, ?_, State.bit_dropWrite,
    hw.sameBut (Nat.and_self _) (Nat.and_self _)⟩
  · rw [State.held_dropWrite, State.bump_hif, State.enter_hif]
  · have hdrops : ((s.enter k).bump .CNT_PCIE_BAR_WR size).num .HIF_EMU_DROPS = s.num .HIF_EMU_DROPS :=
      State.num_setNum_ne (by decide)
    rw [State.num_dropWrite, hdrops]

end Sys2Proof.Machine
end

