-- ==== Sys2Proof/Proofs/ReferenceDrift.lean ====
section
/-! SUPPORT. The reference scale and its drift, said once (R478, R479): what a scan leaves before channel 48 is judged,
what that judgement decides in each of its cases, and that of the commands between the edges only a reference calibration
writes HKA_REF_SCALE; and the drift of the statements. -/

namespace Sys2Proof.Machine

open Sys2Proof.Safety

variable {s : State}

/-- Every field of the state. -/
def everyField : Nat := 0x3fffffff

/-! ### The scale between the edges -/

/-- Every register but HKA_REF_SCALE. -/
def allButRefScale : Nat := 0x3ffffffffffffffffffeffffffffffffffffffffffffffffffffffffffffffffffffffffffffffffffffffffffffffffffffffffffffffffffff

/-- Of the commands that do not reach state of every kind, only a reference calibration writes the scale (R478).
The commands that have no case here are those that `outside` names. -/
theorem exec_touches_allButRefScale {c : Instr} (ho : outside c = false) (hc : ∀ k m, c ≠ .refCalDone k m) :
    Touched everyField allButRefScale s (exec c s) :=
  match c, ho with
  | .refCalDone k codes, _ => absurd rfl (hc k codes)
  | .vioCheck .., _ => execVioCheck_within rfl rfl
  | .vcoreCheck .., _ => execVcoreCheck_within rfl rfl
  | .powerSequenceRetry .., _ => execPowerSequenceRetry_within rfl rfl
  | .houseDieResetRelease .., _ => execHouseDieResetRelease_within rfl rfl
  | .identityDerived .., _ => execIdentityDerived_within rfl rfl
  | .romSelfTestDone .., _ => execRomSelfTestDone_within rfl rfl
  | .firmwareVerified .., _ => execFirmwareVerified_within rfl rfl
  | .firmwareStarted .., _ => execFirmwareStarted_within rfl rfl
  | .startRakeDone .., _ => execStartRakeDone_within rfl rfl
  | .perstDeassert .., _ => execPerstDeassert_within rfl rfl
  | .timerWake .., _ => execTimerWake_within rfl rfl
  | .linkPresenceWake .., _ => execLinkPresenceWake_within rfl rfl
  | .wakeIn .., _ => execWakeIn_within rfl rfl
  | .pmbAlert .., _ => execPmbAlert_within rfl rfl
  | .workPhaseStart .., _ => execWorkPhaseStart_within rfl rfl
  | .seal, _ => execSeal_within rfl rfl
  | .tideMarker .., _ => execTideMarker_within rfl rfl
  | .productIssue .., _ => execProductIssue_within rfl rfl
  | .passComplete .., _ => execPassComplete_within rfl rfl
  | .sluiceQReady .., _ => execSluiceQReady_within rfl rfl
  | .stage5Complete .., _ => execStage5Complete_within rfl rfl
  | .accSave .., _ => execAccSave_within rfl rfl
  | .accRestore .., _ => execAccRestore_within rfl rfl
  | .bedWriteStart .., _ => execBedWriteStart_within rfl rfl
  | .bedWriteComplete .., _ => execBedWriteComplete_within rfl rfl
  | .bedWriteAbort .., _ => execBedWriteAbort_within rfl rfl
  | .rakeStart .., _ => execRakeStart_within rfl rfl
  | .rakeComplete .., _ => execRakeComplete_within rfl rfl
  | .rakeAbort .., _ => execRakeAbort_within rfl rfl
  | .shardReadDone .., _ => execShardReadDone_within rfl rfl
  | .hostTierReadDone .., _ => execHostTierReadDone_within rfl rfl
  | .broadcastAnnounce .., _ => execBroadcastAnnounce_within rfl rfl
  | .bcastAnnouncement .., _ => execBcastAnnouncement_within rfl rfl
  | .bcastDataReceived .., _ => execBcastDataReceived_within rfl rfl
  | .bcastEnd .., _ => execBcastEnd_within rfl rfl
  | .bcastAbort .., _ => execBcastAbort_within rfl rfl
  | .bcastSilence .., _ => execBcastSilence_within rfl rfl
  | .recvWaitExpiry .., _ => execRecvWaitExpiry_within rfl rfl
  | .shardRequestWaitExpiry .., _ => execShardRequestWaitExpiry_within rfl rfl
  | .shardTimeout .., _ => execShardTimeout_within rfl rfl
  | .shardReqReceived .., _ => execShardReqReceived_within rfl rfl
  | .shardRespReceived .., _ => execShardRespReceived_within rfl rfl
  | .holdExpiry .., _ => execHoldExpiry_within rfl rfl
  | .doorbellLowerWrite .., _ => execDoorbellLowerWrite_within rfl rfl
  | .sqDoorbell .., _ => execSqDoorbell_within rfl rfl
  | .cqDoorbell .., _ => execCqDoorbell_within rfl rfl
  | .openSession .., _ => execOpenSession_within rfl rfl
  | .audioIn .., _ => execAudioIn_within rfl rfl
  | .textIn .., _ => execTextIn_within rfl rfl
  | .prompt .., _ => execPrompt_within rfl rfl
  | .generate .., _ => execGenerate_within rfl rfl
  | .cancel .., _ => execCancel_within rfl rfl
  | .close .., _ => execClose_within rfl rfl
  | .setAdapter .., _ => execSetAdapter_within rfl rfl
  | .setSampling .., _ => execSetSampling_within rfl rfl
  | .createQp .., _ => execCreateQp_within rfl rfl
  | .deleteQp .., _ => execDeleteQp_within rfl rfl
  | .setRefMode .., _ => execSetRefMode_within rfl rfl
  | .querySession .., _ => execQuerySession_within rfl rfl
  | .stepStart .., _ => execStepStart_within rfl rfl
  | .stepComplete .., _ => execStepComplete_within rfl rfl
  | .planLoadDone .., _ => execPlanLoadDone_within rfl rfl
  | .syncLoad .., _ => execSyncLoad_within rfl rfl
  | .syncStore .., _ => execSyncStore_within rfl rfl
  | .syncAdd .., _ => execSyncAdd_within rfl rfl
  | .syncCas .., _ => execSyncCas_within rfl rfl
  | .syncWait .., _ => execSyncWait_within rfl rfl
  | .fenceLocal .., _ => execFenceLocal_within rfl rfl
  | .fenceDevice .., _ => execFenceDevice_within rfl rfl
  | .fenceFabric .., _ => execFenceFabric_within rfl rfl
  | .fenceComplete .., _ => execFenceComplete_within rfl rfl
  | .hoistTransferStart .., _ => execHoistTransferStart_within rfl rfl
  | .hoistTransferComplete .., _ => execHoistTransferComplete_within rfl rfl
  | .poolHostStore .., _ => execPoolHostStore_within rfl rfl
  | .poolHostAdd .., _ => execPoolHostAdd_within rfl rfl
  | .fabricWrite .., _ => execFabricWrite_within rfl rfl
  | .fabricReduceAdd .., _ => execFabricReduceAdd_within rfl rfl
  | .presenceProbe .., _ => execPresenceProbe_within rfl rfl
  | .detectDebounceEnd .., _ => execDetectDebounceEnd_within rfl rfl
  | .presenceLoss .., _ => execPresenceLoss_within rfl rfl
  | .trainComplete .., _ => execTrainComplete_within rfl rfl
  | .trainTimeout .., _ => execTrainTimeout_within rfl rfl
  | .helloReceived .., _ => execHelloReceived_within rfl rfl
  | .helloTimeout .., _ => execHelloTimeout_within rfl rfl
  | .linkCtrlReceived .., _ => execLinkCtrlReceived_within rfl rfl
  | .linkSilence .., _ => execLinkSilence_within rfl rfl
  | .linkAckTimer .., _ => execLinkAckTimer_within rfl rfl
  | .lsuReceived .., _ => execLsuReceived_within rfl rfl
  | .delayExchange .., _ => execDelayExchange_within rfl rfl
  | .delayReceived .., _ => execDelayReceived_within rfl rfl
  | .syncReqReceived .., _ => execSyncReqReceived_within rfl rfl
  | .syncRespReceived .., _ => execSyncRespReceived_within rfl rfl
  | .writeReceived .., _ => execWriteReceived_within rfl rfl
  | .reduceAddReceived .., _ => execReduceAddReceived_within rfl rfl
  | .ackReceived .., _ => execAckReceived_within rfl rfl
  | .opTimeout .., _ => execOpTimeout_within rfl rfl
  | .dmaError .., _ => execDmaError_within rfl rfl
  | .poisonedWrite .., _ => execPoisonedWrite_within rfl rfl
  | .ideCheckFail .., _ => execIdeCheckFail_within rfl rfl
  | .ideKm .., _ => execIdeKm_within rfl rfl
  | .getVersion .., _ => execGetVersion_within rfl rfl
  | .getCapabilities .., _ => execGetCapabilities_within rfl rfl
  | .negotiateAlgorithms .., _ => execNegotiateAlgorithms_within rfl rfl
  | .getDigests .., _ => execGetDigests_within rfl rfl
  | .getCertificate .., _ => execGetCertificate_within rfl rfl
  | .challenge .., _ => execChallenge_within rfl rfl
  | .getMeasurements .., _ => execGetMeasurements_within rfl rfl
  | .keyExchange .., _ => execKeyExchange_within rfl rfl
  | .finish .., _ => execFinish_within rfl rfl
  | .heartbeat .., _ => execHeartbeat_within rfl rfl
  | .keyUpdate .., _ => execKeyUpdate_within rfl rfl
  | .endSession .., _ => execEndSession_within rfl rfl
  | .horId .., _ => execHorId_within rfl rfl
  | .horState .., _ => execHorState_within rfl rfl
  | .horTemp .., _ => execHorTemp_within rfl rfl
  | .horPower .., _ => execHorPower_within rfl rfl
  | .horFaults .., _ => execHorFaults_within rfl rfl
  | .horCperRead .., _ => execHorCperRead_within rfl rfl
  | .horLimits .., _ => execHorLimits_within rfl rfl
  | .watchdogExpiry .., _ => execWatchdogExpiry_within rfl rfl
  | .fwFlash .., _ => execFwFlash_within rfl rfl
  | .flashWriteDone .., _ => execFlashWriteDone_within rfl rfl
  | .selfTest .., _ => execSelfTest_within rfl rfl
  | .retireFailed .., _ => execRetireFailed_within rfl rfl
  | .restartDevice .., _ => execRestartDevice_within rfl rfl
  | .gradeVerdict .., _ => execGradeVerdict_within rfl rfl
  | .sweepRun .., _ => execSweepRun_within rfl rfl
  | .sweepVerdict .., _ => execSweepVerdict_within rfl rfl
  | .configScrub .., _ => execConfigScrub_within rfl rfl
  | .memoryError .., _ => execMemoryError_within rfl rfl
  | .uncontainedFault .., _ => execUncontainedFault_within rfl rfl
  | .hbmSelfRefreshExit .., _ => execHbmSelfRefreshExit_within rfl rfl
  | .powerExitComplete .., _ => execPowerExitComplete_within rfl rfl
  | .brakeEvaluation .., _ => execBrakeEvaluation_within rfl rfl
  | .hkaConversion .., _ => execHkaConversion_within rfl rfl
  | .hkaScanComplete .., _ => execHkaScanComplete_within rfl rfl
  | .thermalDwellEnd .., _ => execThermalDwellEnd_within rfl rfl
  | .selfCalDone .., _ => execSelfCalDone_within rfl rfl
  | .eventRecordArrival .., _ => execEventRecordArrival_within rfl rfl
  | .wfgWriteDone .., _ => execWfgWriteDone_within rfl rfl
  | .startupPublish .., _ => execStartupPublish_within rfl rfl
  | .registerRead .., _ => execRegisterRead_within rfl rfl
  | .packetCrcFail .., _ => execPacketCrcFail_within rfl rfl
  | .reservedTypePacket .., _ => execReservedTypePacket_within rfl rfl
  | .transitPacket .., _ => execTransitPacket_within rfl rfl
  | .doeDiscovery .., _ => execDoeDiscovery_within rfl rfl
  | .unknownOpcode .., _ => execUnknownOpcode_within rfl rfl
  | .horUnknown .., _ => execHorUnknown_within rfl rfl

/-- So the scale reads the same after it. -/
theorem num_refScale_of_exec {c : Instr} {u : State} (ho : outside c = false) (hc : ∀ k m, c ≠ .refCalDone k m)
    (h : exec c s = .next u) : u.num .HKA_REF_SCALE = s.num .HKA_REF_SCALE :=
  (exec_touches_allButRefScale ho hc u h).num rfl

/-! ### The count of scans through what a scan decides first -/

@[simp] theorem State.pwr_raise {st en : Reg} {bits fn : Nat} : (s.raise st en bits fn).pwr = s.pwr :=
  (State.raise_within (F := fieldSet [.out, .hif]) (R := allRegs) rfl (Nat.and_zero _) (allRegs_testBit st) (.refl s)).1
    .pwr rfl

@[simp] theorem State.pwr_sealWork : s.sealWork.pwr = s.pwr :=
  (State.sealWork_within (F := fieldSet [.tide, .pans]) (R := allRegs) rfl rfl (.refl s)).1 .pwr rfl

@[simp] theorem State.pwr_setDevState {d : Nat} : (s.setDevState d).pwr = s.pwr :=
  (State.setDevState_within (F := fieldSet [.out, .hif, .evt]) (R := allRegs) rfl rfl (.refl s)).1 .pwr rfl

/-- An uncontained fault leaves the power block's state. -/
@[simp] theorem State.pwr_uncontained {code src k detail} : (s.uncontained code src k detail).pwr = s.pwr :=
  (State.uncontained_within (F := 0x16a9c682) (R := allRegs) rfl rfl (.refl s)).1 .pwr rfl

theorem State.refScans_when {b : Bool} {f : State → State} (h : (f s).pwr.refScans = s.pwr.refScans) :
    (s.when b f).pwr.refScans = s.pwr.refScans := by
  cases b
  · rfl
  · exact h

theorem State.refScans_orderlyStop {v : Int} {c : Nat} : (s.orderlyStop v c).pwr.refScans = s.pwr.refScans := by
  unfold State.orderlyStop
  split
  · rfl
  · simp

theorem State.refScans_judgeWarn {v : Int} {c : Nat} : (s.judgeWarn v c).pwr.refScans = s.pwr.refScans := by
  simp only [State.judgeWarn]
  refine (State.refScans_when (by simp)).trans ((State.refScans_when (by simp)).trans ?_)
  simp

theorem State.refScans_judgeThrottle {v : Int} : (s.judgeThrottle v).pwr.refScans = s.pwr.refScans := by
  simp only [State.judgeThrottle]
  refine (State.refScans_when (by simp)).trans ((State.refScans_when (by simp)).trans ?_)
  simp

theorem State.refScans_judgeThermal : s.judgeThermal.pwr.refScans = s.pwr.refScans := by
  unfold State.judgeThermal
  split
  · rfl
  · refine (State.refScans_when State.refScans_orderlyStop).trans ?_
    rw [State.refScans_judgeThrottle, State.refScans_judgeWarn, State.setNum_pwr]

theorem State.refScans_judgeRails : s.judgeRails.pwr.refScans = s.pwr.refScans :=
  State.refScans_when (congrArg Power.refScans State.pwr_uncontained)

/-! ### A scan before channel 48 is judged -/

/-- What a scan decides before it judges channel 48 (R469, R474, R509): the thermal conditions and the rails. -/
def State.scanned (s : State) : State :=
  let t := (({ s with pwr.scanDue := false } : State).bump .HKA_SCANS).sampleCore.judgeThermal
  t.when (t.ready || t.safe) State.judgeRails

/-- A scan of a live power block is that, and the judgement of channel 48. -/
theorem exec_hkaScanComplete {k : Stamp} (hd : s.pwr.scanDue = true) (hl : s.pwrLive = true) :
    exec (.hkaScanComplete k) s = .next (s.enter k).scanned.judgeRefin := by
  change execHkaScanComplete k s = _
  have hd' : (s.enter k).pwr.scanDue = true := hd
  have hl' : (({ s.enter k with pwr.scanDue := false } : State).bump .HKA_SCANS).pwrLive = true := hl
  simp only [execHkaScanComplete, answer, hd', hl', Bool.not_true, Bool.false_eq_true, if_false]
  rfl

theorem State.refScans_scanned : s.scanned.pwr.refScans = s.pwr.refScans := by
  refine (State.refScans_when State.refScans_judgeRails).trans ?_
  rw [State.refScans_judgeThermal]
  rfl

theorem State.scanned_within : Within everyField (regSet [.HKA_SCANS, .PAN_WRITE_ABORTS, .HIF_DEV_STATE, .HIF_INT_STATUS,
    .THM_STATUS, .THM_INT_STATUS, .THM_HOTTEST, .THM_WARN_EVENTS, .WGT_LOAD_CTRL, .WGT_LOAD_STATUS, .SRV_INT_STATUS,
    .FWP_STATUS, .FWP_INT_STATUS, .BBX_INT_STATUS]) s s.scanned :=
  State.when_within rfl rfl
    (State.judgeThermal_within rfl rfl (State.sampleCore_within rfl rfl (State.bump_within rfl rfl rfl
      (.pwr (.refl s) rfl))))
    (State.judgeRails_within rfl rfl)

/-! ### The judgement of channel 48 -/

/-- REFIN departs from 1,250,000 µV by more than 0.5 % (R479). -/
def State.refinFar (s : State) : Prop := s.hkaRead 48 < 1243750 ∨ 1256250 < s.hkaRead 48

/-- The model's own form of that. -/
theorem State.refinFar_iff :
    6250 < ((BitVec.ofNat 32 (s.num .HKA_VALUE 0 48)).toInt - 1250000).natAbs ↔ s.refinFar := by
  unfold State.refinFar State.hkaRead
  omega

/-- While CALIBRATED reads 0 nothing is counted. -/
theorem State.judgeRefin_uncalibrated (hc : s.bit .HKA_STATUS 1 = false) :
    s.judgeRefin = { s with pwr.refScans := 0 } := by
  simp only [State.judgeRefin, hc, Bool.not_false, if_true]

/-- A reading within 0.5 % starts the count again. -/
theorem State.judgeRefin_near (hc : s.bit .HKA_STATUS 1 = true) (hf : ¬ s.refinFar) :
    s.judgeRefin = { s with pwr.refScans := 0 } := by
  simp [State.judgeRefin, hc, State.refinFar_iff, hf]

/-- One outside it counts. -/
theorem State.judgeRefin_far (hc : s.bit .HKA_STATUS 1 = true) (hf : s.refinFar) (hn : s.pwr.refScans < 255) :
    s.judgeRefin = { s with pwr.refScans := s.pwr.refScans + 1 } := by
  have hn' : s.pwr.refScans + 1 < 256 := by omega
  simp [State.judgeRefin, hc, State.refinFar_iff, hf, hn']

/-- What the 256th in a row does: CALIBRATED is cleared in its three places, REFIN_DRIFT set, raised and recorded. -/
def State.refinDrift (s : State) : State :=
  (((({ s with pwr.refScans := 0 } : State).setCalibrated 0).setF .HKA_STATUS 3 1 1).raise .HKA_INT_STATUS .HKA_INT_ENABLE 4).event
    0x0F05 2 (int32Nat (s.hkaRead 48)) 1

theorem State.judgeRefin_drift (hc : s.bit .HKA_STATUS 1 = true) (hf : s.refinFar) (hn : 255 ≤ s.pwr.refScans) :
    s.judgeRefin = s.refinDrift := by
  have hn' : ¬ s.pwr.refScans + 1 < 256 := by omega
  simp [State.judgeRefin, hc, State.refinFar_iff, hf, hn', State.refinDrift, State.hkaRead]

/-! ### CALIBRATED cleared -/

theorem State.bit_setF_ne {r q : Reg} {lo w x u i b u' i' : Nat} (h : r ≠ q) :
    (s.setF r lo w x u i).bit q b u' i' = s.bit q b u' i' := by
  unfold State.bit
  rw [State.fld_setF_ne h]

/-- CALIBRATED reads 0 in its three places once cleared. -/
theorem State.setCalibrated_zero : (s.setCalibrated 0).bit .HKA_STATUS 1 = false ∧
    (s.setCalibrated 0).bit .PWR_STATUS 16 = false ∧ (s.setCalibrated 0).bit .THM_STATUS 11 = false := by
  unfold State.setCalibrated
  refine ⟨?_, ?_, State.bit_setF_same (by decide) (by decide)⟩
  · rw [State.bit_setF_ne (by decide), State.bit_setF_ne (by decide)]
    exact State.bit_setF_same (by decide) (by decide)
  · rw [State.bit_setF_ne (by decide)]
    exact State.bit_setF_same (by decide) (by decide)

/-- REFIN_DRIFT leaves CALIBRATED cleared. -/
theorem State.refinDrift_uncalibrated : s.refinDrift.bit .HKA_STATUS 1 = false ∧
    s.refinDrift.bit .PWR_STATUS 16 = false ∧ s.refinDrift.bit .THM_STATUS 11 = false := by
  obtain ⟨hhka, hpwr, hthm⟩ := State.setCalibrated_zero (s := { s with pwr.refScans := 0 })
  have hw : Within (fieldSet [.out, .hif, .evt]) (regSet [.HKA_INT_STATUS])
      (({ s with pwr.refScans := 0 } : State).setCalibrated 0 |>.setF .HKA_STATUS 3 1 1) s.refinDrift :=
    State.event_within rfl rfl (State.raise_within rfl rfl rfl (.refl _))
  refine ⟨?_, ?_, ?_⟩
  · rw [State.bit, hw.fld rfl, State.fld_setF_apart (.inr (by decide)) (by decide) (by decide) (by decide)]
    exact hhka
  · rw [State.bit, hw.fld rfl, State.fld_setF_ne (by decide)]
    exact hpwr
  · rw [State.bit, hw.fld rfl, State.fld_setF_ne (by decide)]
    exact hthm

theorem State.bit_refinDrift : s.refinDrift.bit .HKA_INT_STATUS 2 = true :=
  State.bit_raise (by decide) (by decide) (by decide)

theorem State.refScans_refinDrift : s.refinDrift.pwr.refScans = 0 := by
  simp [State.refinDrift, State.setCalibrated]

/-! ### The scan -/

/-- What a scan judges of channel 48 is what it found. -/
theorem State.hkaRead_scanned : s.scanned.hkaRead 48 = s.hkaRead 48 := by
  unfold State.hkaRead
  rw [State.scanned_within.num rfl]

theorem State.bit_calibrated_scanned : s.scanned.bit .HKA_STATUS 1 = s.bit .HKA_STATUS 1 := by
  unfold State.bit
  rw [State.scanned_within.fld rfl]

theorem State.refinFar_scanned : s.scanned.refinFar ↔ s.refinFar := by
  unfold State.refinFar
  rw [State.hkaRead_scanned]

variable {k : Stamp}

/-- Whatever a scan decides, the scale stays. -/
theorem gives_hkaScanComplete {p : State → Prop} (hd : s.pwr.scanDue = true) (hl : s.pwrLive = true)
    (hp : p (s.enter k).scanned.judgeRefin) :
    Gives (.hkaScanComplete k) s (fun u => u.num .HKA_REF_SCALE = s.num .HKA_REF_SCALE ∧ p u) :=
  have he := exec_hkaScanComplete hd hl
  ⟨_, he, num_refScale_of_exec rfl (fun _ _ => Instr.noConfusion) he, hp⟩

/-- Settles O60: a scan by the cases of `State.judgeRefin`, the other commands by the registers each may change. -/
theorem referenceDrift : Obligations.ReferenceDrift := by
  refine ⟨fun s k v hd hl hv => ⟨fun far hfar hcal => ?_, fun hcal => ?_⟩,
    fun _ _ _ ho hc => num_refScale_of_exec ho hc⟩
  · have hc : (s.enter k).scanned.bit .HKA_STATUS 1 = true := State.bit_calibrated_scanned.trans hcal
    have hn : (s.enter k).scanned.pwr.refScans = s.pwr.refScans := State.refScans_scanned
    have hf : (s.enter k).scanned.refinFar ↔ far = true := by
      subst hv
      exact State.refinFar_scanned.trans hfar.symm
    refine gives_hkaScanComplete hd hl ⟨fun hout hge => ?_, fun hout hlt => ?_, fun hnear => ?_⟩
    · rw [State.judgeRefin_drift hc (hf.mpr hout) (hn ▸ hge)]
      obtain ⟨hhka, hpwr, hthm⟩ := State.refinDrift_uncalibrated (s := (s.enter k).scanned)
      exact ⟨hhka, hpwr, hthm, State.bit_refinDrift, State.refScans_refinDrift⟩
    · rw [State.judgeRefin_far hc (hf.mpr hout) (hn ▸ hlt)]
      exact ⟨hc, congrArg (· + 1) hn⟩
    · rw [State.judgeRefin_near hc (fun h => absurd (hf.mp h) (by simp [hnear]))]
      exact ⟨hc, rfl⟩
  · have hc : (s.enter k).scanned.bit .HKA_STATUS 1 = false := State.bit_calibrated_scanned.trans hcal
    obtain ⟨u, he, hscale, hu⟩ := gives_hkaScanComplete
      (p := fun u => u.bit .HKA_STATUS 1 = false ∧ u.pwr.refScans = 0) (k := k) hd hl
      (by rw [State.judgeRefin_uncalibrated hc]; exact ⟨hc, rfl⟩)
    exact ⟨u, he, hu.1, hscale, hu.2⟩

end Sys2Proof.Machine
end
